-- ==== Sys2Proof/Word.lean ====
section
/-!
DEFINITION. The plainest types of the model: bytes, words, byte strings and sparse tables.
-/

namespace Sys2Proof

/-- A byte: 8 bits (chapter 00). -/
abbrev Byte := BitVec 8

/-- A 32-bit register value. -/
abbrev W32 := BitVec 32

/-- A word: 8 bytes, or a 64-bit register value (chapter 00). -/
abbrev W64 := BitVec 64

/-- A byte string, byte offset 0 first (R6). -/
abbrev Bytes := List Byte

/-- One 64 B record of a submission ring, as its little-endian value (R6). -/
abbrev Rec64 := BitVec 512

/-- A sparse table: pairs of an index and an entry, indices strictly rising, no entry equal to the
entry of an index that is not listed (its type's default). Its operations are in Machine/Tab.lean. -/
abbrev Tab (α : Type) := List (Nat × α)

end Sys2Proof
end

