-- ==== Sys2Proof/Syntax.lean ====
section
/-!
DEFINITION. The commands of the block: one constructor of `Instr` per row of spec/opcode_table.json, and the
types of what a command carries (register accesses, Beam packets, fabric headers, sources).
-/

namespace Sys2Proof

/-- Who makes a register access (R355, R372, R401): the AXI5 target with AxPROT[0], management firmware, or the debug
interface. -/
inductive Port where
  | axi (priv : Bool)
  | mgt
  | dbg
  deriving DecidableEq, Repr, Inhabited

/-- One beat of a register access (R393, R394): byte offset in the register space, data and byte strobes of the
64-bit bus word that holds it. -/
structure Access where
  port : Port
  addr : BitVec 26
  write : Bool
  data : W64
  strb : BitVec 8
  deriving DecidableEq, Repr, Inhabited

/-- A completion record (chapter 02, 32 B). -/
structure CplRec where
  status : Nat
  opcode : Nat
  queue : Nat
  tag : Nat
  sqIndex : Nat
  detail : Nat
  ts : W64
  node : Nat
  phase : Bool
  spilled : Bool
  deriving DecidableEq, Repr, Inhabited

/-- RESULT of a retirement report (R82). -/
inductive RetResult where
  | done | peerClosed | halted | reserved
  deriving DecidableEq, Repr, Inhabited

/-- The four occupancy resources of a core (R99): register rows, local memory bytes, group slots, block slots. -/
structure Res where
  regs : Nat
  lmem : Nat
  groups : Nat
  blocks : Nat
  deriving DecidableEq, Repr, Inhabited

/-- An occupancy return or capacity report (R99); `part` and `rknFree` belong to a return. -/
structure OccPkt where
  core : Nat
  rknFree : Bool
  part : Nat
  res : Res
  deriving DecidableEq, Repr, Inhabited

/-- A launch flit (R105). -/
structure Launch where
  cls : Nat
  retTo : Bool
  pinned : Bool
  part : Nat
  node : Nat
  gen : BitVec 16
  firstBlock : Nat
  arg : W64
  kdesc : Nat
  regs : Nat
  groups : Nat
  lmem : Nat
  blocks : Nat
  coreBlocks : List Nat
  params : BitVec 512
  deriving DecidableEq, Repr, Inhabited

/-- A source of remote operations (R267): block, agent, and unit (0–15 core, 16 Reckoner, 31 Hub unit), with its
partition, and the node, generation and thread group that the agent adds (R196, R201). -/
structure Src where
  block : Nat
  agent : Nat
  unit : Nat
  part : Nat
  node : Nat
  gen : BitVec 16
  group : Nat
  deriving DecidableEq, Repr, Inhabited

/-- An operation header of the fabric (R267), with the bytes of its DATA flits. -/
structure FabHdr where
  op : Nat
  final : Bool
  scope : Nat
  ord : Bool
  srcPart : Nat
  aop : Nat
  dstBlock : Nat
  hops : Nat
  srcBlock : Nat
  srcAgent : Nat
  srcUnit : Nat
  loc : Nat
  data : W64
  cmp : W64
  hallTag : Nat
  txn : Nat
  dcrc : W32
  mask : W32
  payload : Bytes
  deriving DecidableEq, Repr, Inhabited

/-- A tensor operand that a request carries: its descriptor fields and its cursor (R131, R135). SPACE is 0 local memory
of the physical core `core`, 1 Slate, 2 hall, 3 host. -/
structure Tile where
  fmt : Nat
  space : Nat
  core : Nat
  base : W64
  stride : Nat
  rows : Nat
  cols : Nat
  deriving DecidableEq, Repr, Inhabited

/-- A ROUTE as it reaches RTE (R172, R223): `data` holds slot 0's bytes in packed order where the tile lies outside the
Slate. -/
structure RouteReq where
  agent : Nat
  req : Nat
  part : Nat
  node : Nat
  entry : Nat
  first : Nat
  tile : Tile
  list : Tile
  data : Bytes
  deriving DecidableEq, Repr, Inhabited

/-- A CADD as it reaches CMB (R172, R238); the bytes are those of tiles outside the Slate. -/
structure CaddReq where
  agent : Nat
  req : Nat
  part : Nat
  group : Nat
  tile : Tile
  tok : Tile
  wt : Option Tile
  data : Bytes
  tokData : Bytes
  wtData : Bytes
  deriving DecidableEq, Repr, Inhabited

/-- A lane of a group atomic (R199). -/
structure Lane where
  active : Bool
  addr : W64
  opnd : W64
  cmp : W64
  deriving DecidableEq, Repr, Inhabited

/-- An OP message of the Agent Port (R407): `flits` is its FLITS field, `reserved` says that a reserved field is not zero,
`credit` that the flit came with a credit. -/
structure OpMsg where
  core : Nat
  tag : Nat
  op : Nat
  final : Bool
  scope : Nat
  ord : Bool
  aop : Nat
  size8 : Bool
  group : Nat
  btag : Nat
  addr : W64
  data : W64
  cmp : W64
  mask : W32
  payload : Bytes
  lanes : List Lane
  flits : Nat
  reserved : Bool
  credit : Bool
  deriving DecidableEq, Repr, Inhabited

/-- Where a Slate request goes (R246–R248): an offset of a partition's data region, a node, a cell, or a Slate address of
SYSTEM, ROUTER or LINK. -/
inductive SlateLoc where
  | data (part off : Nat)
  | node (n : Nat)
  | cell (k : Nat)
  | system (addr : Nat)
  deriving DecidableEq, Repr, Inhabited

/-- What a vault controller meets when it reads a block (R252): the corrected single-bit errors of the read that passed,
each as bond-lane group and bit position, and how many of the reads fail, of at most three. -/
structure ReadErrs where
  ces : List (Nat × Nat)
  fails : Nat
  deriving DecidableEq, Repr, Inhabited

/-- Where a management message comes from (R357): the host mailbox, or the management port, with its MCTP message type and
its bytes. -/
inductive MgtIn where
  | mailbox
  | i3c (type : Nat) (data : Bytes)
  deriving DecidableEq, Repr, Inhabited

/-- Events of a millisecond that carry energy (R366). -/
structure EnergyEv where
  slate : Nat
  beam : Nat
  rte : Nat
  cmb : Nat
  fab : Nat
  rkn : Nat
  deriving DecidableEq, Repr, Inhabited

/-- What SLATE_BIST reports of a physical vault (R402). -/
structure BistRes where
  pass : Bool
  lanes : Nat
  rows : Nat
  deriving DecidableEq, Repr, Inhabited

/-- What ends with the last of its CHI requests (R171, R423): a command of a queue, with the data that its reads returned and
the offsets of the lines that received an error response, or an INVAL of an agent's Reckoner. -/
inductive HostReq where
  | command (q seq : Nat) (data : Bytes) (errs : List Nat)
  | inval (agent id : Nat)
  deriving DecidableEq, Repr, Inhabited

/-- A CHI request that a RetryAck has turned away (R395): the i-th completion write in flight, a host-word request of an
agent, the 64 B line at byte `off` of a command's range, or the ring read of a queue. -/
inductive Retried where
  | record (i : Nat)
  | word (agent req : Nat)
  | line (q seq off : Nat)
  | ring (q : Nat)
  deriving DecidableEq, Repr, Inhabited

/-- Where a final write is held (R274): in FAB's sequence table, by source and destination block; in an agent, for a core;
or in an agent, as request `id` of its Reckoner. -/
inductive FinalWrite where
  | fab (srcAgent srcUnit srcPart dst : Nat)
  | core (agent core : Nat)
  | rkn (agent id : Nat)
  deriving DecidableEq, Repr, Inhabited

/-- What a lane of a fabric port reports: the errors that it met within 1 ms (R292). -/
structure LaneErrs where
  lane : Nat
  errs : Nat
  deriving DecidableEq, Repr, Inhabited

/-- The commands, one for each row of spec/opcode_table.json. An operand is what the command brings with it: the access, the
packet or the message, or the outcome of what happens outside the block. -/
inductive Instr where
  /-- REGISTER_WRITE: a register access that no other command names: a read, or a write under the fields' access
  rules (R11, R13, R394). -/
  | registerWrite (x : Access)
  /-- COUNTER_WRITE: a write of a counter: the strobed bytes take the written value (R371). -/
  | counterWrite (x : Access)
  /-- UNMAPPED_ACCESS: an access to no register: OKAY, zero, counted (R12). -/
  | unmappedAccess (x : Access)
  /-- UNPRIV_ACCESS: an unprivileged access to a unit or agent window (R372). -/
  | unprivAccess (x : Access)
  /-- AXI_ATOMIC_WRITE: a write with AWATOP not zero: SLVERR, counted, and nothing performed (R394). -/
  | axiAtomicWrite (x : Access)
  /-- PRE_READY_ACCESS: an access before Ready (R324). -/
  | preReadyAccess (x : Access)
  /-- DB_SQ_TAIL: a write of DB_SQ_TAIL: the tail latch and PEND (R34, R35, R325). -/
  | dbSqTail (x : Access)
  /-- DB_CQ_HEAD: a write of DB_CQ_HEAD (R34, R325). -/
  | dbCqHead (x : Access)
  /-- FETCH_TURN: CFE grants a turn (R37–R39). -/
  | fetchTurn
  /-- RING_RECORD_ARRIVES: the records from the head of queue `q` reach CFE (R31, R33, R36, R42, R59). -/
  | ringRecordArrives (q : Nat) (recs : List Rec64)
  /-- RING_READ_ERROR: a ring read of queue `q` receives an error response (R44). -/
  | ringReadError (q : Nat)
  /-- FETCHER_IDLE: the fetcher finds no further command covered (R36). -/
  | fetcherIdle (q : Nat)
  /-- FETCHER_RESUME: PEND is found set in IDLE (R36). -/
  | fetcherResume (q : Nat)
  /-- PAD: a PAD record `r` at the head of queue `q` (R32). -/
  | pad (q : Nat) (r : Rec64)
  /-- NOP: the NOP at the front of queue `q` completes (R41, R42). -/
  | nop (q : Nat)
  /-- FENCE: the FENCE at the front of queue `q` (R61). -/
  | fence (q : Nat)
  /-- FENCE_CLEAR: the waiting FENCE of queue `q` is satisfied (R61). -/
  | fenceClear (q : Nat)
  /-- GRAPH_LOAD: GRAPH_LOAD: the range is taken and the image read (R71, R396). -/
  | graphLoad (q : Nat)
  /-- GRAPH_IMAGE_ARRIVES: image bytes of the load of command `seq` of queue `q` arrive (R71). -/
  | graphImageArrives (q seq : Nat) (data : Bytes)
  /-- GRAPH_LOAD_COMPLETE: the last record is stored and the image is checked (R70, R71). -/
  | graphLoadComplete (q seq : Nat)
  /-- GRAPH_LAUNCH: GRAPH_LAUNCH (R59, R72, R80). -/
  | graphLaunch (q : Nat)
  /-- LAUNCH_SLOTS_FREE: the completion slots that a launch of queue `q` waits for are free (R59). -/
  | launchSlotsFree (q : Nat)
  /-- GRAPH_ACTIVATE: the LOADED graph at `h` activates (R73). -/
  | graphActivate (h : Nat) (arg : W64) (q sqIdx : Nat) (internal : Bool)
  /-- SWEEP_COMPLETE: the sweep of graph `h` ends (R73). -/
  | sweepComplete (h : Nat)
  /-- LAUNCH_END: the launch of graph `h` ends (R76, R116). -/
  | launchEnd (h : Nat)
  /-- TASK_SUBMIT: TASK_SUBMIT (R77). -/
  | taskSubmit (q : Nat)
  /-- SIGNAL: SIGNAL (R78). -/
  | signal (q : Nat)
  /-- GRAPH_RELEASE: GRAPH_RELEASE (R79). -/
  | graphRelease (q : Nat)
  /-- COPY_IN: COPY_IN: the reads of its range are issued (R423). -/
  | copyIn (q : Nat)
  /-- COPY_OUT: COPY_OUT: the writes of its range are issued (R423). -/
  | copyOut (q : Nat)
  /-- INVALIDATE: INVALIDATE: a CleanInvalid for each line (R45). -/
  | invalidate (q : Nat)
  /-- HOST_REQUEST_COMPLETE: the last CHI request of a command, or of an INVAL, completes (R171, R423). -/
  | hostRequestComplete (r : HostReq)
  /-- CHAN_OPEN: CHAN_OPEN (R177, R178). -/
  | chanOpen (q : Nat)
  /-- CHAN_CLOSE: CHAN_CLOSE (R47, R177). -/
  | chanClose (q : Nat)
  /-- FLAG_SET: FLAG_SET (R277, R424). -/
  | flagSet (q : Nat)
  /-- FLAG_SET_RELEASE: the earlier copies of a waiting FLAG_SET are complete (R424). -/
  | flagSetRelease (q : Nat)
  /-- FLAG_WAIT: FLAG_WAIT (R46, R424). -/
  | flagWait (q : Nat)
  /-- FLAG_WAIT_SATISFIED: the flag word meets CMP (R46, R61). -/
  | flagWaitSatisfied (q : Nat)
  /-- QUEUE_CONFIG: QUEUE_CONFIG (R48). -/
  | queueConfig (q : Nat)
  /-- QUEUE_RESET: QUEUE_RESET (R49). -/
  | queueReset (q : Nat)
  /-- PARTITION_RESET: PARTITION_RESET (R49). -/
  | partitionReset (q : Nat)
  /-- PARTITION_SET: PARTITION_SET (R50, R54). -/
  | partitionSet (q : Nat)
  /-- AUT_LOG_CONFIRM: the log write of key slot `slot` is confirmed (R56, R57). -/
  | autLogConfirm (slot : Nat)
  /-- KEY_SET: KEY_SET (R54, R57). -/
  | keySet (q : Nat)
  /-- RKN_LOAD: RKN_LOAD (R54, R142). -/
  | rknLoad (q : Nat)
  /-- RKN_QUIESCE_LOAD: RKN_QUIESCE_LOAD (R54, R143). -/
  | rknQuiesceLoad (q : Nat)
  /-- QUIESCE_READY: every Reckoner that a quiesced load of queue `q` holds is in LOADING (R143). -/
  | quiesceReady (q : Nat)
  /-- RKN_LOAD_END: the read of a code load ends (R144, R423). -/
  | rknLoadEnd (q : Nat) (data : Bytes) (errs : List Nat)
  /-- LOCKED_WRITE: LOCKED_WRITE (R54, R422). -/
  | lockedWrite (q : Nat)
  /-- DEBUG_UNLOCK: DEBUG_UNLOCK (R51, R54). -/
  | debugUnlock (q : Nat)
  /-- COMPLETION_WRITE_DONE: the `k`-th completion write in flight ends (R58, R60). -/
  | completionWriteDone (k : Nat) (err : Bool)
  /-- HIF_Q_RESUME: a write of HIF_Q_RESUME (R60, R61). -/
  | hifQResume (x : Access)
  /-- KQ_ENABLE: EN of a DISABLED kernel queue written 1 (R30, R48). -/
  | kqEnable (x : Access)
  /-- KQ_DISABLE: EN of a kernel queue written 0 (R49). -/
  | kqDisable (x : Access)
  /-- RETIREMENT: a retirement enters TLY's intake (R82, R83, R91). -/
  | retirement (n : Nat) (gen : BitVec 16) (res : RetResult) (drops : Nat)
  /-- SUCC_LIST_READ: the expander reads the list of expansion entry `k`, or misses the cache (R85). -/
  | succListRead (k : Nat) (hit : Bool)
  /-- MISS_RETURN: the Slate read of parked operation `k` returns (R85). -/
  | missReturn (k : Nat)
  /-- TALLY_DECREMENT: the first operation of a lane is performed, or misses the cache (R84, R85). -/
  | tallyDecrement (lane : Nat) (hit : Bool)
  /-- BACKLOG_MOVE: a node of partition `p`'s ready backlog becomes a bead (R86, R107). -/
  | backlogMove (p : Nat)
  /-- REMOTE_DEC: a remote decrement reaches TLY (R88). -/
  | remoteDec (h : FabHdr)
  /-- DRAIN_END: the last occupancy of a discarded launch has returned (R90, R108). -/
  | drainEnd (h : Nat)
  /-- DISPATCH_CYCLE: one ac of the dispatcher (R96, R101–R107, R112). -/
  | dispatchCycle
  /-- HOLD_START: a head of partition `p` holds it (R98, R110). -/
  | holdStart (p : Nat)
  /-- OCCUPANCY_RETURN: an occupancy return of agent `a` (R99, R108). -/
  | occupancyReturn (a : Nat) (k : OccPkt)
  /-- CAPACITY_REPORT: a capacity report of agent `a` (R99). -/
  | capacityReport (a : Nat) (k : OccPkt)
  /-- SLICE_RETIREMENT: a slice retirement reaches DIS (R104). -/
  | sliceRetirement (a n : Nat) (gen : BitVec 16) (res : RetResult) (drops : Nat)
  /-- PDM_PART_CTRL_WRITE: a write of PDM_PART_CTRL (R109). -/
  | pdmPartCtrlWrite (x : Access)
  /-- DEADLINE_SWITCH_POINT: the switch point of deadline entry `g` is reached (R115). -/
  | deadlineSwitchPoint (g : Nat)
  /-- EXIT_SWITCH: the switch of entry `g` reaches EXIT's lane (R115, R116). -/
  | exitSwitch (g : Nat)
  /-- STEP_BOUNDARY: a step boundary of batching table `b` (R120). -/
  | stepBoundary (b : Nat)
  /-- BT_POLL: an idle batching table reads JOIN_TAIL (R121). -/
  | btPoll (b : Nat)
  /-- BT_ENABLE: EN of a batching table written 1 (R119, R121). -/
  | btEnable (x : Access)
  /-- BT_DISABLE: EN of a batching table written 0 (R121). -/
  | btDisable (x : Access)
  /-- TASK_LAUNCH: a TASK launch reaches agent `a` (R124). -/
  | taskLaunch (a : Nat) (l : Launch)
  /-- KERNEL_DESC_CHECK: the kernel descriptor of a launch has been read (R125). -/
  | kernelDescCheck (a n : Nat) (gen : BitVec 16)
  /-- LAYER_LAUNCH: a LAYER launch reaches agent `a` (R126, R140). -/
  | layerLaunch (a : Nat) (l : Launch)
  /-- LAYER_SETUP_DONE: the setup of a layer program ends (R126). -/
  | layerSetupDone (a : Nat)
  /-- RKN_NOP: NOP (R150). -/
  | rknNop (a : Nat)
  /-- END: END (R136). -/
  | rknEnd (a : Nat)
  /-- RECKONER_DRAINED: every operation of an ending, halting or aborting Reckoner is answered (R136, R137, R336).
  -/
  | reckonerDrained (a : Nat)
  /-- BREAK: BREAK (R138). -/
  | rknBreak (a : Nat)
  /-- WAIT: WAIT (R152). -/
  | rknWait (a : Nat)
  /-- FEAT: FEAT (R153). -/
  | rknFeat (a : Nat)
  /-- JMP: JMP (R154). -/
  | rknJmp (a : Nat)
  /-- JAL: JAL (R154). -/
  | rknJal (a : Nat)
  /-- JR: JR (R154). -/
  | rknJr (a : Nat)
  /-- BCC: BCC (R155). -/
  | rknBcc (a : Nat)
  /-- BCCI: BCCI (R155). -/
  | rknBcci (a : Nat)
  /-- ADD: ADD (R150, R151). -/
  | rknAdd (a : Nat)
  /-- SUB: SUB (R150, R151). -/
  | rknSub (a : Nat)
  /-- MUL: MUL (R150, R151). -/
  | rknMul (a : Nat)
  /-- MULHU: MULHU (R150, R151). -/
  | rknMulhu (a : Nat)
  /-- AND: AND (R150, R151). -/
  | rknAnd (a : Nat)
  /-- OR: OR (R150, R151). -/
  | rknOr (a : Nat)
  /-- XOR: XOR (R150, R151). -/
  | rknXor (a : Nat)
  /-- SHL: SHL (R150, R151). -/
  | rknShl (a : Nat)
  /-- SHR: SHR (R150, R151). -/
  | rknShr (a : Nat)
  /-- SRA: SRA (R150, R151). -/
  | rknSra (a : Nat)
  /-- SLT: SLT (R150, R151). -/
  | rknSlt (a : Nat)
  /-- SLTU: SLTU (R150, R151). -/
  | rknSltu (a : Nat)
  /-- MIN: MIN (R150, R151). -/
  | rknMin (a : Nat)
  /-- MAX: MAX (R150, R151). -/
  | rknMax (a : Nat)
  /-- MINU: MINU (R150, R151). -/
  | rknMinu (a : Nat)
  /-- MAXU: MAXU (R150, R151). -/
  | rknMaxu (a : Nat)
  /-- ADDI: ADDI (R150, R151). -/
  | rknAddi (a : Nat)
  /-- ANDI: ANDI (R150, R151). -/
  | rknAndi (a : Nat)
  /-- ORI: ORI (R150, R151). -/
  | rknOri (a : Nat)
  /-- XORI: XORI (R150, R151). -/
  | rknXori (a : Nat)
  /-- SHLI: SHLI (R150, R151). -/
  | rknShli (a : Nat)
  /-- SHRI: SHRI (R150, R151). -/
  | rknShri (a : Nat)
  /-- SRAI: SRAI (R150, R151). -/
  | rknSrai (a : Nat)
  /-- SLTI: SLTI (R150, R151). -/
  | rknSlti (a : Nat)
  /-- LI: LI (R150, R151). -/
  | rknLi (a : Nat)
  /-- LIH: LIH (R150, R151). -/
  | rknLih (a : Nat)
  /-- LD_U8: LD.U8 (R157). -/
  | rknLdU8 (a : Nat)
  /-- LD_U16: LD.U16 (R157). -/
  | rknLdU16 (a : Nat)
  /-- LD_U32: LD.U32 (R157). -/
  | rknLdU32 (a : Nat)
  /-- LD_64: LD.64 (R157). -/
  | rknLd64 (a : Nat)
  /-- LD_S8: LD.S8 (R157). -/
  | rknLdS8 (a : Nat)
  /-- LD_S16: LD.S16 (R157). -/
  | rknLdS16 (a : Nat)
  /-- LD_S32: LD.S32 (R157). -/
  | rknLdS32 (a : Nat)
  /-- ST_8: ST.8 (R157). -/
  | rknSt8 (a : Nat)
  /-- ST_16: ST.16 (R157). -/
  | rknSt16 (a : Nat)
  /-- ST_32: ST.32 (R157). -/
  | rknSt32 (a : Nat)
  /-- ST_64: ST.64 (R157). -/
  | rknSt64 (a : Nat)
  /-- LOOPI: LOOPI (R158). -/
  | rknLoopi (a : Nat)
  /-- LOOP: LOOP (R158). -/
  | rknLoop (a : Nat)
  /-- SETINC: SETINC (R159). -/
  | rknSetinc (a : Nat)
  /-- SETINCR: SETINCR (R159). -/
  | rknSetincr (a : Nat)
  /-- RDIDX: RDIDX (R160). -/
  | rknRdidx (a : Nat)
  /-- OPND: OPND (R161). -/
  | rknOpnd (a : Nat)
  /-- TDLD: TDLD (R163). -/
  | rknTdld (a : Nat)
  /-- TDST: TDST (R163). -/
  | rknTdst (a : Nat)
  /-- TDSET: TDSET (R163). -/
  | rknTdset (a : Nat)
  /-- ESTART: ESTART (R164). -/
  | rknEstart (a : Nat)
  /-- ECFG: ECFG (R164). -/
  | rknEcfg (a : Nat)
  /-- CSEND: CSEND (R187). -/
  | rknCsend (a : Nat)
  /-- CSEND_ANSWER: the answer `v` to the RESERVE or COMMIT of a CSEND; `data` are the tile's bytes where it lies
  outside the Slate (R187). -/
  | csendAnswer (a id : Nat) (v : W64) (data : Bytes)
  /-- CRECV: CRECV (R191). -/
  | rknCrecv (a : Nat)
  /-- CRECV_ANSWER: the answer `v` to the CLAIM of a CRECV (R191). -/
  | crecvAnswer (a id : Nat) (v : W64)
  /-- BARA: BARA (R169). -/
  | rknBara (a : Nat)
  /-- BARW: BARW (R169). -/
  | rknBarw (a : Nat)
  /-- RLD: RLD (R170). -/
  | rknRld (a : Nat)
  /-- RST: RST (R170). -/
  | rknRst (a : Nat)
  /-- ATOM: ATOM (R170). -/
  | rknAtom (a : Nat)
  /-- INVAL: INVAL (R171). -/
  | rknInval (a : Nat)
  /-- ROUTE: ROUTE (R172). -/
  | rknRoute (a : Nat)
  /-- CADD: CADD (R172). -/
  | rknCadd (a : Nat)
  /-- REQUEST_ANSWER: the answer `v` to request `id` of agent `a`'s Reckoner (R167). -/
  | requestAnswer (a id : Nat) (v : W64)
  /-- HOST_WORD_RESPONSE: the CHI transaction of a host-word request ends (R397). -/
  | hostWordResponse (a id : Nat) (v : W64) (err : Bool)
  /-- RKN_DBG_RESUME: RKN_DBG.RESUME written 1 (R138). -/
  | rknDbgResume (x : Access)
  /-- RKN_DBG_STEP: RKN_DBG.STEP written 1 (R138). -/
  | rknDbgStep (x : Access)
  /-- AGT_SPARE_FORCE: AGT_SPARE_CFG.FORCE written 1 (R145). -/
  | agtSpareForce (x : Access)
  /-- STANDBY_SWAP: a pending swap finds the Reckoner IDLE (R145). -/
  | standbySwap (a : Nat)
  /-- RESERVE: RESERVE with operand `v` (R180, R181). -/
  | reserve (c : Nat) (src : Src) (v : Nat)
  /-- SEND_DATA: a write of SEND_DATA at byte `off`; `mask` names the bytes written and `crcOk` the check of R183
  (R182). -/
  | sendData (c : Nat) (src : Src) (off : Nat) (data : Bytes) (mask : BitVec 256) (crcOk : Bool)
  /-- COMMIT: COMMIT with operand `v` (R184). -/
  | commit (c : Nat) (src : Src) (v : Nat)
  /-- CLAIM: CLAIM with operand `v` (R188, R189). -/
  | claim (c : Nat) (src : Src) (v : Nat)
  /-- RECV_DATA: a read of `n` bytes of RECV_DATA, or an atomic on a word that takes none (R174, R190). -/
  | recvData (c : Nat) (src : Src) (off n : Nat) (atomic : Bool)
  /-- RELEASE: RELEASE with operand `v` (R190). -/
  | release (c : Nat) (src : Src) (v : Nat)
  /-- NOTIFY: a write `v` of NOTIFY (R192). -/
  | notify (c : Nat) (src : Src) (v : Nat)
  /-- BARRIER_ARM: a write `v` of ARM; `full` says that its mask covers all 8 bytes (R195). -/
  | barrierArm (b : Nat) (src : Src) (v : Nat) (full : Bool)
  /-- BARRIER_ARRIVE: ARRIVE; `phase` is what the agent recorded for the participant (R196). -/
  | barrierArrive (b : Nat) (src : Src) (phase : Option (BitVec 16))
  /-- BARRIER_WAIT: WAIT for `phase` (R196). -/
  | barrierWait (b : Nat) (src : Src) (phase : BitVec 16)
  /-- RETIRE_NOTICE: a participant's retirement notice, with its barriers and phases (R197). -/
  | retireNotice (n : Nat) (gen : BitVec 16) (pairs : List (Nat × BitVec 16))
  /-- GROUP_ATOMIC: a group atomic of 32 lanes (R199–R201). -/
  | groupAtomic (src : Src) (tag aop : Nat) (size8 : Bool) (lanes : List Lane)
  /-- ROUTE_REQUEST: a ROUTE reaches RTE (R223). -/
  | routeRequest (q : RouteReq)
  /-- ROUTING_DONE: the `k`-th routing in progress is done (R233). -/
  | routingDone (k : Nat)
  /-- CADD_REQUEST: a CADD reaches CMB; `misses` of its Long Sums are read from the Slate (R238, R223). -/
  | caddRequest (c : CaddReq) (misses : Nat)
  /-- TALLY_WORD_WRITE: partition `p` writes `v` to the TALLY word of token `t` of group `g` (R239, R223). -/
  | tallyWordWrite (g t p v : Nat)
  /-- CMB_GROUP_VALID: VALID of a combine group written 1 (R235). -/
  | cmbGroupValid (x : Access)
  /-- ZEROING_DONE: the zeroing of group `g` ends (R235, R223). -/
  | zeroingDone (g : Nat)
  /-- SLATE_READ: a block read at a vault controller (R248, R252, R253). -/
  | slateRead (l : SlateLoc) (e : ReadErrs)
  /-- SLATE_WRITE: a block write; `e` is what the read of a block that is written in part meets (R251). -/
  | slateWrite (l : SlateLoc) (off : Nat) (data : Bytes) (crcOk : Bool) (e : ReadErrs)
  /-- SCRUB_READ: scrub reads the next block of vault `v`; `raced` says that a foreground write came before its
  write-back (R255). -/
  | scrubRead (v : Nat) (e : ReadErrs) (raced : Bool)
  /-- REFRESH: refresh visits the next row of tier `t` (R256). -/
  | refresh (t : Nat)
  /-- TIER_TEMP_SAMPLE: the sensor of tier `t` reads `raw`, in 0.125 °C (R256, R361). -/
  | tierTempSample (t raw : Nat)
  /-- ROW_REPAIR: a worn row of vault `v` is copied to a spare row (R257). -/
  | rowRepair (v : Nat)
  /-- LANE_REPAIR: a lane group of vault `v` is steered around a failed lane (R258). -/
  | laneRepair (v : Nat)
  /-- VAULT_CALIBRATION: the timing calibration of vault `v`, with the lanes it finds failed (R258, R369). -/
  | vaultCalibration (v : Nat) (lanes : List (Nat × Nat))
  /-- VSPARE_START: SLT_VSPARE_CTRL.START written 1 (R260). -/
  | vspareStart (x : Access)
  /-- VSPARE_TEST_DONE: the target vault's test ends (R260). -/
  | vspareTestDone (ok : Bool)
  /-- VSPARE_CHUNK_COPY: the copy moves one chunk of 8 blocks (R259). -/
  | vspareChunkCopy (errs : List ReadErrs)
  /-- VSPARE_SWITCH: the map switches to the target vault (R260). -/
  | vspareSwitch
  /-- SLATE_FILL_DONE: the power-on fill ends: blocks that failed, and spare vaults that failed their test (R254).
  -/
  | slateFillDone (bad : List (Nat × Nat)) (failed : List Nat)
  /-- FAB_REQUEST_RECEIVE: the first request buffered at port `k` is taken (R272). -/
  | fabRequestReceive (k : Nat)
  /-- FAB_RESPONSE: the first response buffered at port `k` is taken (R268, R296). -/
  | fabResponse (k : Nat)
  /-- FAB_NACK: the first NACK buffered at port `k` is taken (R269). -/
  | fabNack (k : Nat)
  /-- FAB_RETRY: the retry spacing of outstanding entry `t` expires (R270). -/
  | fabRetry (t : Nat)
  /-- FINAL_WRITE_RELEASE: a held final write leaves, and the writes behind it (R274). -/
  | finalWriteRelease (w : FinalWrite)
  /-- FLIT_RECEIVE: a flit arrives on port `k` (R286–R290). -/
  | flitReceive (k : Nat) (flit : BitVec 2176)
  /-- REPLAY_TIMEOUT: the oldest unacknowledged flit of port `k` has waited REPLAY_QC (R289). -/
  | replayTimeout (k : Nat)
  /-- LANE_FAILURE: a lane of port `k` reports its errors within 1 ms (R292). -/
  | laneFailure (k : Nat) (j : LaneErrs)
  /-- LOSS_OF_LOCK: the PHY of port `k` reports loss of lock (R294). -/
  | lossOfLock (k : Nat)
  /-- FAB_PORT_ENABLE: EN of a DOWN port written 1 (R294). -/
  | fabPortEnable (x : Access)
  /-- FAB_PORT_DISABLE: EN of a port written 0 (R294). -/
  | fabPortDisable (x : Access)
  /-- TRAIN_RESULT: a training attempt of port `k` ends with these lanes aligned (R292, R294). -/
  | trainResult (k : Nat) (aligned : BitVec 5)
  /-- IDENT_RECEIVE: an IDENT message arrives on port `k` (R294–R296). -/
  | identReceive (k : Nat) (ready : Bool) (block port rxNext : Nat)
  /-- STOP_RECEIVE: a STOP message arrives on port `k` (R298). -/
  | stopReceive (k : Nat)
  /-- RESUME_RECEIVE: a RESUME message arrives on port `k` (R298). -/
  | resumeReceive (k : Nat)
  /-- FAB_REEQ: the re-equalisation of port `k` starts (R369). -/
  | fabReeq (k : Nat)
  /-- PHY_EQ_DONE: the PHY of port `k` acknowledges an equalisation (R403). -/
  | phyEqDone (k : Nat)
  /-- POWER_ON_RESET: PORESET_N at its filtered level (R304, R305). -/
  | powerOnReset (released : Bool)
  /-- WARM_RESET: WARM_RESET_N at its filtered level (R304, R305). -/
  | warmReset (released : Bool)
  /-- DEVICE_RESET_SEQUENCE: every agent has stopped: the DEVICE reset (R304, R338). -/
  | deviceResetSequence
  /-- PLL_LOCK: the root or the standby PLL locks (R301). -/
  | pllLock (root : Bool)
  /-- PLL_LOCK_TIMEOUT: 100 µs have passed without a lock (R302). -/
  | pllLockTimeout
  /-- PLL_LOSS_OF_LOCK: the root PLL loses lock (R302). -/
  | pllLossOfLock
  /-- HEADER_VERIFIED: the SFDP, log and header reads end (R309–R312). -/
  | headerVerified (norOk logOk : Bool) (header : Bytes)
  /-- SECTION_DIGEST: a section has been read (R313–R321). -/
  | sectionDigest (norOk : Bool) (data : Bytes)
  /-- BUILD: stage BUILD (R322). -/
  | build
  /-- READY: the Ready ac (R326). -/
  | ready
  /-- DISCARD_END: every aborted launch of partition `p` is LOADED again (R333). -/
  | discardEnd (p : Nat)
  /-- ABORT: an abort flit reaches agent `a` (R334–R336, R411). -/
  | abort (a n : Nat) (gen : BitVec 16)
  /-- PROGRESS_WINDOW_END: a progress window ends (R339–R341). -/
  | progressWindowEnd
  /-- CYCLE_WALK_END: a cycle-check walk ends (R342, R343). -/
  | cycleWalkEnd
  /-- STOP_N: STOP_N is asserted (R344, R346). -/
  | stopN
  /-- THERM_TRIP_N: THERM_TRIP_N is asserted (R344). -/
  | thermTripN
  /-- PMB_ALERT_N: PMB_ALERT_N is asserted; `fails` names the devices whose read fails (R344, R368). -/
  | pmbAlertN (fails : List Nat)
  /-- INPUT_GLITCH: an excursion of input `k` shorter than the filter time (R345). -/
  | inputGlitch (k : Nat)
  /-- GLOBAL_STOP_REQ: FLT_STOP_CTRL.REQ written 1 (R346). -/
  | globalStopReq (x : Access)
  /-- STOP_TOKEN_ARRIVE: the stop token reaches unit `u`, or agent `u` − 32 (R349). -/
  | stopTokenArrive (u : Nat)
  /-- ALL_UNITS_STOPPED: every unit reports stopped (R347). -/
  | allUnitsStopped
  /-- CUT_WRITTEN: the Cut and its header are written (R352). -/
  | cutWritten
  /-- GLOBAL_STOP_RESUME: FLT_STOP_CTRL.RESUME written 1 (R353). -/
  | globalStopResume (x : Access)
  /-- ALL_UNITS_RUNNING: every unit reports running (R347). -/
  | allUnitsRunning
  /-- FAULT_INJECT_ARM: a write of FLT_INJ_CTRL (R332). -/
  | faultInjectArm (x : Access)
  /-- FLT_LOG_READ: a read of FLT_LOG (R329). -/
  | fltLogRead (x : Access)
  /-- MBX_GO: MGT_MBX_CTRL.GO written 1 (R358). -/
  | mbxGo (x : Access)
  /-- GET_HEALTH: GET_HEALTH is served (R357). -/
  | getHealth (src : MgtIn)
  /-- GET_SENSORS: GET_SENSORS is served (R357). -/
  | getSensors (src : MgtIn)
  /-- READ_LOG: READ_LOG is served (R357). -/
  | readLog (src : MgtIn)
  /-- UPD_BEGIN: UPD_BEGIN is served (R362, R363). -/
  | updBegin (src : MgtIn)
  /-- UPD_DATA: UPD_DATA is served; `norOk` is the outcome of the recovery loader's NOR operations (R362, R363). -/
  | updData (src : MgtIn) (norOk : Bool)
  /-- UPD_COMMIT: UPD_COMMIT is served (R362, R363). -/
  | updCommit (src : MgtIn) (norOk : Bool)
  /-- UPD_ABORT: UPD_ABORT is served (R362). -/
  | updAbort (src : MgtIn)
  /-- UPD_VERIFY_DONE: verification of the staged image ends (R362). -/
  | updVerifyDone
  /-- UPD_PROGRAM_DONE: programming and read-back of the NOR end (R362). -/
  | updProgramDone (ok : Bool)
  /-- DEVICE_RESET: the DEVICE_RESET message is served (R357, R338). -/
  | deviceReset (src : MgtIn)
  /-- DEV_RESET: MGT_CTRL.DEV_RESET written 1 (R338, R355). -/
  | devReset (x : Access)
  /-- ENTDAA: the management port takes its dynamic address (R359). -/
  | entdaa (addr : Nat)
  /-- SET_ENDPOINT_ID: Set Endpoint ID is answered (R359). -/
  | setEndpointId (inst op eid : Nat)
  /-- GET_ENDPOINT_ID: Get Endpoint ID is answered (R359). -/
  | getEndpointId (inst : Nat)
  /-- GET_MCTP_VERSION_SUPPORT: Get MCTP Version Support is answered (R359). -/
  | getMctpVersionSupport (inst type : Nat)
  /-- GET_MESSAGE_TYPE_SUPPORT: Get Message Type Support is answered (R359). -/
  | getMessageTypeSupport (inst : Nat)
  /-- VOLTAGE_SAMPLE: voltage sensor `k` reads `raw` (R361). -/
  | voltageSample (k raw : Nat)
  /-- DROOP: a droop detector fires (R361). -/
  | droop
  /-- SENSOR_CROSS_CHECK: the thermal sensors are compared with their neighbours (R361). -/
  | sensorCrossCheck
  /-- POWER_METER_TICK: the millisecond of the metering, with its events and the Hub sensors' raw readings (R366,
  R367). -/
  | powerMeterTick (ev : EnergyEv) (hub : List Nat)
  /-- PMBUS_POLL: the 10 ms poll of the PMBus devices (R368). -/
  | pmbusPoll (vin iin : Nat) (fails : List Nat)
  /-- LOG_APPEND: the oldest waiting log record is programmed and read back (R364, R365). -/
  | logAppend (ok eraseOk : Bool)
  /-- LOG_COMPACT: the journal is compacted (R365). -/
  | logCompact
  /-- VAULT_SPARE_TRIGGER: a worn vault makes MGT start a spare-in (R370). -/
  | vaultSpareTrigger
  /-- PAGE_SNAP: SNAP of a partition page written 1 (R375). -/
  | pageSnap (x : Access)
  /-- PAGE_CLEAR: CLEAR of a partition page written 1 (R375). -/
  | pageClear (x : Access)
  /-- OBS_MS_TICK: the end of a millisecond, with the energy events of each partition (R376, R377). -/
  | obsMsTick (evs : List EnergyEv)
  /-- TR_CTRL_WRITE: a write of OBS_TR_CTRL (R380, R381). -/
  | trCtrlWrite (x : Access)
  /-- TR_RECORD_WRITE: a buffered Tally Roll record is written to the ring (R381). -/
  | trRecordWrite
  /-- TR_WRITE_ERROR: a ring write of the Tally Roll fails (R385). -/
  | trWriteError
  /-- BLOCK_END: a core reports a block ended (R407, R410, R411). -/
  | blockEnd (a core tag : Nat)
  /-- GROUP_END: a core reports a thread group ended (R407, R197). -/
  | groupEnd (a core tag group : Nat)
  /-- ENG_DONE: an engine reports a command complete (R132, R133, R407). -/
  | engDone (a core tag : Nat) (value : Option W64)
  /-- CREDIT: Reckoner-section credits return (R123, R407). -/
  | credit (a : Nat) (counts : BitVec 256)
  /-- AGENT_PORT_OP: a core's remote operation (R407, R410). -/
  | agentPortOp (a : Nat) (m : OpMsg)
  /-- DN_CREDIT: the cluster returns a downstream credit (R405). -/
  | dnCredit (a : Nat)
  /-- CAPACITY_RECORD: a core's capacity record (R408). -/
  | capacityRecord (a core : Nat) (res : Res)
  /-- IDCODE: IDCODE is selected and scanned (R400). -/
  | idcode
  /-- DBG_ACCESS: a scan of DBG_ACCESS with the word `w` (R401). -/
  | dbgAccess (w : BitVec 96)
  /-- BYPASS: BYPASS is selected and scanned (R400). -/
  | bypass
  /-- WS_BYPASS: WS_BYPASS; `tm` is TEST_MODE (R402). -/
  | wsBypass (tm : Bool)
  /-- WS_PRELOAD: WS_PRELOAD (R402). -/
  | wsPreload (tm : Bool) (data : Nat)
  /-- WS_EXTEST: WS_EXTEST (R402). -/
  | wsExtest (tm : Bool)
  /-- WS_INTEST_SCAN: WS_INTEST_SCAN of `n` bits (R402). -/
  | wsIntestScan (tm : Bool) (n : Nat)
  /-- MBIST_RUN: MBIST_RUN with the failing rows (R402). -/
  | mbistRun (tm : Bool) (rows : List (Nat × Nat))
  /-- SLATE_BIST: SLATE_BIST with the result of each physical vault (R402, R416). -/
  | slateBist (tm : Bool) (res : List BistRes)
  /-- AP_ACT: a core raises its activity indication (R340, R409). -/
  | apAct (a core : Nat)
  /-- ANSWER: an answer to a core's remote operation reaches the agent (R186, R405). -/
  | answer (a core tag status : Nat) (v : W64) (data : Bytes)
  /-- IMEM_SCRUB: the agent's scrub reads a memory word of an idle Reckoner (R337, R370). -/
  | imemScrub (a inst row : Nat) (standby ce ue : Bool)
  /-- INPUT_INACTIVE: input `k` returns to its inactive level (R345). -/
  | inputInactive (k : Nat)
  /-- PCRDGRANT: a PCrdGrant arrives for a retried CHI request (R395). -/
  | pcrdGrant (r : Retried)
  deriving DecidableEq, Repr

end Sys2Proof
end

