-- ==== Sys2Proof/Config.lean ====
section
/-!
DEFINITION. The values the spec leaves open, as constants without a body: nothing can evaluate them, so what is
proved holds whatever they are. Sizes and codes that the spec fixes stand as numerals.
-/

namespace Sys2Proof.Config

/-- The n-th free choice of a number: a cell taken from the free list, a tag, a table index (Machine/Ops.lean takes
them in turn from `State.free`). -/
opaque freeNat : Nat → Nat

/-- The n-th free value of a register or a record field the spec gives no value. -/
opaque freeWord : Nat → W64

/-- The n-th free byte string of a given length (the body of a section of the Cut, R352; data scanned out). -/
opaque freeBytes : Nat → Nat → Bytes

/-- Which of the Hub's 16 thermal regions are adjacent (R361); the spec names no layout. -/
opaque hubAdjacent : Nat → Nat → Bool

/-- The 28 bytes of BODY that spell a log record's content, by TYPE, KEY and content (chapter 14 does not state them). -/
opaque logBody : Nat → Nat → Nat → Bytes

/-- The 64 bits of KEY that name an object of several parts, by TYPE: a row, a lane, a row of an SRAM instance. -/
opaque logKey : Nat → Nat → W64

/-- A version of MCTP that Get MCTP Version Support reports, by message type (R359 names none). -/
opaque mctpVersion : Nat → Bytes

/-- What a Reckoner in DEBUG shows at a place of its agent's window: a scalar register, a word of a loop register, an increment
register, or 8 bytes of DMEM (R138). -/
inductive RknPlace where
  | sreg (i : Nat)
  | loop (level word : Nat)
  | inc (i : Nat)
  | dmem (word : Nat)
  deriving DecidableEq, Repr, Inhabited

/-- Which of them stands at an offset of the agent's window that holds no register of the register index: R138 gives no address. -/
opaque rknPlace : Nat → Option RknPlace

/-- The handle that means "none" (R64). -/
def noNode : Nat := 0xFFFFFF

/-- Host addresses at or above this one are never requested (R396). -/
def hostTop : Nat := 2 ^ 52

end Sys2Proof.Config
end

