-- ==== Sys2Proof/Machine/State.lean ====
section
/-!
DEFINITION. The whole state of the block as plain data, unit by unit, the reasons a step can stop, and the
state right after a power-on reset. A register whose fields software writes stands in `regs`, by its byte
address (chapter 17); a register that reports a unit's state is computed from that unit's fields
(Machine/RegRead.lean).
-/

namespace Sys2Proof.Machine

open Sys2Proof

/-! ### HIF, CFE and AUT (chapter 02) -/

/-- Queue state, DB_STAT.STATE (R61). -/
inductive QState where
  | disabled | idle | fetching | waiting | stopped
  deriving DecidableEq, Repr, Inhabited

/-- DB_STAT.STOP_REASON. -/
inductive StopReason where
  | none | resync | cplFault | deadlock
  deriving DecidableEq, Repr, Inhabited

/-- A fetched command: its place in the queue's command order, the ring index of its header, its record count
and its records as one little-endian value (R6). -/
structure Cmd where
  seq : Nat
  idx : Nat
  n : Nat
  body : Nat
  checked : Bool
  deriving DecidableEq, Repr, Inhabited

/-- A started command of a queue that has not completed, or that has completed and still owes node records
(R61, FENCE). -/
structure Live where
  cmd : Cmd
  ended : Bool
  nodes : Nat
  deriving DecidableEq, Repr, Inhabited

/-- One queue: its doorbell page, its rings and its commands (R30–R40, R59, R61). The configuration fields are
those of QUEUE_CONFIG; a kernel queue's configuration stands in its HIF_KQ registers. -/
structure Queue where
  st : QState
  reason : StopReason
  pend : Bool
  head : Nat
  tail : Nat
  cplTail : Nat
  cplHead : Nat
  phase : Bool
  resv : Nat
  found : Bool
  seq : Nat
  fetched : List Cmd
  live : List Live
  want : Nat
  part : Nat
  slice : Nat
  sqLog2 : Nat
  cqLog2 : Nat
  intVec : Nat
  reloc : Bool
  sqBase : Nat
  cqBase : Nat
  nodeBase : Nat
  nodeCount : Nat
  chanBase : Nat
  chanCount : Nat
  deriving DecidableEq, Repr, Inhabited

/-- A fetch turn: the queue that holds it and the records read in it (R37, R38). -/
structure Turn where
  q : Nat
  recs : Nat
  deriving DecidableEq, Repr, Inhabited

/-- The Command Front End: the current turn, whether each of the last 15 turns went to a user queue (newest
first), and the user queue id from which round robin looks next (R37, R38). -/
structure Cfe where
  turn : Option Turn
  window : List Bool
  rrNext : Nat
  deriving DecidableEq, Repr, Inhabited

/-- A completion record on its way: a CHI write in flight, or a record in the spill (R58–R60). `node` says that a
node wrote it, for the launch or submission of command `seq` of the queue; `gen` is then the GEN of
the node's graph when the record was produced; `slot` is its ring index; `resumed` marks a spilled record that is written
again. -/
structure CplItem where
  q : Nat
  slot : Nat
  record : CplRec
  irq : Bool
  node : Bool
  gen : BitVec 16
  seq : Nat
  resumed : Bool
  deriving DecidableEq, Repr, Inhabited

/-- A host-word request of a Reckoner on its way through the CHI requester (R397): the agent and its request, 0 for
RLD, 1 for RST or 2 + AOP for ATOM, the host address and the data. -/
structure HostWord where
  agent : Nat
  req : Nat
  op : Nat
  part : Nat
  addr : Nat
  data : W64
  cmp : W64
  deriving DecidableEq, Repr, Inhabited

/-- The Host Interface: completion writes in flight and spilled records, oldest first, the HIF_IRQ_STAT bits, and
the low halves, with their strobes, held for 64-bit registers written in two halves (R13). `waiting` are records produced while HIF is stopped,
which leave when it runs again (R349). -/
structure Hif where
  flight : List CplItem
  spill : List CplItem
  irqStat : BitVec 4
  half : Tab (Option (W32 × BitVec 4))
  words : List HostWord
  waiting : List CplItem
  stopped : Bool
  deriving DecidableEq, Repr, Inhabited

/-- State of a key slot, AUT_SLOT_STAT. -/
inductive SlotState where
  | empty | valid | revoked
  deriving DecidableEq, Repr, Inhabited

/-- A key slot: its state, its 128-bit key, LAST (AUT_LAST), and the value logged for it (R56). -/
structure KeySlot where
  st : SlotState
  key : Nat
  last : W64
  logged : Nat
  deriving DecidableEq, Repr, Inhabited

/-- A critical command that AUT holds until a log write is confirmed (R56, R57). `installed` says that it is a
KEY_SET that has already taken effect and only waits to complete. -/
structure HeldCrit where
  q : Nat
  cmd : Cmd
  slot : Nat
  installed : Bool
  deriving DecidableEq, Repr, Inhabited

/-- The Command Authenticator (R54–R57). -/
structure Aut where
  slots : Tab KeySlot
  held : List HeldCrit
  deriving DecidableEq, Repr, Inhabited

/-- What PARTITION_SET gives a partition (R50). -/
structure Part where
  nodeBase : Nat
  nodeCount : Nat
  chanBase : Nat
  chanCount : Nat
  cellQuota : Nat
  beadShare : Nat
  deriving DecidableEq, Repr, Inhabited

/-! ### GRS and TLY (chapter 03) -/

/-- Who launched a graph, or submitted a node: QUEUE, SQ_INDEX and INTERNAL of R69; `seq` is the model's own name
of the launching command; `main` is the header of the main launch of a fall-back, with that launch's GEN (R116); `table` is the batching
table of a step launch (R120). -/
structure LaunchSrc where
  q : Nat
  sqIdx : Nat
  internal : Bool
  seq : Nat
  main : Option (Nat × BitVec 16)
  table : Option Nat
  deriving DecidableEq, Repr, Inhabited

/-- KIND of a node record (R62). -/
inductive Kind where
  | free | task | layer | join | succ | graph
  deriving DecidableEq, Repr, Inhabited

/-- STATE of a work node (R81). -/
inductive NState where
  | free | idle | waiting | ready | issued | retired | loading
  deriving DecidableEq, Repr, Inhabited

/-- LSTATE of a graph header (R69). -/
inductive LState where
  | loading | loaded | active | draining
  deriving DecidableEq, Repr, Inhabited

/-- A successor entry (R66). -/
structure Succ where
  node : Nat
  block : Nat
  remote : Bool
  weight : Nat
  deriving DecidableEq, Repr, Inhabited

/-- A pending launch: PEND_ARG and PEND_SRC of R69. -/
structure Pend where
  arg : W64
  src : LaunchSrc
  deriving DecidableEq, Repr, Inhabited

/-- The fields a graph header has beside the node layout (R69), and the model's counts: completion records that the
launch's nodes requested and that are not yet written (R76), the launch's marks of R76, the image's records stored so
far (R71), and the deadline switch mark. -/
structure Header where
  lstate : LState
  nodeCount : Nat
  workCount : Nat
  cplCount : Nat
  retired : Nat
  pend : List Pend
  sweep : Bool
  src : LaunchSrc
  drops : Nat
  cplOut : Nat
  peerClosed : Bool
  switched : Bool
  template : Option Nat
  deriving DecidableEq, Repr, Inhabited

/-- A node record (R65), a continuation block (R67: `succs` and `succNext`) or a graph header (R69: `hdr`).
The ready backlog's NEXT_READY link stands as TLY's backlog lists. -/
structure NodeRec where
  kind : Kind
  st : NState
  cpl : Bool
  irq : Bool
  prio : Nat
  cls : Nat
  gen : BitVec 16
  tally : Nat
  initTally : Nat
  graph : Nat
  dlGroup : Nat
  succs : List Succ
  succNext : Nat
  arg : W64
  kdesc : Nat
  regs : Nat
  groups : Nat
  lmem : Nat
  blocks : Nat
  tag : Nat
  src : LaunchSrc
  drops : Nat
  readyTs : W64
  params : BitVec 512
  hdr : Header
  deriving DecidableEq, Repr, Inhabited

/-- A resident template, GRS_TPL_t (R80). -/
structure Tpl where
  header : Nat
  part : Nat
  valid : Bool
  deriving DecidableEq, Repr, Inhabited

/-- A GRAPH_LOAD under way: its command, its range and the image bytes that have arrived, in order (R71). -/
structure LoadJob where
  q : Nat
  seq : Nat
  base : Nat
  count : Nat
  relocBase : Nat
  started : Bool
  image : Bytes
  deriving DecidableEq, Repr, Inhabited

/-- A GRAPH_LAUNCH that waits for its graph's load (R72). -/
structure LaunchWait where
  hdr : Nat
  arg : W64
  src : LaunchSrc
  deriving DecidableEq, Repr, Inhabited

/-- The Graph Store: node records by handle, NODES (the handles the GRAPH region has room for), launch-table entries in use (by header), entries or pending places that
PDM has reserved for fall-backs (by header), running sweeps, templates, loads and launches that wait for a load. -/
structure Grs where
  nodes : Tab NodeRec
  nodeCap : Nat
  table : List Nat
  reserved : List Nat
  sweeping : List Nat
  tpl : Tab Tpl
  loads : List LoadJob
  waits : List LaunchWait
  deriving DecidableEq, Repr, Inhabited

/-- An expansion entry: a retired node, the generation of its retirement, and its cursor: the continuation block to
read next, or none while the inline list is to be read (R83, R92). `header` marks the carry of a launch. -/
structure ExpEntry where
  node : Nat
  gen : BitVec 16
  header : Bool
  next : Option Nat
  parked : Bool
  deriving DecidableEq, Repr, Inhabited

/-- What produced a decrement. -/
inductive DecSrc where
  /-- An edge of a retired node of graph `graph` (0xFF_FFFF: standalone), with the generation of its retirement
  (R91). `producer` is that node's handle. -/
  | edge (producer graph : Nat) (gen : BitVec 16)
  /-- The carry of a header: the root takes the launch's ARG (R74). -/
  | root (header : Nat) (gen : BitVec 16)
  /-- A SIGNAL command (R78). -/
  | signal (q seq : Nat)
  /-- A notice, a pass-end decrement, a combine decrement or a barrier release: as a SIGNAL, with no answer. -/
  | notice
  /-- A remote decrement, answered to the fabric request it came in (R88). -/
  | remote (req : FabHdr)
  /-- PDM's switch operation of deadline entry `g` (R115). -/
  | switch (g : Nat)
  deriving DecidableEq, Repr, Inhabited

/-- An operation of a lane: `w` is the sum of the weights of the `n` decrements it carries from one producer; `also`
holds the weights, decrements and producers that were merged into it from a second list of the same ac (R84). -/
structure LaneOp where
  node : Nat
  w : Nat
  n : Nat
  src : DecSrc
  also : List (Nat × Nat × DecSrc)
  deriving DecidableEq, Repr, Inhabited

/-- An operation parked on a cache miss (R85). -/
inductive MissEnt where
  | lane (op : LaneOp)
  | list (e : ExpEntry)
  deriving DecidableEq, Repr, Inhabited

/-- A node on a ready backlog, and where it goes in the bead queue (R86). -/
structure Waiting where
  node : Nat
  gen : BitVec 16
  deriving DecidableEq, Repr, Inhabited

/-- An item for TLY's intake (chapter 03, Carry): a carry, or a decrement. -/
inductive TlyItem where
  | carry (e : ExpEntry)
  | dec (op : LaneOp)
  deriving DecidableEq, Repr, Inhabited

/-- The Tally Engine: the items that their producers keep for want of an intake credit, the carries in the intake that
wait for an expansion entry, the expansion table, the lanes' operations in order, the operations parked on misses, the
ready backlogs by partition, and TLY_STAT's bits. `last` is the entry whose list the expander read last, with the
operations it emitted, until a second list joins it in its ac (R84). -/
structure Tly where
  wait : List TlyItem
  intake : List ExpEntry
  last : Option (Nat × List LaneOp)
  exp : List ExpEntry
  ops : List LaneOp
  miss : List MissEnt
  backlog : Tab (List Waiting)
  zeroSeen : Bool
  stopped : Bool
  deriving DecidableEq, Repr, Inhabited

/-! ### DIS and PDM (chapter 04) -/

/-- A bead, with what TLY copies from the node record at zero detection (R95). `graph` is the header's handle, or
0xFF_FFFF for a standalone node. `next` is the next unissued block, `fails` the ac in which the head failed its fit
(R98), `held` its hold, `drain` the target agent of its drain (R110), `split` whether it holds a slice-table entry. -/
structure Bead where
  node : Nat
  gen : BitVec 16
  graph : Nat
  part : Nat
  cls : Nat
  prio : Nat
  dlGroup : Nat
  regs : Nat
  groups : Nat
  lmem : Nat
  blocks : Nat
  arg : W64
  kdesc : Nat
  params : BitVec 512
  next : Nat
  fails : Nat
  held : Bool
  drain : Option Nat
  split : Bool
  deriving DecidableEq, Repr, Inhabited

/-- A slice-table entry of a split bead (R104). -/
structure SliceEnt where
  node : Nat
  gen : BitVec 16
  part : Nat
  outstanding : Nat
  allIssued : Bool
  halted : Bool
  peerClosed : Bool
  drops : Nat
  deriving DecidableEq, Repr, Inhabited

/-- A slice that an agent runs, as DIS knows it: for aborts and for the end of a drain (R108). -/
structure Running where
  node : Nat
  gen : BitVec 16
  graph : Nat
  part : Nat
  cls : Nat
  agent : Nat
  aborted : Bool
  deriving DecidableEq, Repr, Inhabited

/-- The Dispatcher. Cores are numbered agent × 16 + core; `used` is keyed by (core × 16 + partition) (R99, R100).
`droop` is the number of ac for which a droop still stops it (R361). -/
structure Dis where
  beads : List Bead
  slices : List SliceEnt
  running : List Running
  cap : Tab Res
  used : Tab Res
  rknBusy : Tab Bool
  credit : Tab Nat
  ptr : Nat
  clsPtr : Tab Nat
  agentPtr : Tab Nat
  droop : Nat
  meter : Nat
  stopped : Bool
  deriving DecidableEq, Repr, Inhabited

/-- Run-time state of a deadline entry: PDM_DL_B.ARMED and SWITCHED, the switch point, and the header of the launch
it watches (R115), with its FALLBACK and EXIT as they were at the activation. -/
structure Deadline where
  armed : Bool
  switched : Bool
  at_ : W64
  main : Nat
  fallback : Nat
  exit_ : Nat
  deriving DecidableEq, Repr, Inhabited

/-- PDM_BT_STAT.STATE. -/
inductive BtState where
  | off | idle | stepping | boundary
  deriving DecidableEq, Repr, Inhabited

/-- A slot of a batching table; `leaving` is the TYPE of a leave that found the leave ring full and is held (R120). -/
structure BtSlot where
  active : Bool
  seqId : Nat
  arg : W64
  leaving : Nat
  deriving DecidableEq, Repr, Inhabited

/-- A batching table (R119–R122). The JOIN and LEAVE counters and STEP stand in its control area too. -/
structure BatchTable where
  st : BtState
  interrupted : Bool
  slots : Tab BtSlot
  listed : Nat
  step : W64
  stopping : Bool
  deriving DecidableEq, Repr, Inhabited

/-- The Partition and Deadline Manager. -/
structure Pdm where
  dl : Tab Deadline
  bt : Tab BatchTable
  stopped : Bool
  deriving DecidableEq, Repr, Inhabited

/-! ### Agents and Reckoners (chapters 05, 06 and 16) -/

/-- State of an active Reckoner, AGT_STAT.RKN_STATE (R140). -/
inductive RknState where
  | idle | setup | running | ending | halting | debug | aborting | loading | stopped
  deriving DecidableEq, Repr, Inhabited

/-- A barrier and the phase that BAU reported for a participant's arrival there (R196). -/
structure PhasePair where
  bar : Nat
  phase : BitVec 16
  deriving DecidableEq, Repr, Inhabited

/-- The pairs of a participant of a core: its block and its thread group (R196). -/
structure GroupPairs where
  core : Nat
  tag : Nat
  group : Nat
  pairs : List PhasePair
  deriving DecidableEq, Repr, Inhabited

/-- A TASK launch that an agent holds (R124, R125). `checked` says that its kernel descriptor has been read. -/
structure AgtTask where
  l : Launch
  checked : Bool
  peerClosed : Bool
  drops : Nat
  deriving DecidableEq, Repr, Inhabited

/-- A message or an answer that reaches an agent, as a stopped agent holds it at its input (R141, R350, R353). -/
inductive AgtIn where
  | blockEnd (core tag : Nat)
  | groupEnd (core tag group : Nat)
  | engDone (core tag : Nat) (value : Option W64)
  | credit (counts : BitVec 256)
  | op (m : OpMsg)
  | answer (core tag status : Nat) (value : W64) (data : Bytes)
  | csend (id : Nat) (value : W64) (data : Bytes)
  | crecv (id : Nat) (value : W64)
  | request (id : Nat) (value : W64)
  | table (id off : Nat) (data : Bytes)
  | hostWord (id : Nat) (value : W64)
  deriving DecidableEq, Repr, Inhabited

/-- A block of a TASK launch (R124): `first` is FIRST_BLOCK of its launch, `started` says that its BLOCK_START has
left, `aborted` that an abort has named it. -/
structure Block where
  core : Nat
  tag : Nat
  node : Nat
  gen : BitVec 16
  first : Nat
  part : Nat
  groups : Nat
  index : Nat
  res : Res
  started : Bool
  aborted : Bool
  deriving DecidableEq, Repr, Inhabited

/-- An outstanding remote operation of a core (R407, R410). `held` is a final write, or a write behind one, that waits
in the agent (R274); `got` is the outcome of an operation performed in this block: status, value and data. -/
structure CoreOp where
  core : Nat
  tag : Nat
  btag : Nat
  group : Nat
  src : Src
  hdr : FabHdr
  size8 : Bool
  lanes : List Lane
  held : Bool
  got : Option (Nat × W64 × Bytes)
  deriving DecidableEq, Repr, Inhabited

/-- A downstream CTL message of the Agent Port (R407), with the number of its flits. -/
inductive DnMsg where
  | blockStart (core tag node part : Nat) (gen : BitVec 16) (groups : Nat) (entry arg : W64) (index regs lmem : Nat)
      (params : BitVec 512)
  | abortBlock (core tag : Nat)
  | engCmd (core eng tag fn slots wmask : Nat) (ret : Bool) (descs : List (BitVec 512))
  | engCfg (core eng tag creg : Nat) (value : W64)
  deriving DecidableEq, Repr, Inhabited

/-- A loop register with the body that its level runs (R134). -/
structure LoopReg where
  count : W32
  idx : W32
  start : Nat
  stop : Nat
  deriving DecidableEq, Repr, Inhabited

/-- An increment register (R135, R159). -/
structure IncReg where
  stride : BitVec 40
  level : Nat
  deriving DecidableEq, Repr, Inhabited

/-- An operand slot that is not EMPTY (R161). -/
structure OpSlot where
  handle : W64
  mask : Nat
  deriving DecidableEq, Repr, Inhabited

/-- An entry of the tensor-descriptor table: the 64 B descriptor as its little-endian value (R126 step 4, R127). -/
structure TdEntry where
  valid : Bool
  part : Nat
  bits : BitVec 512
  deriving DecidableEq, Repr, Inhabited

/-- A scoreboard entry (R131, R132): `id` names its engine operation by command tag, or with `req` its request. -/
structure SbEntry where
  id : Nat
  req : Bool
  eng : Nat
  engCore : Nat
  space : Nat
  core : Nat
  lo : Nat
  hi : Nat
  write : Bool
  deriving DecidableEq, Repr, Inhabited

/-- An engine operation that has not reported complete: its physical core and engine, the register that receives its
value (0: none), whether it writes outside local memory (R133, R170), and the number that the next request had when it was
issued. -/
structure EngOp where
  core : Nat
  eng : Nat
  tag : Nat
  rd : Nat
  outside : Bool
  at_ : Nat
  deriving DecidableEq, Repr, Inhabited

/-- The kinds of Reckoner requests (R167). -/
inductive ReqKind where
  | csend | crecv | bara | barw | rld | rst | atom | inval | route | cadd
  deriving DecidableEq, Repr, Inhabited

/-- An outstanding request of a Reckoner (R167). `target` is its channel, barrier, router entry or group; `held` says
that it has not left the agent; `sent` is the stage of a CSEND: 0 reserving, 1 committing, 2 granted with its data held, 3
written with its commit held (R274), and `grant`, `data` are then the grant and the packet's bytes; `got` is the answer of a
word operation performed in this block or over the fabric. `lo`, `td` are the cursor and the descriptor of its tile. -/
structure RknReq where
  id : Nat
  kind : ReqKind
  rd : Nat
  target : Nat
  held : Bool
  acquire : Bool
  host : Bool
  sent : Nat
  resends : Nat
  hdr : FabHdr
  lo : Nat
  td : BitVec 512
  got : Option W64
  grant : W64
  data : Bytes
  deriving DecidableEq, Repr, Inhabited

/-- A halt that is still to be recorded: its reason, the address and whether an injection made it (R137). -/
structure HaltInfo where
  reason : Nat
  addr : Nat
  inj : Bool
  deriving DecidableEq, Repr, Inhabited

/-- A Reckoner pair (R126, R129–R145): the active one's registers, both memories, and what its launch has
outstanding. `prior` is the state recorded at the stop token (R140). `writes` are its writes to channels of this block that
have not been performed, by channel and offset, and `line` the requests whose writes wait in the agent, in order (R274). -/
structure Rkn where
  st : RknState
  prior : RknState
  launch : Option Launch
  cores : List Nat
  pc : BitVec 16
  imem : Tab W64
  imemS : Tab W64
  dmem : Tab Byte
  dmemS : Tab Byte
  sreg : Tab W64
  pend : BitVec 32
  loops : Tab LoopReg
  depth : Nat
  incs : Tab IncReg
  slots : Tab (Option OpSlot)
  sb : List SbEntry
  ops : List EngOp
  reqs : List RknReq
  nextReq : Nat
  drops : Nat
  peerClosed : Bool
  halted : Bool
  halt : Option HaltInfo
  writes : List (Nat × Nat)
  line : List Nat
  atBreak : Bool
  stepping : Bool
  prevPart : Option Nat
  swappedIn : Bool
  pairs : List PhasePair
  deriving DecidableEq, Repr, Inhabited

/-- A Cluster Agent. `eng` is RKN_FEAT1 as sampled, `capRec` the latest capacity record of each core (R408), `dnQ` the
downstream messages that wait for CTL credits, `eqUsed` the commands of each Reckoner section (core × 4 + engine),
`acts` the launches that have reported activity in the current window (R340), `inbox` what waits at its input while it is
stopped. -/
structure Agent where
  eng : W64
  portRdy : Bool
  capRec : Tab Res
  tasks : List AgtTask
  blocks : List Block
  ops : List CoreOp
  groupPairs : List GroupPairs
  dnCred : Nat
  dnQ : List DnMsg
  eqUsed : Tab Nat
  td : Tab TdEntry
  rkn : Rkn
  spareUsed : Bool
  held : Bool
  swapReq : Bool
  stopped : Bool
  acts : List (Nat × BitVec 16)
  inbox : List AgtIn
  deriving DecidableEq, Repr, Inhabited

/-- A code load (R142–R144): the command, the agents, and the range it writes. -/
structure CodeLoad where
  q : Nat
  seq : Nat
  mask : BitVec 64
  started : Bool
  deriving DecidableEq, Repr, Inhabited

/-! ### CHN and BAU (chapter 07) -/

/-- A packet (R179): its header fields, its cells in chain order, and the 256 B blocks of its payload that a write has reached
(R182); its bytes stand in its cells in the Slate. -/
structure Pkt where
  len : Nat
  gap : Nat
  epoch : BitVec 16
  cells : List Nat
  seq : W64
  ts : W64
  src : Src
  blocks : List Nat
  deriving DecidableEq, Repr, Inhabited

/-- Channel state (R176). `list` holds the committed, unclaimed packets from HEAD to TAIL, `claims` the packets in
the claim slots, `lastSrc` the source of the last commit since the open (R387, INTERLEAVE). -/
structure Chan where
  open_ : Bool
  dropNewest : Bool
  gapTaken : Bool
  part : Nat
  epoch : BitVec 16
  queue : Nat
  quota : Nat
  used : Nat
  depth : Nat
  packets : Nat
  list : List Pkt
  tailGap : Nat
  seq : W64
  notifyNode : Nat
  notifyEn : Bool
  claims : Tab (Option Pkt)
  msg : Nat
  stall : Nat
  drops : Nat
  closedDisc : Nat
  lastSrc : Option Src
  deriving DecidableEq, Repr, Inhabited

/-- An open-send entry (R180): granted, or a reservation that waits. `blocks` are the payload blocks that a write has
reached (R182). -/
structure OpenSend where
  chan : Nat
  src : Src
  len : Nat
  need : Nat
  granted : Bool
  epoch : BitVec 16
  cells : List Nat
  bad : Bool
  blocks : List Nat
  deriving DecidableEq, Repr, Inhabited

/-- A waiting claim (R189). -/
structure Claim where
  chan : Nat
  src : Src
  maxLen : Nat
  deriving DecidableEq, Repr, Inhabited

/-- The Channel Engine. The free list is the set of cells below CHN_POOL.CELLS that no packet holds; `taken` names
the others. `inverted` names the channels whose injected CHN_PKT_CHECK has begun, with the data writes still to be
inverted, and `refused` those whose RESERVE an injected CHN_OVERSIZE refused (R331). -/
structure Chn where
  chans : Tab Chan
  sends : List OpenSend
  claims : List Claim
  cells : Nat
  taken : Tab Bool
  inverted : Tab (Option Nat)
  refused : Tab Bool
  stopped : Bool
  deriving DecidableEq, Repr, Inhabited

/-- Barrier state (R194). -/
structure Bar where
  bound : Bool
  genSet : Bool
  phase : BitVec 16
  node : Nat
  expected : Nat
  arrived : Nat
  gen : BitVec 16
  lastCount : Nat
  deriving DecidableEq, Repr, Inhabited

/-- A held WAIT (R196). -/
structure BarWait where
  bar : Nat
  phase : BitVec 16
  src : Src
  deriving DecidableEq, Repr, Inhabited

/-- The last update of a word by an atomic (R201): the thread group and the barrier epoch of the owner. -/
structure WordUpd where
  src : Src
  epoch : Nat
  deriving DecidableEq, Repr, Inhabited

/-- A group atomic with lanes in other blocks (R199): its source and operation tag, the remote operations not yet
answered, and the old values so far. -/
structure GroupRun where
  src : Src
  tag : Nat
  left : Nat
  old : Bytes
  deriving DecidableEq, Repr, Inhabited

/-- The Barrier and Atomic Unit; `upd` is keyed by Slate address divided by 4. -/
structure Bau where
  groups : List GroupRun
  bars : Tab Bar
  waits : List BarWait
  epoch : Tab Nat
  upd : Tab (Option WordUpd)
  stopped : Bool
  deriving DecidableEq, Repr, Inhabited

/-! ### RTE and CMB (chapters 08 and 09) -/

/-- Pass state of a router entry (R223). -/
inductive PassState where
  | idle | active | closed
  deriving DecidableEq, Repr, Inhabited

/-- Run-time state of a router entry: RTE_RC_STAT, and the expert counts of the pass. -/
structure RteEnt where
  st : PassState
  next : Nat
  pass : W32
  cnt : Tab Nat
  deriving DecidableEq, Repr, Inhabited

/-- A routed request that has not been answered (R233): its counts for the answer, and its count table. -/
structure Routing where
  req : RouteReq
  placed : Nat
  dropped : Nat
  skipped : Nat
  table : List (Nat × Nat)
  deriving DecidableEq, Repr, Inhabited

/-- The Router Engine: entries by number, the hold table in arrival order, requests that may proceed but find four
being routed or one of their own entry (R224), and those being routed. -/
structure Rte where
  ents : Tab RteEnt
  held : List RouteReq
  ready : List RouteReq
  routing : List Routing
  stopped : Bool
  deriving DecidableEq, Repr, Inhabited

/-- An operation that waits for a credit before it leaves its agent or FAB (R22, R180, R189, R196, R224). -/
inductive HeldOp where
  | reserve (c : Nat) (src : Src) (v : Nat)
  | claim (c : Nat) (src : Src) (v : Nat)
  | wait (b : Nat) (src : Src) (phase : BitVec 16)
  | route (q : RouteReq)
  deriving DecidableEq, Repr, Inhabited

/-- State of a combine group, CMB_GRP_STAT (R235, R237). -/
inductive GrpState where
  | idle | opened | zeroing
  deriving DecidableEq, Repr, Inhabited

/-- A combine group: its state and the tokens read out in the pass. -/
structure CmbGrp where
  st : GrpState
  done : Nat
  deriving DecidableEq, Repr, Inhabited

/-- The Combine Unit. The Long Sum images and the token records stand in the Slate (R235). -/
structure Cmb where
  grps : Tab CmbGrp
  stopped : Bool
  deriving DecidableEq, Repr, Inhabited

/-! ### SLT (chapter 10) -/

/-- Role of a physical vault, SLT_VAULT_STAT.ROLE (R244). -/
inductive Role where
  | active | spare | retired | target
  deriving DecidableEq, Repr, Inhabited

/-- Corrected errors of one bit position of a bond-lane group, and the rows they came from (R258). -/
structure LaneErr where
  count : Nat
  rows : List Nat
  deriving DecidableEq, Repr, Inhabited

/-- A physical vault: its role, its bad-block table (R252), corrected errors by row (key: row key of R257), the
spare row, counted from 1, of each spared row, rows
spared by bank, corrected errors, failed lanes and the spare of each failed lane by bond-lane group, rows and lanes that wait for repair, and the next
block that scrub reads. `ceTimes` holds the times of its corrected errors of the past hour (R370). -/
structure Vault where
  role : Role
  bad : List Nat
  rowCe : Tab Nat
  rowMap : Tab Nat
  rowsUsed : Tab Nat
  laneErr : Tab LaneErr
  lanesUsed : Tab Nat
  laneMap : Tab Nat
  rowQ : List Nat
  laneQ : List Nat
  scrubAt : Nat
  ceTimes : List W64
  deriving DecidableEq, Repr, Inhabited

/-- SLT_VSPARE_STAT.STATE (R260). -/
inductive VsState where
  | idle | test | copy | switch | failed
  deriving DecidableEq, Repr, Inhabited

/-- A release tag (R280); absent while no release has written the block. -/
structure RelTag where
  scope : Nat
  block : Nat
  agent : Nat
  unit : Nat
  deriving DecidableEq, Repr, Inhabited

/-- The vault controllers: the vault map, the vaults, the spare-in, release tags by block number, tier temperatures,
REFRESH_2X, the next row that refresh visits in each tier, and whether the power-on fill has ended. -/
structure Slt where
  vmap : Tab Nat
  vaults : Tab Vault
  vs : VsState
  vsLogical : Nat
  vsTarget : Nat
  cursor : Nat
  tags : Tab (Option RelTag)
  temp : Tab Nat
  refresh2x : BitVec 16
  refreshAt : Tab Nat
  hot : BitVec 16
  filled : Bool
  scrubActive : Bool
  stopped : Bool
  deriving DecidableEq, Repr, Inhabited

/-! ### FAB (chapter 11) -/

/-- Who waits for the answer of a fabric request (chapter 11, Remote operations). -/
inductive Requester where
  | core (agent core tag : Nat)
  | rkn (agent req : Nat)
  | tly
  | bau (agent core tag first : Nat)
  | flagSet (q seq : Nat)
  | flagWait (q seq : Nat)
  /-- A write of a tile or a list through agent `agent`, whose acknowledgement no one awaits. -/
  | tile (agent : Nat)
  deriving DecidableEq, Repr, Inhabited

/-- An entry of the outstanding table (R268): its request, its requester, the retries so far and, while it waits in
the retry queue (R270), the timestamp at which it is due. -/
structure OutEnt where
  hdr : FabHdr
  who : Requester
  retries : Nat
  due : Option W64
  aborted : Bool
  failed : Bool
  counted : Bool
  deriving DecidableEq, Repr, Inhabited

/-- A write that waits in FAB behind its source's earlier writes, or for a sequence entry, with its place in the order in which FAB
took the writes (R274, R275). -/
structure HeldWrite where
  order : Nat
  hdr : FabHdr
  who : Requester
  deriving DecidableEq, Repr, Inhabited

/-- An entry of the sequence table (R275): `queue` is the issuing queue of a FLAG_SET, which is a source of its own (R424); the writes of one source to one block since its last final write that are not
yet acknowledged, the final writes that are not, and the final write and the writes behind it that are held (R274). -/
structure SeqEnt where
  srcAgent : Nat
  srcUnit : Nat
  srcPart : Nat
  queue : Option Nat
  dst : Nat
  unacked : Nat
  finals : Nat
  held : List HeldWrite
  deriving DecidableEq, Repr, Inhabited

/-- KIND of a flit and its content (R286, R287). -/
inductive FlitBody where
  | ops (hs : List FabHdr)
  | ctrl (cmd : Nat) (ready : Bool) (block port rxNext : Nat)
  | null
  deriving DecidableEq, Repr, Inhabited

/-- A sequenced flit kept for replay (R289). An operation's DATA flits stand in its header's payload and count as one
flit each. -/
structure SentFlit where
  seq : Nat
  vc : Nat
  body : FlitBody
  flits : Nat
  deriving DecidableEq, Repr, Inhabited

/-- Link state, FAB_PORT_STAT.STATE (R294). -/
inductive LinkState where
  | down | train | ident | up | retrain | dead
  deriving DecidableEq, Repr, Inhabited

/-- A fabric port (R288–R294, R298). Credits are keyed by virtual channel × 17 + partition
pool (16: shared): `tx` counts those this block may still use, `rx` the buffered flits of each partition. `partials` holds, by
virtual channel, the header whose DATA flits are still to come, with their number; `trained` says that a training under
RETRAIN has succeeded. -/
structure FabPort where
  st : LinkState
  peerReady : Bool
  degraded : Bool
  lanes : BitVec 5
  failedLanes : BitVec 5
  peerBlock : Nat
  peerPort : Nat
  txSeq : Nat
  rxNext : Nat
  replay : List SentFlit
  nakSent : Bool
  trainFails : Nat
  peerStopped : Bool
  stopSent : Bool
  ctlQ : List Nat
  replays : List W64
  lastAdvance : W64
  tx : Tab Nat
  rx : Tab Nat
  partials : Tab (Option (FabHdr × Nat))
  inBuf : List FabHdr
  trained : Bool
  eqReq : Bool
  deriving DecidableEq, Repr, Inhabited

/-- Partner state (R296). -/
inductive PartnerState where
  | unreachable | reachable | notReady | waiting
  deriving DecidableEq, Repr, Inhabited

/-- The Hall Fabric: the outstanding table by TXN, requests that wait for an entry of it, requests and responses that
wait for a usable port with credits (R283), the sequence table and the writes that wait for an entry of it, the number of
writes taken so far, the requests of partners that a
unit holds unanswered, the ports and the partner states. -/
structure Fab where
  outst : Tab (Option OutEnt)
  noEntry : List (FabHdr × Requester)
  sendQ : List FabHdr
  seqs : List SeqEnt
  seqWait : List HeldWrite
  writes : Nat
  served : List FabHdr
  ports : Tab FabPort
  partner : Tab PartnerState
  stopped : Bool
  deriving DecidableEq, Repr, Inhabited
/-! ### CRB (chapter 12) -/

/-- Boot stage, CRB_BOOT_STAT.STAGE (R307). -/
inductive Stage where
  | reset | clocks | header | slateInit | load | build | ready | failed
  deriving DecidableEq, Repr, Inhabited

/-- A section of the Kordal image that is still to be applied: TYPE, OFFSET, LENGTH and DIGEST (R311). -/
structure BootSec where
  type : Nat
  off : Nat
  len : Nat
  digest : Nat
  deriving DecidableEq, Repr, Inhabited

/-- The fuses: CRB_OTP, the key digests and the device key (R312, R318). They are static inputs of the block. -/
structure Otp where
  programmed : BitVec 4
  revoked : BitVec 4
  minSvn : Nat
  digest : Tab Nat
  deviceKey : Nat
  deriving DecidableEq, Repr, Inhabited

/-- Clocks, resets and boot: the stage and its failure (R307, R323), the PLLs (R301, R302), the reset's cause
(R304), the applied image (CRB_IMG_INFO), the sections still to come, the trims (R360) and the sections that BUILD
uses (R320, R321), whether BUILD is done, and the fuses. -/
structure Crb where
  stage : Stage
  failCode : Nat
  secType : Nat
  bytesRead : Nat
  rootLock : Bool
  stbyLock : Bool
  onStby : Bool
  stbyFail : Bool
  kind : Nat
  source : Nat
  fault : Nat
  svn : Nat
  keySlot : Nat
  imageLen : Nat
  secs : List BootSec
  nodes : Nat
  cells : Nat
  trims : Tab Nat
  tplSec : Bytes
  queueSec : Bytes
  chanSec : Bytes
  built : Bool
  otp : Otp
  deriving DecidableEq, Repr, Inhabited


/-! ### FLT (chapter 13) -/

/-- Fault class (R328). -/
inductive FClass where
  | c | up | ud
  deriving DecidableEq, Repr, Inhabited

/-- A fault record: FLT_LAST and FLT_LAST_TS. -/
structure FaultRec where
  id : Nat
  cls : FClass
  inj : Bool
  part : Nat
  detail : Nat
  ts : W64
  deriving DecidableEq, Repr, Inhabited

/-- FLT_STOP_STAT.STATE (R347). -/
inductive StopState where
  | running | stopping | saving | stopped | resuming
  deriving DecidableEq, Repr, Inhabited

/-- A registered FLAG_WAIT (R46, R342). -/
structure WaitEnt where
  q : Nat
  seq : Nat
  setter : Nat
  deriving DecidableEq, Repr, Inhabited

/-- The Fault Controller. `raised` holds the faults a command has raised and FLT has not yet taken; it is empty
between commands. `resetSource` is what CRB_RESET_CAUSE takes at the
DEVICE reset that `devReset` announces. `stoppedUnits` names the units (1–20) and agents (32 + a) that have reported stopped. -/
structure Flt where
  last : FaultRec
  lastUd : FaultRec
  log : List FaultRec
  irqStat : BitVec 5
  raised : List FaultRec
  discarding : Tab Bool
  devReset : Bool
  resetSource : Nat
  heldUp : Tab Bool
  stop : StopState
  stopSource : Nat
  stopTs : W64
  stoppedTs : W64
  stoppedUnits : List Nat
  cutValid : Bool
  resumable : Bool
  cutKib : Nat
  wait : List WaitEnt
  walks : List Nat
  cycLen : Nat
  cycQ : List Nat
  stall : Tab Nat
  progressed : Tab Bool
  level : BitVec 5
  deriving DecidableEq, Repr, Inhabited

/-! ### MGT (chapter 14) -/

/-- A log record (chapter 14, The persistent log). `body` is what the record says; how its 28 bytes spell it is not
stated. -/
structure LogRec where
  type : Nat
  seq : Nat
  boot : Nat
  ts : W64
  key : Nat
  body : Nat
  deriving DecidableEq, Repr, Inhabited

/-- State of a sector of the log region (chapter 14). -/
inductive SecState where
  | free | journal | retired
  deriving DecidableEq, Repr, Inhabited

/-- A sector of the log region: state, erase count, and the records its journal part holds. -/
structure Sector where
  st : SecState
  erases : Nat
  recs : Nat
  deriving DecidableEq, Repr, Inhabited

/-- State of an update (R362). -/
inductive UpdState where
  | idle | receiving | verifying | committing | committed
  deriving DecidableEq, Repr, Inhabited

/-- The management unit: the log and its journal, the mailbox, the update, the management port's addresses, sensors,
metering and supplies. `head` is the journal sector appended to, `moved` the sectors the head has moved since the last
compaction. `updWait` says that an UPD_COMMIT with TAG `updTag` is still to be answered; `recov` holds the bytes that the
recovery loader has programmed. Temperatures are in 0.125 °C, voltages in 0.5 mV. `sramCe` counts corrected errors
by SRAM row, `sramRows` names the rows repaired (R370). -/
structure Mgt where
  logQ : List LogRec
  log : List LogRec
  logSeq : Nat
  boot : Nat
  sectors : Tab Sector
  head : Nat
  moved : Nat
  running : Bool
  fw : Bytes
  busy : Bool
  done : Bool
  buf : Tab Byte
  upd : UpdState
  updPort : Bool
  updLast : Nat
  updFail : Nat
  updLen : Nat
  updMap : Tab Bool
  updTag : Nat
  updWait : Bool
  recov : Bytes
  i3cAddr : Option Nat
  i3cPid : Nat
  eid : Nat
  temp : Tab Nat
  failed : Tab Bool
  cross : Tab Nat
  volt : Tab Nat
  voltSince : Tab (Option W64)
  droops : List W64
  rate : Nat
  est : Nat
  thermal : Bool
  vin : Nat
  iin : Nat
  busSince : Option W64
  pmbFail : Tab Nat
  bankOut : Bool
  laneOut : Bool
  sramOut : Bool
  sramRows : List (Nat × Nat)
  sramCe : Tab Nat
  deriving DecidableEq, Repr, Inhabited

/-! ### OBS (chapter 15) -/

/-- A Tally Roll record (R381). -/
structure TrRec where
  type : Nat
  part : Nat
  cls : Nat
  gen : Nat
  node : Nat
  sub : Nat
  ts : W64
  arg1 : W64
  arg2 : Nat
  deriving DecidableEq, Repr, Inhabited

/-- Observability: the live counters and the snapshots of the partition pages (key: partition × 32 + word offset / 8,
R374), the words of each queue (key: queue × 4 + word, R378), the Tally Roll's buffer and state, and the fractions
that energy integration keeps. `inAc` is the number of records placed by the current command (R384). -/
structure Obs where
  live : Tab W64
  snap : Tab W64
  snapTs : Tab W64
  words : Tab W64
  buf : List TrRec
  inAc : Nat
  lost : Nat
  tail : Nat
  phase : Bool
  wrErr : Bool
  stopped : Bool
  writing : Bool
  energyFrac : Nat
  partFrac : Tab Nat
  dbgLevel : Nat
  dbgMask : BitVec 16
  deriving DecidableEq, Repr, Inhabited
/-! ### Test access (chapter 16) -/

/-- The TAP and the IEEE 1500 wrapper: the selected instructions, JTAG_MFR (a static input), the DBG_ACCESS register as the
next Capture-DR leaves it (R401), TEST_MODE as sampled, the boundary register and the test results. -/
structure Test where
  mfr : Nat
  ir : Nat
  dbg : BitVec 96
  testMode : Bool
  wir : Nat
  boundary : Nat
  mbist : List (Nat × Nat)
  bist : Tab BistRes
  deriving DecidableEq, Repr, Inhabited


/-! ### What the block sends -/

/-- What a command makes the block drive or send to the outside of a unit or of the block. The packets a unit
receives are operands of the receiving command. -/
inductive Out where
  /-- A pulse of IRQ_Q[v] (R392). -/
  | irqQ (v : Nat)
  /-- An AXI5 answer: SLVERR or OKAY, and the data of a read (R12, R394). -/
  | axi (slverr : Bool) (data : W64)
  /-- CHI ReadOnce requests of a range (R395). -/
  | chiRead (addr len : Nat)
  /-- A CHI write of the bytes at the address (R395). -/
  | chiWrite (addr : Nat) (data : Bytes)
  /-- A CHI request is sent again after a PCrdGrant (R395). -/
  | resend (r : Retried)
  /-- CHI CleanInvalid requests, one for each 64 B line of a range (R45). -/
  | chiClean (addr len : Nat)
  /-- A CHI transaction of a host-word request (R397). -/
  | chiWord (w : HostWord)
  /-- A completion record: its 32 bytes, in one CHI write (R58). -/
  | cplWrite (addr : Nat) (data : Bytes)
  /-- A launch flit to an agent (R105). -/
  | launch (agent : Nat) (l : Launch)
  /-- An abort flit to an agent (R334). -/
  | abort (agent cls part node : Nat) (gen : BitVec 16)
  /-- A retirement from an agent to TLY (TYPE 0x01, R82) or of a slice to DIS (TYPE 0x02, R104). -/
  | retire (agent : Nat) (toDis : Bool) (node : Nat) (gen : BitVec 16) (r : RetResult) (drops : Nat)
  /-- The merged retirement of a split bead from DIS to TLY (R104). -/
  | merged (node : Nat) (gen : BitVec 16) (r : RetResult) (drops : Nat)
  /-- An occupancy return of an agent (R99), with the launch whose charge it returns. -/
  | occ (agent : Nat) (p : OccPkt) (node : Nat) (gen : BitVec 16)
  /-- A capacity report of an agent (R99). -/
  | cap (agent : Nat) (p : OccPkt)
  /-- A ROUTE sent to RTE, and a CADD sent to CMB (R172). -/
  | route (r : RouteReq)
  | cadd (r : CaddReq)
  /-- Bytes that the block writes through an agent at an address of a space outside the Slate: tiles, lists
  (R187, R191, R231). -/
  | tile (agent space core : Nat) (addr : W64) (data : Bytes)
  /-- A downstream CTL message that enters an Agent Port FIFO (R407). -/
  | dn (agent : Nat) (m : DnMsg)
  /-- Credits of an upstream channel, 0 CTL or 1 OP, that an Agent Port gives to the cores' side (R326, R405). -/
  | upCredit (agent vc n : Nat)
  /-- An ANSWER message of an Agent Port (R407). -/
  | ans (agent core tag status : Nat) (value : W64) (data : Bytes)
  /-- A retirement notice of an agent to BAU (R197). -/
  | notice (agent node : Nat) (gen : BitVec 16) (pairs : List PhasePair)
  /-- An answer or acknowledgement of a unit to a source's operation: the operation's own code, and its value. -/
  | answer (src : Src) (op : Nat) (value : W64)
  /-- Bytes that a unit returns to a source's read. -/
  | readData (src : Src) (data : Bytes)
  /-- A vault controller's answer to a block request, from its Slate stop: the block's bytes, or an error response (R243, R251,
  R252). -/
  | slate (stop : Nat) (ok : Bool) (data : Bytes)
  /-- An operation that an agent sends to a unit of the block: CHN, BAU or CMB (R265, R266), with the group slot and the
  lanes that a header does not carry. -/
  | unitOp (src : Src) (tag : Nat) (h : FabHdr) (size8 : Bool) (lanes : List Lane)
  /-- A request or response that FAB hands to a unit or a unit to FAB (R266, R267). -/
  | fab (h : FabHdr)
  /-- Flits that a fabric port sends, with their ACK: those of `f` from the `skip`-th on (R286, R289); their bytes on the wire are
  `flitWire`. -/
  | flit (port ack skip : Nat) (f : SentFlit)
  /-- A NULL flit with ACK and NAK (R287, R288). -/
  | nullFlit (port ack : Nat) (nak : Bool)
  /-- Flit credits that a port returns in CRED: the virtual channel, the partition pool (16: shared) and their number
  (R290). -/
  | credit (port vc pool n : Nat)
  /-- FPk_EQ_REQ rises (R369, R403). -/
  | eqReq (port : Nat)
  /-- What a test data register holds: its length in bits and its value (R400–R402). -/
  | dr (bits value : Nat)
  /-- The boundary register drives the Hub ports (R402). -/
  | boundary (value : Nat)
  /-- A management response that leaves the management port, and an In-Band Interrupt (R357, R359). -/
  | mctp (data : Bytes)
  | ibi
  /-- The management port raises Hot-Join, and its identities, which ENTDAA reads: the Provisional ID, BCR and DCR (R359, R399). -/
  | hotJoin
  | i3cIdent (pid bcr dcr : Nat)
  deriving DecidableEq, Repr, Inhabited

/-- A class of Beam packets (chapter 01, The Beam). -/
inductive BeamClass where
  | cmd | ret | mem | rsp
  deriving DecidableEq, Repr, Inhabited

/-- The Beam packet that an item sent is: its class, its source stop and its destination stop (R18). A Hub unit's stop is
numbered as the unit is in chapter 01, an agent's 32 + its number. -/
def Out.beam : Out → Option (BeamClass × Nat × Nat)
  | .launch a _ => some (.cmd, 6, 32 + a)
  | .abort a _ _ _ _ => some (.cmd, 6, 32 + a)
  | .retire a toDis _ _ _ _ => some (.ret, 32 + a, if toDis then 6 else 5)
  | .merged _ _ _ _ => some (.ret, 6, 5)
  | .occ a _ _ _ => some (.ret, 32 + a, 6)
  | .cap a _ => some (.ret, 32 + a, 6)
  | .notice a _ _ _ => some (.ret, 32 + a, 12)
  | .route r => some (.ret, 32 + r.agent, 13)
  | .cadd r => some (.ret, 32 + r.agent, 14)
  | _ => none

/-! ### The block -/

/-- The agent count N, fixed at synthesis: 16, 32 or 64 (R15, R417). -/
inductive AgentCount where
  | n16 | n32 | n64
  deriving DecidableEq, Repr, Inhabited

/-- The whole state of the block. `pending` is the queue of waiting commands, first in first out. `out` is what the
last command sent, `beam` the Beam packets that have been sent and have not arrived, oldest first (R18). `free` counts the free values taken so far (Config). `regs` holds the fields that software writes
and the counters, by byte address. `apEng` is the static input AP_ENG of each agent. `mem` holds the bytes of the Slate's data pool and SYSTEM region, by Slate address
(unlisted bytes read as zero, R254). -/
structure State where
  pending : List Instr
  out : List Out
  beam : List Out
  ts : W64
  free : Nat
  agents : AgentCount
  apEng : Tab W64
  regs : Tab W64
  mem : Tab Byte
  parts : Tab Part
  queues : Tab Queue
  hif : Hif
  cfe : Cfe
  aut : Aut
  grs : Grs
  tly : Tly
  dis : Dis
  agt : Tab Agent
  codeLoads : List CodeLoad
  pdm : Pdm
  chn : Chn
  bau : Bau
  rte : Rte
  cmb : Cmb
  held : List HeldOp
  slt : Slt
  fab : Fab
  flt : Flt
  obs : Obs
  mgt : Mgt
  crb : Crb
  test : Test
  deriving DecidableEq, Repr, Inhabited

/-! ### How a step can stop -/

/-- The faults of a step. There is none: every command ends in a next state, as its meaning says; a fault of the
block (chapter 13) is part of that state. -/
inductive Fault where
  deriving DecidableEq, Repr

/-- The refusals of a step. -/
inductive Refusal where
  /-- Raised by `exec` for a command that has no meaning yet; safe: nothing is proved of it. -/
  | notModelled (mnemonic : String)
  deriving DecidableEq, Repr

/-! ### Reset -/

/-- The registers of the store whose reset value is not zero, by address (chapter 17). -/
def State.resetRegs : Tab W64 := List.flatten [
  (List.range 16).map fun k => (0x410 + 0x20 * k, 0x404),
  [(0x100000, 4), (0x400000, 0x000006720C400100)],
  (List.range 16).map fun b => (0x502000 + 32 * b, 0x44800),
  [(0xa00300, 0x80000E10), (0xa00308, 0x1008), (0xa02000, 0x20000), (0xb00010, 0x0010000000000100), (0xb00018, 0x81000)],
  (List.range 8).map fun k => (0xb00100 + 0x20 * k, 0x0000004010000000),
  [(0xc00040, 0x0000016401000000), (0xe00010, 8), (0xe00030, 0xFFFF)]]

/-- The log region of a new part: an empty journal whose head is sector 2 (chapter 14). -/
def State.resetMgt : Mgt :=
  { (default : Mgt) with rate := 8192, head := 2, sectors := [(2, { st := .journal, erases := 0, recs := 0 })] }

/-- The block right after a power-on reset: stage RESET with every asynchronous input inactive, registers at the reset
values of chapter 17. DESIGN CHOICE: 32 agents, blank fuses, an empty log, AP_ENG zero (log entries name these). -/
def State.reset : State :=
  { (default : State) with
    agents := .n32, regs := State.resetRegs, mgt := State.resetMgt,
    obs := { (default : Obs) with phase := true }, flt := { (default : Flt) with level := 0x1F } }

end Sys2Proof.Machine
end

