-- ==== Sys2Proof/Machine/Tab.lean ====
section
/-!
DEFINITION. Operations of sparse tables and of byte strings, and bit-field helpers. The table operations keep
the canonical form, so that equal tables are equal data.
-/

namespace Sys2Proof

/-- The entry at index `k`; the type's default where none is listed. -/
def Tab.look {α : Type} [Inhabited α] : Tab α → Nat → α
  | [], _ => default
  | (n, v) :: r, k => if k = n then v else if k < n then default else Tab.look r k

/-- The entries above index `k`. -/
def Tab.above {α : Type} : Tab α → Nat → Tab α
  | [], _ => []
  | (n, v) :: r, k => if n ≤ k then Tab.above r k else (n, v) :: r

/-- The table with entry `v` at index `k`; the default entry is not listed. -/
def Tab.put {α : Type} [Inhabited α] [DecidableEq α] : Tab α → Nat → α → Tab α
  | [], k, v => if v = default then [] else [(k, v)]
  | (n, w) :: r, k, v =>
    if n < k then (n, w) :: Tab.put r k v
    else
      let rest := Tab.above ((n, w) :: r) k
      if v = default then rest else (k, v) :: rest

/-- The table with `f` applied to the entry at `k`. -/
def Tab.upd {α : Type} [Inhabited α] [DecidableEq α] (t : Tab α) (k : Nat) (f : α → α) : Tab α :=
  t.put k (f (t.look k))

/-- `f` applied to every listed entry in turn, low index first. -/
def Tab.foldUpd {α : Type} [Inhabited α] [DecidableEq α] (t : Tab α) (f : Nat → α → α) : Tab α :=
  t.foldl (fun u e => u.put e.1 (f e.1 e.2)) t

/-- Whether indices rise strictly from above `lo` and no listed entry is the default. -/
def Tab.canonFrom {α : Type} [Inhabited α] [DecidableEq α] : Nat → Tab α → Bool
  | _, [] => true
  | lo, (n, v) :: r => decide (lo ≤ n) && decide (v ≠ default) && Tab.canonFrom (n + 1) r

/-- The canonical form of a table. -/
def Tab.canon {α : Type} [Inhabited α] [DecidableEq α] (t : Tab α) : Bool := Tab.canonFrom 0 t

/-- Bits `hi` down to `lo` of a number. -/
def bitsOf (x hi lo : Nat) : Nat := x / 2 ^ lo % 2 ^ (hi + 1 - lo)

/-- Bit `i` of a number as a Bool. -/
def bitOf (x i : Nat) : Bool := x / 2 ^ i % 2 == 1

/-- 1 for true, 0 for false. -/
def b2n (b : Bool) : Nat := if b then 1 else 0

/-- Little-endian value of a byte string (R6). -/
def leNat : Bytes → Nat
  | [] => 0
  | b :: r => b.toNat + 256 * leNat r

/-- Big-endian value of a byte string (for the published standards that number bytes from the top). -/
def beNat (b : Bytes) : Nat := leNat b.reverse

/-- The `n` low bytes of a number, little-endian (R6). -/
def leBytes : Nat → Nat → Bytes
  | 0, _ => []
  | n + 1, x => BitVec.ofNat 8 x :: leBytes n (x / 256)

/-- The `n` low bytes of a number, big-endian. -/
def beBytes (n x : Nat) : Bytes := (leBytes n x).reverse

/-- A field of `bits` bits from bit `sh` of the little-endian value that starts at byte `off` of a byte string
(chapter 00, Records); bytes past the end read as 0. -/
def Bytes.fld (b : Bytes) (off sh bits : Nat) : Nat :=
  leNat ((b.drop off).take ((sh + bits + 7) / 8)) / 2 ^ sh % 2 ^ bits

/-- `n` bytes from byte `off`, filled with zeros past the end. -/
def Bytes.slice (b : Bytes) (off n : Nat) : Bytes :=
  let x := (b.drop off).take n
  x ++ List.replicate (n - x.length) 0

/-- Whether every byte is zero. -/
def Bytes.allZero (b : Bytes) : Bool := b.all (· == 0)

/-- The first `k` in `lo, lo+1, …` (at most `n` of them) that meets `p`. -/
def firstFrom (p : Nat → Bool) : Nat → Nat → Option Nat
  | _, 0 => none
  | lo, n + 1 => if p lo then some lo else firstFrom p (lo + 1) n

/-- The element at position `i` and the list without it. -/
def takeAt {α : Type} : List α → Nat → Option (α × List α)
  | [], _ => none
  | x :: r, 0 => some (x, r)
  | x :: r, i + 1 => (takeAt r i).map fun y => (y.1, x :: y.2)

/-- The first element that meets `p`, and the list without it. -/
def takeFirst {α : Type} (p : α → Bool) : List α → Option (α × List α)
  | [] => none
  | x :: r => if p x then some (x, r) else (takeFirst p r).map fun y => (y.1, x :: y.2)

/-- `f` applied to the first element that meets `p`. -/
def updFirst {α : Type} (p : α → Bool) (f : α → α) : List α → List α
  | [] => []
  | x :: r => if p x then f x :: r else x :: updFirst p f r

/-- The least of a list by a number, the earliest among equals. -/
def minBy {α : Type} (f : α → Nat) : List α → Option α
  | [] => none
  | x :: r => match minBy f r with
    | none => some x
    | some y => if f x ≤ f y then some x else some y

/-- `f` applied `n` times. -/
def iter {α : Type} (f : α → α) : Nat → α → α
  | 0, x => x
  | n + 1, x => iter f n (f x)

end Sys2Proof
end

