-- ==== Sys2Proof/Machine/Regs.lean ====
section
/-!
DEFINITION. The registers that software writes and the counters: where each stands in the register space
(chapter 17, R418, R419), reading and writing a field of one, and counting (R5).
-/

namespace Sys2Proof.Machine

open Sys2Proof

/-- A counter register: its byte address and its width (chapter 17, registers marked Cnt). -/
structure Ctr where
  addr : Nat
  bits : Nat
  deriving DecidableEq, Repr

/-- HIF_DB_IGN_CNT (chapter 17). -/
def Ctr.hifDbIgn : Ctr := ⟨0x700, 32⟩

/-- HIF_CTRL_IGN_CNT (chapter 17). -/
def Ctr.hifCtrlIgn : Ctr := ⟨0x704, 32⟩

/-- HIF_SPILL_CNT (chapter 17). -/
def Ctr.hifSpill : Ctr := ⟨0x708, 32⟩

/-- HIF_LOCKED_WR_CNT (chapter 17). -/
def Ctr.hifLockedWr : Ctr := ⟨0x70c, 32⟩

/-- HIF_UNMAPPED_CNT (chapter 17). -/
def Ctr.hifUnmapped : Ctr := ⟨0x710, 32⟩

/-- CFE_REFUSE_CNT (chapter 17). -/
def Ctr.cfeRefuse : Ctr := ⟨0x100100, 32⟩

/-- AUT_FAIL_CNT (chapter 17). -/
def Ctr.autFail : Ctr := ⟨0x180200, 32⟩

/-- AUT_REPLAY_CNT (chapter 17). -/
def Ctr.autReplay : Ctr := ⟨0x180204, 32⟩

/-- GRS_HIT_CNT (chapter 17). -/
def Ctr.grsHit : Ctr := ⟨0x200100, 64⟩

/-- GRS_MISS_CNT (chapter 17). -/
def Ctr.grsMiss : Ctr := ⟨0x200108, 64⟩

/-- GRS_SWEEP_CNT (chapter 17). -/
def Ctr.grsSweep : Ctr := ⟨0x200110, 32⟩

/-- TLY_DEC_CNT (chapter 17). -/
def Ctr.tlyDec : Ctr := ⟨0x300100, 64⟩

/-- TLY_STALE_RET_CNT (chapter 17). -/
def Ctr.tlyStaleRet : Ctr := ⟨0x300108, 32⟩

/-- TLY_BAD_RET_CNT (chapter 17). -/
def Ctr.tlyBadRet : Ctr := ⟨0x30010c, 32⟩

/-- TLY_LATE_DEC_CNT (chapter 17). -/
def Ctr.tlyLateDec : Ctr := ⟨0x300110, 32⟩

/-- TLY_IDLE_DEC_CNT (chapter 17). -/
def Ctr.tlyIdleDec : Ctr := ⟨0x300114, 32⟩

/-- TLY_UNDERFLOW_CNT (chapter 17). -/
def Ctr.tlyUnderflow : Ctr := ⟨0x300118, 32⟩

/-- TLY_LANE_STALL_CNT (chapter 17). -/
def Ctr.tlyLaneStall : Ctr := ⟨0x30011c, 32⟩

/-- TLY_BACKLOG_CNT (chapter 17). -/
def Ctr.tlyBacklog : Ctr := ⟨0x300120, 32⟩

/-- TLY_REMOTE_OUT_CNT (chapter 17). -/
def Ctr.tlyRemoteOut : Ctr := ⟨0x300128, 64⟩

/-- TLY_REMOTE_IN_CNT (chapter 17). -/
def Ctr.tlyRemoteIn : Ctr := ⟨0x300130, 64⟩

/-- TLY_REMOTE_RETRY_CNT (chapter 17). -/
def Ctr.tlyRemoteRetry : Ctr := ⟨0x300138, 32⟩

/-- TLY_REMOTE_NACK_CNT (chapter 17). -/
def Ctr.tlyRemoteNack : Ctr := ⟨0x30013c, 32⟩

/-- DIS_DISPATCH_CNT (chapter 17). -/
def Ctr.disDispatch : Ctr := ⟨0x400400, 64⟩

/-- DIS_STALE_BEAD_CNT (chapter 17). -/
def Ctr.disStaleBead : Ctr := ⟨0x400408, 32⟩

/-- DIS_NOFIT_CNT (chapter 17). -/
def Ctr.disNofit : Ctr := ⟨0x40040c, 32⟩

/-- DIS_HOLD_CNT (chapter 17). -/
def Ctr.disHold : Ctr := ⟨0x400410, 32⟩

/-- DIS_DRAIN_CNT (chapter 17). -/
def Ctr.disDrain : Ctr := ⟨0x400414, 32⟩

/-- PDM_FB_CNT (chapter 17). -/
def Ctr.pdmFb : Ctr := ⟨0x503000, 32⟩

/-- PDM_FB_BUSY_CNT (chapter 17). -/
def Ctr.pdmFbBusy : Ctr := ⟨0x503004, 32⟩

/-- PDM_LATE_SWITCH_CNT (chapter 17). -/
def Ctr.pdmLateSwitch : Ctr := ⟨0x503008, 32⟩

/-- PDM_SKIP_CNT (chapter 17). -/
def Ctr.pdmSkip : Ctr := ⟨0x50300c, 32⟩

/-- PDM_SUPPRESS_CNT (chapter 17). -/
def Ctr.pdmSuppress : Ctr := ⟨0x503010, 32⟩

/-- PDM_DL_BAD_CNT (chapter 17). -/
def Ctr.pdmDlBad : Ctr := ⟨0x503014, 32⟩

/-- PDM_BT_JOIN_CNT (chapter 17). -/
def Ctr.pdmBtJoin : Ctr := ⟨0x503018, 64⟩

/-- PDM_BT_LEAVE_CNT (chapter 17). -/
def Ctr.pdmBtLeave : Ctr := ⟨0x503020, 64⟩

/-- PDM_BT_ERR_CNT (chapter 17). -/
def Ctr.pdmBtErr : Ctr := ⟨0x503028, 32⟩

/-- CHN_MSG_CNT (chapter 17). -/
def Ctr.chnMsg : Ctr := ⟨0x600400, 64⟩

/-- CHN_DROP_CNT (chapter 17). -/
def Ctr.chnDrop : Ctr := ⟨0x600408, 32⟩

/-- CHN_CLOSED_CNT (chapter 17). -/
def Ctr.chnClosed : Ctr := ⟨0x60040c, 32⟩

/-- CHN_REWIND_CNT (chapter 17). -/
def Ctr.chnRewind : Ctr := ⟨0x600410, 32⟩

/-- CHN_REFUSE_CNT (chapter 17). -/
def Ctr.chnRefuse : Ctr := ⟨0x600414, 32⟩

/-- CHN_ORPHAN_CNT (chapter 17). -/
def Ctr.chnOrphan : Ctr := ⟨0x600418, 32⟩

/-- CHN_XPART_CNT (chapter 17). -/
def Ctr.chnXpart : Ctr := ⟨0x60041c, 32⟩

/-- CHN_STALL_CNT (chapter 17). -/
def Ctr.chnStall : Ctr := ⟨0x600420, 32⟩

/-- BAU_ARRIVE_CNT (chapter 17). -/
def Ctr.bauArrive : Ctr := ⟨0x700400, 64⟩

/-- BAU_RELEASE_CNT (chapter 17). -/
def Ctr.bauRelease : Ctr := ⟨0x700408, 32⟩

/-- BAU_LOWER_REL_CNT (chapter 17). -/
def Ctr.bauLowerRel : Ctr := ⟨0x70040c, 32⟩

/-- BAU_DUP_CNT (chapter 17). -/
def Ctr.bauDup : Ctr := ⟨0x700410, 32⟩

/-- BAU_REFUSE_CNT (chapter 17). -/
def Ctr.bauRefuse : Ctr := ⟨0x700414, 32⟩

/-- BAU_ATOM_CNT (chapter 17). -/
def Ctr.bauAtom : Ctr := ⟨0x700418, 64⟩

/-- BAU_LANE_CNT (chapter 17). -/
def Ctr.bauLane : Ctr := ⟨0x700420, 64⟩

/-- BAU_RMW_CNT (chapter 17). -/
def Ctr.bauRmw : Ctr := ⟨0x700428, 64⟩

/-- RTE_ROUTE_CNT (chapter 17). -/
def Ctr.rteRoute : Ctr := ⟨0x800400, 64⟩

/-- RTE_PLACED_CNT (chapter 17). -/
def Ctr.rtePlaced : Ctr := ⟨0x800408, 64⟩

/-- RTE_DROP_CNT (chapter 17). -/
def Ctr.rteDrop : Ctr := ⟨0x800410, 64⟩

/-- RTE_SKIP_CNT (chapter 17). -/
def Ctr.rteSkip : Ctr := ⟨0x800418, 32⟩

/-- RTE_HOLD_CNT (chapter 17). -/
def Ctr.rteHold : Ctr := ⟨0x80041c, 32⟩

/-- RTE_CFG_IGN_CNT (chapter 17). -/
def Ctr.rteCfgIgn : Ctr := ⟨0x800420, 32⟩

/-- CMB_ROW_CNT (chapter 17). -/
def Ctr.cmbRow : Ctr := ⟨0x900400, 64⟩

/-- CMB_ADDEND_CNT (chapter 17). -/
def Ctr.cmbAddend : Ctr := ⟨0x900408, 64⟩

/-- CMB_READOUT_CNT (chapter 17). -/
def Ctr.cmbReadout : Ctr := ⟨0x900410, 64⟩

/-- CMB_MISS_CNT (chapter 17). -/
def Ctr.cmbMiss : Ctr := ⟨0x900418, 64⟩

/-- CMB_STRAY_CNT (chapter 17). -/
def Ctr.cmbStray : Ctr := ⟨0x900420, 32⟩

/-- CMB_UNDER_CNT (chapter 17). -/
def Ctr.cmbUnder : Ctr := ⟨0x900424, 32⟩

/-- CMB_SAT_CNT (chapter 17). -/
def Ctr.cmbSat : Ctr := ⟨0x900428, 32⟩

/-- CMB_STRICT_NAN_CNT (chapter 17). -/
def Ctr.cmbStrictNan : Ctr := ⟨0x90042c, 32⟩

/-- CMB_OVF_CNT (chapter 17). -/
def Ctr.cmbOvf : Ctr := ⟨0x900430, 32⟩

/-- CMB_CFG_IGN_CNT (chapter 17). -/
def Ctr.cmbCfgIgn : Ctr := ⟨0x900434, 32⟩

/-- SLT_CE_CNT (chapter 17). -/
def Ctr.sltCe : Ctr := ⟨0xa00400, 64⟩

/-- SLT_REREAD_CNT (chapter 17). -/
def Ctr.sltReread : Ctr := ⟨0xa00408, 32⟩

/-- SLT_UE_CNT (chapter 17). -/
def Ctr.sltUe : Ctr := ⟨0xa0040c, 32⟩

/-- SLT_RANGE_CNT (chapter 17). -/
def Ctr.sltRange : Ctr := ⟨0xa00410, 32⟩

/-- SLT_ROW_SPARE_CNT (chapter 17). -/
def Ctr.sltRowSpare : Ctr := ⟨0xa00414, 32⟩

/-- SLT_LANE_SPARE_CNT (chapter 17). -/
def Ctr.sltLaneSpare : Ctr := ⟨0xa00418, 32⟩

/-- SLT_VAULT_SPARE_CNT (chapter 17). -/
def Ctr.sltVaultSpare : Ctr := ⟨0xa0041c, 32⟩

/-- SLT_SCRUB_FIX_CNT (chapter 17). -/
def Ctr.sltScrubFix : Ctr := ⟨0xa00420, 64⟩

/-- SLT_CFG_IGN_CNT (chapter 17). -/
def Ctr.sltCfgIgn : Ctr := ⟨0xa00428, 32⟩

/-- SLT_WR_CRC_CNT (chapter 17). -/
def Ctr.sltWrCrc : Ctr := ⟨0xa0042c, 32⟩

/-- FAB_TX_FLIT_CNT (chapter 17). -/
def Ctr.fabTxFlit : Ctr := ⟨0xb00800, 64⟩

/-- FAB_RX_FLIT_CNT (chapter 17). -/
def Ctr.fabRxFlit : Ctr := ⟨0xb00808, 64⟩

/-- FAB_CRC_ERR_CNT (chapter 17). -/
def Ctr.fabCrcErr : Ctr := ⟨0xb00810, 32⟩

/-- FAB_REPLAY_CNT (chapter 17). -/
def Ctr.fabReplay : Ctr := ⟨0xb00814, 32⟩

/-- FAB_RETRAIN_CNT (chapter 17). -/
def Ctr.fabRetrain : Ctr := ⟨0xb00818, 32⟩

/-- FAB_TRAIN_FAIL_CNT (chapter 17). -/
def Ctr.fabTrainFail : Ctr := ⟨0xb0081c, 32⟩

/-- FAB_LANE_SPARE_CNT (chapter 17). -/
def Ctr.fabLaneSpare : Ctr := ⟨0xb00820, 32⟩

/-- FAB_PROTO_CNT (chapter 17). -/
def Ctr.fabProto : Ctr := ⟨0xb00824, 32⟩

/-- FAB_RETRY_CNT (chapter 17). -/
def Ctr.fabRetry : Ctr := ⟨0xb00828, 32⟩

/-- FAB_NACK_OUT_CNT (chapter 17). -/
def Ctr.fabNackOut : Ctr := ⟨0xb0082c, 32⟩

/-- FAB_DENIED_CNT (chapter 17). -/
def Ctr.fabDenied : Ctr := ⟨0xb00830, 32⟩

/-- FAB_LINK_LOST_CNT (chapter 17). -/
def Ctr.fabLinkLost : Ctr := ⟨0xb00834, 32⟩

/-- FAB_HOP_CNT (chapter 17). -/
def Ctr.fabHop : Ctr := ⟨0xb00838, 32⟩

/-- FAB_ORPHAN_RSP_CNT (chapter 17). -/
def Ctr.fabOrphanRsp : Ctr := ⟨0xb0083c, 32⟩

/-- FAB_SCOPE_DIFF_CNT (chapter 17). -/
def Ctr.fabScopeDiff : Ctr := ⟨0xb00840, 32⟩

/-- FAB_SCOPE_MISMATCH_CNT (chapter 17). -/
def Ctr.fabScopeMismatch : Ctr := ⟨0xb00844, 32⟩

/-- FAB_SCOPE_BAD_CNT (chapter 17). -/
def Ctr.fabScopeBad : Ctr := ⟨0xb00848, 32⟩

/-- FLT_C_CNT (chapter 17). -/
def Ctr.fltC : Ctr := ⟨0xc00800, 32⟩

/-- FLT_UP_CNT (chapter 17). -/
def Ctr.fltUp : Ctr := ⟨0xc00804, 32⟩

/-- FLT_MERGE_CNT (chapter 17). -/
def Ctr.fltMerge : Ctr := ⟨0xc00808, 32⟩

/-- FLT_CYCLE_CNT (chapter 17). -/
def Ctr.fltCycle : Ctr := ⟨0xc0080c, 32⟩

/-- FLT_INJ_CNT (chapter 17). -/
def Ctr.fltInj : Ctr := ⟨0xc00810, 32⟩

/-- FLT_INJ_IGN_CNT (chapter 17). -/
def Ctr.fltInjIgn : Ctr := ⟨0xc00814, 32⟩

/-- FLT_STOP_IGN_CNT (chapter 17). -/
def Ctr.fltStopIgn : Ctr := ⟨0xc00818, 32⟩

/-- FLT_STALL_WIN_CNT (chapter 17). -/
def Ctr.fltStallWin : Ctr := ⟨0xc0081c, 32⟩

/-- FLT_LATE_ANS_CNT (chapter 17). -/
def Ctr.fltLateAns : Ctr := ⟨0xc00820, 32⟩

/-- FLT_LOG_LOST_CNT (chapter 17). -/
def Ctr.fltLogLost : Ctr := ⟨0xc00824, 32⟩

/-- MGT_MBX_IGN_CNT (chapter 17). -/
def Ctr.mgtMbxIgn : Ctr := ⟨0xd00400, 32⟩

/-- MGT_DROOP_CNT (chapter 17). -/
def Ctr.mgtDroop : Ctr := ⟨0xd00404, 32⟩

/-- MGT_CAP_ACT_CNT (chapter 17). -/
def Ctr.mgtCapAct : Ctr := ⟨0xd00408, 32⟩

/-- MGT_PMB_ERR_CNT (chapter 17). -/
def Ctr.mgtPmbErr : Ctr := ⟨0xd0040c, 32⟩

/-- MGT_LOG_WR_CNT (chapter 17). -/
def Ctr.mgtLogWr : Ctr := ⟨0xd00410, 64⟩

/-- MGT_SPARE_REQ_CNT (chapter 17). -/
def Ctr.mgtSpareReq : Ctr := ⟨0xd00418, 32⟩

/-- MGT_UPD_CNT (chapter 17). -/
def Ctr.mgtUpd : Ctr := ⟨0xd0041c, 32⟩

/-- OBS_ENERGY_UJ (chapter 17). -/
def Ctr.obsEnergyUj : Ctr := ⟨0xe00040, 64⟩

/-- OBS_HOT85_MS (chapter 17). -/
def Ctr.obsHot85Ms : Ctr := ⟨0xe00048, 32⟩

/-- OBS_HOT95_MS (chapter 17). -/
def Ctr.obsHot95Ms : Ctr := ⟨0xe0004c, 32⟩

/-- OBS_TR_REC_CNT (chapter 17). -/
def Ctr.obsTrRec : Ctr := ⟨0xe00400, 64⟩

/-- OBS_TR_LOST_CNT (chapter 17). -/
def Ctr.obsTrLost : Ctr := ⟨0xe00408, 32⟩

/-- OBS_UNPRIV_CNT (chapter 17). -/
def Ctr.obsUnpriv : Ctr := ⟨0xe0040c, 32⟩

/-- OBS_CFG_IGN_CNT (chapter 17). -/
def Ctr.obsCfgIgn : Ctr := ⟨0xe00410, 32⟩

/-- CRB_BOOT_IGN_CNT (chapter 17). -/
def Ctr.crbBootIgn : Ctr := ⟨0xf00100, 32⟩

/-- CRB_PLL_SWAP_CNT (chapter 17). -/
def Ctr.crbPllSwap : Ctr := ⟨0xf00104, 32⟩

/-- FLT_GLITCH_CNT_k (chapter 17). -/
def Ctr.fltGlitch (k : Nat) : Ctr := ⟨0xc00840 + 4 * k, 32⟩

/-- The base of the window of agent `a` (R418, R419). -/
def agentBase (a : Nat) : Nat := 0x1000000 + a * 0x10000

/-- RKN_INSTR_CNT of agent `a` (chapter 17). -/
def Ctr.rknInstr (a : Nat) : Ctr := ⟨agentBase a + 0x100, 64⟩

/-- RKN_STALL_Q_CNT of agent `a` (chapter 17). -/
def Ctr.rknStallQ (a : Nat) : Ctr := ⟨agentBase a + 0x108, 64⟩

/-- RKN_STALL_SB_CNT of agent `a` (chapter 17). -/
def Ctr.rknStallSb (a : Nat) : Ctr := ⟨agentBase a + 0x110, 64⟩

/-- RKN_STALL_REG_CNT of agent `a` (chapter 17). -/
def Ctr.rknStallReg (a : Nat) : Ctr := ⟨agentBase a + 0x118, 64⟩

/-- RKN_HALT_CNT of agent `a` (chapter 17). -/
def Ctr.rknHalt (a : Nat) : Ctr := ⟨agentBase a + 0x120, 32⟩

/-- RKN_CE_CNT of agent `a` (chapter 17). -/
def Ctr.rknCe (a : Nat) : Ctr := ⟨agentBase a + 0x124, 32⟩

/-- AGT_SPARE_CNT of agent `a` (chapter 17). -/
def Ctr.agtSpare (a : Nat) : Ctr := ⟨agentBase a + 0x128, 32⟩

/-- AGT_BAD_LAUNCH_CNT of agent `a` (chapter 17). -/
def Ctr.agtBadLaunch (a : Nat) : Ctr := ⟨agentBase a + 0x12c, 32⟩

/-- RKN_REQ_CNT of agent `a` (chapter 17). -/
def Ctr.rknReq (a : Nat) : Ctr := ⟨agentBase a + 0x130, 64⟩

/-- RKN_RECV_SHORT_CNT of agent `a` (chapter 17). -/
def Ctr.rknRecvShort (a : Nat) : Ctr := ⟨agentBase a + 0x138, 32⟩

/-- AGT_PORT_ERR_CNT of agent `a` (chapter 17). -/
def Ctr.agtPortErr (a : Nat) : Ctr := ⟨agentBase a + 0x140, 32⟩

/-- The counters of the Hub units, for the register map. -/
def hubCounters : List Ctr :=
  List.flatten [[Ctr.hifDbIgn, Ctr.hifCtrlIgn, Ctr.hifSpill, Ctr.hifLockedWr, Ctr.hifUnmapped, Ctr.cfeRefuse],
   [Ctr.autFail, Ctr.autReplay, Ctr.grsHit, Ctr.grsMiss, Ctr.grsSweep, Ctr.tlyDec],
   [Ctr.tlyStaleRet, Ctr.tlyBadRet, Ctr.tlyLateDec, Ctr.tlyIdleDec, Ctr.tlyUnderflow, Ctr.tlyLaneStall],
   [Ctr.tlyBacklog, Ctr.tlyRemoteOut, Ctr.tlyRemoteIn, Ctr.tlyRemoteRetry, Ctr.tlyRemoteNack, Ctr.disDispatch],
   [Ctr.disStaleBead, Ctr.disNofit, Ctr.disHold, Ctr.disDrain, Ctr.pdmFb, Ctr.pdmFbBusy],
   [Ctr.pdmLateSwitch, Ctr.pdmSkip, Ctr.pdmSuppress, Ctr.pdmDlBad, Ctr.pdmBtJoin, Ctr.pdmBtLeave],
   [Ctr.pdmBtErr, Ctr.chnMsg, Ctr.chnDrop, Ctr.chnClosed, Ctr.chnRewind, Ctr.chnRefuse],
   [Ctr.chnOrphan, Ctr.chnXpart, Ctr.chnStall, Ctr.bauArrive, Ctr.bauRelease, Ctr.bauLowerRel],
   [Ctr.bauDup, Ctr.bauRefuse, Ctr.bauAtom, Ctr.bauLane, Ctr.bauRmw, Ctr.rteRoute],
   [Ctr.rtePlaced, Ctr.rteDrop, Ctr.rteSkip, Ctr.rteHold, Ctr.rteCfgIgn, Ctr.cmbRow],
   [Ctr.cmbAddend, Ctr.cmbReadout, Ctr.cmbMiss, Ctr.cmbStray, Ctr.cmbUnder, Ctr.cmbSat],
   [Ctr.cmbStrictNan, Ctr.cmbOvf, Ctr.cmbCfgIgn, Ctr.sltCe, Ctr.sltReread, Ctr.sltUe],
   [Ctr.sltRange, Ctr.sltRowSpare, Ctr.sltLaneSpare, Ctr.sltVaultSpare, Ctr.sltScrubFix, Ctr.sltCfgIgn],
   [Ctr.sltWrCrc, Ctr.fabTxFlit, Ctr.fabRxFlit, Ctr.fabCrcErr, Ctr.fabReplay, Ctr.fabRetrain],
   [Ctr.fabTrainFail, Ctr.fabLaneSpare, Ctr.fabProto, Ctr.fabRetry, Ctr.fabNackOut, Ctr.fabDenied],
   [Ctr.fabLinkLost, Ctr.fabHop, Ctr.fabOrphanRsp, Ctr.fabScopeDiff, Ctr.fabScopeMismatch, Ctr.fabScopeBad],
   [Ctr.fltC, Ctr.fltUp, Ctr.fltMerge, Ctr.fltCycle, Ctr.fltInj, Ctr.fltInjIgn],
   [Ctr.fltStopIgn, Ctr.fltStallWin, Ctr.fltLateAns, Ctr.fltLogLost, Ctr.mgtMbxIgn, Ctr.mgtDroop],
   [Ctr.mgtCapAct, Ctr.mgtPmbErr, Ctr.mgtLogWr, Ctr.mgtSpareReq, Ctr.mgtUpd, Ctr.obsEnergyUj],
   [Ctr.obsHot85Ms, Ctr.obsHot95Ms, Ctr.obsTrRec, Ctr.obsTrLost, Ctr.obsUnpriv, Ctr.obsCfgIgn],
   [Ctr.crbBootIgn, Ctr.crbPllSwap],
   (List.range 5).map Ctr.fltGlitch]

/-- The counters of an agent window, for the register map. -/
def agentCounters (a : Nat) : List Ctr :=
  [Ctr.rknInstr a, Ctr.rknStallQ a, Ctr.rknStallSb a, Ctr.rknStallReg a, Ctr.rknHalt a, Ctr.rknCe a, Ctr.agtSpare a, Ctr.agtBadLaunch a, Ctr.rknReq a, Ctr.rknRecvShort a, Ctr.agtPortErr a]

/-- The value of a register in the store. -/
def regGet (s : State) (a : Nat) : W64 := s.regs.look a

/-- Bits `hi` to `lo` of a register in the store. -/
def regFld (s : State) (a hi lo : Nat) : Nat := bitsOf (s.regs.look a).toNat hi lo

/-- One bit of a register in the store. -/
def regBit (s : State) (a i : Nat) : Bool := bitOf (s.regs.look a).toNat i

/-- A register of the store set to a value. -/
def regSet (s : State) (a : Nat) (v : W64) : State := { s with regs := s.regs.put a v }

/-- A field of a register of the store set to a value; its other bits keep theirs. -/
def regSetFld (s : State) (a hi lo v : Nat) : State :=
  let x := (s.regs.look a).toNat
  regSet s a (BitVec.ofNat 64 (x - bitsOf x hi lo * 2 ^ lo + v % 2 ^ (hi + 1 - lo) * 2 ^ lo))

/-- A counter increased by `n`, saturating at its all-ones value (R5). -/
def countN (s : State) (c : Ctr) (n : Nat) : State :=
  regSet s c.addr (BitVec.ofNat 64 (min ((s.regs.look c.addr).toNat + n) (2 ^ c.bits - 1)))

/-- A counter increased by one, saturating at its all-ones value (R5). -/
def count (s : State) (c : Ctr) : State := countN s c 1

/-- Bits `hi` to `lo` set. -/
def maskBits (hi lo : Nat) : Nat := 2 ^ (hi + 1) - 2 ^ lo

/-- Whether `a` is one of `n` registers from `base`, `stride` apart. -/
def inRow (a base stride n : Nat) : Bool :=
  decide (base ≤ a) && decide (a < base + stride * n) && (a - base) % stride == 0

/-- The RW-L bits of the 8 bytes at address `a`, aligned to 8 (R421, R422). -/
def lockMask (s : State) (a : Nat) : Nat :=
  if inRow a 0x400100 8 16 then maskBits 8 8 + maskBits 23 16
  else if inRow a 0x400200 8 16 then maskBits 63 0
  else if inRow a 0x501010 16 255 then maskBits 9 0 + maskBits 25 16 + maskBits 31 31 + maskBits 55 32
  else if inRow a 0x501018 16 255 then maskBits 31 0
  else if inRow a 0x700100 8 16 then maskBits 15 0 + maskBits 48 32
  else if inRow a 0x810000 0x20 1024 then maskBits 35 32
  else if inRow a 0x910000 0x20 256 then maskBits 11 8
  else if inRow a 0xa00200 8 16 then maskBits 9 0 + maskBits 25 16
  else if a = 0xb00000 then maskBits 11 0
  else if inRow a 0xb00100 0x20 8 then maskBits 19 8
  else if inRow a 0xb00400 8 16 then maskBits 15 0 + maskBits 27 16 + maskBits 43 32 + maskBits 63 63
  else if inRow a 0xb10000 8 2048 then maskBits 7 0 + maskBits 39 32
  else if inRow a 0xd00180 8 4 then maskBits 7 0 + maskBits 39 32
  else if inRow a 0x1000020 0x10000
      (match s.agents with | .n16 => 16 | .n32 => 32 | .n64 => 64) then maskBits 15 0
  else 0

end Sys2Proof.Machine
end

