-- ==== Sys2Proof/Machine/Ops.lean ====
section
/-!
DEFINITION. Named operations over the state that several units share: what a command sends, free values, the owners of
handles, the Slate's bytes, queue configuration and completion records, faults, and what OBS counts and records.
-/

namespace Sys2Proof.Machine

open Sys2Proof

/-! ### Sending and free values -/

/-- The state at the start of a command: nothing sent yet. -/
def State.quiet (s : State) : State := { s with out := [], obs.inAc := 0 }

/-- `o` is sent. -/
def emit (s : State) (o : Out) : State := { s with out := s.out ++ [o] }

/-- Several items are sent, in order. -/
def emits (s : State) (l : List Out) : State := { s with out := s.out ++ l }

/-- A Beam packet that `is` names arrives, where its receiver takes it (`ok`): not before an older packet of its class, its
source stop and its destination stop, and whatever other classes hold (R18, R19). A packet that no unit of the model has
sent arrives as the command gives it. (DEDUCED, log entry 4). (DESIGN CHOICE, log entry 109). -/
def arrives (s : State) (ok : Bool) (is : Out → Bool) (f : State → State) : State :=
  if !ok then s
  else match takeFirst is s.beam with
  | none => f s
  | some (o, rest) => if (s.beam.takeWhile fun x => !is x).any fun x => x.beam == o.beam then s else f { s with beam := rest }

/-- The packets on the Beam that a delivering command can name: a retirement for TLY, an occupancy return, an abort, a notice
for BAU, and a ROUTE and a CADD as they left, before the tiles' bytes. -/
def isRetire (n : Nat) (gen : BitVec 16) (r : RetResult) (drops : Nat) : Out → Bool
  | .retire _ toDis m g x d => !toDis && m == n && g == gen && x == r && d == drops
  | .merged m g x d => m == n && g == gen && x == r && d == drops
  | _ => false
def isOcc (a : Nat) (k : OccPkt) : Out → Bool
  | .occ b p _ _ => b == a && p == k
  | _ => false
def isAbort (a n : Nat) (gen : BitVec 16) : Out → Bool
  | .abort b _ _ m g => b == a && m == n && g == gen
  | _ => false
def isNotice (n : Nat) (gen : BitVec 16) (pairs : List (Nat × BitVec 16)) : Out → Bool
  | .notice _ m g l => m == n && g == gen && (l.map fun x => (x.bar, x.phase)) == pairs
  | _ => false
def isRoute (q : RouteReq) : Out → Bool
  | .route r => r == { q with data := [] }
  | _ => false
def isCadd (c : CaddReq) : Out → Bool
  | .cadd r => r == { c with data := [], tokData := [], wtData := [] }
  | _ => false

/-- The next free number: a choice that the spec leaves open. (DESIGN CHOICE, log entry 77). -/
def freeNat (s : State) : Nat × State := (Config.freeNat s.free, { s with free := s.free + 1 })

/-- The next free word. -/
def freeWord (s : State) : W64 × State := (Config.freeWord s.free, { s with free := s.free + 1 })

/-- The first number below `n` that `used` does not hold, looking upwards with wrap-around from a free number.
(DESIGN CHOICE, log entry 35). -/
def pickFresh (s : State) (used : Nat → Bool) (n : Nat) : Option Nat × State :=
  let (k, s) := freeNat s
  let start := k % n
  (match firstFrom (fun i => !used i) start (n - start) with
   | some i => some i
   | none => firstFrom (fun i => !used i) 0 start, s)

/-! ### Configuration -/

/-- N, the number of agents (R15). -/
def AgentCount.toNat : AgentCount → Nat
  | .n16 => 16
  | .n32 => 32
  | .n64 => 64

/-- N of this block. (DESIGN CHOICE, log entry 8). -/
def agentCount (s : State) : Nat := s.agents.toNat

/-- FAB_ID.BLOCK. -/
def blockId (s : State) : Nat := regFld s 0xb00000 11 0

/-- Whether the block is Ready. -/
def isReady (s : State) : Bool := s.crb.stage == .ready

/-! ### Owners of handles (R63, R52, R264) -/

/-- Whether partition `p` owns node handle `n`. -/
def ownsNode (s : State) (p n : Nat) : Bool :=
  let r := s.parts.look p
  decide (r.nodeBase ≤ n) && decide (n < r.nodeBase + r.nodeCount)

/-- The partition whose node range holds `n` (R63). -/
def partOfNode (s : State) (n : Nat) : Option Nat := firstFrom (fun p => ownsNode s p n) 0 16

/-- Whether partition `p` owns channel handle `c`. -/
def ownsChan (s : State) (p c : Nat) : Bool :=
  let r := s.parts.look p
  decide (r.chanBase ≤ c) && decide (c < r.chanBase + r.chanCount)

/-- The partition whose channel range holds `c`. -/
def partOfChan (s : State) (c : Nat) : Option Nat := firstFrom (fun p => ownsChan s p c) 0 16

/-- Whether partition `p` owns barrier `b` (BAU_PART_BAR_p, R194). -/
def ownsBar (s : State) (p b : Nat) : Bool :=
  let base := regFld s (0x700100 + 8 * p) 15 0
  decide (base ≤ b) && decide (b < base + regFld s (0x700100 + 8 * p) 48 32)

/-- The partition of a node, 0 where none owns it. -/
def partOr0 (s : State) (n : Nat) : Nat := (partOfNode s n).getD 0

/-! ### The Slate's bytes (R247, R248) -/

/-- One unit of the region map: 64 MiB (R246). -/
def unitBytes : Nat := 0x4000000

/-- Base of partition `p`'s data region as a Slate address. -/
def dataBase (s : State) (p : Nat) : Nat := regFld s (0xa00200 + 8 * p) 9 0 * unitBytes

/-- Size in bytes of partition `p`'s data region. -/
def dataSize (s : State) (p : Nat) : Nat := regFld s (0xa00200 + 8 * p) 25 16 * unitBytes

/-- First byte of the data pool: the end of the CELL region (R246). -/
def poolBase (s : State) : Nat :=
  (regFld s 0xa00120 9 0 + regFld s 0xa00120 25 16) * unitBytes

/-- One past the last byte of the Slate: 840 units (R246). -/
def slateTop : Nat := 840 * unitBytes

/-- Whether `n` bytes from Slate offset `o` lie in partition `p`'s data region (R247). -/
def inData (s : State) (p o n : Nat) : Bool := decide (o + n ≤ dataSize s p)

/-- The byte at Slate address `a`. (DEDUCED, log entry 12). -/
def memByte (s : State) (a : Nat) : Byte := s.mem.look a

/-- `n` bytes from Slate address `a`. -/
def memRead (s : State) (a : Nat) : Nat → Bytes
  | 0 => []
  | n + 1 => s.mem.look a :: memRead s (a + 1) n

/-- Slate blocks that a request of partition `p` touches are counted (R374, SLATE_BLK). -/
def touch (s : State) (p a n : Nat) : State :=
  if n = 0 then s
  else
    let k := (a + n + 255) / 256 - a / 256
    { s with obs.live := s.obs.live.upd (32 * p + 6) fun v => BitVec.ofNat 64 (min (v.toNat + k) (2 ^ 64 - 1)) }

/-- Bytes stored from Slate address `a` upwards, in a memory. -/
def memPut (m : Tab Byte) (a : Nat) : Bytes → Tab Byte
  | [] => m
  | b :: r => memPut (m.put a b) (a + 1) r

/-- Bytes stored from Slate address `a` upwards. -/
def memWrite (s : State) (a : Nat) (b : Bytes) : State := { s with mem := memPut s.mem a b }

/-- The aligned word at Slate address `a`, little-endian (R6). -/
def memWord (s : State) (a : Nat) : W64 := BitVec.ofNat 64 (leNat (memRead s a 8))

/-- A word stored at Slate address `a`, little-endian (R6). -/
def memSetWord (s : State) (a : Nat) (v : W64) : State := memWrite s a (leBytes 8 v.toNat)

/-! ### Observability (R374, R378, R382, R384, R387) -/

/-- A live counter of a partition page increased by `n`: `i` is its offset divided by 8 (R374). -/
def pageCount (s : State) (p i n : Nat) : State :=
  { s with obs.live := s.obs.live.upd (32 * p + i) fun v => BitVec.ofNat 64 (min (v.toNat + n) (2 ^ 64 - 1)) }

/-- A word of a queue increased by one: 0 FETCHED, 1 COMPLETED, 2 NODES (R378). -/
def wordCount (s : State) (q i : Nat) : State :=
  { s with obs.words := s.obs.words.upd (4 * q + i) fun v => BitVec.ofNat 64 (min (v.toNat + 1) (2 ^ 64 - 1)) }

/-- A progress event of queue `q` (R340): the window's mark and LAST_PROGRESS; the QUEUE of an internal launch names no
queue. -/
def progress (s : State) (q : Nat) : State :=
  if 0x1010 ≤ q then s else { s with flt.progressed := s.flt.progressed.put q true, obs.words := s.obs.words.put (4 * q + 3) s.ts }

/-- A Tally Roll record offered to the buffer: lost where the buffer holds 4,096 or the ac has placed 16, and behind a
LOST record after a loss (R384). -/
def trPlace (s : State) (r : TrRec) : State :=
  if s.obs.buf.length ≥ 4096 || s.obs.inAc ≥ 16 then
    count { s with obs.lost := s.obs.lost + 1 } .obsTrLost
  else if s.obs.lost = 0 then
    { s with obs.buf := s.obs.buf ++ [r], obs.inAc := s.obs.inAc + 1 }
  else
    let l : TrRec := { type := 7, part := 0, cls := 0, gen := 0, node := Config.noNode, sub := 0, ts := s.ts,
                       arg1 := BitVec.ofNat 64 s.obs.lost, arg2 := 0 }
    let s := { s with obs.buf := s.obs.buf ++ [l], obs.inAc := s.obs.inAc + 1, obs.lost := 0 }
    if s.obs.buf.length ≥ 4096 || s.obs.inAc ≥ 16 then
      count { s with obs.lost := 1 } .obsTrLost
    else { s with obs.buf := s.obs.buf ++ [r], obs.inAc := s.obs.inAc + 1 }

/-- A Tally Roll record of an event, placed when OBS_TR_CTRL records its type and its partition (R380, R382). -/
def trRecord (s : State) (r : TrRec) : State :=
  if regBit s 0xe00000 0 &&
      (decide (7 ≤ r.type ∧ r.type ≤ 9) || (regBit s 0xe00000 (3 + r.type) && regBit s 0xe00000 (16 + r.part)))
  then trPlace s r else s

/-- A timing-dependent choice reported to OBS (R387): DET, DET_FIRST and the DET record. -/
def detReport (s : State) (part kind obj : Nat) (node : Nat) (srcId : Nat) : State :=
  let first := s.obs.live.look (32 * part + 14) == 0
  let s := if first then
      { s with obs.live := (s.obs.live.put (32 * part + 15)
                  (BitVec.ofNat 64 (kind + 256 * (if kind = 2 then bitsOf obj 58 3 else obj)))).put
                  (32 * part + 16) s.ts }
    else s
  let s := pageCount s part 14 1
  trRecord s { type := 10, part := part, cls := 0, gen := 0, node := node, sub := kind, ts := s.ts,
               arg1 := BitVec.ofNat 64 obj, arg2 := srcId }

/-- A source identity: [11:0] block, [17:12] agent, [22:18] unit (R382). -/
def srcIdent (x : Src) : Nat := x.block % 4096 + x.agent % 64 * 4096 + x.unit % 32 * 2 ^ 18

/-! ### Faults (R328–R332) -/

/-- Whether the injection point of fault `id` is armed with a TARGET that `ok` accepts (R332).
(DEDUCED, log entry 37). -/
def injArmed (s : State) (id : Nat) (ok : Nat → Bool) : Bool :=
  regBit s 0xc00100 63 && regFld s 0xc00100 15 0 == id && ok (regFld s 0xc00100 47 24)

/-- Whether the injection point of fault `id` is armed for partition `p` (R331, R332). -/
def injPart (s : State) (id p : Nat) : Bool :=
  regBit s 0xc00100 63 && regFld s 0xc00100 15 0 == id && regFld s 0xc00100 19 16 == p

/-- The armed injection fires: ARM clears and FLT counts it (R332). -/
def injFire (s : State) : State := count (regSetFld s 0xc00100 63 63 0) .fltInj

/-- A fault is raised: FLT takes it at the end of the command, in the same ac (Machine/Fault.lean). -/
def raiseInj (s : State) (id : Nat) (cls : FClass) (part detail : Nat) (inj : Bool) : State :=
  { s with flt.raised := s.flt.raised ++
      [{ id := id, cls := cls, inj := inj, part := if cls = .up then part else 0, detail := detail % 2 ^ 24, ts := s.ts }] }

/-- A fault of the block's own is raised. -/
def raise (s : State) (id : Nat) (cls : FClass) (part detail : Nat) : State := raiseInj s id cls part detail false

/-! ### Queues (R30, R48, R59, R61) -/

/-- Whether a queue id is a kernel queue's. -/
def isKernel (q : Nat) : Bool := decide (0x1000 ≤ q ∧ q < 0x1010)

/-- Whether a queue id names a queue. -/
def isQueue (q : Nat) : Bool := decide (q < 0x1010)

/-- Address of the HIF_KQ registers of kernel queue id `q`. -/
def kqAddr (q : Nat) : Nat := 0x400 + 0x20 * (q - 0x1000)

/-- A queue. -/
def queue (s : State) (q : Nat) : Queue := s.queues.look q

/-- A queue changed. -/
def updQ (s : State) (q : Nat) (f : Queue → Queue) : State := { s with queues := s.queues.upd q f }

/-- Submission ring size in records. -/
def sqSize (s : State) (q : Nat) : Nat :=
  2 ^ (if isKernel q then regFld s (kqAddr q + 0x10) 4 0 else (queue s q).sqLog2)

/-- Completion ring size in records. -/
def cqSize (s : State) (q : Nat) : Nat :=
  2 ^ (if isKernel q then regFld s (kqAddr q + 0x10) 12 8 else (queue s q).cqLog2)

/-- Submission ring base. -/
def sqBase (s : State) (q : Nat) : Nat := if isKernel q then (regGet s (kqAddr q)).toNat else (queue s q).sqBase

/-- Completion ring base. -/
def cqBase (s : State) (q : Nat) : Nat := if isKernel q then (regGet s (kqAddr q + 8)).toNat else (queue s q).cqBase

/-- Interrupt vector. -/
def intVec (s : State) (q : Nat) : Nat :=
  if isKernel q then regFld s (kqAddr q + 0x10) 29 24 else (queue s q).intVec

/-- Completion records of the ring that host software has not consumed. -/
def cqUsed (s : State) (q : Nat) : Nat :=
  let r := queue s q
  (r.cplTail + cqSize s q - r.cplHead) % cqSize s q

/-- Free completion slots (R59). -/
def freeSlots (s : State) (q : Nat) : Nat := cqSize s q - 1 - cqUsed s q - (queue s q).resv

/-- An input that the table of R61 does not list for the queue's state: ignored and counted. -/
def ignoreInput (s : State) : State := count s .hifCtrlIgn

/-- The queue stops with a reason, and HIF_IRQ_STAT shows it (R33, R60, R46). -/
def stopQueue (s : State) (q : Nat) (r : StopReason) : State :=
  let bit : BitVec 4 := match r with
    | .none => 0
    | .cplFault => 1
    | .resync => 4
    | .deadlock => 8
  { updQ s q (fun u => { u with st := .stopped, reason := r }) with hif.irqStat := s.hif.irqStat ||| bit }

/-! ### Completion records (R42, R43, R58–R60) -/

/-- A header field of a command: `bits` bits from bit `sh` of the value at byte `off` (chapter 00, Records). -/
def Cmd.fld (c : Cmd) (off sh bits : Nat) : Nat := c.body / 2 ^ (8 * off + sh) % 2 ^ bits

/-- OPCODE of a command. -/
def Cmd.op (c : Cmd) : Nat := c.fld 0 0 8

/-- The 32 bytes of a completion record as its one CHI write carries them, PHASE in the last word (R58). -/
def cplBytes (r : CplRec) : Bytes :=
  leBytes 1 r.status ++ leBytes 1 r.opcode ++ leBytes 2 r.queue ++ leBytes 4 r.tag ++ leBytes 2 r.sqIndex ++ [0, 0]
    ++ leBytes 4 r.detail ++ leBytes 8 r.ts.toNat ++ leBytes 3 r.node ++ [0]
    ++ leBytes 4 (b2n r.phase + 2 * b2n r.spilled)

/-- A record placed in the spill, or HIF_SPILL_FULL where it is full (R60). -/
def spillItem (s : State) (i : CplItem) : State :=
  if s.hif.spill.length ≥ 4096 then raise s 0x0102 .ud 0 i.q
  else count { s with hif.spill := s.hif.spill ++ [{ i with record := { i.record with spilled := true } }] } .hifSpill

/-- A live command changed; one that has ended and owes no node record leaves the list. -/
def mapLive (u : Queue) (seq : Nat) (f : Live → Live) : Queue :=
  let l := u.live.map fun l => if l.cmd.seq = seq then f l else l
  { u with live := l.filter fun l => !(l.ended && l.nodes == 0) }

/-- GEN of a node's graph, as a record of the node carries it; 0 for a standalone node. -/
def graphGen (s : State) (node : Nat) : BitVec 16 :=
  let r := s.grs.nodes.look node
  if r.kind == .free || r.graph = Config.noNode then 0 else (s.grs.nodes.look r.graph).gen

/-- A node's completion record, produced under generation `gen` of its graph, has been written (or spilled): the launch or
submission it belongs to owes one less (R61 FENCE, R76). A record of a discarded launch is no record of the next one. -/
def nodeRecordWritten (s : State) (q seq node : Nat) (gen : BitVec 16) : State :=
  let s := updQ s q fun u => mapLive u seq fun l => { l with nodes := l.nodes - 1 }
  let g := (s.grs.nodes.look node).graph
  if (s.grs.nodes.look node).kind == .free || g = Config.noNode || (s.grs.nodes.look g).gen ≠ gen then s
  else { s with grs.nodes := s.grs.nodes.upd g fun h => { h with hdr.cplOut := h.hdr.cplOut - 1 } }

/-- A completion record produced for queue `q`: it takes a reserved slot and the next place of the ring, and goes to
the host or, behind earlier spilled records of the queue, to the spill (R58–R60). While HIF is stopped it writes
nothing new (R349). -/
def produceRecord (s : State) (q : Nat) (r : CplRec) (irq node : Bool) (seq : Nat) : State :=
  let u := queue s q
  let next := (u.cplTail + 1) % cqSize s q
  let rec' := { r with queue := q, ts := s.ts, phase := u.phase, spilled := false }
  let addr := cqBase s q + 32 * u.cplTail
  let s := updQ s q fun u => { u with cplTail := next, phase := if next = 0 then !u.phase else u.phase,
                                      resv := u.resv - 1 }
  let s := if node then s else wordCount s q 1
  let s := if (r.status == 0x30 || r.status == 0x31) && !isKernel q then pageCount s u.part 11 1 else s
  let item : CplItem := { q := q, slot := u.cplTail, record := rec', irq := irq, node := node,
                          gen := if node then graphGen s r.node else 0, seq := seq, resumed := false }
  if s.hif.spill.any (·.q == q) then
    let s := spillItem s item
    if node then nodeRecordWritten s q seq r.node item.gen else s
  else if s.hif.stopped then { s with hif.waiting := s.hif.waiting ++ [item] }
  else emit { s with hif.flight := s.hif.flight ++ [item] } (.cplWrite addr (cplBytes rec'))

/-- A live command of a queue. -/
def liveCmd (s : State) (q seq : Nat) : Option Live := (queue s q).live.find? (·.cmd.seq == seq)

/-- A command of queue `q` completes with a status and a DETAIL (R42): a record is written unless the status is DONE
and CPL is 0, whose slot returns. -/
def complete (s : State) (q : Nat) (c : Cmd) (status detail : Nat) : State :=
  let s := updQ s q fun u => mapLive u c.seq fun l => { l with ended := true }
  if status ≠ 0 || c.fld 2 0 1 = 1 then
    produceRecord s q { status := status, opcode := c.op, queue := q, tag := c.fld 4 0 32, sqIndex := c.idx,
                        detail := detail % 2 ^ 32, ts := s.ts, node := 0, phase := false, spilled := false }
      (c.fld 2 1 1 = 1) false c.seq
  else updQ s q fun u => { u with resv := u.resv - 1 }

/-- A refused command: counted, and completed with its status whatever CPL says (R42). -/
def refuse (s : State) (q : Nat) (c : Cmd) (status detail : Nat) : State :=
  complete (count s .cfeRefuse) q c status detail

/-- A node's completion record (R83): OPCODE 0xFF, with the node's tag, handle and launching command. -/
def completeNode (s : State) (src : LaunchSrc) (node tag status detail : Nat) (irq : Bool) : State :=
  produceRecord s src.q { status := status, opcode := 0xFF, queue := src.q, tag := tag, sqIndex := src.sqIdx,
                          detail := detail % 2 ^ 32, ts := s.ts, node := node, phase := false, spilled := false }
    irq true src.seq

/-- A record handed to MGT for the persistent log; LOG_APPEND writes it (R364). -/
def logRecord (s : State) (type key body : Nat) : State :=
  { s with
    mgt.logQ := s.mgt.logQ ++ [{ type := type, seq := s.mgt.logSeq, boot := s.mgt.boot, ts := s.ts, key := key,
                                 body := body }],
    mgt.logSeq := s.mgt.logSeq + 1 }

/-! ### Release tags (R277, R280) -/

/-- The tag of the release of a source, written with a release write into the block that holds Slate address `a`.
(DEDUCED, log entry 71). -/
def setTag (s : State) (a : Nat) (scope block agent unit : Nat) : State :=
  { s with slt.tags := s.slt.tags.put (a / 256) (some { scope := scope, block := block, agent := agent,
                                                        unit := unit }) }

/-- The tag as the 25 bits that an acquire returns (R280); REL_SCOPE 0b11 where no release has written the block. -/
def tagWord (s : State) (a : Nat) : Nat :=
  match s.slt.tags.look (a / 256) with
  | none => 3
  | some t => t.scope % 4 + t.block % 4096 * 4 + t.agent % 64 * 2 ^ 14 + t.unit % 32 * 2 ^ 20

/-- Whether a scope contains both parties (R276): CORE holds one core and the Reckoner of a layer that holds it, and no unit of
the Hub. -/
def scopeContains (s : State) (scope blockA agentA unitA blockB agentB unitB : Nat) : Bool :=
  let layer := fun k => (s.agt.look agentA).rkn.launch.isSome && (s.agt.look agentA).rkn.cores.contains k
  if scope = 0 then blockA == blockB && agentA == agentB &&
    (if unitA = unitB then decide (unitA ≤ 16) else if unitA = 16 then layer unitB else unitB == 16 && layer unitA)
  else if scope = 1 then blockA == blockB
  else true

/-- An acquire compares the tag it received with its own scope (R280). -/
def acquireCheck (s : State) (tag scope agent unit : Nat) : State :=
  let ts := tag % 4
  if ts = 3 then s
  else
    let s := if ts ≠ scope then count s .fabScopeDiff else s
    if scopeContains s (min ts scope) (tag / 4 % 4096) (tag / 2 ^ 14 % 64) (tag / 2 ^ 20 % 32) (blockId s) agent unit then s
    else count s .fabScopeMismatch

/-! ### Shared credits (R22) -/

/-- Whether a queue of `total` shared places, with `own` reserved for each partition, has a credit left for
partition `p`, given the partitions of the items it holds (R22). -/
def hasCredit (held : List Nat) (own shared p : Nat) : Bool :=
  let n := fun i => (held.filter (· == i)).length
  let excess := ((List.range 16).map fun i => n i - own).foldl (· + ·) 0
  decide (n p < own) || decide (excess < shared)

/-- The waiting FLAG_WAIT or the FLAG_SET of a queue completes, HANDLE and DEADLOCK as refusals (R41, R42); a queue that
waited returns to FETCHING (R61). -/
def endFlag (s : State) (q seq status detail : Nat) : State :=
  match liveCmd s q seq with
  | none => s
  | some l =>
    let s := if status = 0 then complete s q l.cmd 0 detail
             else if status = 0x14 ∨ status = 0x21 then refuse s q l.cmd status detail
             else complete s q l.cmd status detail
    if s.flt.wait.any (fun w => w.q == q && w.seq == seq) then
      let s := { s with flt.wait := s.flt.wait.filter fun w => !(w.q == q && w.seq == seq) }
      if (queue s q).st = .waiting then updQ s q fun u => { u with st := .fetching } else s
    else s

end Sys2Proof.Machine
end

