-- ==== Sys2Proof/Machine/Fabric.lean ====
section
/-!
DEFINITION. Operations of the Hall Fabric that other units use: sending a request, routing, replay buffers and
credits, refusals and retries of the block's own requests (R268–R277, R283, R289, R290, R295, R296).
-/

namespace Sys2Proof.Machine

open Sys2Proof

/-- A fabric port. -/
def port (s : State) (k : Nat) : FabPort := s.fab.ports.look k

/-- A fabric port changed. -/
def updPort (s : State) (k : Nat) (f : FabPort → FabPort) : State :=
  { s with fab.ports := s.fab.ports.upd k f }

/-- FAB_ROUTE_d.PORTS. -/
def routeMask (s : State) (d : Nat) : Nat := regFld s (0xb10000 + 4 * d) 7 0

/-- The ports of a route mask. -/
def maskPorts (m : Nat) : List Nat := (List.range 8).filter fun k => bitOf m k

/-- Whether a port may carry requests and responses (R283, R298). -/
def usable (s : State) (k : Nat) : Bool :=
  let p := port s k
  p.st == .up && p.peerReady && !p.peerStopped && !p.stopSent

/-- The virtual channel of an operation: 0 REQ, 1 RSP (R290). -/
def vcOf (op : Nat) : Nat := if 8 ≤ op ∧ op ≤ 0xB then 1 else 0

/-- DATA flits that follow a header (R287). -/
def dataFlits (h : FabHdr) : Nat :=
  if h.op = 5 ∨ h.op = 0xA then 1
  else if h.op = 6 then (if h.aop = 9 then 2 else 1)
  else 0

/-- Free credits of a port for a virtual channel and a partition: its own pool and the shared one (R22, R290). -/
def portCredits (s : State) (k vc p : Nat) : Nat :=
  (port s k).tx.look (vc * 17 + p) + (port s k).tx.look (vc * 17 + 16)

/-- `n` credits taken, from the partition's pool first. -/
def takeCredits (t : Tab Nat) (vc p n : Nat) : Tab Nat :=
  let own := min n (t.look (vc * 17 + p))
  (t.upd (vc * 17 + p) (· - own)).upd (vc * 17 + 16) (· - (n - own))

/-- ACK: the SEQ of the last flit accepted in order (R286). -/
def lastAck (p : FabPort) : Nat := (p.rxNext + 4095) % 4096

/-- A sequenced flit leaves a port: the next SEQ, a place in the replay buffer, and a count for each flit (R286,
R289). -/
def sendFlit (s : State) (k vc : Nat) (body : FlitBody) (flits : Nat) : State :=
  let p := port s k
  let f : SentFlit := { seq := p.txSeq, vc := vc, body := body, flits := flits }
  let s := updPort s k fun p => { p with txSeq := (p.txSeq + flits) % 4096, replay := p.replay ++ [f],
                                         lastAdvance := if p.replay.isEmpty then s.ts else p.lastAdvance }
  emit (countN s .fabTxFlit flits) (.flit k (lastAck p) 0 f)

/-- The flits a replay buffer holds. -/
def replayLoad (p : FabPort) : Nat := (p.replay.map (·.flits)).foldl (· + ·) 0

/-- A control message of this block's own on port `k`: IDENT 1, STOP 2, RESUME 3. -/
def ctrlBody (s : State) (k cmd : Nat) : FlitBody := .ctrl cmd (isReady s) (blockId s) k (port s k).rxNext

/-- Control messages that wait on port `k` leave in order, each with a place in the replay buffer and a credit of CTL (R287, R289,
R290). -/
def ctlPump (k : Nat) : List Nat → State → State
  | [], s => updPort s k fun p => { p with ctlQ := [] }
  | c :: r, s =>
    if replayLoad (port s k) < 512 ∧ 0 < (port s k).tx.look 50 ∧ (port s k).st = .up then
      ctlPump k r (sendFlit (updPort s k fun p => { p with tx := p.tx.upd 50 (· - 1) }) k 2 (ctrlBody s k c) 1)
    else updPort s k fun p => { p with ctlQ := c :: r }

/-- A control message on an UP port, a sequenced flit of virtual channel 2 (R286, R287). -/
def sendCtrl (s : State) (k cmd : Nat) : State := ctlPump k ((port s k).ctlQ ++ [cmd]) s

/-- The waiting control messages of every port are tried. -/
def ctlAll (s : State) : State :=
  (List.range 8).foldl (fun s k => if (port s k).ctlQ.isEmpty then s else ctlPump k (port s k).ctlQ s) s

/-- Whether FAB is stopped and every STOP has left (R297). -/
def fabHalted (s : State) : Bool := s.fab.stopped && (List.range 8).all fun k => (port s k).ctlQ.isEmpty

/-- The port that carries a header: among the usable ports of the mask that have the credits and the replay places it
needs, the one with the most free credits in the partition's pool of the virtual channel, the lowest of equals (R283). -/
def choosePort (s : State) (h : FabHdr) : Option Nat :=
  let vc := vcOf h.op
  let n := 1 + dataFlits h
  let ok := (maskPorts (routeMask s h.dstBlock)).filter fun k =>
    usable s k && !(port s k).eqReq && decide (n ≤ portCredits s k vc h.srcPart) && decide (replayLoad (port s k) + n ≤ 512)
  minBy (fun k => 1000000 - (port s k).tx.look (vc * 17 + h.srcPart)) ok

/-- Whether every port of the route mask is DEAD, or the mask is 0 (R269 UNREACHABLE, R296). -/
def allDead (s : State) (d : Nat) : Bool := (maskPorts (routeMask s d)).all fun k => (port s k).st == .dead

/-- A port becomes usable: the partners that it leads to and that answered NOT_READY are REACHABLE (R296). -/
def portReady (s : State) (k : Nat) : State :=
  if usable s k then
    { s with fab.partner := s.fab.partner.foldUpd fun d x =>
        if x = .notReady ∧ bitOf (routeMask s d) k then .reachable else x }
  else s

/-- The state of partner `d` (R296): what the ports of its route mask are, and beside that whether its last answer was NOT_READY,
which the table holds. (DEDUCED, log entry 112). -/
def partnerState (s : State) (d : Nat) : PartnerState :=
  let m := maskPorts (routeMask s d)
  if allDead s d then .unreachable
  else if m.any (usable s) || m.any (fun k => (port s k).st == .up && !(port s k).peerReady) then
    (if s.fab.partner.look d = .notReady then .notReady else .reachable)
  else .waiting

/-- Whether no port of the mask is usable but one is UP to a partner that last sent READY = 0 (R295). -/
def bootingPath (s : State) (d : Nat) : Bool :=
  let m := maskPorts (routeMask s d)
  !m.any (usable s) && m.any fun k => (port s k).st == .up && !(port s k).peerReady

/-- A header on its way through the chosen port, its hops as given. -/
def sendHeader (s : State) (k : Nat) (h : FabHdr) : State :=
  let vc := vcOf h.op
  let n := 1 + dataFlits h
  let s := updPort s k fun p => { p with tx := takeCredits p.tx vc h.srcPart n }
  let s := pageCount s h.srcPart 7 n
  sendFlit s k vc (.ops [h]) n

/-- Spacing of the n-th retry in qc (R270). -/
def retrySpacing (s : State) (n : Nat) : Nat :=
  let base := max 1 (regFld s 0xb00010 23 0)
  let top := max base (regFld s 0xb00010 55 32)
  min (base * 2 ^ (n - 1)) top

/-- An outstanding entry. -/
def outEnt (s : State) (t : Nat) : Option OutEnt := s.fab.outst.look t

/-- Partitions of the requests in the retry queue (R270). -/
def retryParts (s : State) : List Nat :=
  s.fab.outst.filterMap fun e => e.2.bind fun x => if x.due.isSome then some x.hdr.srcPart else none

/-- Whether the retry queue has a place for a request of partition `p`: 1,024, 32 in reserve for each partition and 512 shared
(R270). -/
def retryRoom (s : State) (p : Nat) : Bool := hasCredit (retryParts s) 32 512 p

/-- An entry waits for its next retry (R270). -/
def retryLater (s : State) (t : Nat) (e : OutEnt) : State :=
  let n := e.retries + 1
  { s with fab.outst := s.fab.outst.put t (some { e with retries := n,
                                                         due := some (s.ts + BitVec.ofNat 64 (retrySpacing s n)) }) }

/-- Whether a header is a write of a sequence (R274). -/
def isWrite (h : FabHdr) : Bool := h.op == 2 || h.op == 5

/-- Whether a header must land after the earlier writes of its source (R274, R277). -/
def isFinal (h : FabHdr) : Bool := isWrite h && (h.final || h.ord)

/-- The queue that is the source of a FLAG_SET's release (R424). -/
def Requester.queue : Requester → Option Nat
  | .flagSet q _ => some q
  | _ => none

/-- Whether a sequence belongs to the source of a header that `who` sends. -/
def sameSource (e : SeqEnt) (h : FabHdr) (who : Requester) : Bool :=
  e.srcAgent == h.srcAgent && e.srcUnit == h.srcUnit && e.srcPart == h.srcPart && e.queue == who.queue

/-- Whether an entry is the one of a header's source and destination. -/
def ofSeq (h : FabHdr) (who : Requester) (e : SeqEnt) : Bool := sameSource e h who && e.dst == h.dstBlock

/-- A write of a sequence is acknowledged or refused: it counts no longer, and a sequence with nothing left closes (R274, R275). -/
def seqDone (s : State) (h : FabHdr) (who : Requester) : State :=
  if !isWrite h then s
  else
    let l := updFirst (ofSeq h who) (fun e =>
      if isFinal h then { e with finals := e.finals - 1 } else { e with unacked := e.unacked - 1 }) s.fab.seqs
    { s with fab.seqs := l.filter fun e => !(e.unacked == 0 && e.finals == 0 && e.held.isEmpty) }

/-- The source's action on a refusal of one of the block's own requests (R269, R88, R424). `port` names the port of a
LINK_LOST, `inj` says that an injection made the refusal. -/
def sourceNack (s : State) (t code port : Nat) (inj : Bool) : State :=
  match outEnt s t with
  | none => s
  | some e =>
    let drop := fun (s : State) => { s with fab.outst := s.fab.outst.put t none }
    if e.aborted then count (if e.counted then seqDone (drop s) e.hdr e.who else drop s) .fabOrphanRsp
    else if code = 1 ∨ code = 2 then
      let s := if code = 1 then { s with fab.partner := s.fab.partner.put e.hdr.dstBlock .notReady } else s
      retryLater s t e
    else match e.who with
    | .tly =>
      if code = 3 then count (drop s) .tlyRemoteNack
      else if code = 6 then raiseInj (drop s) 0x1002 .up e.hdr.srcPart port inj
      else raiseInj (drop s) 0x1001 .up e.hdr.srcPart e.hdr.dstBlock inj
    | .flagSet q seq =>
      let s := seqDone (drop s) e.hdr e.who
      if code = 6 then endFlag s q seq 0x30 0 else endFlag s q seq 0x14 (e.hdr.loc % 2 ^ 32)
    | .flagWait q seq =>
      if code = 6 then endFlag (drop s) q seq 0x30 0 else endFlag (drop s) q seq 0x14 (e.hdr.loc % 2 ^ 32)
    | _ =>
      let s := { s with fab.outst := s.fab.outst.put t (some { e with failed := true, due := none }) }
      if code = 6 then raiseInj s 0x1002 .up e.hdr.srcPart port inj
      else raiseInj s 0x1001 .up e.hdr.srcPart e.hdr.dstBlock inj

/-- Whether a header is a request of this block's own. -/
def ownRequest (s : State) (h : FabHdr) : Bool := vcOf h.op = 0 && h.srcBlock == blockId s

/-- One attempt to send a header: sent, answered at once, or none where it must wait (R283, R295, R296). -/
def trySend (s : State) (h : FabHdr) : Option State :=
  if ownRequest s h && allDead s h.dstBlock then some (sourceNack s h.txn 7 0 false)
  else if ownRequest s h && bootingPath s h.dstBlock then
    (if retryRoom s h.srcPart then some (sourceNack s h.txn 1 0 false) else none)
  else match choosePort s h with
    | some k =>
      let s := sendHeader s k h
      some (if ownRequest s h && injArmed s 0x1002 (· == k) then
        sourceNack (count (injFire s) .fabLinkLost) h.txn 6 k true else s)
    | none => none

/-- The place of `n` flits of partition `p` in a receive buffer is free again, and their credits return: to the shared
pool while the partition holds more than its reserve of 8, else to its own (R22, R290). -/
def freeFlits (s : State) (k vc p : Nat) : Nat → State
  | 0 => s
  | n + 1 =>
    let held := (port s k).rx.look (vc * 17 + p)
    let s := updPort s k fun x => { x with rx := x.rx.put (vc * 17 + p) (held - 1) }
    freeFlits (emit s (.credit k vc (if 8 < held then 16 else p) 1)) k vc p n

/-- A header taken from the input buffer of port `k`. -/
def freeHeader (s : State) (k : Nat) (h : FabHdr) : State := freeFlits s k (vcOf h.op) h.srcPart (1 + dataFlits h)

/-- Headers in transit in the input buffer of port `k`: those that can leave do, with one hop less (R284). A header with no
hops left becomes NACK HOPS, a request's to its source and a response's to its requester. A request to a partner that boots is
answered NOT_READY in that partner's name (R295). -/
def pumpTransit (k : Nat) : List FabHdr → State → State
  | [], s => s
  | h :: r, s =>
    if h.dstBlock = blockId s then pumpTransit k r (updPort s k fun p => { p with inBuf := p.inBuf ++ [h] })
    else if h.hops = 0 then
      let h' : FabHdr := { h with op := 0xB, final := false, ord := false, hops := 15, data := 8, cmp := 0, payload := [],
                                  dstBlock := if vcOf h.op = 0 then h.srcBlock else h.dstBlock, srcBlock := blockId s }
      let s := count (count (freeHeader s k h) .fabHop) .fabNackOut
      pumpTransit k r { s with fab.sendQ := s.fab.sendQ ++ [h'] }
    else if vcOf h.op = 0 ∧ bootingPath s h.dstBlock then
      let h' : FabHdr := { h with op := 0xB, final := false, ord := false, hops := 15, data := 1, cmp := 0, payload := [],
                                  dstBlock := h.srcBlock, srcBlock := h.dstBlock }
      let s := count (freeHeader s k h) .fabNackOut
      pumpTransit k r { s with fab.sendQ := s.fab.sendQ ++ [h'] }
    else match choosePort s h with
      | some j => pumpTransit k r (sendHeader (freeHeader s k h) j { h with hops := h.hops - 1 })
      | none => pumpTransit k r (updPort s k fun p => { p with inBuf := p.inBuf ++ [h] })

/-- The input buffers of all ports are searched for transit; a block that is stopped, or not yet Ready, forwards nothing
(R284, R295). -/
def transitAll (s : State) : State :=
  if s.fab.stopped || !isReady s then s
  else (List.range 8).foldl (fun s k =>
    let l := (port s k).inBuf
    if l.all (fun h => h.dstBlock == blockId s) then s
    else pumpTransit k l (updPort s k fun p => { p with inBuf := [] })) s

/-- Headers that wait are tried in order; those that still cannot leave stay (R283, R296). Headers in transit come
first. -/
def fabPump (s : State) : State :=
  let s := transitAll (ctlAll s)
  if s.fab.stopped then s
  else
    s.fab.sendQ.foldl (fun s h =>
        match trySend s h with
        | some s' => s'
        | none => { s with fab.sendQ := s.fab.sendQ ++ [h] })
      { s with fab.sendQ := [] }

/-- A header handed to the ports. -/
def fabRoute (s : State) (h : FabHdr) : State := fabPump { s with fab.sendQ := s.fab.sendQ ++ [h] }

/-- Partitions of the outstanding entries in use (R268). -/
def outParts (s : State) : List Nat := s.fab.outst.filterMap fun e => e.2.map (·.hdr.srcPart)

/-- A request takes an outstanding entry and leaves, or waits for an entry or for the end of a stop (R268, R297). -/
def fabIssue (s : State) (h : FabHdr) (who : Requester) : State :=
  let wait := fun (s : State) => { s with fab.noEntry := s.fab.noEntry ++ [(h, who)] }
  if hasCredit (outParts s) 128 2048 h.srcPart && !s.fab.stopped then
    match pickFresh s (fun t => (outEnt s t).isSome) 4096 with
    | (some t, s) =>
      let h := { h with txn := t }
      let e : OutEnt := { hdr := h, who := who, retries := 0, due := none, aborted := false,
                          failed := false, counted := isWrite h }
      fabRoute { s with fab.outst := s.fab.outst.put t (some e) } h
    | (none, s) => wait s
  else wait s

/-- Requests that wait for an outstanding entry are issued while entries are free, oldest first. -/
def fabRefill (s : State) : State :=
  s.fab.noEntry.foldl (fun s x => fabIssue s x.1 x.2) { s with fab.noEntry := [] }

/-- Whether two headers come from one source. -/
def sameParty (a b : FabHdr) : Bool := a.srcAgent == b.srcAgent && a.srcUnit == b.srcUnit && a.srcPart == b.srcPart

/-- Whether a final write or release that came as the `n`-th write may leave: the earlier writes of its sequence are
acknowledged, and for a release every earlier write to the destinations of its scope, those that still wait here among them
(R274, R277). The earlier writes of a FLAG_SET are its queue's copies, which are complete when it leaves (R424). -/
def mayLand (s : State) (n : Nat) (h : FabHdr) (who : Requester) : Bool :=
  who.queue.isSome || ((s.fab.seqs.all fun e =>
    !(sameSource e h who && (e.dst == h.dstBlock || (h.ord && decide (2 ≤ h.scope)))) ||
      (e.unacked == 0 && (!h.ord || e.finals == 0))) &&
    !(h.ord && decide (2 ≤ h.scope) && (s.fab.seqs.flatMap (·.held) ++ s.fab.seqWait).any fun x =>
      decide (x.order < n) && sameParty x.hdr h && x.who.queue == who.queue && x.hdr.dstBlock != h.dstBlock))

/-- Whether two writes belong to one sequence. -/
def sameSeq (a b : HeldWrite) : Bool :=
  sameParty a.hdr b.hdr && a.hdr.dstBlock == b.hdr.dstBlock && a.who.queue == b.who.queue

/-- A write of a sequence leaves: it counts until it is acknowledged. -/
def seqLeave (s : State) (h : FabHdr) (who : Requester) : State :=
  fabIssue { s with fab.seqs := updFirst (ofSeq h who) (fun e =>
    if isFinal h then { e with finals := e.finals + 1 } else { e with unacked := e.unacked + 1 }) s.fab.seqs } h who

/-- A write of a source to another block, its sequence kept: a write behind a held final write waits, a final write
waits for the earlier writes of its sequence (R274), and a write whose source finds no sequence entry waits for one, or for the end
of a stop (R275, R297). -/
def seqWrite (s : State) (x : HeldWrite) : State :=
  let h := x.hdr
  let who := x.who
  if s.fab.stopped || s.fab.seqWait.any (sameSeq x) ||
      (!s.fab.seqs.any (ofSeq h who) && !hasCredit (s.fab.seqs.map (·.srcPart)) 32 512 h.srcPart) then
    { s with fab.seqWait := s.fab.seqWait ++ [x] }
  else
    let s := if s.fab.seqs.any (ofSeq h who) then s
      else { s with fab.seqs := s.fab.seqs ++ [{ srcAgent := h.srcAgent, srcUnit := h.srcUnit, srcPart := h.srcPart,
                                                 queue := who.queue, dst := h.dstBlock, unacked := 0, finals := 0, held := [] }] }
    if (s.fab.seqs.any fun e => ofSeq h who e && !e.held.isEmpty) || (isFinal h && !mayLand s x.order h who) then
      { s with fab.seqs := updFirst (ofSeq h who) (fun e => { e with held := e.held ++ [x] }) s.fab.seqs }
    else seqLeave s h who

/-- A request of a source to another block: a write takes its place in order. -/
def fabSequence (s : State) (h : FabHdr) (who : Requester) : State :=
  if !isWrite h then fabIssue s h who
  else seqWrite { s with fab.writes := s.fab.writes + 1 } { order := s.fab.writes, hdr := h, who := who }

/-- Writes that wait for a sequence entry are tried again, oldest first (R275). -/
def seqRetry (s : State) : State :=
  s.fab.seqWait.foldl seqWrite { s with fab.seqWait := [] }

/-- A write of a sequence is acknowledged, and the writes that wait for a sequence entry are tried (R274, R275). -/
def seqAck (s : State) (h : FabHdr) (who : Requester) : State := if isWrite h then seqRetry (seqDone s h who) else s

/-- Held writes of a sequence leave in order while they may: up to the next final write that must wait (R274). -/
def seqDrain : List HeldWrite → State → List HeldWrite × State
  | [], s => ([], s)
  | x :: r, s => if isFinal x.hdr && !mayLand s x.order x.hdr x.who then (x :: r, s) else seqDrain r (seqLeave s x.hdr x.who)

/-- The held final write of a sequence leaves once it may, and the writes behind it follow (R274). -/
def finalRelease (s : State) (srcAgent srcUnit srcPart dst : Nat) : State :=
  let mine := fun (e : SeqEnt) => e.srcAgent == srcAgent && e.srcUnit == srcUnit && e.srcPart == srcPart && e.queue == none && e.dst == dst
  match s.fab.seqs.find? mine with
  | none => s
  | some e =>
    if s.fab.stopped then s
    else
      let (rest, s) := seqDrain e.held { s with fab.seqs := updFirst mine (fun e => { e with held := [] }) s.fab.seqs }
      { s with fab.seqs := updFirst mine (fun e => { e with held := rest }) s.fab.seqs }

/-- FAB takes a request of partition `p` to another block (R271): checked against FAB_PART_HALL_p, then sent with its
tag and 15 hops. A failed check is counted and raises FAB_REMOTE_ERR, or ends the command that asked (R424). -/
def fabSubmit (s : State) (h : FabHdr) (who : Requester) : State :=
  let p := h.srcPart
  let a := 0xb00400 + 8 * p
  let inj := injPart s 0x1001 p
  if !inj && regBit s a 63 && decide (regFld s a 27 16 ≤ h.dstBlock) && decide (h.dstBlock ≤ regFld s a 43 32) then
    fabSequence s { h with hallTag := regFld s a 15 0, hops := 15, srcBlock := blockId s } who
  else
    let s := count (if inj then injFire s else s) .fabDenied
    match who with
    | .flagSet q seq => endFlag s q seq 0x14 (h.loc % 2 ^ 32)
    | .flagWait q seq => endFlag s q seq 0x14 (h.loc % 2 ^ 32)
    | _ => raiseInj s 0x1001 .up p h.dstBlock inj

end Sys2Proof.Machine
end

