-- ==== Sys2Proof/Machine/Graph.lean ====
section
/-!
DEFINITION. Operations of the Graph Store and the Tally Engine over node records: arming, activation, beads,
retirement, a lane's decrement and discards (R62–R93, R114–R118).
-/

namespace Sys2Proof.Machine

open Sys2Proof

/-- A node record. -/
def nd (s : State) (n : Nat) : NodeRec := s.grs.nodes.look n

/-- A node record changed. -/
def updN (s : State) (n : Nat) (f : NodeRec → NodeRec) : State := { s with grs.nodes := s.grs.nodes.upd n f }

/-- A header changed. -/
def updH (s : State) (h : Nat) (f : Header → Header) : State := updN s h fun r => { r with hdr := f r.hdr }

/-- TASK, LAYER and JOIN are work nodes (R62). -/
def isWork (k : Kind) : Bool := k == .task || k == .layer || k == .join

/-- Whether a work node belongs to a graph (R65, GRAPH). -/
def inGraph (r : NodeRec) : Bool := isWork r.kind && r.graph != Config.noNode

/-- The handles of a graph: its header and the records behind it (chapter 03, Graph header and graph image). -/
def graphHandles (s : State) (h : Nat) : List Nat := (List.range (nd s h).hdr.nodeCount).map (h + ·)

/-- A graph node as the first access under an ACTIVE launch finds it: armed when its GEN is stale or it is IDLE
(R75). -/
def armed (s : State) (r : NodeRec) : NodeRec :=
  if inGraph r then
    let g := (nd s r.graph).gen
    if r.gen ≠ g || r.st == .idle then { r with st := .waiting, tally := r.initTally, gen := g } else r
  else r

/-- The successors of a node in carry order: its inline entries, then each block of its chain (R67). `fuel` bounds the
chain, which is no longer than the graph (R68). -/
def chainSuccs (s : State) : Nat → Nat → List Succ
  | 0, _ => []
  | fuel + 1, b => if b = Config.noNode then [] else (nd s b).succs ++ chainSuccs s fuel (nd s b).succNext

/-- Every successor of a node. -/
def allSuccs (s : State) (n : Nat) : List Succ :=
  (nd s n).succs ++ chainSuccs s (s.grs.nodes.length) (nd s n).succNext

/-! ### Deadline entries (R114, R115) -/

/-- Address of PDM_DL_A_g; PDM_DL_B_g stands 8 above. -/
def dlAddr (g : Nat) : Nat := 0x501000 + 16 * g

/-- PDM_DL_A fields of entry `g`. -/
def dlTemplate (s : State) (g : Nat) : Nat := regFld s (dlAddr g) 9 0
def dlFallback (s : State) (g : Nat) : Nat := regFld s (dlAddr g) 25 16
def dlValid (s : State) (g : Nat) : Bool := regBit s (dlAddr g) 31
def dlExit (s : State) (g : Nat) : Nat := regFld s (dlAddr g) 55 32
def dlSwitchQc (s : State) (g : Nat) : Nat := regFld s (dlAddr g + 8) 31 0

/-- A template. -/
def tpl (s : State) (t : Nat) : Tpl := s.grs.tpl.look t

/-- The conditions of R114 on entry `g`. -/
def dlChecks (s : State) (g : Nat) : Bool :=
  let t := tpl s (dlTemplate s g)
  let f := tpl s (dlFallback s g)
  let x := dlExit s g
  let nodes := graphHandles s t.header
  let inT := fun n => decide (t.header < n ∧ n < t.header + (nd s t.header).hdr.nodeCount)
  let headers := s.grs.tpl.filter (·.2.valid)
  let members := (headers.flatMap fun e => graphHandles s e.2.header).filter fun n =>
    isWork (nd s n).kind && (nd s n).dlGroup == g
  let edges := (graphHandles s f.header).flatMap fun n =>
    if isWork (nd s n).kind then (allSuccs s n).filter (fun e => e.node == x && !e.remote) else []
  t.valid && f.valid && t.part == f.part
    && x != Config.noNode && inT x && isWork (nd s x).kind && (nd s x).dlGroup == 0
    && members.all (fun n => inT n && (allSuccs s n).all fun e => e.node == x && !e.remote)
    && nodes.all (fun n => !(isWork (nd s n).kind && (allSuccs s n).any fun e => e.node == x && !e.remote)
        || (nd s n).dlGroup == g)
    && (nd s f.header).hdr.cplCount == 0
    && !edges.isEmpty && (edges.map (·.weight)).foldl (· + ·) 0 == 1

/-- The checks of R114 on an entry that claims to be VALID: a failure clears VALID and is counted. -/
def dlCheck (s : State) (g : Nat) : State :=
  if dlValid s g && !dlChecks s g then count (regSetFld s (dlAddr g) 31 31 0) .pdmDlBad else s

/-- The launch of header `h` activates: every VALID entry of its template is armed (R115). A stopped PDM records the remaining time, as it does for
the other entries (R113). (DEDUCED, log entry 32). -/
def dlArm (s : State) (h : Nat) : State :=
  let s := { s with pdm.dl := s.pdm.dl.foldUpd fun _ d => if d.main = h then default else d }
  match (nd s h).hdr.template with
  | none => s
  | some t =>
    ((List.range 256).filter fun g => decide (1 ≤ g) && dlValid s g && dlTemplate s g == t).foldl (fun s g =>
      let s := dlCheck s g
      if dlValid s g then
        { s with pdm.dl := s.pdm.dl.put g { armed := true, switched := false,
                                            at_ := (if s.pdm.stopped then 0 else s.ts) + BitVec.ofNat 64 (dlSwitchQc s g), main := h,
                                            fallback := dlFallback s g, exit_ := dlExit s g } }
      else s) s

/-- The entries that watch the launch of header `h` are disarmed; the switched bit stays until the next activation. -/
def dlDisarm (s : State) (h : Nat) : State :=
  { s with pdm.dl := s.pdm.dl.foldUpd fun _ d => if d.main = h then { d with armed := false } else d }

/-! ### Activation (R72, R73) -/

/-- Whether a launch-table entry is free: 4,096 entries, less those PDM has reserved (R72, R115). -/
def tableFree (s : State) : Bool :=
  decide (s.grs.table.length + (s.grs.reserved.eraseDups.filter fun h => !s.grs.table.contains h).length < 4096)

/-- Places that PDM has reserved for fall-back launches of the graph at `h` (R115). -/
def reservedFor (s : State) (h : Nat) : Nat := (s.grs.reserved.filter (· == h)).length

/-- Whether an ordinary launch of the graph at `h` finds a launch-table entry or a place among the pending launches; those
that PDM has reserved are not its to take (R72, R115). -/
def launchRoom (s : State) (h : Nat) : Bool :=
  let r := nd s h
  if r.hdr.lstate == .loaded then tableFree s && decide (reservedFor s h ≤ 4)
  else decide (r.hdr.pend.length + reservedFor s h < 4)

/-! ### TLY's intake and expansion table (R83, R87, R92) -/

/-- The partition whose credits an item takes: that of its node (R87). -/
def itemPart (s : State) : TlyItem → Nat
  | .carry e => partOr0 s e.node
  | .dec op => partOr0 s op.node

/-- Whether the intake has a credit for partition `p`: 512, 16 for each partition and 256 shared (R87). -/
def intakeCredit (s : State) (p : Nat) : Bool := hasCredit (s.tly.intake.map fun e => partOr0 s e.node) 16 256 p

/-- Whether the expansion table has an entry for partition `p`: 64, 2 for each partition and 32 shared (R87). -/
def expCredit (s : State) (p : Nat) : Bool := hasCredit (s.tly.exp.map fun e => partOr0 s e.node) 2 32 p

/-- Whether the miss buffer has a place for partition `p`: 1,024, 32 for each partition and 512 shared (R85, R87). -/
def missCredit (s : State) (p : Nat) : Bool :=
  hasCredit (s.tly.miss.map fun m => match m with
    | .lane op => partOr0 s op.node
    | .list e => partOr0 s e.node) 32 512 p

/-- The intake takes an item: a decrement goes on to its lane, a carry to the expansion table, where it may wait for an
entry behind the earlier ones of its partition. -/
def tlyTake (s : State) : TlyItem → State
  | .dec op => { s with tly.ops := s.tly.ops ++ [op] }
  | .carry e =>
    let p := partOr0 s e.node
    if expCredit s p && !(s.tly.intake.any fun x => partOr0 s x.node == p) then { s with tly.exp := s.tly.exp ++ [e] }
    else { s with tly.intake := s.tly.intake ++ [e] }

/-- Whether TLY's intake takes an item of partition `p` now: it runs, has a credit, and nothing of the partition waits for
one (R87, R92). -/
def intakeOpen (s : State) (p : Nat) : Bool :=
  !s.tly.stopped && intakeCredit s p && !(s.tly.wait.any fun x => itemPart s x == p)

/-- A producer inside the block offers an item: it keeps the item while the intake does not take it (R21, R92). -/
def tlyOffer (s : State) (i : TlyItem) : State :=
  if intakeOpen s (itemPart s i) then tlyTake s i else { s with tly.wait := s.tly.wait ++ [i] }

/-- Carries of the intake take the expansion entries that are free, oldest first (R87). -/
def expFill : Nat → State → State
  | 0, s => s
  | n + 1, s =>
    match takeFirst (fun e => expCredit s (partOr0 s e.node)) s.tly.intake with
    | none => s
    | some (e, rest) => expFill n { s with tly.intake := rest, tly.exp := s.tly.exp ++ [e] }

/-- Items that their producers keep enter the intake as credits become free, oldest first (R21, R87). -/
def intakeFill : Nat → State → State
  | 0, s => s
  | n + 1, s =>
    match takeFirst (fun i => intakeCredit s (itemPart s i)) s.tly.wait with
    | none => s
    | some (i, rest) => intakeFill n (tlyTake { s with tly.wait := rest } i)

/-- What stands at TLY moves on as far as its credits let it; a stopped TLY takes nothing (R87, R92). -/
def tlyPump (s : State) : State :=
  if s.tly.stopped then s
  else
    let s := expFill s.tly.intake.length s
    intakeFill s.tly.wait.length s

/-- The header's carry for TLY's intake (R73 step 5). -/
def pushHeader (s : State) (h : Nat) : State :=
  tlyOffer s (.carry { node := h, gen := (nd s h).gen, header := true, next := none, parked := false })

/-- The sweep of R73: every record takes the new GEN, STATE IDLE and its INIT_TALLY. -/
def sweepGraph (s : State) (h : Nat) : State :=
  (graphHandles s h).foldl (fun s n => if isWork (nd s n).kind then
      updN s n fun r => { r with gen := (nd s h).gen, st := .idle, tally := r.initTally }
    else s) s

/-- Activation (R73): one ac, or the start of a sweep that SWEEP_COMPLETE ends. -/
def activate (s : State) (h : Nat) (arg : W64) (src : LaunchSrc) : State :=
  let sweep := (nd s h).hdr.sweep
  let s := updN s h fun r => { r with
    gen := r.gen + 1, arg := arg,
    hdr := { r.hdr with lstate := .active, src := src, retired := 0, drops := 0, cplOut := 0, peerClosed := false,
                        switched := false, sweep := false } }
  let s := { s with grs.table := if s.grs.table.contains h then s.grs.table else s.grs.table ++ [h] }
  let s := dlArm s h
  if sweep then
    let s := count (sweepGraph s h) .grsSweep
    { s with grs.sweeping := s.grs.sweeping ++ [h] }
  else pushHeader s h

/-- A launch of the graph at `h` takes effect by its LSTATE; none where R72 refuses it with NO_SPACE. A fall-back has its
reserved place (R115). -/
def startLaunch (s : State) (h : Nat) (arg : W64) (src : LaunchSrc) : Option State :=
  let r := nd s h
  match r.hdr.lstate with
  | .loading => some { s with grs.waits := s.grs.waits ++ [{ hdr := h, arg := arg, src := src }] }
  | .loaded => if src.main.isSome || launchRoom s h then some (activate s h arg src) else none
  | _ => if src.main.isSome || launchRoom s h then
      some (updH s h fun x => { x with pend := x.pend ++ [{ arg := arg, src := src }] })
    else none

/-! ### Beads (R86, R95) -/

/-- The bead of a ready node, with what TLY copies from its record (R95). -/
def beadOf (s : State) (n : Nat) : Bead :=
  let r := nd s n
  { node := n, gen := r.gen, graph := r.graph, part := partOr0 s n, cls := r.cls, prio := r.prio,
    dlGroup := r.dlGroup, regs := r.regs, groups := r.groups, lmem := r.lmem, blocks := r.blocks, arg := r.arg,
    kdesc := r.kdesc, params := r.params, next := 0, fails := 0, held := false, drain := none, split := false }

/-- Whether the bead queue has a credit for partition `p` (R87). -/
def beadCredit (s : State) (p : Nat) : Bool :=
  decide (s.dis.beads.length < 1024) && hasCredit (s.dis.beads.map (·.part)) 32 512 p

/-- A ready node enters the bead queue, or its partition's ready backlog (R86). -/
def beadEnqueue (s : State) (n : Nat) : State :=
  let p := partOr0 s n
  let direct := beadCredit s p && (s.tly.backlog.look p).isEmpty
  let s := trRecord s { type := 1, part := p, cls := (nd s n).cls, gen := (nd s n).gen.toNat, node := n,
                        sub := (nd s n).prio, ts := s.ts, arg1 := if direct then 0 else 1, arg2 := 0 }
  if direct then { s with dis.beads := s.dis.beads ++ [beadOf s n] }
  else count { s with tly.backlog := s.tly.backlog.upd p (· ++ [{ node := n, gen := (nd s n).gen }]) } .tlyBacklog

/-! ### Retirement (R81–R83) -/

/-- A work node retires with a result and its drops: the header counts it, and a completion record is requested when
CPL is 1 (R83). `skip` is a node skipped for a fall-back (R117), whose record says DEADLINE_FALLBACK. A node of
a fall-back adds its drops and PEER_CLOSED to the main launch, and to none once that launch is over and its header runs
another (R116). (DESIGN CHOICE, log entry 82). -/
def noteRetired (s : State) (n : Nat) (res : RetResult) (drops : Nat) (skip : Bool) : State :=
  let r := nd s n
  let p := partOr0 s n
  let g := inGraph r
  let src := if g then (nd s r.graph).hdr.src else r.src
  let s := updN s n fun r => { r with st := .retired, drops := drops }
  let s := pageCount s p 2 1
  let s := if isQueue src.q then progress (wordCount s src.q 2) src.q else s
  let s := trRecord s { type := 3, part := p, cls := 0, gen := r.gen.toNat, node := n,
                        sub := if skip then 0x10 else if res == .peerClosed then 1 else 0, ts := s.ts,
                        arg1 := BitVec.ofNat 64 drops, arg2 := src.q % 0x2000 }
  let s := if g then
      let s := updH s r.graph fun h => { h with retired := h.retired + 1 }
      let add := fun (h : Header) =>
        { h with drops := min (h.drops + drops) (2 ^ 32 - 1), peerClosed := h.peerClosed || res == .peerClosed }
      match src.main with
      | some (m, gen) => if (nd s m).gen = gen then updH s m add else s
      | none => updH s r.graph add
    else s
  if r.cpl then
    let (st, dt) := if skip then (0x22, 0) else if res == .peerClosed then (0x20, 0)
      else if drops ≠ 0 then (0x01, drops) else (0, 0)
    let s := if g then updH s r.graph fun h => { h with cplOut := h.cplOut + 1 } else s
    completeNode s src n r.tag st dt r.irq
  else s

/-- The carry of a retired node, for the expansion table (R83). -/
def pushCarry (s : State) (n : Nat) : State :=
  tlyOffer s (.carry { node := n, gen := (nd s n).gen, header := false, next := none, parked := false })

/-- A tally has reached zero: TASK and LAYER become READY, a JOIN retires and carries (R81). -/
def zeroReached (s : State) (n : Nat) : State :=
  let s := { s with tly.zeroSeen := true }
  if (nd s n).kind == .join then
    pushCarry (noteRetired (updN s n fun r => { r with tally := 0 }) n .done 0 false) n
  else beadEnqueue (updN s n fun r => { r with tally := 0, st := .ready, readyTs := s.ts }) n

/-! ### A lane's decrement (R75, R78, R81, R84, R91, R115, R117) -/

/-- The answer of a decrement to its sender: a SIGNAL completes with its DETAIL, a remote decrement is acknowledged or
refused (R78, R88). -/
def decAnswer (s : State) (src : DecSrc) (detail nack : Nat) : State :=
  match src with
  | .signal q seq =>
    match liveCmd s q seq with
    | some l => complete s q l.cmd 0 detail
    | none => s
  | .remote h =>
    let ack : FabHdr := { h with
      op := if nack = 0 then 8 else 0xB, final := false, ord := false, dstBlock := h.srcBlock, hops := 15,
      srcBlock := blockId s, data := BitVec.ofNat 64 nack, cmp := 0, payload := [] }
    let s := if nack = 0 then s else count s .fabNackOut
    fabRoute (emit s (.fab ack)) ack
  | _ => s

/-- The reserved launch-table entry or pending place of a fall-back is given back (R115). -/
def unreserve (s : State) (h : Nat) : State := { s with grs.reserved := s.grs.reserved.erase h }

/-- The entry whose switched bit makes EXIT `n` discard decrements of its own graph (R117). -/
def suppressed (s : State) (n : Nat) (src : DecSrc) : Bool :=
  match src with
  | .edge _ g _ => g != Config.noNode && g == (nd s n).graph &&
      s.pdm.dl.any fun e => e.2.switched && e.2.main == g && e.2.exit_ == n
  | _ => false

/-- PDM's switch at EXIT's lane (R115, R116). -/
def applySwitch (s : State) (n g : Nat) : State :=
  let d := s.pdm.dl.look g
  let fb := (tpl s d.fallback).header
  let main := nd s d.main
  let r := armed s (nd s n)
  let s := { s with pdm.dl := s.pdm.dl.upd g fun d => { d with armed := false } }
  let rec6 := fun (st : Nat) (s : State) => trRecord s
    { type := 4, part := partOr0 s n, cls := 0, gen := r.gen.toNat, node := n, sub := g, ts := s.ts,
      arg1 := BitVec.ofNat 64 d.fallback, arg2 := st }
  if main.hdr.lstate == .active && r.st == .waiting then
    let s := updN s n fun _ => { r with tally := 1 }
    let s := { s with pdm.dl := s.pdm.dl.upd g fun d => { d with switched := true } }
    let s := count (updH s d.main fun h => { h with switched := true }) .pdmFb
    let s := rec6 0 (detReport s (partOr0 s n) 6 n n 0)
    let src : LaunchSrc := { main.hdr.src with internal := true, main := some (d.main, main.gen), table := none }
    match startLaunch s fb main.arg src with
    | some s => unreserve s fb
    | none => unreserve s fb
  else rec6 2 (count (unreserve s fb) .pdmLateSwitch)

/-- The weights and the numbers of decrements that an operation carries, by producer (R84). -/
def LaneOp.parts (op : LaneOp) : List (Nat × Nat × DecSrc) := (op.w, op.n, op.src) :: op.also

/-- Whether a decrement of a producer at node `r` is stale (R91). -/
def staleDec (s : State) (r : NodeRec) : DecSrc → Bool
  | .edge _ g gen => inGraph r && g == r.graph && (nd s g).gen != gen
  | .root g gen => (nd s g).gen != gen
  | _ => false

/-- The decrements of several producers. -/
def decCount (l : List (Nat × Nat × DecSrc)) : Nat := (l.map (·.2.1)).foldl (· + ·) 0

/-- Decrements that a producer's rule discards are counted; none is no event. -/
def dropDecs (s : State) (c : Ctr) (l : List (Nat × Nat × DecSrc)) : State := if l = [] then s else countN s c (decCount l)

/-- The launch's ARG, where the root is one of the producers (R74). -/
def rootArg (s : State) (l : List (Nat × Nat × DecSrc)) (r : NodeRec) : NodeRec :=
  match l.find? fun x => match x.2.2 with
    | .root _ _ => true
    | _ => false with
  | some (_, _, .root g _) => { r with arg := (nd s g).arg }
  | _ => r

/-- What decrements of weight `w` in all do to node `n`, armed as `r`: it is WAITING and subtracts, or it is past that
(R81, R84). -/
def decArmed (s : State) (n : Nat) (r : NodeRec) (src : DecSrc) (w k : Nat) : State :=
  let s := updN s n fun _ => r
  if r.st == .waiting then
    let s := pageCount (countN s .tlyDec k) (partOr0 s n) 3 k
    let s := match src with
      | .remote _ => count s .tlyRemoteIn
      | _ => s
    if w < r.tally then decAnswer (updN s n fun r => { r with tally := r.tally - w }) src 0 0
    else
      let under := decide (r.tally < w)
      let s := if under then count s .tlyUnderflow else s
      zeroReached (decAnswer s src (if under then 3 else 0) 0) n
  else decAnswer (countN s .tlyLateDec k) src 2 0

/-- A lane's read-modify-write of one operation (R84): stale parts fall away, the node is armed under R75, the rest is
subtracted, and zero is detected. -/
def applyDec (s : State) (op : LaneOp) : State :=
  let n := op.node
  let r0 := nd s n
  match op.src with
  | .switch g => applySwitch s n g
  | _ =>
  let old := op.parts.filter fun x => staleDec s r0 x.2.2
  let live := op.parts.filter fun x => !staleDec s r0 x.2.2
  let s := dropDecs s .tlyStaleRet old
  if live = [] then s
  else if !isWork r0.kind || r0.st == .free then decAnswer (countN s .tlyIdleDec (decCount live)) op.src 1 3
  else if r0.st == .loading || (inGraph r0 && (nd s r0.graph).hdr.lstate != .active) then
    decAnswer (countN s .tlyIdleDec (decCount live)) op.src 1 2
  else
    let hush := live.filter fun x => suppressed s n x.2.2
    let live := live.filter fun x => !suppressed s n x.2.2
    let s := dropDecs s .pdmSuppress hush
    if live = [] then s
    else decArmed s n (rootArg s live (armed s r0)) op.src (min ((live.map (·.1)).foldl (· + ·) 0) 0xFFFFFF) (decCount live)

/-- A decrement for TLY's intake, with no producer that waits for it (R78: NOTIFY, pass ends, combine, barriers). -/
def pushNotice (s : State) (n : Nat) : State :=
  tlyOffer s (.dec { node := n, w := 1, n := 1, src := .notice, also := [] })

/-! ### Discards (R90, R108, R118, R198) -/

/-- Every barrier bound to node `n` is unbound: held waits are answered with 0 and PHASE rises (R198). -/
def unbindNode (s : State) (n : Nat) : State :=
  let bars := s.bau.bars.filter fun e => e.2.bound && e.2.node == n
  bars.foldl (fun s e =>
    let held := s.bau.waits.filter (·.bar == e.1)
    let s := { s with
      bau.waits := s.bau.waits.filter (·.bar != e.1),
      bau.bars := s.bau.bars.upd e.1 fun b => { b with bound := false, phase := b.phase + 1, arrived := 0 } }
    emits s (held.map fun w => .answer w.src (5 + 8 * w.bar) 0)) s

/-- DIS sends an abort of a discarded launch or node to each agent that runs a slice of it, and frees its slice-table entries
(R108, R333 step 5). -/
def abortRunning (s : State) (mine : Running → Bool) (slice : SliceEnt → Bool) : State :=
  let hit := s.dis.running.filter fun r => mine r && !r.aborted
  let s := { s with
    dis.running := s.dis.running.map (fun r => if mine r then { r with aborted := true } else r),
    dis.slices := s.dis.slices.filter fun e => !slice e }
  emits s (hit.map fun r => Out.abort r.agent r.cls r.part r.node r.gen).eraseDups

/-- The command of a launch completes with a status, unless PDM started it (R90, R116). -/
def completeLaunch (s : State) (src : LaunchSrc) (status detail : Nat) : State :=
  if src.internal then s
  else match liveCmd s src.q src.seq with
    | some l => complete s src.q l.cmd status detail
    | none => s

/-- The record of a discard in the Tally Roll (R382). -/
def trDiscard (s : State) (n status q : Nat) (gen : BitVec 16) : State :=
  trRecord s { type := 6, part := partOr0 s n, cls := 0, gen := gen.toNat, node := n, sub := status, ts := s.ts,
               arg1 := 0, arg2 := q % 0x2000 }

/-- A launch that never activates gives back the slots of its nodes' records (R59). -/
def returnNodes (s : State) (src : LaunchSrc) : State :=
  match liveCmd s src.q src.seq with
  | some l => if src.internal then s
    else updQ s src.q fun u => { (mapLive u src.seq fun l => { l with nodes := 0 }) with resv := u.resv - l.nodes }
  | none => s

/-- The launch of header `h`, ACTIVE or DRAINING, is discarded with a status (R90). -/
def discardLaunch (s : State) (h status : Nat) : State :=
  let r := nd s h
  let wasActive := r.hdr.lstate == .active
  let s := updN s h fun r => { r with gen := r.gen + 1,
                                      hdr := { r.hdr with lstate := .draining, sweep := true, pend := [] } }
  let s := { s with grs.sweeping := s.grs.sweeping.filter (· != h) }
  let s := if wasActive then completeLaunch (trDiscard s h status r.hdr.src.q r.gen) r.hdr.src status 0 else s
  let s := r.hdr.pend.foldl (fun s p => completeLaunch (returnNodes s p.src) p.src status 0) s
  if !wasActive then s
  else
    let owed := (graphHandles s h).filter fun n => isWork (nd s n).kind && (nd s n).cpl &&
      !((nd s n).st == .retired && (nd s n).gen == r.gen)
    let s := owed.foldl (fun s n => completeNode s r.hdr.src n (nd s n).tag status 0 (nd s n).irq) s
    let s := abortRunning s (fun x => x.graph == h && x.gen == r.gen)
      (fun e => (nd s e.node).graph == h && e.gen == r.gen)
    let s := (graphHandles s h).foldl (fun s n => if isWork (nd s n).kind then unbindNode s n else s) s
    dlDisarm s h

/-- A standalone node in WAITING, READY or ISSUED is discarded with a status (R90, R107). -/
def discardNode (s : State) (n status : Nat) : State :=
  let r := nd s n
  let s := trDiscard s n status r.src.q r.gen
  let s := updN s n fun r => { r with gen := r.gen + 1, st := .retired }
  let s := if r.cpl then completeNode s r.src n r.tag status 0 r.irq else s
  let s := { s with
    dis.beads := s.dis.beads.filter (fun b => !(b.node == n && b.graph == Config.noNode)),
    tly.backlog := s.tly.backlog.foldUpd fun _ l => l.filter (·.node != n) }
  let s := abortRunning s (fun x => x.node == n && x.gen == r.gen) (fun e => e.node == n && e.gen == r.gen)
  unbindNode s n

/-- Whether a standalone node is in flight (R79, R90). -/
def nodeInFlight (r : NodeRec) : Bool :=
  isWork r.kind && r.graph == Config.noNode && (r.st == .waiting || r.st == .ready || r.st == .issued)

/-- Every launch that `pick` names by its header and its source, and every standalone node in flight that `pickN`
names, is discarded; so is a fall-back, running or pending, that a discarded main launch itself started (R90, R118). -/
def discardAll (s : State) (pick : Nat → Header → Bool) (pickN : Nat → NodeRec → Bool) (status : Nat) : State :=
  let hs := (s.grs.nodes.filter fun e => e.2.kind == .graph &&
    (e.2.hdr.lstate == .active || e.2.hdr.lstate == .draining) && pick e.1 e.2.hdr).map (·.1)
  let onOne := fun (x : LaunchSrc) => x.main.any fun m => hs.contains m.1 && (nd s m.1).gen == m.2
  let fb := (s.grs.nodes.filter fun e => e.2.kind == .graph && e.2.hdr.lstate == .active && !hs.contains e.1 &&
    onOne e.2.hdr.src).map (·.1)
  let s := if s.grs.nodes.any fun e => e.2.hdr.pend.any (onOne ·.src) then
      { s with grs.nodes := s.grs.nodes.foldUpd fun _ r =>
          { r with hdr := { r.hdr with pend := r.hdr.pend.filter fun p => !onOne p.src } } }
    else s
  let ns := (s.grs.nodes.filter fun e => nodeInFlight e.2 && pickN e.1 e.2).map (·.1)
  let s := hs.foldl (fun s h => discardLaunch s h status) s
  let s := fb.foldl (fun s h => discardLaunch s h status) s
  ns.foldl (fun s n => discardNode s n status) s

end Sys2Proof.Machine
end

