-- ==== Sys2Proof/Machine/Slate.lean ====
section
/-!
DEFINITION. The Slate's vault controllers (chapter 10): where a block lies, reads with correction and re-reads, writes,
the bad-block tables, scrub, refresh, temperature, repair and the vault spare-in (R243–R261), and a partition's reads and
writes of its data region.
-/

namespace Sys2Proof.Machine

open Sys2Proof

/-! ### Where a block lies (R245, R246) -/

/-- Blocks of a vault (R243). -/
def vaultBlocks : Nat := 1835008

/-- The logical vault of Slate address `a`. -/
def vaultOf (a : Nat) : Nat := a / 256 % 120

/-- The vault block index of Slate address `a`. -/
def vaultBlock (a : Nat) : Nat := a / 256 / 120

/-- The Slate stop of the Beam that serves a physical vault (R243). -/
def slateStop (v : Nat) : Nat := v / 8

/-- Row key of a vault block index: its bank, tier and row without the column. -/
def rowKey (vb : Nat) : Nat := vb / 8

/-- Bank key of a row key: bank and tier. -/
def bankKey (rk : Nat) : Nat := rk % 128

/-- A physical vault. -/
def vault (s : State) (v : Nat) : Vault := s.slt.vaults.look v

/-- A physical vault changed. -/
def updV (s : State) (v : Nat) (f : Vault → Vault) : State := { s with slt.vaults := s.slt.vaults.upd v f }

/-- The physical vault that serves vault block `vb` of logical vault `l`: during a copy, the target for blocks below the
cursor (R244, R259). -/
def physOf (s : State) (l vb : Nat) : Nat :=
  if (s.slt.vs = .copy ∨ s.slt.vs = .switch) ∧ s.slt.vsLogical = l ∧ vb < s.slt.cursor then s.slt.vsTarget
  else s.slt.vmap.look l

/-- The logical vault that a physical vault serves, its own number where it serves none. -/
def logicalOf (s : State) (v : Nat) : Nat :=
  (firstFrom (fun l => s.slt.vmap.look l == v) 0 120).getD v

/-- Base of the GRAPH region (R246). -/
def graphBase : Nat := 8 * unitBytes

/-- Base of the LINK region (R246). -/
def linkBase (s : State) : Nat := regFld s 0xa00118 9 0 * unitBytes

/-- Base of the CELL region (R246). -/
def cellBase (s : State) : Nat := regFld s 0xa00120 9 0 * unitBytes

/-- Whether an address lies in SYSTEM, ROUTER or LINK (R246). -/
def inBlockRegion (s : State) (a : Nat) : Bool :=
  decide (a < graphBase) || (decide (linkBase s ≤ a) && decide (a < linkBase s + regFld s 0xa00118 25 16 * unitBytes))

/-- Slate address of a location; none where it lies outside its region (R247, R248). -/
def slateAddr (s : State) : SlateLoc → Option Nat
  | .data p o => if inData s p o 1 then some (dataBase s p + o) else none
  | .node n => if n < s.grs.nodeCap then some (graphBase + 256 * n) else none
  | .cell k => if k < s.chn.cells then some (cellBase s + 2048 * k) else none
  | .system a => if inBlockRegion s a then some a else none

/-- The channel whose packets hold cell `k`. -/
def cellChan (s : State) (k : Nat) : Option Nat :=
  let has := fun (e : Nat × Chan) =>
    e.2.list.any (·.cells.contains k) || e.2.claims.any fun c => c.2.any fun p => p.cells.contains k
  match s.chn.chans.find? has with
  | some e => some e.1
  | none => (s.chn.sends.find? (·.cells.contains k)).map (·.chan)

/-- The partition that owns a location, for the class of SLT_UE (R253). -/
def ownerOf (s : State) : SlateLoc → Option Nat
  | .data p _ => some p
  | .node n => if (s.grs.nodes.look n).kind == .free then none else partOfNode s n
  | .cell k => (cellChan s k).map fun c => (s.chn.chans.look c).part
  | .system _ => none

/-- The partition that a request names, 0 for the block's own. (DESIGN CHOICE, log entry 101). -/
def locPart (s : State) : SlateLoc → Nat
  | .data p _ => p
  | .node n => partOr0 s n
  | .cell k => ((cellChan s k).map fun c => (s.chn.chans.look c).part).getD 0
  | .system _ => 0

/-! ### Errors (R248, R252, R253, R257, R258) -/

/-- A RANGE response: counted, with SLT_RANGE on the request's partition (R248). -/
def rangeResponse (s : State) (p a : Nat) (inj : Bool) : State :=
  raiseInj (count (if inj then injFire s else s) .sltRange) 0x0F01 .up p (vaultOf a) inj

/-- A vault's row waits for repair (R257). -/
def queueRow (s : State) (v rk : Nat) : State :=
  updV s v fun x => if x.rowQ.contains rk then x else { x with rowQ := x.rowQ ++ [rk] }

/-- A bond lane waits for repair (R258); a lane is numbered group × 128 + bit. -/
def queueLane (s : State) (v ln : Nat) : State :=
  updV s v fun x => if x.laneQ.contains ln then x else { x with laneQ := x.laneQ ++ [ln] }

/-- A corrected error counts in SLT_CE_CNT and against its row, which waits for repair at ROW_CE (R252, R257). -/
def rowError (s : State) (v vb : Nat) : State :=
  let rk := rowKey vb
  let s := count s .sltCe
  let s := updV s v fun x => { x with rowCe := x.rowCe.upd rk (· + 1), ceTimes := x.ceTimes ++ [s.ts] }
  let rowCe := regFld s 0xa00308 7 0
  if rowCe ≠ 0 ∧ rowCe ≤ (vault s v).rowCe.look rk then queueRow s v rk else s

/-- One corrected single-bit error of a block: counted, with its row and its bit position (R252, R257, R258). -/
def corrected (s : State) (v vb : Nat) (e : Nat × Nat) : State :=
  let rk := rowKey vb
  let ln := e.1 * 128 + e.2
  let s := rowError s v vb
  let s := updV s v fun x => { x with
    laneErr := x.laneErr.upd ln fun l =>
      { l with count := l.count + 1, rows := if l.rows.contains rk then l.rows else l.rows ++ [rk] } }
  let x := vault s v
  let laneCe := regFld s 0xa00308 15 8
  if laneCe ≠ 0 ∧ laneCe ≤ (x.laneErr.look ln).count ∧ 4 ≤ (x.laneErr.look ln).rows.length then queueLane s v ln else s

/-- What a read of a block finds (R252): the Bool says that it is readable. A block recovered by a re-read counts as one
correction. -/
def readBlock (s : State) (v vb : Nat) (e : ReadErrs) : State × Bool :=
  if (vault s v).bad.contains vb then (s, false)
  else if e.fails < 3 then
    let s := e.ces.foldl (fun s x => corrected s v vb x) s
    let s := countN s .sltReread e.fails
    (if 0 < e.fails then rowError s v vb else s, true)
  else
    let s := countN (e.ces.foldl (fun s x => corrected s v vb x) s) .sltReread 2
    let full := decide (64 ≤ (vault s v).bad.length)
    let s := if full then raise s 0x0F02 .ud 0 (logicalOf s v)
      else updV s v fun x => { x with bad := x.bad ++ [vb] }
    (queueRow (count s .sltUe) v (rowKey vb), false)

/-- An error response to a read of a location raises SLT_UE (R253). -/
def slateUe (s : State) (l : SlateLoc) (a : Nat) (inj : Bool) : State :=
  match ownerOf s l with
  | some p => raiseInj s 0x0F02 .up p (vaultOf a) inj
  | none => raiseInj s 0x0F02 .ud 0 (vaultOf a) inj

/-- Whether the injection of SLT_UE is armed for the vault of address `a` (R331). -/
def ueArmed (s : State) (a : Nat) : Bool := injArmed s 0x0F02 (· == vaultOf a)

/-! ### Scrub, refresh and temperature (R254–R256) -/

/-- Scrub reads the next block of physical vault `v` (R255). `raced` says that a foreground write reached the block before
the write-back. -/
def scrubRead (s : State) (v : Nat) (e : ReadErrs) (raced : Bool) : State :=
  let x := vault s v
  if !regBit s 0xa00300 31 || s.slt.stopped || !s.slt.filled || x.role == .retired || decide (128 ≤ v) then s
  else
    let vb := x.scrubAt
    let inj := injArmed s 0x0F03 (· == logicalOf s v)
    let s := if inj then injFire s else s
    let known := x.bad.contains vb
    let (s, ok) := readBlock s v vb (if inj then { e with fails := 3 } else e)
    let s := if !ok && !known then raiseInj s 0x0F03 .c 0 (logicalOf s v) inj else s
    let fixed := ok && !raced && (!e.ces.isEmpty || decide (0 < e.fails))
    let s := if fixed then count s .sltScrubFix else s
    let s := updV s v fun x => { x with scrubAt := (vb + 1) % vaultBlocks }
    { s with slt.scrubActive := decide (vb + 1 < vaultBlocks) }

/-- Refresh visits the next row of a tier (R256). -/
def refreshRow (s : State) (t : Nat) : State :=
  if t < 16 ∧ s.slt.filled then
    { s with slt.refreshAt := s.slt.refreshAt.upd t fun r => (r + 1) % 1792 }
  else s

/-- A bit of a 16-bit mask set or cleared. -/
def setBit16 (m : BitVec 16) (i : Nat) (b : Bool) : BitVec 16 :=
  let x := (1 : BitVec 16) <<< i
  if b then m ||| x else m &&& ~~~x

/-- A signed field of `n` bits. -/
def signedBits (n x : Nat) : Int := if 2 ^ (n - 1) ≤ x % 2 ^ n then ((x % 2 ^ n : Nat) : Int) - 2 ^ n else ((x % 2 ^ n : Nat) : Int)

/-- A thermal reading in 0.125 °C: the raw reading of sensor `i` with its trim (R360), or the highest reading among its
neighbours once it is marked failed (R361). -/
def reading (s : State) (i raw : Nat) (near : List Nat) : Nat :=
  if s.mgt.failed.look i then (near.map s.mgt.temp.look).foldl max 0
  else ((raw : Int) + signedBits 10 (s.crb.trims.look i)).toNat

/-- Thermal sensors next to sensor `i`: the adjacent tiers, or the adjacent Hub regions (R361). -/
def neighbours (i : Nat) : List Nat :=
  if i < 16 then (List.range 16).filter fun j => j + 1 == i || j == i + 1
  else (List.range 32).filter fun j => decide (16 ≤ j) && j != i && Config.hubAdjacent (i - 16) (j - 16)

/-- A tier's sensor is read, in 0.125 °C (R256). -/
def tierSample (s : State) (t raw : Nat) : State :=
  if 16 ≤ t then s
  else
    let inj := injArmed s 0x0F04 (· == t)
    let s := if inj then injFire s else s
    let x := if inj then 848 else reading s t raw (neighbours t)
    let two := if 680 < x then setBit16 s.slt.refresh2x t true
      else if x < 656 then setBit16 s.slt.refresh2x t false
      else s.slt.refresh2x
    let s := { s with slt.temp := s.slt.temp.put t (min (x / 8) 255), slt.refresh2x := two,
                      slt.hot := setBit16 s.slt.hot t (decide (760 < x)),
                      mgt.temp := s.mgt.temp.put t x }
    if 840 < x then raiseInj s 0x0F04 .ud 0 t inj else s

/-! ### Repair (R257, R258, R369) -/

/-- Which of a type's records are live (chapter 14): the newest of a key, or the newest `n` of a type. -/
def isLive (l : List LogRec) (r : LogRec) : Bool :=
  let newer := l.filter fun x => x.type == r.type && decide (r.seq < x.seq)
  if r.type = 0x0A then decide (newer.length < 1024)
  else if r.type = 0x0B ∨ r.type = 0x0C then decide (newer.length < 16)
  else if r.type = 1 then !(l.any fun x => (x.type == 1 || x.type == 2) && x.key == r.key && decide (r.seq < x.seq))
  else !(newer.any (·.key == r.key))

/-- The live records (R365). -/
def liveLog (s : State) : List LogRec := s.mgt.log.filter (isLive s.mgt.log)

/-- Whether MGT logs no further repair records (R365). -/
def logFull (s : State) : Bool := decide (15360 ≤ (liveLog s).length)

/-- A repair record, left out while the log is full (R365). -/
def logRepair (s : State) (type key body : Nat) : State := if logFull s then s else logRecord s type key body

/-- The lowest of a bank's 32 spare rows, counted from 1, that no row of it uses (R257). (DESIGN CHOICE, log entry 103). -/
def nextRow (x : Vault) (bk : Nat) : Nat :=
  (firstFrom (fun n => !(x.rowMap.any fun e => bankKey e.1 == bk && e.2 == n)) 1 32).getD 32

/-- The lower of a lane group's 2 spare lanes, counted from 1, that is free (R258). -/
def nextLane (x : Vault) (g : Nat) : Nat :=
  (firstFrom (fun n => !(x.laneMap.any fun e => e.1 / 128 == g && e.2 == n)) 1 2).getD 2

/-- The oldest row that waits for repair in vault `v` is copied to a spare row (R257). -/
def rowRepair (s : State) (v : Nat) : State :=
  match (vault s v).rowQ with
  | [] => s
  | rk :: rest =>
    if s.slt.stopped then s else
    let bk := bankKey rk
    let used := (vault s v).rowsUsed.look bk
    let n := nextRow (vault s v) bk
    let s := updV s v fun x => { x with rowQ := rest }
    if used < 32 then
      let s := updV s v fun x => { x with rowsUsed := x.rowsUsed.put bk (used + 1), rowMap := x.rowMap.put rk n,
                                          rowCe := x.rowCe.put rk 0 }
      logRepair (count s .sltRowSpare) 3 (v * 2 ^ 32 + rk) n
    else { s with mgt.bankOut := true }

/-- The oldest lane that waits for repair in vault `v` is steered around (R258). -/
def laneRepair (s : State) (v : Nat) : State :=
  match (vault s v).laneQ with
  | [] => s
  | ln :: rest =>
    if s.slt.stopped then s else
    let g := ln / 128
    let used := (vault s v).lanesUsed.look g
    let n := nextLane (vault s v) g
    let s := updV s v fun x => { x with laneQ := rest }
    if used < 2 then
      let s := updV s v fun x => { x with lanesUsed := x.lanesUsed.put g (used + 1), laneMap := x.laneMap.put ln n,
                                          laneErr := x.laneErr.put ln { count := 0, rows := [] } }
      logRepair (count s .sltLaneSpare) 4 (v * 2 ^ 32 + ln) n
    else { s with mgt.laneOut := true }

/-- Timing calibration of a vault: lanes that start-up calibration finds failed wait for repair (R258). The calibration of R369,
once a second, holds the vault and changes no state. (DEDUCED, log entry 104). -/
def vaultCalibration (s : State) (v : Nat) (lanes : List (Nat × Nat)) : State :=
  if isReady s ∨ (vault s v).role = .retired ∨ 128 ≤ v then s
  else lanes.foldl (fun s e => queueLane s v (e.1 * 128 + e.2)) s

/-! ### Vault spare-in (R259–R261) -/

/-- A START with its fields (R260): `l` the logical vault and `t` the target. The Bool says that it was taken. -/
def vspareStart (s : State) (l t : Nat) : State × Bool :=
  if (s.slt.vs = .idle ∨ s.slt.vs = .failed) ∧ l ≤ 119 ∧ t < 128 ∧ (vault s t).role = .spare then
    ({ updV s t (fun x => { x with role := .target }) with
        slt.vs := .test, slt.vsLogical := l, slt.vsTarget := t, slt.cursor := 0 }, true)
  else (s, false)

/-- The target's test ends (R260). -/
def vspareTestDone (s : State) (ok : Bool) : State :=
  if s.slt.vs ≠ .test ∨ s.slt.stopped then s
  else if ok then { updV s s.slt.vsTarget (fun x => { x with bad := [] }) with slt.vs := .copy, slt.cursor := 0 }
  else
    let t := s.slt.vsTarget
    logRecord { updV s t (fun x => { x with role := .retired }) with slt.vs := .failed } 6 t 0

/-- Block `b` of the old vault is copied to the target, or, uncorrectable, its bad-block entry moves there (R252, R259). -/
def copyBlock (s : State) (old t b : Nat) (e : ReadErrs) : State :=
  let (s, ok) := readBlock s old b e
  if ok then updV s t fun x => { x with bad := x.bad.filter (· != b) }
  else if (vault s t).bad.contains b then s
  else if 64 ≤ (vault s t).bad.length then raise s 0x0F02 .ud 0 s.slt.vsLogical
  else updV s t fun x => { x with bad := x.bad ++ [b] }

/-- The copy moves one chunk of 8 blocks (R259): `errs` is what the read of each block meets. -/
def vspareChunk (s : State) (errs : List ReadErrs) : State :=
  if s.slt.vs ≠ .copy ∨ s.slt.stopped then s
  else
    let old := s.slt.vmap.look s.slt.vsLogical
    let t := s.slt.vsTarget
    let c := s.slt.cursor
    let s := (List.range 8).foldl (fun s i => copyBlock s old t (c + i) (errs.getD i default)) s
    let s := updV s old fun x => { x with bad := x.bad.filter fun b => !(decide (c ≤ b) && decide (b < c + 8)) }
    { s with slt.cursor := c + 8, slt.vs := if vaultBlocks ≤ c + 8 then .switch else .copy }

/-- Requests in flight at the old vault have been performed: the map switches (R260). -/
def vspareSwitch (s : State) : State :=
  if s.slt.vs ≠ .switch ∨ s.slt.stopped then s
  else
    let l := s.slt.vsLogical
    let old := s.slt.vmap.look l
    let t := s.slt.vsTarget
    let s := updV (updV s t fun x => { x with role := .active }) old fun x => { x with role := .retired }
    let s := { s with slt.vs := .idle, slt.vmap := s.slt.vmap.put l t }
    logRecord (logRecord (count s .sltVaultSpare) 5 l t) 6 old 0

/-! ### A partition's data region (R247, R248, R253) -/

/-- Blocks of a range of Slate addresses that a vault's bad-block table holds, or that an armed SLT_UE names. -/
def badRange (s : State) (a n : Nat) : Option Nat :=
  if !(s.slt.vaults.any fun e => !e.2.bad.isEmpty) && !injArmed s 0x0F02 (fun _ => true) then none
  else
    (firstFrom (fun b => ueArmed s (256 * b) ||
      (vault s (physOf s (b % 120) (b / 120))).bad.contains (b / 120)) (a / 256) ((a + n + 255) / 256 - a / 256)).map (256 * ·)

/-- A read of the block at `b`, which is bad or fails by injection, raises SLT_UE (R252, R253, R331). -/
def badRead (s : State) (l : SlateLoc) (b : Nat) : State :=
  if ueArmed s b then
    let (s, _) := readBlock (injFire s) (physOf s (vaultOf b) (vaultBlock b)) (vaultBlock b) { ces := [], fails := 3 }
    slateUe s l b true
  else slateUe s l b false

/-- The bytes of a range of Slate addresses that a unit reads for a location `l`; an uncorrectable block raises its fault and the
bytes read as zeros (R252, R253). -/
def readAt (s : State) (l : SlateLoc) (a n : Nat) : Bytes × State :=
  match badRange s a n with
  | some b => (List.replicate n 0, badRead s l b)
  | none => (memRead s a n, s)

/-- Bytes stored in one block: a write of the whole block clears its bad-block entry, a write of part of a bad block stores
nothing (R251, R252). The Bool says that they were stored. -/
def writeBlock (s : State) (a : Nat) (b : Bytes) : State × Bool :=
  let v := physOf s (vaultOf a) (vaultBlock a)
  if b.length = 256 then
    (memWrite (updV s v fun x => { x with bad := x.bad.filter (· != vaultBlock a) }) a b, true)
  else if (vault s v).bad.contains (vaultBlock a) then (s, false)
  else (memWrite s a b, true)

/-- Bytes stored block by block; `fuel` is their number. -/
def writeBlocks : Nat → State → Nat → Bytes → State × Bool
  | 0, s, _, _ => (s, true)
  | fuel + 1, s, a, b =>
    if b.isEmpty then (s, true)
    else
      let n := 256 - a % 256
      let (s, x) := writeBlock s a (b.take n)
      let (s, y) := writeBlocks fuel s (a + n) (b.drop n)
      (s, x && y)

/-- Bytes stored at a Slate address. The Bool says that no block rejected its part (R251). -/
def writeAt (s : State) (a : Nat) (b : Bytes) : State × Bool :=
  if s.slt.vaults.any fun e => !e.2.bad.isEmpty then writeBlocks b.length s a b else (memWrite s a b, true)

/-- The target of a local hall address: a byte of a data region, a channel or barrier window, a Long Sum lane, a TALLY
word, or none. -/
inductive Target where
  | data (part off : Nat)
  | chan (c off : Nat)
  | bar (b off : Nat)
  | sum (g i : Nat)
  | tally (g t : Nat)
  | none
  deriving DecidableEq, Repr, Inhabited

/-- The target of the local address `loc`. -/
def targetOf (s : State) (loc : Nat) : Target :=
  let x := loc - 0xC000000000000
  if loc < 0x0100000000000 then
    if loc % 2 ^ 40 < dataSize s (loc / 2 ^ 40) then .data (loc / 2 ^ 40) (loc % 2 ^ 40) else .none
  else if loc < 0xC000000000000 then .none
  else if x < 2 ^ 40 then .chan (x / 2 ^ 24) (x % 2 ^ 24)
  else if x < 2 ^ 40 + 2 ^ 22 then .bar (x % 2 ^ 40 / 64) (x % 64)
  else if 2 ^ 41 ≤ x ∧ x < 3 * 2 ^ 40 then .sum (x % 2 ^ 40 / 2 ^ 32) (x % 2 ^ 32 / 4)
  else if 3 * 2 ^ 40 ≤ x ∧ x < 4 * 2 ^ 40 then .tally (x % 2 ^ 40 / 2 ^ 32) (x % 2 ^ 32 / 8)
  else .none

/-- The RANGE response to a request of partition `p` for `n` bytes at an offset outside its data region, if it gets one
(R248, R331). -/
def partRange (s : State) (p o n : Nat) : Option State :=
  if injPart s 0x0F01 p then some (rangeResponse s p (dataBase s p + o) true)
  else if !inData s p o n then some (rangeResponse s p (dataBase s p + o) false)
  else none

/-- Bytes of a partition's data region that a unit reads through its cache: as `readPart`, and counted on no page. -/
def unitRead (s : State) (p o n : Nat) : Bytes × State :=
  match partRange s p o n with
  | some s => (List.replicate n 0, s)
  | none => readAt s (.data p o) (dataBase s p + o) n

/-- Bytes of a partition's data region that a unit writes through its cache. -/
def unitWrite (s : State) (p o : Nat) (b : Bytes) : State :=
  match partRange s p o b.length with
  | some s => s
  | none => (writeAt s (dataBase s p + o) b).1

/-- Whether a write of `n` bytes at `a` covers block `b` whole. -/
def coversBlock (a n b : Nat) : Bool := decide (a ≤ 256 * b) && decide (256 * b + 256 ≤ a + n)

/-- The block number that vault block `vb` of physical vault `v` serves, if it serves one. -/
def servedBlock (s : State) (v vb : Nat) : Option Nat :=
  let l := if v = s.slt.vsTarget ∧ (s.slt.vs = .copy ∨ s.slt.vs = .switch) then s.slt.vsLogical else logicalOf s v
  if physOf s l vb = v then some (vb * 120 + l) else none

/-- Bytes of a memory range set to zero, which no list of them shows. -/
def zeroMem (s : State) (a n : Nat) : State :=
  { s with mem := s.mem.filter fun e => decide (e.1 < a ∨ a + n ≤ e.1) }

/-- Bytes of a range of Slate addresses set to zero: blocks written whole lose their bad-block entries, the part of a bad block
is not written (R251, R252). -/
def zeroAt (s : State) (a n : Nat) : State :=
  if !s.slt.vaults.any fun e => !e.2.bad.isEmpty then zeroMem s a n
  else
  let bad := fun (b : Nat) => (vault s (physOf s (b % 120) (b / 120))).bad.contains (b / 120) && !coversBlock a n b
  let s := { s with mem := s.mem.filter fun e => decide (e.1 < a ∨ a + n ≤ e.1) || bad (e.1 / 256) }
  { s with slt.vaults := s.slt.vaults.foldUpd fun v x =>
      { x with bad := x.bad.filter fun vb => !(servedBlock s v vb).any (coversBlock a n) } }

/-- A range of a partition's data region set to zero. -/
def zeroPart (s : State) (p o n : Nat) : State :=
  match partRange s p o n with
  | some s => s
  | none => zeroAt s (dataBase s p + o) n

/-- `n` bytes of partition `p`'s data region from an offset. A range outside it gets a RANGE response, and an
uncorrectable block an error response; both raise their fault, and the bytes read as zeros (R248, R253). -/
def readPart (s : State) (p o n : Nat) : Bytes × State :=
  let a := dataBase s p + o
  let none' := List.replicate n (0 : Byte)
  if n = 0 then ([], s)
  else match partRange s p o n with
  | some s => (none', s)
  | none => match badRange s a n with
    | some b => (none', badRead s (.data p o) b)
    | none => (memRead s a n, touch s p a n)

/-- Bytes stored at an offset of partition `p`'s data region, or refused with SLT_RANGE (R248), block by block (R251). -/
def writePart (s : State) (p o : Nat) (b : Bytes) : State :=
  let a := dataBase s p + o
  let n := b.length
  if n = 0 then s
  else match partRange s p o n with
  | some s => s
  | none =>
    let (s, ok) := writeAt s a b
    if ok then touch s p a n else s

end Sys2Proof.Machine
end

