-- ==== Sys2Proof/Machine/Channel.lean ====
section
/-!
DEFINITION. The Channel Engine and the barriers (chapter 07): the operations on a channel's window and on a barrier's
window, and what a close, a reset and a retirement do to them.
-/

namespace Sys2Proof.Machine

open Sys2Proof

/-! ### Channels -/

/-- A channel. -/
def chan (s : State) (c : Nat) : Chan := s.chn.chans.look c

/-- Whether CHN takes no new operation: it is stopped, or the Slate takes no request (R193, R261). -/
def chnShut (s : State) : Bool := s.chn.stopped || s.slt.stopped

/-- A channel changed. -/
def updC (s : State) (c : Nat) (f : Chan → Chan) : State := { s with chn.chans := s.chn.chans.upd c f }

/-- Increment of a 32-bit field that saturates (R176). -/
def sat32 (x n : Nat) : Nat := min (x + n) (2 ^ 32 - 1)

/-- Two operations come from one source when block, agent and unit agree (chapter 07, Sending). -/
def sameSrc (a b : Src) : Bool := a.block == b.block && a.agent == b.agent && a.unit == b.unit

/-- Whether a local operation comes from the partition whose channel range holds `c`; operations over the fabric are
accepted for every channel (R175). -/
def chanAllowed (s : State) (c : Nat) (src : Src) : Bool :=
  src.block != blockId s || partOfChan s c == some src.part

/-- Cells that the open or still claimed channels of partition `p` hold (R177, CHN_PART_CELLS.HELD). -/
def cellsHeld (s : State) (p : Nat) : Nat :=
  ((s.chn.chans.filter fun e => e.2.part == p && (e.2.open_ || !e.2.claims.isEmpty)).map (·.2.quota)).foldl (· + ·) 0

/-- Handle "none" of a cell. -/
def noCell : Nat := 0x1FFFFFF

/-- The link-table entry of cell `k` names `next` (chapter 07, Cells). -/
def linkCell (s : State) (k next : Nat) : State := (writeAt s (linkBase s + 4 * k) (leBytes 4 (next % 2 ^ 25))).1

/-- The cells of a packet are linked in chain order (R182). -/
def linkCells : List Nat → State → State
  | [], s => s
  | k :: r, s => linkCells r (linkCell s k (r.head?.getD noCell))

/-- A free cell's NEXT: the order of the free chain is left open. (DESIGN CHOICE, log entry 96). -/
def unlinkCell (s : State) (k : Nat) : State :=
  let (x, s) := freeNat s
  linkCell s k x

/-- Cells returned to the free list. -/
def freeCells (s : State) (l : List Nat) : State :=
  l.foldl unlinkCell { s with chn.taken := l.foldl (fun t k => t.put k false) s.chn.taken }

/-- `n` cells taken from the free list, in an order the spec leaves open. -/
def takeCells (s : State) : Nat → List Nat × State
  | 0 => ([], s)
  | n + 1 =>
    match pickFresh s (fun k => s.chn.taken.look k) s.chn.cells with
    | (some k, s) =>
      let (r, s) := takeCells { s with chn.taken := s.chn.taken.put k true } n
      (k :: r, s)
    | (none, s) => ([], s)

/-- `n` items discarded by a close, a reset or a stale epoch (R177). -/
def countClosed (s : State) (c n : Nat) : State :=
  countN (updC s c fun h => { h with closedDisc := sat32 h.closedDisc n }) .chnClosed n

/-- Cells of a packet of `l` payload bytes (R179). -/
def cellsFor (l : Nat) : Nat := (l + 64 + 2047) / 2048

/-- Bytes stored in a packet's cells from byte `x` on, where the header is bytes 0 to 63 and payload byte `o` is byte
`o + 64` (R179). The Bool says that the Slate rejected none of them. `fuel` is the number of bytes. -/
def cellPut : Nat → State → List Nat → Nat → Bytes → State × Bool
  | 0, s, _, _, _ => (s, true)
  | fuel + 1, s, cells, x, b =>
    match b, cells[x / 2048]? with
    | [], _ => (s, true)
    | _, none => (s, true)
    | _, some k =>
      let n := 2048 - x % 2048
      let (s, ok) := writeAt s (cellBase s + 2048 * k + x % 2048) (b.take n)
      let (s, rest) := cellPut fuel s cells (x + n) (b.drop n)
      (s, ok && rest)

/-- Slate address of payload byte `o` of a packet. -/
def payloadAddr (s : State) (cells : List Nat) (o : Nat) : Nat :=
  cellBase s + 2048 * cells.getD ((o + 64) / 2048) 0 + (o + 64) % 2048

/-- `n` payload bytes from offset `o`; a byte at or above the length, or in a payload block that no write has reached, reads
as zero (R182, R190). -/
def payloadBytes (s : State) (cells blocks : List Nat) (len o : Nat) : Nat → Bytes
  | 0 => []
  | n + 1 =>
    (if o < len ∧ blocks.contains (o / 256) then memByte s (payloadAddr s cells o) else 0) ::
      payloadBytes s cells blocks len (o + 1) n

/-- A packet's header in its first cell (R179). -/
def headerBytes (p : Pkt) (next : Nat) : Bytes :=
  leBytes 4 1 ++ leBytes 4 p.len ++ leBytes 4 p.gap ++ leBytes 2 p.epoch.toNat ++ leBytes 2 p.cells.length ++
    leBytes 4 next ++ leBytes 4 (p.cells.getLastD noCell) ++ leBytes 8 p.seq.toNat ++ leBytes 8 p.ts.toNat ++
    leBytes 4 (srcIdent p.src) ++ leBytes 20 0

/-- A committed packet's header is written, and then NEXT_PKT of the channel's tail names it (R184). -/
def writeHeader (s : State) (list : List Pkt) (p : Pkt) : State :=
  let s := (cellPut 64 s p.cells 0 (headerBytes p noCell)).1
  match list.getLast? with
  | some t => (cellPut 4 s t.cells 0x10 (leBytes 4 (p.cells.headD noCell))).1
  | none => s

/-- The code of an answer, in `Out.answer`: the operation plus 8 × its channel, barrier or Reckoner request. -/
def ansReserve (c : Nat) : Nat := 1 + 8 * c
def ansCommit (c : Nat) : Nat := 2 + 8 * c
def ansClaim (c : Nat) : Nat := 3 + 8 * c
def ansArrive (b : Nat) : Nat := 4 + 8 * b
def ansWait (b : Nat) : Nat := 5 + 8 * b
def ansRequest (r : Nat) : Nat := 6 + 8 * r

/-- The 64 B state of a channel (R176). -/
def chanImage (h : Chan) : Bytes :=
  let cell := fun (p : Option Pkt) => (p.bind (·.cells.head?)).getD noCell
  leBytes 1 (b2n h.open_ + b2n h.dropNewest * 2 + b2n h.gapTaken * 4) ++ leBytes 1 (h.part % 16) ++ leBytes 2 h.epoch.toNat
    ++ leBytes 4 (h.queue % 2 ^ 13) ++ leBytes 4 (h.quota % 2 ^ 24) ++ leBytes 4 (h.used % 2 ^ 24)
    ++ leBytes 2 h.depth ++ leBytes 2 h.packets ++ leBytes 4 (cell h.list.head? % 2 ^ 25)
    ++ leBytes 4 (cell h.list.getLast? % 2 ^ 25) ++ leBytes 4 h.tailGap ++ leBytes 8 h.seq.toNat
    ++ leBytes 4 (h.notifyNode % 2 ^ 24 + b2n h.notifyEn * 2 ^ 24)
    ++ leBytes 4 (((List.range 31).map fun i => b2n (h.claims.look i).isSome * 2 ^ i).foldl (· + ·) 0)
    ++ leBytes 4 h.msg ++ leBytes 4 h.stall ++ leBytes 4 h.drops ++ leBytes 4 h.closedDisc

/-- The window operations' answer value. -/
def answer (s : State) (src : Src) (op v : Nat) : State := emit s (.answer src op (BitVec.ofNat 64 v))

/-- A granted entry: cells, the epoch, and the answer (R180). -/
def grantSend (s : State) (c : Nat) (e : OpenSend) : State :=
  let (cells, s) := takeCells s e.need
  let s := linkCells cells s
  let ep := (chan s c).epoch
  let s := updC s c fun h => { h with packets := h.packets + 1, used := h.used + e.need }
  let e' := { e with granted := true, cells := cells, epoch := ep }
  let s := { s with chn.sends := updFirst (fun x => x.chan == c && sameSrc x.src e.src) (fun _ => e') s.chn.sends }
  answer s e.src (ansReserve c) (ep.toNat * 2 ^ 16)

/-- Whether a reservation fits its channel (R180). -/
def fitsChan (h : Chan) (need : Nat) : Bool := decide (h.packets + 1 ≤ h.depth) && decide (h.used + need ≤ h.quota)

/-- Waiting reservations of a channel are tested in arrival order; the first that does not fit holds back the later
ones (R181). -/
def retestSends (s : State) (c : Nat) : State :=
  let waiting := s.chn.sends.filter fun e => e.chan == c && !e.granted
  (waiting.foldl (fun (a : State × Bool) e =>
    if a.2 && fitsChan (chan a.1 c) e.need then (grantSend a.1 c e, true) else (a.1, false)) (s, true)).1

/-- The lowest free claim slot of a channel. -/
def freeSlot (h : Chan) : Option Nat := firstFrom (fun i => (h.claims.look i).isNone) 0 31

/-- What a CLAIM takes now, if anything (R188): the answer and the channel after it. -/
def claimItem (h : Chan) (maxLen : Nat) : Option (Nat × Chan) :=
  match h.list with
  | [] => if h.tailGap ≠ 0 then some (h.tailGap + 2 ^ 32, { h with tailGap := 0 }) else none
  | p :: r =>
    if p.gap ≠ 0 && !h.gapTaken then some (p.gap + 2 ^ 32, { h with gapTaken := true })
    else if maxLen ≠ 0 ∧ maxLen < p.len then some (p.len + 2 ^ 33, h)
    else match freeSlot h with
      | some k => some (p.len + k * 2 ^ 36, { h with list := r, claims := h.claims.put k (some p), gapTaken := false })
      | none => none

/-- Whether an answer hands over a packet: neither NOUGHT nor TOO_LONG. -/
def isPacketAnswer (v : Nat) : Bool := !bitOf v 32 && !bitOf v 33

/-- A claim is answered, and a race with a waiting claim of another source is reported (R188, R387). -/
def answerClaim (s : State) (c : Nat) (src : Src) (v : Nat) (h : Chan) : State :=
  let s := updC s c fun _ => h
  let s := if isPacketAnswer v && s.chn.claims.any (fun w => w.chan == c && !sameSrc w.src src) then
      detReport s h.part 4 c Config.noNode (srcIdent src)
    else s
  answer s src (ansClaim c) v

/-- Waiting claims of a channel are answered in arrival order while an item is there (R189). -/
def retestClaims (s : State) (c : Nat) : State :=
  let waiting := s.chn.claims.filter (·.chan == c)
  (waiting.foldl (fun (a : State × Bool) w =>
    if !a.2 then a
    else match claimItem (chan a.1 c) w.maxLen with
      | some (v, h) =>
        let s := { a.1 with chn.claims :=
          (takeFirst (fun x => x.chan == c && sameSrc x.src w.src) a.1.chn.claims).elim a.1.chn.claims (·.2) }
        (answerClaim s c w.src v h, true)
      | none => (a.1, false)) (s, true)).1

/-- RESERVE (R174, R175, R177, R180, R181). -/
def chanReserve (s : State) (c : Nat) (src : Src) (x : Nat) : State :=
  let h := chan s c
  let l := x % 2 ^ 19
  let need := cellsFor l
  if !chanAllowed s c src then answer (count s .chnXpart) src (ansReserve c) 3
  else if injArmed s 0x0B03 (· == c) then
    let s := injFire s
    answer (count { s with chn.refused := s.chn.refused.put c (src.unit == 16) } .chnRefuse) src (ansReserve c) 3
  else if x / 2 ^ 19 ≠ 0 ∨ l = 0 ∨ 262144 < l then answer (count s .chnRefuse) src (ansReserve c) 3
  else if !h.open_ then answer (countClosed s c 1) src (ansReserve c) 2
  else if decide (h.quota < need) || s.chn.sends.any (fun e => e.chan == c && sameSrc e.src src) then
    answer (count s .chnRefuse) src (ansReserve c) 3
  else
    let e : OpenSend := { chan := c, src := src, len := l, need := need, granted := false, epoch := 0, cells := [],
                          bad := false, blocks := [] }
    if s.chn.sends.any (fun e => e.chan == c && !e.granted) || !fitsChan h need then
      if h.dropNewest then
        let s := updC s c fun h => { h with tailGap := sat32 h.tailGap 1, drops := sat32 h.drops 1 }
        let s := pageCount (count s .chnDrop) h.part 9 1
        let s := detReport s h.part 5 c Config.noNode (srcIdent src)
        let s := trRecord s { type := 5, part := h.part, cls := 0, gen := 0, node := Config.noNode, sub := 0,
                              ts := s.ts, arg1 := BitVec.ofNat 64 c, arg2 := (srcIdent src) }
        retestClaims (answer s src (ansReserve c) 1) c
      else
        let s := count (updC s c fun h => { h with stall := sat32 h.stall 1 }) .chnStall
        { s with chn.sends := s.chn.sends ++ [e] }
    else grantSend { s with chn.sends := s.chn.sends ++ [e] } c e

/-- What an injection does to a data write of channel `c` (R331): whether the write's CRC is inverted, and whether the
CHN_REWIND that follows is the injected fault. CHN_PKT_CHECK inverts four writes. -/
def dataInject (s : State) (c : Nat) : State × Bool × Bool :=
  match s.chn.inverted.look c with
  | some (n + 1) => ({ s with chn.inverted := s.chn.inverted.put c (some n) }, true, false)
  | _ =>
    if injArmed s 0x0B01 (· == c) then (injFire s, true, true)
    else if injArmed s 0x0B02 (· == c) then
      let s := injFire s
      ({ s with chn.inverted := s.chn.inverted.put c (some 3) }, true, false)
    else (s, false, false)

/-- CHN has performed a write of a Reckoner of this block: its agent counts it no longer as on its way (R274). -/
def writeDone (s : State) (src : Src) (c o : Nat) : State :=
  if src.block = blockId s ∧ src.unit = 16 then
    { s with agt := s.agt.upd src.agent fun x =>
        if x.rkn.launch.any fun l => l.node == src.node && l.gen == src.gen then
          { x with rkn.writes := x.rkn.writes.erase (c, o) } else x }
  else s

/-- Payload blocks that a write of `n` bytes at offset `o` reaches for the first time. -/
def newBlocks (blocks : List Nat) (o n : Nat) : List Nat :=
  (List.range' (o / 256) ((o + n + 255) / 256 - o / 256)).filter fun j => !blocks.contains j

/-- The payload blocks that writes have reached, after a write of `n` bytes at offset `o`. -/
def blocksWith (blocks : List Nat) (o n : Nat) : List Nat := blocks ++ newBlocks blocks o n

/-- Bytes of a packet stored at their place, the first write into a payload block merged with zeros (R182). The Bool says that
the Slate rejected none of them. -/
def storePayload (s : State) (e : OpenSend) (o : Nat) (b : Bytes) : State × Bool :=
  let s := (newBlocks e.blocks o b.length).foldl (fun s j =>
    (cellPut 256 s e.cells (256 * j + 64) (List.replicate (min 256 (e.len - 256 * j)) 0)).1) s
  cellPut b.length s e.cells (o + 64) b

/-- A data write to SEND_DATA at offset `o` (R182, R183): checked, then stored into the granted packet; one that the Slate
rejects marks the entry BAD. (DEDUCED, log entry 38). -/
def chanData (s : State) (c : Nat) (src : Src) (o : Nat) (b : Bytes) (crcOk : Bool) : State :=
  let s := writeDone s src c o
  if !chanAllowed s c src then count s .chnXpart
  else
    let mine := fun (e : OpenSend) => e.chan == c && sameSrc e.src src && e.granted
    match s.chn.sends.find? mine with
    | none => count s .chnOrphan
    | some e =>
      if e.len ≤ o then count s .chnOrphan
      else if e.bad then s
      else
      let (s, flip, inj) := dataInject s c
      if crcOk == flip then
        let s := raiseInj (count s .chnRewind) 0x0B01 .c (chan s c).part c inj
        { s with chn.sends := updFirst mine (fun e => { e with bad := true }) s.chn.sends }
      else
        let (s, ok) := storePayload s e o (b.take (e.len - o))
        let s := if ok then s else raise (count s .chnRewind) 0x0B01 .c (chan s c).part c
        { s with chn.sends := updFirst mine (fun e => { e with bad := !ok, blocks := blocksWith e.blocks o b.length })
                   s.chn.sends }

/-- Bytes of `b` where `sel` selects them, those of `old` elsewhere. -/
def mergeSel (sel : Nat → Bool) : Nat → Bytes → Bytes → Bytes
  | i, y :: old, x :: r => (if sel i then x else y) :: mergeSel sel (i + 1) old r
  | _, _, _ => []

/-- A write to SEND_DATA under a mask of its bytes (R182): the bytes it leaves out keep what the packet holds. -/
def chanWrite (s : State) (c : Nat) (src : Src) (o : Nat) (b : Bytes) (sel : Nat → Bool) (crcOk : Bool) : State :=
  if 0x40000 ≤ o then (if chanAllowed s c src then count s .chnOrphan else count s .chnXpart)
  else
    match s.chn.sends.find? fun e => e.chan == c && sameSrc e.src src && e.granted with
    | none => chanData s c src o b crcOk
    | some e => chanData s c src o (mergeSel sel 0 (payloadBytes s e.cells e.blocks e.len o b.length) b) crcOk

/-- COMMIT (R184). -/
def chanCommit (s : State) (c : Nat) (src : Src) (v : Nat) : State :=
  if !chanAllowed s c src then answer (count s .chnXpart) src (ansCommit c) 3
  else
    let h := chan s c
    let mine := fun (e : OpenSend) => e.chan == c && sameSrc e.src src && e.granted
    match takeFirst mine s.chn.sends with
    | none =>
      if !h.open_ ∨ v % 2 ^ 16 ≠ h.epoch.toNat then answer (countClosed s c 1) src (ansCommit c) 2
      else answer (count s .chnOrphan) src (ansCommit c) 3
    | some (e, rest) =>
      let s := { s with chn.sends := rest }
      if e.bad then
        let s := updC (freeCells s e.cells) c fun h => { h with packets := h.packets - 1, used := h.used - e.need }
        retestSends (answer s src (ansCommit c) 1) c
      else
        let p : Pkt := { len := e.len, gap := h.tailGap, epoch := e.epoch, cells := e.cells, seq := h.seq, ts := s.ts,
                         src := src, blocks := e.blocks }
        let s := writeHeader s h.list p
        let race := h.lastSrc.any fun x => !sameSrc x src
        let s := updC s c fun h => { h with list := h.list ++ [p], tailGap := 0, seq := h.seq + 1,
                                            msg := sat32 h.msg 1, lastSrc := some src }
        let s := pageCount (count s .chnMsg) h.part 8 1
        let s := if race then detReport s h.part 3 c Config.noNode (srcIdent src) else s
        let s := progress (answer s src (ansCommit c) 0) h.queue
        let s := if h.notifyEn then pushNotice s h.notifyNode else s
        retestClaims s c

/-- CLAIM (R188, R189). -/
def chanClaim (s : State) (c : Nat) (src : Src) (x : Nat) : State :=
  let h := chan s c
  let maxLen := x % 2 ^ 19
  if !chanAllowed s c src then answer (count s .chnXpart) src (ansClaim c) (2 ^ 35)
  else if !h.open_ then answer s src (ansClaim c) (2 ^ 34)
  else
    let wait := fun (s : State) =>
      let s := count (updC s c fun h => { h with stall := sat32 h.stall 1 }) .chnStall
      { s with chn.claims := s.chn.claims ++ [{ chan := c, src := src, maxLen := maxLen }] }
    if s.chn.claims.any (·.chan == c) then wait s
    else match claimItem h maxLen with
      | some (v, h') => answerClaim s c src v h'
      | none => wait s

/-- Bytes of a packet from offset `o` (R190). -/
def pktBytes (s : State) (p : Pkt) (o n : Nat) : Bytes := payloadBytes s p.cells p.blocks p.len o n

/-- A read of `n` bytes of a packet from offset `o`; a cell with an uncorrectable block raises its fault and the bytes read as
zeros (R190, R253). -/
def pktRead (s : State) (p : Pkt) (o n : Nat) : Bytes × State :=
  let last := min (o + n) p.len
  let runs := (List.range' ((o + 64) / 2048) ((last + 63) / 2048 + 1 - (o + 64) / 2048)).map fun i =>
    (p.cells.getD i 0, max (o + 64) (2048 * i), min (last + 64) (2048 * (i + 1)))
  let bad := runs.findSome? fun (k, x, y) =>
    (badRange s (cellBase s + 2048 * k + x % 2048) (y - x)).map fun b => (k, b)
  match bad with
  | some (k, b) => (List.replicate n 0, badRead s (.cell k) b)
  | none => (pktBytes s p o n, s)

/-- The bytes that a read of RECV_DATA slot `k` returns (R175, R190). -/
def recvBytes (s : State) (c : Nat) (src : Src) (k o n : Nat) : Bytes × State :=
  if !chanAllowed s c src then (List.replicate n 0, count s .chnXpart)
  else match (chan s c).claims.look k with
    | some p => if o < p.len then pktRead s p o n else (List.replicate n 0, s)
    | none => (List.replicate n 0, count s .chnOrphan)

/-- A value returned as the `n` low bytes of a read. -/
def valBytes (n v : Nat) : Bytes := leBytes n v

/-- RELEASE (R190). -/
def chanRelease (s : State) (c : Nat) (src : Src) (v : Nat) : State :=
  let s := writeDone s src c 0xFC0008
  if !chanAllowed s c src then count s .chnXpart
  else
    let k := v % 32
    match (chan s c).claims.look k with
    | some p =>
      if v / 32 ≠ 0 then count s .chnOrphan
      else
        let s := updC (freeCells s p.cells) c fun h =>
          { h with claims := h.claims.put k none, packets := h.packets - 1, used := h.used - p.cells.length }
        let s := progress s (chan s c).queue
        retestClaims (retestSends s c) c
    | none => count s .chnOrphan

/-- NOTIFY (R175, R177, R192, R64). -/
def chanNotify (s : State) (c : Nat) (src : Src) (v : Nat) : State :=
  let n := v % 2 ^ 24
  if !chanAllowed s c src then count s .chnXpart
  else if !(chan s c).open_ then count s .chnOrphan
  else if bitOf v 24 then
    if n ≠ Config.noNode ∧ ownsNode s (chan s c).part n then
      updC s c fun h => { h with notifyNode := n, notifyEn := true }
    else count s .chnOrphan
  else updC s c fun h => { h with notifyEn := false }

/-- A read of STATUS (R174). -/
def chanStatus (s : State) (c : Nat) : Nat :=
  let h := chan s c
  h.epoch.toNat + b2n h.open_ * 2 ^ 16 + h.packets % 2 ^ 16 * 2 ^ 32

/-- The bytes that a read of `n` bytes at offset `o` of a channel's window returns, with the counts of an access that
names no word (R174, R175, R190). -/
def windowRead (s : State) (c : Nat) (src : Src) (o n : Nat) : Bytes × State :=
  if !chanAllowed s c src then (List.replicate n 0, count s .chnXpart)
  else if 0x800000 ≤ o ∧ o < 0xFC0000 then
    recvBytes s c src ((o - 0x800000) / 0x40000) ((o - 0x800000) % 0x40000) n
  else if o = 0xFC0018 ∧ n = 8 then (valBytes 8 (chanStatus s c), s)
  else (List.replicate n 0, count s .chnOrphan)

/-- A read in a channel's window (R174, R190). -/
def chanRecv (s : State) (c : Nat) (src : Src) (o n : Nat) : State :=
  let (b, s) := windowRead s c src o n
  emit s (.readData src b)

/-- An atomic on a word that R174 does not list: it answers zero. -/
def chanStray (s : State) (c : Nat) (src : Src) : State :=
  emit (count s (if chanAllowed s c src then .chnOrphan else .chnXpart)) (.answer src (8 * c) 0)

/-- CHAN_CLOSE of an OPEN channel (R177). -/
def closeChan (s : State) (c : Nat) : State :=
  let h := chan s c
  let mine := s.chn.sends.filter (·.chan == c)
  let granted := mine.filter (·.granted)
  let waiting := mine.filter fun e => !e.granted
  let claims := s.chn.claims.filter (·.chan == c)
  let s := { s with chn.sends := s.chn.sends.filter (·.chan != c), chn.claims := s.chn.claims.filter (·.chan != c) }
  let s := freeCells s (h.list.flatMap (·.cells) ++ granted.flatMap (·.cells))
  let gone := (h.list.map (·.cells.length) ++ granted.map (·.need)).foldl (· + ·) 0
  let s := updC s c fun h => { h with
    open_ := false, epoch := h.epoch + 1, packets := h.packets - h.list.length - granted.length,
    used := h.used - gone, list := [], tailGap := 0, notifyEn := false, gapTaken := false }
  let s := countClosed s c (h.list.length + granted.length + waiting.length)
  let s := emits s (waiting.map fun e => .answer e.src (ansReserve c) 2)
  emits s (claims.map fun w => .answer w.src (ansClaim c) (BitVec.ofNat 64 (2 ^ 34)))

/-- A channel reset: as a close, and claimed packets are freed too (R177). A CLOSED channel without claims is left
unchanged. -/
def resetChan (s : State) (c : Nat) : State :=
  let h := chan s c
  if !h.open_ && h.claims.isEmpty then s
  else
    let s := if h.open_ then closeChan s c else updC s c fun h => { h with epoch := h.epoch + 1 }
    let pk := h.claims.filterMap (·.2)
    let s := freeCells s (pk.flatMap (·.cells))
    updC s c fun h => { h with claims := [], packets := 0, used := 0 }

/-- Every channel that `pick` names by its recorded state is reset (R177). (DEDUCED, log entry 74). -/
def resetChans (s : State) (pick : Chan → Bool) : State :=
  ((s.chn.chans.filter fun e => (e.2.open_ || !e.2.claims.isEmpty) && pick e.2).map (·.1)).foldl resetChan s

/-- CHAN_OPEN of a closed channel (R177): it clears every field but EPOCH and sets those it names. -/
def openChan (s : State) (c part q quota depth : Nat) (dropNewest : Bool) : State :=
  updC s c fun h => { (default : Chan) with
    open_ := true, dropNewest := dropNewest, part := part, epoch := h.epoch + 1, queue := q, quota := quota,
    depth := depth }

/-! ### Barriers (R194–R198) -/

/-- A barrier. -/
def bar (s : State) (b : Nat) : Bar := s.bau.bars.look b

/-- The 32 B state of barrier `b` (R194). -/
def barImage (s : State) (b : Nat) : Bytes :=
  let x := bar s b
  leBytes 2 (b2n x.bound + b2n x.genSet * 2) ++ leBytes 2 x.phase.toNat ++ leBytes 4 (x.node % 2 ^ 24)
    ++ leBytes 4 (x.expected % 2 ^ 24) ++ leBytes 4 (x.arrived % 2 ^ 24) ++ leBytes 2 x.gen.toNat
    ++ leBytes 2 (s.bau.waits.filter (·.bar == b)).length ++ leBytes 4 (x.lastCount % 2 ^ 24) ++ leBytes 8 0

/-- A barrier changed. -/
def updB (s : State) (b : Nat) (f : Bar → Bar) : State := { s with bau.bars := s.bau.bars.upd b f }

/-- The queue whose command launched a node (R340). -/
def queueOfNode (s : State) (n : Nat) : Nat :=
  let r := nd s n
  if inGraph r then (nd s r.graph).hdr.src.q else r.src.q

/-- The release of a barrier (R196): waits of the current phase are answered, the phase advances, and so does the
barrier epoch of the owner (R201). -/
def releaseBar (s : State) (b : Nat) : State :=
  let x := bar s b
  let held := s.bau.waits.filter fun w => w.bar == b && w.phase == x.phase
  let s := updB s b fun x => { x with lastCount := x.arrived, phase := x.phase + 1, arrived := 0 }
  let s := { s with bau.waits := s.bau.waits.filter fun w => !(w.bar == b && w.phase == x.phase) }
  let s := { s with bau.epoch := ((List.range 16).filter fun p => ownsBar s p b).foldl (fun t p => t.upd p (· + 1))
                      s.bau.epoch }
  let s := progress (count s .bauRelease) (queueOfNode s x.node)
  emits s (held.map fun w => .answer w.src (ansWait b) (BitVec.ofNat 64 x.arrived))

/-- A refused barrier operation (R194). -/
def refuseBar (s : State) (src : Src) (op : Nat) : State := answer (count s .bauRefuse) src op (2 ^ 63)

/-- Whether a barrier is usable by a source: a local task of the partition that owns it (R194). -/
def barAllowed (s : State) (b : Nat) (src : Src) : Bool := src.block == blockId s && ownsBar s src.part b

/-- ARM (R195): `full` says that the write's mask covers all 8 bytes. -/
def barArm (s : State) (b : Nat) (src : Src) (v : Nat) (full : Bool) : State :=
  let n := v % 2 ^ 24
  let ex := v / 2 ^ 24 % 2 ^ 24
  let boundTo := fun m => (s.bau.bars.filter fun e => e.2.bound && e.2.node == m).length
  let nodes := ((s.bau.bars.filter (·.2.bound)).map (·.2.node)).eraseDups
  if !barAllowed s b src || !full || decide (v / 2 ^ 48 ≠ 0) || (bar s b).bound || ex == 0 || !ownsNode s src.part n
      || decide (4 ≤ boundTo n) || decide (4096 ≤ nodes.length) then
    count s .bauRefuse
  else updB s b fun x => { x with bound := true, genSet := false, node := n, expected := ex, arrived := 0 }

/-- The checks of an arrival or a wait on BOUND, NODE and GEN (R195, R196). -/
def barMatches (s : State) (b : Nat) (src : Src) : Bool :=
  let x := bar s b
  x.bound && x.node == src.node && (!x.genSet || x.gen == src.gen)

/-- ARRIVE (R196): `rec` is the phase that the agent recorded for the participant and the barrier. -/
def barArrive (s : State) (b : Nat) (src : Src) (rec : Option (BitVec 16)) : State :=
  if !barAllowed s b src || !barMatches s b src then refuseBar s src (ansArrive b)
  else
    let s := updB s b fun x => { x with gen := src.gen, genSet := true }
    let x := bar s b
    if rec == some x.phase then answer (count s .bauDup) src (ansArrive b) (x.phase.toNat + x.arrived * 2 ^ 16)
    else
      let s := count (updB s b fun x => { x with arrived := x.arrived + 1 }) .bauArrive
      let s := answer s src (ansArrive b) (x.phase.toNat + (x.arrived + 1) * 2 ^ 16)
      if x.expected ≤ x.arrived + 1 then releaseBar s b else s

/-- WAIT for a phase (R196). -/
def barWait (s : State) (b : Nat) (src : Src) (ph : BitVec 16) : State :=
  if !barAllowed s b src || !barMatches s b src then refuseBar s src (ansWait b)
  else
    let s := updB s b fun x => { x with gen := src.gen, genSet := true }
    if ph = (bar s b).phase then { s with bau.waits := s.bau.waits ++ [{ bar := b, phase := ph, src := src }] }
    else answer s src (ansWait b) (bar s b).lastCount

/-- A participant's retirement notice at one barrier bound to its node (R197). -/
def retireAt (s : State) (b : Nat) (gen : BitVec 16) (pairs : List (Nat × BitVec 16)) : State :=
  let x := bar s b
  if x.genSet && x.gen != gen then s
  else
    let mine := pairs.any fun e => e.1 == b && e.2 == x.phase
    let s := updB s b fun x => { x with gen := gen, genSet := true, expected := x.expected - 1,
                                        arrived := if mine then x.arrived - 1 else x.arrived }
    let x := bar s b
    if x.expected = 0 then
      let s := if s.bau.waits.any (fun w => w.bar == b && w.phase == x.phase) || x.arrived != 0 then
          count (releaseBar s b) .bauLowerRel else s
      updB s b fun x => { x with bound := false }
    else if 0 < x.arrived ∧ x.expected ≤ x.arrived then count (releaseBar s b) .bauLowerRel
    else s

/-- A retirement notice reaches BAU (R197). -/
def retireNotice (s : State) (node : Nat) (gen : BitVec 16) (pairs : List (Nat × BitVec 16)) : State :=
  ((s.bau.bars.filter fun e => e.2.bound && e.2.node == node).map (·.1)).foldl (fun s b => retireAt s b gen pairs) s

/-- A read of a barrier's STATUS (R194). (DEDUCED, log entry 39). -/
def barStatus (s : State) (b : Nat) : Nat :=
  let x := bar s b
  b2n x.bound + x.phase.toNat * 2 ^ 16 + x.arrived % 2 ^ 24 * 2 ^ 32

/-- An access to a barrier's window that is no ARM, ARRIVE or WAIT (R194): a read of STATUS, or one that is refused. -/
def barOther (s : State) (b : Nat) (src : Src) (off : Nat) (read atomic : Bool) : State × W64 :=
  if !barAllowed s b src then (count s .bauRefuse, BitVec.ofNat 64 (2 ^ 63))
  else if read ∧ off = 0x18 then (s, BitVec.ofNat 64 (barStatus s b))
  else (count s .bauRefuse, if atomic then BitVec.ofNat 64 (2 ^ 63) else 0)

end Sys2Proof.Machine
end

