-- ==== Sys2Proof/Machine/Cmd.lean ====
section
/-!
DEFINITION. The commands as records: what the block recognises (R41), the checks of R42 in their order, and the legal
values of payload fields and handles (chapter 02, Command payloads; R52, R53, R64, R70, R80, R246, R247, R424).
-/

namespace Sys2Proof.Machine

open Sys2Proof

/-- Records of a command by its OPCODE; none for an unknown opcode (R41). PAD is handled before (R42). -/
def recordsOf (op : Nat) : Option Nat :=
  if op = 0x12 then some 5
  else if [0x01, 0x02, 0x10, 0x11, 0x13, 0x14, 0x20, 0x21, 0x22, 0x30, 0x31, 0x32, 0x33, 0x80, 0x81, 0x82].contains op
    then some 1
  else if [0xC0, 0xC1, 0xC2, 0xC3, 0xC4, 0xC5].contains op then some 2
  else none

/-- Bit 7 of OPCODE marks a kernel-only command, bit 6 a critical one. -/
def kernelOnly (op : Nat) : Bool := bitOf op 7
def critical (op : Nat) : Bool := bitOf op 6

/-- The named payload fields of a command: byte offset, first bit, bits (chapter 02, Command payloads). -/
def payloadFields (op : Nat) : List (Nat × Nat × Nat) :=
  if op = 0x10 then [(8, 0, 64), (0x10, 0, 32), (0x14, 0, 24), (0x18, 0, 24)]
  else if op = 0x11 then [(8, 0, 24), (0xC, 0, 16), (0x10, 0, 64)]
  else if op = 0x12 then [(8, 0, 24)]
  else if op = 0x13 then [(8, 0, 24), (0xC, 0, 24)]
  else if op = 0x14 then [(8, 0, 24), (0xC, 0, 24)]
  else if op = 0x20 ∨ op = 0x21 then [(8, 0, 64), (0x10, 0, 40), (0x18, 0, 32)]
  else if op = 0x22 then [(8, 0, 64), (0x10, 0, 32)]
  else if op = 0x30 then [(8, 0, 16), (0xA, 0, 2), (0xC, 0, 24), (0x10, 0, 16)]
  else if op = 0x31 then [(8, 0, 16)]
  else if op = 0x32 then [(8, 0, 64), (0x10, 0, 64), (0x18, 0, 2), (0x19, 0, 4)]
  else if op = 0x33 then [(8, 0, 64), (0x10, 0, 64), (0x18, 0, 4), (0x19, 0, 4), (0x1A, 0, 13)]
  else if op = 0x80 then [(8, 0, 13), (0xA, 0, 4), (0xB, 0, 8), (0xC, 0, 5), (0xD, 0, 5), (0xE, 0, 6), (0xF, 0, 1),
    (0x10, 0, 64), (0x18, 0, 64), (0x20, 0, 24), (0x24, 0, 24), (0x28, 0, 16), (0x2A, 0, 16)]
  else if op = 0x81 then [(8, 0, 13)]
  else if op = 0x82 then [(8, 0, 4)]
  else if op = 0xC0 then [(8, 0, 4), (0xC, 0, 24), (0x10, 0, 24), (0x14, 0, 16), (0x16, 0, 16), (0x18, 0, 24),
    (0x1C, 0, 8)]
  else if op = 0xC1 then [(8, 0, 3), (9, 0, 1), (0x10, 0, 192)]
  else if op = 0xC2 ∨ op = 0xC3 then [(8, 0, 64), (0x10, 0, 64), (0x18, 0, 16), (0x1C, 0, 17)]
  else if op = 0xC4 then [(8, 0, 26), (0x10, 0, 64), (0x18, 0, 64)]
  else if op = 0xC5 then [(8, 0, 2), (0xA, 0, 16)]
  else []

/-- The header's fields, and the authentication extension's in the last record of a critical command. -/
def commonFields (op : Nat) : List (Nat × Nat × Nat) :=
  [(0, 0, 8), (1, 0, 4), (2, 0, 3), (4, 0, 32)] ++
  (if critical op then [(0x40, 0, 3), (0x48, 0, 64), (0x50, 0, 128)] else [])

/-- The mask of a list of named fields. -/
def fieldMask (l : List (Nat × Nat × Nat)) : Nat :=
  l.foldl (fun m f => m ||| ((2 ^ f.2.2 - 1) * 2 ^ (8 * f.1 + f.2.1))) 0

/-- The lowest byte, of `n`, that holds a bit of `x` outside `mask`. -/
def lowestReserved (x mask n : Nat) : Option Nat :=
  let bad := x ^^^ (x &&& mask)
  firstFrom (fun i => bad / 2 ^ (8 * i) % 256 != 0) 0 n

/-! ### Node records as bytes (R65–R69) -/

/-- A field of a 256 B node record given as its little-endian value. -/
def nfld (b off sh bits : Nat) : Nat := b / 2 ^ (8 * off + sh) % 2 ^ bits

/-- The named bits of `n` successor entries of 8 B from offset `off` (R66). -/
def succFields (off n : Nat) : List (Nat × Nat × Nat) :=
  (List.range n).flatMap fun i => [(off + 8 * i, 0, 37), (off + 8 * i, 40, 8)]

/-- The named bits of a node record by its KIND (R65, R67, R69). -/
def nodeFields (b : Nat) : List (Nat × Nat × Nat) :=
  let inl := min 12 (nfld b 0xB 0 8)
  match nfld b 0 0 8 with
  | 4 => [(0, 0, 8), (4, 0, 8), (8, 0, 24)] ++ succFields 0x10 (min 30 (nfld b 4 0 8))
  | 5 => [(0, 0, 8), (1, 0, 3), (2, 0, 4), (4, 0, 16), (0xB, 0, 8), (0x14, 0, 24), (0x18, 0, 64), (0x20, 0, 24),
      (0x24, 0, 24), (0x28, 0, 24), (0x2C, 0, 24), (0x30, 0, 4), (0x38, 0, 14), (0x3A, 0, 16), (0xA0, 0, 32),
      (0xC0, 0, 256), (0xE0, 0, 256)] ++ succFields 0x40 inl
  | _ => [(0, 0, 8), (1, 0, 5), (2, 0, 8), (3, 0, 3), (4, 0, 16), (8, 0, 24), (0xB, 0, 8), (0xC, 0, 24),
      (0x10, 0, 24), (0x13, 0, 8), (0x14, 0, 24), (0x18, 0, 64), (0x20, 0, 40), (0x28, 0, 16), (0x2A, 0, 8),
      (0x2C, 0, 32), (0x30, 0, 32), (0x34, 0, 32), (0x38, 0, 13), (0xA0, 0, 32), (0xA4, 0, 24), (0xA8, 0, 64),
      (0xC0, 0, 512)] ++ succFields 0x40 inl

/-- The lowest byte of a node record with a reserved bit set. -/
def nodeReserved (b : Nat) : Option Nat := lowestReserved b (fieldMask (nodeFields b)) 256

/-- Whether a successor entry at `off` breaks R64 or R66. `own` is the block's id; a header's entries stay local
(R69). -/
def succBad (own : Nat) (header : Bool) (b off : Nat) : Bool :=
  let blk := nfld b off 24 12
  let rem := nfld b off 36 1 = 1
  nfld b off 0 24 = 0xFFFFFF || (rem && blk = own) || (!rem && blk ≠ 0) || nfld b off 40 8 = 0 || (header && rem)

/-- The offsets of the fields of a node record whose values break R62, R65, R66, R67 or R69, ascending. `submit` marks
a TASK_SUBMIT record (R77). -/
def nodeBadFields (own : Nat) (submit : Bool) (b : Nat) : List Nat :=
  let kind := nfld b 0 0 8
  let cls := nfld b 3 0 3
  let inl := nfld b 0xB 0 8
  let join := kind = 3
  let tests : List (Nat × Bool) :=
    if kind = 4 then
      [(0, submit), (4, decide (nfld b 4 0 8 = 0 ∨ 30 < nfld b 4 0 8))] ++
        (List.range (min 30 (nfld b 4 0 8))).map fun i => (0x10 + 8 * i, succBad own false b (0x10 + 8 * i))
    else if kind = 5 then
      [(0, submit), (0xB, decide (12 < inl)), (0x24, nfld b 0x24 0 24 = 0)] ++
        (List.range (min 12 inl)).map fun i => (0x40 + 8 * i, succBad own true b (0x40 + 8 * i))
    else
      [(0, decide (kind = 0 ∨ 5 < kind)),
       (1, nfld b 1 4 1 = 1 && nfld b 1 3 1 = 0),
       (3, decide (4 < cls) || (kind = 1 && cls = 4) || (kind = 2 && cls ≠ 4) || (join && cls ≠ 0)),
       (0xB, decide (12 < inl)),
       (0xC, !submit && nfld b 0xC 0 24 = 0),
       (0x14, submit && nfld b 0x14 0 24 ≠ 0xFFFFFF),
       (0x20, nfld b 0x20 0 40 % 256 ≠ 0 || (join && nfld b 0x20 0 40 ≠ 0)),
       (0x28, join && nfld b 0x28 0 16 ≠ 0),
       (0x2A, if join then nfld b 0x2A 0 8 ≠ 0 else nfld b 0x2A 0 8 = 0),
       (0x2C, join && nfld b 0x2C 0 32 ≠ 0),
       (0x30, if join then nfld b 0x30 0 32 ≠ 0 else nfld b 0x30 0 32 = 0)] ++
        ((List.range (min 12 inl)).map fun i => (0x40 + 8 * i, succBad own false b (0x40 + 8 * i))) ++
        [(0xC0, join && nfld b 0xC0 0 512 ≠ 0)]
  (tests.filter (·.2)).map (·.1)

/-- The first offending offset of a node record, reserved bits included. (DEDUCED, log entry 20). -/
def nodeFault (own : Nat) (submit : Bool) (b : Nat) : Option Nat :=
  match nodeReserved b, (nodeBadFields own submit b).head? with
  | some x, some y => some (min x y)
  | some x, none => some x
  | none, y => y

/-- KIND as the model's type. -/
def kindOf (k : Nat) : Kind :=
  match k with
  | 1 => .task
  | 2 => .layer
  | 3 => .join
  | 4 => .succ
  | 5 => .graph
  | _ => .free

/-- `n` successor entries from offset `off`, local handles moved by `base` (R52). -/
def succsOf (base b off n : Nat) : List Succ :=
  (List.range n).map fun i =>
    let o := off + 8 * i
    let rem := nfld b o 36 1 = 1
    { node := if rem then nfld b o 0 24 else base + nfld b o 0 24, block := nfld b o 24 12, remote := rem,
      weight := nfld b o 40 8 }

/-- A handle field that may hold "none", moved by `base`. -/
def relocNone (base h : Nat) : Nat := if h = 0xFFFFFF then h else base + h

/-- The record that GRS stores: the fields of the bytes, the block's own fields as given (R65, R71, R77). -/
def parseNode (base b graph : Nat) (st : NState) : NodeRec :=
  let kind := kindOf (nfld b 0 0 8)
  if kind == .succ then
    { (default : NodeRec) with kind := .succ, succs := succsOf base b 0x10 (nfld b 4 0 8),
                               succNext := relocNone base (nfld b 8 0 24), graph := graph }
  else if kind == .graph then
    { (default : NodeRec) with
      kind := .graph, succs := succsOf base b 0x40 (nfld b 0xB 0 8), succNext := relocNone base (nfld b 0x14 0 24),
      graph := graph,
      hdr := { (default : Header) with nodeCount := nfld b 0x20 0 24, workCount := nfld b 0x24 0 24,
                                       cplCount := nfld b 0x28 0 24 } }
  else
    { (default : NodeRec) with
      kind := kind, st := st, cpl := nfld b 1 3 1 = 1, irq := nfld b 1 4 1 = 1, prio := nfld b 2 4 4,
      cls := nfld b 3 0 3, initTally := nfld b 0xC 0 24, tally := nfld b 0xC 0 24, graph := graph,
      dlGroup := nfld b 0x13 0 8, succs := succsOf base b 0x40 (nfld b 0xB 0 8),
      succNext := relocNone base (nfld b 0x14 0 24), arg := BitVec.ofNat 64 (nfld b 0x18 0 64),
      kdesc := nfld b 0x20 0 40, regs := nfld b 0x28 0 16, groups := nfld b 0x2A 0 8, lmem := nfld b 0x2C 0 32,
      blocks := nfld b 0x30 0 32, tag := nfld b 0x34 0 32, params := BitVec.ofNat 512 (nfld b 0xC0 0 512) }

/-! ### Field values (R42, third test onwards) -/

/-- Bits of the agent mask at or above N. -/
def badAgents (s : State) (m : Nat) : Option Nat :=
  firstFrom (fun a => bitOf m a) (agentCount s) (64 - agentCount s)

/-- A sum over the partitions, with partition `p` at value `v`. -/
def sumParts (s : State) (f : Part → Nat) (p v : Nat) : Nat :=
  ((List.range 16).map fun i => if i = p then v else f (s.parts.look i)).foldl (· + ·) 0

/-- The offset of the first payload field whose value is not legal. (DEDUCED, log entry 22). -/
def fieldFault (s : State) (q : Nat) (c : Cmd) : Option Nat :=
  let f := c.fld
  let user := !isKernel q
  let tests : List (Nat × Bool) :=
    match c.op with
    | 0x10 => [(8, f 8 0 64 % 256 ≠ 0), (0x10, f 0x10 0 32 = 0 || f 0x10 0 32 ≠ f 0x18 0 24 * 256)]
    | 0x12 => (nodeBadFields (blockId s) true (c.body / 2 ^ 512 % 2 ^ 2048)).map fun o => (0x40 + o, true)
    | 0x13 => [(0xC, f 0xC 0 24 = 0)]
    | 0x14 => [(0xC, f 0xC 0 24 = 0)]
    | 0x20 | 0x21 => [(8, f 8 0 64 % 64 ≠ 0), (0x10, f 0x10 0 40 % 256 ≠ 0),
        (0x18, f 0x18 0 32 = 0 || f 0x18 0 32 % 64 ≠ 0)]
    | 0x22 => [(8, f 8 0 64 % 64 ≠ 0), (0x10, f 0x10 0 32 = 0 || f 0x10 0 32 % 64 ≠ 0)]
    | 0x30 => [(0xA, decide (1 < f 0xA 0 2)), (0xC, f 0xC 0 24 = 0), (0x10, f 0x10 0 16 = 0)]
    | 0x32 => [(8, f 8 0 64 % 8 ≠ 0), (0x18, f 0x18 0 2 = 0 || f 0x18 0 2 = 3), (0x19, user && f 0x19 0 4 ≠ 0)]
    | 0x33 => [(8, f 8 0 64 % 8 ≠ 0), (0x18, f 0x18 0 2 = 0 || f 0x18 0 2 = 3 || decide (1 < f 0x18 2 2)),
        (0x19, user && f 0x19 0 4 ≠ 0), (0x1A, decide (0x100F < f 0x1A 0 13) && f 0x1A 0 13 ≠ 0x1FFF)]
    | 0x80 => [(0xB, f 0xB 0 8 = 0), (0xC, decide (f 0xC 0 5 < 4 ∨ 16 < f 0xC 0 5)),
        (0xD, decide (f 0xD 0 5 < 4 ∨ 16 < f 0xD 0 5)),
        (0x10, f 0x10 0 64 % 64 ≠ 0 || decide (Config.hostTop ≤ f 0x10 0 64)),
        (0x18, f 0x18 0 64 % 32 ≠ 0 || decide (Config.hostTop ≤ f 0x18 0 64))]
    | 0xC0 =>
        let p := f 8 0 4
        [(0xC, decide (s.grs.nodeCap < f 0xC 0 24 + f 0x10 0 24) && f 0x10 0 24 ≠ 0),
         (0x18, decide (s.chn.cells < sumParts s (·.cellQuota) p (f 0x18 0 24))),
         (0x1C, decide (256 < sumParts s (·.beadShare) p (f 0x1C 0 8)))]
    | 0xC1 => [(8, f 8 0 3 = 0), (0x10, f 9 0 1 = 1 && f 0x10 0 192 ≠ 0)]
    | 0xC2 | 0xC3 => [(0x10, f 0x10 0 64 % 64 ≠ 0), (0x18, f 0x18 0 16 % 64 ≠ 0),
        (0x1C, f 0x1C 0 17 = 0 || f 0x1C 0 17 % 64 ≠ 0 || decide (65536 < f 0x18 0 16 + f 0x1C 0 17))]
    | 0xC4 => [(8, f 8 0 26 % 8 ≠ 0 || lockMask s (f 8 0 26) = 0 ||
        f 0x18 0 64 &&& lockMask s (f 8 0 26) ≠ f 0x18 0 64)]
    | 0xC5 => [(8, f 8 0 2 = 3)]
    | _ => []
  (tests.find? (·.2)).map (·.1)

/-! ### Handles (R52, R53, R64) -/

/-- The absolute node handle that a queue's handle names; none where it fails its test. -/
def relocNode (s : State) (q h : Nat) : Option Nat :=
  let u := queue s q
  if h = Config.noNode then none
  else if isKernel q then (if (partOfNode s h).isSome then some h else none)
  else if u.reloc then (if h < u.nodeCount ∧ u.nodeBase + h ≠ Config.noNode then some (u.nodeBase + h) else none)
  else if u.nodeBase ≤ h ∧ h < u.nodeBase + u.nodeCount then some h else none

/-- The absolute channel handle that a queue's handle names. -/
def relocChan (s : State) (q c : Nat) : Option Nat :=
  let u := queue s q
  if isKernel q then (if (partOfChan s c).isSome then some c else none)
  else if u.reloc then (if c < u.chanCount then some (u.chanBase + c) else none)
  else if u.chanBase ≤ c ∧ c < u.chanBase + u.chanCount then some c else none

/-- The base that a queue adds to the handles of an image or a record (R52). -/
def relocBase (s : State) (q : Nat) : Nat := if (queue s q).reloc && !isKernel q then (queue s q).nodeBase else 0

/-- The DETAIL of a range that fails its test: its base as written, 0xFF_FFFF where it includes that handle, and for a
kernel queue, whose range stays in one partition, the first handle outside (R52, R53, R64).
(DEDUCED, log entry 21). -/
def rangeFault (s : State) (q base n : Nat) : Option Nat :=
  if isKernel q then
    match partOfNode s base with
    | none => some base
    | some p => firstFrom (fun h => !ownsNode s p h || h == Config.noNode) base n
  else
    let o := if (queue s q).reloc then (queue s q).nodeBase else 0
    (firstFrom (fun h => (relocNode s q h).isNone) base n).map fun _ =>
      if o + base ≤ Config.noNode ∧ Config.noNode < o + base + n then Config.noNode else base

/-- Whether `[a, a+n)` and `[b, b+m)` share a handle. -/
def overlaps (a n b m : Nat) : Bool := decide (0 < n ∧ 0 < m ∧ a < b + m ∧ b < a + n)

/-- The partition in whose name a queue's flag command reaches its word (R424). -/
def flagPart (s : State) (q : Nat) (c : Cmd) : Nat := if isKernel q then c.fld 0x19 0 4 else (queue s q).part

/-- Whether a local hall address is an aligned word of partition `p`'s data region (R264, R424). -/
def localWordOk (s : State) (p loc : Nat) : Bool :=
  decide (p * 2 ^ 40 ≤ loc) && inData s p (loc - p * 2 ^ 40) 8

/-- The header that GRAPH_LAUNCH names, or none (R72, R80). -/
def launchHeader (s : State) (q : Nat) (c : Cmd) : Option Nat :=
  let t := c.fld 0xC 0 16
  if t = 0xFFFF then
    match relocNode s q (c.fld 8 0 24) with
    | some h => if (nd s h).kind == .graph then some h else none
    | none => none
  else
    let e := tpl s t
    if t ≤ 1023 ∧ e.valid ∧ (isKernel q ∨ e.part = (queue s q).part) then some e.header else none

/-- The DETAIL of a HANDLE refusal, or none (R42, after the field values). -/
def handleFault (s : State) (q : Nat) (c : Cmd) : Option Nat :=
  let f := c.fld
  match c.op with
  | 0x10 => rangeFault s q (f 0x14 0 24) (f 0x18 0 24)
  | 0x11 => if (launchHeader s q c).isSome then none
            else some (if f 0xC 0 16 = 0xFFFF then f 8 0 24 else f 0xC 0 16)
  | 0x12 =>
    match relocNode s q (f 8 0 24) with
    | none => some (f 8 0 24)
    | some _ =>
      let b := c.body / 2 ^ 512 % 2 ^ 2048
      ((List.range (nfld b 0xB 0 8)).map fun i => (nfld b (0x40 + 8 * i) 36 1, nfld b (0x40 + 8 * i) 0 24)).findSome?
        fun e => if e.1 = 0 ∧ (relocNode s q e.2).isNone then some e.2 else none
  | 0x13 =>
    match relocNode s q (f 8 0 24) with
    | some n => if isWork (nd s n).kind then none else some (f 8 0 24)
    | none => some (f 8 0 24)
  | 0x14 => rangeFault s q (f 8 0 24) (f 0xC 0 24)
  | 0x20 | 0x21 =>
    let o := f 0x10 0 40
    let n := f 0x18 0 32
    let ok := if isKernel q then decide (poolBase s ≤ o ∧ o + n ≤ slateTop) else inData s (queue s q).part o n
    if ok then none else some (o % 2 ^ 32)
  | 0x30 | 0x31 => if (relocChan s q (f 8 0 16)).isSome then none else some (f 8 0 16)
  | 0x32 | 0x33 =>
    let a := f 8 0 64
    if a / 2 ^ 52 = blockId s ∧ !localWordOk s (flagPart s q c) (a % 2 ^ 52) then some (a % 2 ^ 32) else none
  | 0x80 =>
    let p := s.parts.look (f 0xA 0 4)
    if 0x1000 ≤ f 8 0 13 then some (f 8 0 13)
    else if f 0x24 0 24 ≠ 0 ∧ ¬(p.nodeBase ≤ f 0x20 0 24 ∧ f 0x20 0 24 + f 0x24 0 24 ≤ p.nodeBase + p.nodeCount) then
      some (f 0x20 0 24)
    else if f 0x2A 0 16 ≠ 0 ∧ ¬(p.chanBase ≤ f 0x28 0 16 ∧ f 0x28 0 16 + f 0x2A 0 16 ≤ p.chanBase + p.chanCount) then
      some (f 0x28 0 16)
    else none
  | 0x81 => if 0x1000 ≤ f 8 0 13 then some (f 8 0 13) else none
  | 0xC0 =>
    let others := (List.range 16).filter (· != f 8 0 4)
    if others.any fun i => overlaps (f 0xC 0 24) (f 0x10 0 24) (s.parts.look i).nodeBase (s.parts.look i).nodeCount then
      some (f 0xC 0 24)
    else if others.any fun i => overlaps (f 0x14 0 16) (f 0x16 0 16) (s.parts.look i).chanBase
        (s.parts.look i).chanCount then some (f 0x14 0 16)
    else none
  | 0xC2 | 0xC3 => badAgents s (f 8 0 64)
  | _ => none

/-- The lowest reserved byte of a command that is not zero, the node record of a TASK_SUBMIT included where its KIND is
one that R77 allows (R9, R42). -/
def reservedFault (c : Cmd) : Option Nat :=
  let l := commonFields c.op ++ payloadFields c.op
  let b := c.body / 2 ^ 512 % 2 ^ 2048
  let l := if c.op = 0x12 then
      l ++ (if isWork (kindOf (nfld b 0 0 8)) then (nodeFields b).map fun f => (f.1 + 0x40, f.2) else [(0x40, 0, 2048)])
    else l
  lowestReserved c.body (fieldMask l) (64 * c.n)

/-- The first test of R42 that a command fails before it executes: the status and its DETAIL. `n` is the record count
of the command. The authenticator and what follows it are left to a critical command's own step. -/
def earlyFault (s : State) (q : Nat) (c : Cmd) : Option (Nat × Nat) :=
  match recordsOf c.op with
  | none => some (0x10, 0)
  | some n =>
    if n ≠ c.n then some (0x10, 1)
    else match reservedFault c with
    | some o => some (0x10, o)
    | none =>
      if kernelOnly c.op && !isKernel q then some (0x11, 0)
      else if (c.fld 2 2 1 = 1) ≠ critical c.op then some (0x10, 2)
      else if critical c.op then none
      else match fieldFault s q c with
      | some o => some (0x10, o)
      | none => (handleFault s q c).map fun d => (0x14, d)

/-- The tests of a critical command after the authenticator (R42). -/
def lateFault (s : State) (q : Nat) (c : Cmd) : Option (Nat × Nat) :=
  match fieldFault s q c with
  | some o => some (0x10, o)
  | none => (handleFault s q c).map fun d => (0x14, d)

end Sys2Proof.Machine
end

