-- ==== Sys2Proof/Machine/Cfe.lean ====
section
/-!
DEFINITION. The Command Front End and the commands that need no authentication: doorbells, fetch turns, records,
the start of commands in ring order, and each command's effect (chapters 02, 03 and 07).
-/

namespace Sys2Proof.Machine

open Sys2Proof

/-! ### Doorbells (R34, R35, R325) -/

/-- A write to DB_SQ_TAIL: `strb` are its byte strobes (R34, R35, R325). -/
def dbSqTail (s : State) (q v strb : Nat) : State :=
  let t := v % 2 ^ 16
  if strb % 4 ≠ 3 then count s .hifDbIgn
  else if !isReady s then updQ s q fun u => { u with tail := t, pend := true }
  else if (queue s q).st = .disabled ∨ sqSize s q ≤ t then count s .hifDbIgn
  else updQ s q fun u => { u with tail := t, pend := true }

/-- A write to DB_CQ_HEAD (R34, R325): a value between the current head and the completion tail. -/
def dbCqHead (s : State) (q v strb : Nat) : State :=
  let h := v % 2 ^ 16
  let n := cqSize s q
  let u := queue s q
  if strb % 4 ≠ 3 ∨ !isReady s ∨ u.st = .disabled then count s .hifDbIgn
  else if n ≤ h ∨ cqUsed s q < (h + n - u.cplHead) % n then count s .hifDbIgn
  else updQ s q fun u => { u with cplHead := h }

/-! ### Fetch turns (R37–R39) -/

/-- Partitions of the user records fetched whose command has not started: each holds a decode credit (R39). -/
def decodeParts (s : State) : List Nat :=
  (s.queues.filter fun e => !isKernel e.1).flatMap fun e => e.2.fetched.flatMap fun c => List.replicate c.n e.2.part

/-- Kernel records that hold a shared decode credit (R39). -/
def decodeKernel (s : State) : Nat :=
  ((s.queues.filter fun e => isKernel e.1).map fun e => (e.2.fetched.map (·.n)).foldl (· + ·) 0).foldl (· + ·) 0

/-- Whether a decode credit is free for a queue (R39). (DEDUCED, log entry 17). -/
def decodeCredit (s : State) (q : Nat) : Bool :=
  let n := fun p => ((decodeParts s).filter (· == p)).length
  let excess := ((List.range 16).map fun p => n p - 16).foldl (· + ·) 0 + decodeKernel s
  decide (excess < 256) || (!isKernel q && decide (n (queue s q).part < 16))

/-- Whether CFE may fetch for a queue: it fetches, no launch of it waits for slots, its partition is not being
discarded, no stop runs, and a credit and a slot are free (R37–R39, R59, R333, R349). -/
def mayFetch (s : State) (q : Nat) : Bool :=
  let u := queue s q
  u.st == .fetching && u.want == 0 && !u.found && s.flt.stop == .running && decodeCredit s q && decide (0 < freeSlots s q)
    && (isKernel q || !s.flt.discarding.look u.part)

/-- Whether a queue has work: it may fetch and its ring is not empty (R37). -/
def hasWork (s : State) (q : Nat) : Bool := mayFetch s q && (queue s q).head != (queue s q).tail

/-- The kernel queue whose turn it is: the highest PRIO, the lowest id among equals (R37). -/
def kernelTurn (s : State) : Option Nat :=
  minBy (fun q => 15 - regFld s (kqAddr q + 0x10) 19 16)
    (((List.range 16).map (0x1000 + ·)).filter (hasWork s))

/-- The user queue whose turn it is, in round-robin order of id (R38). -/
def userTurn (s : State) : Option Nat :=
  let l := ((s.queues.map (·.1)).filter fun q => !isKernel q && isQueue q && hasWork s q)
  minBy (fun q => (q + 0x1000 - s.cfe.rrNext) % 0x1000) l

/-- The CHI reads of `n` records from the `i`-th after the head of queue `q`'s submission ring (R25, R31). -/
def ringRead (s : State) (q i n : Nat) : State := emit s (.chiRead (sqBase s q + 64 * ((queue s q).head + i)) (64 * n))

/-- A fetch turn is granted (R37): a kernel queue first, unless fewer than USER_MIN of the 15 turns before went to user
queues. The record at the queue's head is read. (DEDUCED, log entry 80). -/
def fetchTurn (s : State) : State :=
  if s.cfe.turn.isSome || !isReady s || s.flt.stop != .running then s
  else
    let want := min 16 (regFld s 0x100000 4 0)
    let users := (s.cfe.window.filter id).length
    let pick := match kernelTurn s, userTurn s with
      | some _, some u => if users < want then some u else kernelTurn s
      | some k, none => some k
      | none, u => u
    match pick with
    | none => s
    | some q => ringRead { s with
        cfe.turn := some { q := q, recs := 0 },
        cfe.window := ((!isKernel q) :: s.cfe.window).take 15,
        cfe.rrNext := if isKernel q then s.cfe.rrNext else (q + 1) % 0x1000 } q 0 1

/-- The turn ends (R37, R38). -/
def endTurn (s : State) : State := { s with cfe.turn := none }

/-! ### Starting commands in ring order (R40, R42) -/

/-- Whether a FENCE or FLAG_WAIT of a queue is not yet satisfied (R40, R61). -/
def queueWaits (s : State) (q : Nat) : Bool :=
  (queue s q).live.any fun l => (l.cmd.op == 0x02 || l.cmd.op == 0x33) && !l.ended

/-- The state to which a queue returns: WAITING while a FENCE or FLAG_WAIT is not satisfied (R60, R61). -/
def runState (s : State) (q : Nat) : QState := if queueWaits s q then .waiting else .fetching

/-- Whether the command at the front of a queue may start: no FENCE or FLAG_WAIT before it waits, the queue is not STOPPED
or DISABLED, no launch of it waits for slots, every GRAPH_LOAD before it has its header stored, and AUT holds no critical
command before it (R40, R56, R59, R71). (DEDUCED, log entry 19). -/
def mayStart (s : State) (q : Nat) : Bool :=
  let u := queue s q
  !queueWaits s q && u.st != .stopped && u.st != .disabled && u.want == 0
    && !(s.grs.loads.any fun j => j.q == q && !j.started)
    && !(s.aut.held.any fun h => h.q == q && !h.installed)
    && (isKernel q || !s.flt.discarding.look u.part) && s.flt.stop == .running

/-- The second slot that a TASK_SUBMIT reserves at fetch when its node record has CPL = 1 (R59). -/
def extraSlot (c : Cmd) : Nat := if c.op = 0x12 ∧ c.n = 5 ∧ c.fld 0x41 3 1 = 1 then 1 else 0

/-- The tests of R42 on the command at the front; a refused command completes and the next one is tested. -/
def settle : Nat → State → Nat → State
  | 0, s, _ => s
  | fuel + 1, s, q =>
    match (queue s q).fetched with
    | [] => s
    | c :: rest =>
      if c.checked || !mayStart s q then s
      else match earlyFault s q c with
      | some (st, dt) =>
        let s := updQ s q fun u => { u with fetched := rest, resv := u.resv - extraSlot c }
        settle fuel (refuse s q c st dt) q
      | none => updQ s q fun u => { u with fetched := { c with checked := true } :: rest }

/-- A queue that has no more to fetch, or whose command must wait, ends its turn (chapter 02, Fetch arbitration). -/
def leaveTurn (s : State) (q : Nat) : State :=
  if (s.cfe.turn.map (·.q)) = some q ∧ !hasWork s q then endTurn s else s

/-- The front of a queue is settled, however many commands are refused; a queue that then waits ends its turn. -/
def settleQ (s : State) (q : Nat) : State := leaveTurn (settle ((queue s q).fetched.length + 1) s q) q

/-- The checked command at the front of a queue, when its opcode is `op` and it may start. -/
def frontCmd (s : State) (q op : Nat) : Option Cmd :=
  match (queue s q).fetched with
  | c :: _ => if c.checked && c.op == op && mayStart s q then some c else none
  | [] => none

/-- The front command starts: it leaves the fetched commands for the live ones. -/
def startFront (s : State) (q : Nat) (c : Cmd) : State :=
  updQ s q fun u => { u with fetched := u.fetched.tail, live := u.live ++ [{ cmd := c, ended := false, nodes := 0 }] }

/-- A command's own step: its front command of the opcode starts, `f` is its effect, and the next command is tested.
Without such a front command nothing happens. -/
def runCmd (s : State) (q op : Nat) (f : State → Cmd → State) : State :=
  match frontCmd s q op with
  | some c => settleQ (f (startFront s q c) c) q
  | none => s

/-! ### Records (R31–R33, R59) -/

/-- A PAD record is read at the head (R32). (DEDUCED, log entry 76). -/
def padArrives (s : State) (q : Nat) (r : Rec64) : State :=
  let u := queue s q
  let c : Cmd := { seq := u.seq, idx := u.head, n := 1, body := r.toNat, checked := false }
  let s := updQ s q fun u => { u with head := 0, seq := u.seq + 1, resv := u.resv + 1 }
  let s := progress (wordCount s q 0) q
  match lowestReserved c.body 0xFF 64 with
  | some o => refuse s q c 0x10 o
  | none => updQ s q fun u => { u with resv := u.resv - 1 }

/-- The turn ends once its slice is used up or its queue has no more to fetch (R37, R38); else the record at the head is
read. -/
def afterRecords (s : State) (q n : Nat) : State :=
  match s.cfe.turn with
  | none => s
  | some t =>
    let recs := t.recs + n
    let slice := if isKernel q then 255 else (queue s q).slice
    if slice ≤ recs ∨ !hasWork s q then endTurn s else ringRead { s with cfe.turn := some { t with recs := recs } } q 0 1

/-- Little-endian value of records. -/
def recsNat : List Rec64 → Nat
  | [] => 0
  | r :: t => r.toNat + 2 ^ 512 * recsNat t

/-- Read data of the command at the head reaches CFE (R31–R33, R36, R59): `recs` are the records that host memory holds
from the head on, at least as many as the header states. -/
def recordArrives (s : State) (q : Nat) (recs : List Rec64) : State :=
  if (s.cfe.turn.map (·.q)) != some q || !hasWork s q then s
  else match recs with
  | [] => s
  | hdr :: _ =>
    if injArmed s 0x0101 (· == q) then raiseInj (injFire s) 0x0101 .ud 0 q true else
    let u := queue s q
    let size := sqSize s q
    let n := hdr.toNat / 256 % 16 + 1
    if hdr.toNat % 256 = 0 then afterRecords (settleQ (padArrives s q hdr) q) q 1
    else if size < n ∨ size < u.head + n then
      let c : Cmd := { seq := u.seq, idx := u.head, n := 1, body := hdr.toNat, checked := false }
      let s := updQ s q fun u => { u with seq := u.seq + 1, resv := u.resv + 1 }
      endTurn (stopQueue (refuse (wordCount s q 0) q c 0x10 1) q .resync)
    else if (u.tail + size - u.head) % size < n then
      endTurn (updQ s q fun u => { u with found := true })
    else if recs.length < n then s
    else
      let s := if n = 1 then s else ringRead s q 1 (n - 1)
      let c : Cmd := { seq := u.seq, idx := u.head, n := n, body := recsNat (recs.take n), checked := false }
      let need := 1 + extraSlot c
      if freeSlots s q < need then endTurn s
      else
        let s := updQ s q fun u => { u with head := (u.head + n) % size, seq := u.seq + 1, resv := u.resv + need,
                                            fetched := u.fetched ++ [c] }
        let s := progress (wordCount s q 0) q
        afterRecords (settleQ s q) q n

/-- The fetcher finds the head equal to the tail latch, or the command at the head not covered (R36 steps 1 and 2). The
commands that the queue has fetched and not started stay with it. -/
def fetcherIdle (s : State) (q : Nat) : State :=
  let u := queue s q
  if u.st = .fetching ∧ (u.head = u.tail ∨ u.found) then
    updQ s q fun u => { u with st := .idle, found := false }
  else s

/-- PEND is found set in IDLE (R36 step 3). -/
def fetcherResume (s : State) (q : Nat) : State :=
  let u := queue s q
  if u.st = .idle ∧ u.pend ∧ isReady s ∧ (isKernel q ∨ !s.flt.discarding.look u.part) then
    updQ s q fun u => { u with st := .fetching, pend := false }
  else s

/-! ### FENCE and flags (R46, R61, R424) -/

/-- Whether every earlier command of a queue has completed and owes no node record (R61). -/
def fenceClear (s : State) (q seq : Nat) : Bool := (queue s q).live.all fun l => decide (seq ≤ l.cmd.seq)

/-- FENCE. -/
def doFence (s : State) (q : Nat) (c : Cmd) : State :=
  if fenceClear s q c.seq then complete s q c 0 0
  else updQ s q fun u => { u with st := .waiting }

/-- A waiting FENCE is satisfied (R61). -/
def fenceDone (s : State) (q : Nat) : State :=
  let u := queue s q
  match u.live.find? fun l => l.cmd.op == 0x02 && !l.ended with
  | some l =>
    if fenceClear s q l.cmd.seq then
      settleQ (complete (updQ s q fun u => { u with st := if u.st = .waiting then .fetching else u.st }) q l.cmd 0 0) q
    else s
  | none => s

/-- Slate address of a local hall address in partition `p`'s data region (R264). -/
def hallSlate (s : State) (p loc : Nat) : Nat := dataBase s p + (loc - p * 2 ^ 40)

/-- A request header of CFE for a flag word (R424). -/
def flagHdr (s : State) (q : Nat) (c : Cmd) (op : Nat) : FabHdr :=
  { op := op, final := false, scope := c.fld 0x18 0 2, ord := true, srcPart := flagPart s q c, aop := 0,
    dstBlock := c.fld 8 52 12, hops := 15, srcBlock := blockId s, srcAgent := 0, srcUnit := 31,
    loc := c.fld 8 0 52, data := if op = 2 then BitVec.ofNat 64 (c.fld 0x10 0 64) else 0, cmp := 0, hallTag := 0,
    txn := 0, dcrc := 0, mask := 0xFF, payload := [] }

/-- Whether a flag command's word lies in this block. -/
def flagHere (s : State) (c : Cmd) : Bool := c.fld 8 52 12 == blockId s

/-- Offset of a flag word of this block in the data region of its partition. -/
def flagOff (s : State) (q : Nat) (c : Cmd) : Nat := c.fld 8 0 52 - flagPart s q c * 2 ^ 40

/-- A flag word of this block gets an error response: the fault discards a user queue's command, and a kernel queue's ends with
DISCARDED (R253). -/
def flagError (s : State) (q seq : Nat) : State := if isKernel q then endFlag s q seq 0x30 0 else s

/-- FLAG_SET performs its release write (R424, R277). One that a bad block rejects completes as any other
(DESIGN CHOICE, log entry 98). -/
def flagWrite (s : State) (q : Nat) (c : Cmd) : State :=
  if flagHere s c then
    if s.slt.stopped then s
    else match partRange s (flagPart s q c) (flagOff s q c) 8 with
    | some s => flagError s q c.seq
    | none =>
      let a := hallSlate s (flagPart s q c) (c.fld 8 0 52)
      let (s, ok) := writeAt s a (leBytes 8 (c.fld 0x10 0 64))
      complete (if ok then setTag s a (c.fld 0x18 0 2) (blockId s) 0 31 else s) q c 0 0
  else fabSubmit s (flagHdr s q c 2) (.flagSet q c.seq)

/-- CFE reads a flag word of this block, by an acquire (R280): the word, or none with the state that the error response
leaves (R248, R253). -/
def flagRead (s : State) (q : Nat) (c : Cmd) : Option Nat × State :=
  let p := flagPart s q c
  let a := hallSlate s p (c.fld 8 0 52)
  match partRange s p (flagOff s q c) 8 with
  | some s => (none, flagError s q c.seq)
  | none => match badRange s a 8 with
    | some b => (none, flagError (badRead s (.data p (flagOff s q c)) b) q c.seq)
    | none => (some (memWord s a).toNat, acquireCheck s (tagWord s a) (c.fld 0x18 0 2) 0 31)

/-- Whether the queue's earlier copies are complete (R424). -/
def copiesDone (s : State) (q seq : Nat) : Bool :=
  (queue s q).live.all fun l => !((l.cmd.op == 0x20 || l.cmd.op == 0x21) && !l.ended && decide (l.cmd.seq < seq))

/-- FLAG_SET: it waits for the queue's earlier copies without holding back later commands. -/
def doFlagSet (s : State) (q : Nat) (c : Cmd) : State := if copiesDone s q c.seq then flagWrite s q c else s

/-- Whether a FLAG_SET's write has left CFE: it waits in FAB or has been sent. -/
def flagSetSent (s : State) (q seq : Nat) : Bool :=
  s.fab.outst.any (fun e => e.2.any fun o => o.who == .flagSet q seq)
    || s.fab.noEntry.any (·.2 == .flagSet q seq) || s.fab.seqWait.any (·.who == .flagSet q seq)

/-- The earlier copies of a waiting FLAG_SET complete. -/
def flagSetRelease (s : State) (q : Nat) : State :=
  match (queue s q).live.find? fun l => l.cmd.op == 0x32 && !l.ended && !flagSetSent s q l.cmd.seq with
  | some l => if copiesDone s q l.cmd.seq then flagWrite s q l.cmd else s
  | none => s

/-- Whether a flag word satisfies CMP. -/
def flagMeets (c : Cmd) (v : Nat) : Bool :=
  if c.fld 0x18 2 2 = 0 then v == c.fld 0x10 0 64 else decide (c.fld 0x10 0 64 ≤ v)

/-- The queue of a FLAG_WAIT registers and waits, and the cycle check starts a walk (R46, R342). -/
def flagRegister (s : State) (q : Nat) (c : Cmd) : State :=
  updQ { s with flt.wait := s.flt.wait ++ [{ q := q, seq := c.seq, setter := c.fld 0x1A 0 13 }],
                flt.walks := s.flt.walks ++ [q] } q fun u => { u with st := .waiting }

/-- FLAG_WAIT: a word that already satisfies CMP completes it; otherwise the queue waits for it (R46). -/
def doFlagWait (s : State) (q : Nat) (c : Cmd) : State :=
  if flagHere s c then
    match flagRead s q c with
    | (some v, s) => if flagMeets c v then endFlag s q c.seq 0 0 else flagRegister s q c
    | (none, s) => s
  else fabSubmit (flagRegister s q c) (flagHdr s q c 1) (.flagWait q c.seq)

/-- A local flag word satisfies the FLAG_WAIT of a queue (R46). -/
def flagSatisfied (s : State) (q : Nat) : State :=
  match s.flt.wait.find? (·.q == q) with
  | none => s
  | some w =>
    match liveCmd s q w.seq with
    | none => s
    | some l =>
      if !flagHere s l.cmd || s.slt.stopped then s
      else match flagRead s q l.cmd with
      | (some v, s) => if flagMeets l.cmd v then settleQ (endFlag s q w.seq 0 0) q else s
      | (none, s) => s

/-! ### Graph and task commands (R70–R80) -/

/-- Records of an image as little-endian values. -/
def imageRecs : Nat → Bytes → List Nat
  | 0, _ => []
  | n + 1, b => leNat (b.take 256) :: imageRecs n (b.drop 256)

/-- The handles that a record's successor entries name locally, with the entries' image offsets. -/
def localSuccs (off b : Nat) : List (Nat × Nat) :=
  let (base, n) := if nfld b 0 0 8 = 4 then (0x10, min 30 (nfld b 4 0 8)) else (0x40, min 12 (nfld b 0xB 0 8))
  ((List.range n).map fun i => (off + base + 8 * i, nfld b (base + 8 * i) 0 24, nfld b (base + 8 * i) 36 1)).filterMap
    fun e => if e.2.2 = 0 then some (e.1, e.2.1) else none

/-- The offsets of a continuation block's entries that name another block's nodes. -/
def remoteEntries (off b : Nat) : List Nat :=
  ((List.range (min 30 (nfld b 4 0 8))).filter fun i => nfld b (0x10 + 8 * i) 36 1 = 1).map fun i => off + 0x10 + 8 * i

/-- The continuation handle of a record: its image offset and the handle (R65, R67). -/
def nextField (off b : Nat) : Nat × Nat :=
  if nfld b 0 0 8 = 4 then (off + 8, nfld b 8 0 24) else (off + 0x14, nfld b 0x14 0 24)

/-- The SUCC blocks, by image index, on the chain from handle `h` (R68). -/
def chainFrom (recs : List Nat) (base : Nat) : Nat → Nat → List Nat
  | 0, _ => []
  | fuel + 1, h =>
    if h = 0xFFFFFF ∨ h < base ∨ recs.length ≤ h - base then []
    else (h - base) :: chainFrom recs base fuel (nfld (recs.getD (h - base) 0) 8 0 24)

/-- The image offset of the first offending field (R68, R69, R70). `base` is the handle, as the image writes it, of
record 0. -/
def imageFault (own base : Nat) (recs : List Nat) : Option Nat :=
  let n := recs.length
  let rs := (List.range n).zip recs
  let kind := fun i => nfld (recs.getD i 0) 0 0 8
  let hdr := recs.headD 0
  let work := (rs.filter fun e => decide (1 ≤ nfld e.2 0 0 8 ∧ nfld e.2 0 0 8 ≤ 3))
  let cpl := (work.filter fun e => nfld e.2 1 3 1 = 1).length
  let nexts := (rs.map fun e => nextField (256 * e.1) e.2).filter (·.2 ≠ 0xFFFFFF)
  let badNext := ((List.range nexts.length).zip nexts).filterMap fun e =>
    let h := e.2.2
    if h < base ∨ n ≤ h - base ∨ kind (h - base) ≠ 4 ∨ (nexts.take e.1).any (·.2 == h) then some e.2.1 else none
  let reach := (rs.filter fun e => nfld e.2 0 0 8 ≠ 4).flatMap fun e =>
    chainFrom recs base n (nextField 0 e.2).2
  let lost := (rs.filter fun e => nfld e.2 0 0 8 = 4 ∧ !reach.contains e.1).map (256 * ·.1)
  let hdrChain := chainFrom recs base n (nextField 0 hdr).2
  let hdrSucc := localSuccs 0 hdr ++ (hdrChain.flatMap fun i => localSuccs (256 * i) (recs.getD i 0))
  let badHdr := hdrSucc.filterMap fun e =>
    if e.2 < base ∨ n ≤ e.2 - base ∨ kind (e.2 - base) = 0 ∨ 4 ≤ kind (e.2 - base) then some e.1 else none
  let bad :=
    (if kind 0 ≠ 5 then [0] else []) ++
    ((rs.drop 1).filter fun e => nfld e.2 0 0 8 = 5 ∨ nfld e.2 0 0 8 = 0).map (256 * ·.1) ++
    (if nfld hdr 0x20 0 24 ≠ n then [0x20] else []) ++
    (if nfld hdr 0x24 0 24 ≠ work.length then [0x24] else []) ++
    (if nfld hdr 0x28 0 24 ≠ cpl then [0x28] else []) ++
    (rs.filterMap fun e => (nodeFault own false e.2).map (256 * e.1 + ·)) ++ badNext ++ lost ++ badHdr ++
    (hdrChain.flatMap fun i => remoteEntries (256 * i) (recs.getD i 0))
  minBy id bad

/-- The first local successor handle of an image, as written, that fails the queue's handle test (R52, R70). -/
def imageHandle (s : State) (q : Nat) (recs : List Nat) : Option Nat :=
  (recs.flatMap fun b => localSuccs 0 b).findSome? fun e => if (relocNode s q e.2).isNone then some e.2 else none

/-- The launches that wait for a load are told its end (R72). -/
def wakeLaunches (s : State) (h : Nat) (ok : Bool) : State :=
  let mine := s.grs.waits.filter (·.hdr == h)
  let s := { s with grs.waits := s.grs.waits.filter (·.hdr != h) }
  mine.foldl (fun s w =>
    match liveCmd s w.src.q w.src.seq with
    | none => s
    | some l =>
      let fail := fun (s : State) (st dt : Nat) =>
        let s := updQ s w.src.q fun u => { (mapLive u w.src.seq fun l => { l with nodes := 0 }) with
                                           resv := u.resv - l.nodes }
        refuse s w.src.q l.cmd st dt
      if ok then match startLaunch s h w.arg w.src with
        | some s => s
        | none => fail s 0x17 0
      else fail s 0x14 (l.cmd.fld 8 0 24)) s

/-- A load ends: on success its graph is LOADED, otherwise its range is FREE again (R71). -/
def endLoad (s : State) (j : LoadJob) (status detail : Nat) : State :=
  let s := { s with grs.loads := s.grs.loads.filter fun x => !(x.q == j.q && x.seq == j.seq) }
  match liveCmd s j.q j.seq with
  | none => s
  | some l =>
    if status = 0 then
      let s := (graphHandles s j.base).foldl (fun s n =>
        updN s n fun r => if isWork r.kind then { r with st := .idle } else r) s
      let s := updH s j.base fun h => { h with lstate := .loaded }
      wakeLaunches (complete s j.q l.cmd 0 0) j.base true
    else
      let s := if j.started then ((List.range j.count).map (j.base + ·)).foldl (fun s n => updN s n fun _ => default) s
               else s
      let s := if status = 0x18 then complete (count s .cfeRefuse) j.q l.cmd status detail
               else refuse s j.q l.cmd status detail
      wakeLaunches s j.base false

/-- GRAPH_LOAD (R71, R396). -/
def doGraphLoad (s : State) (q : Nat) (c : Cmd) : State :=
  let base := relocBase s q + c.fld 0x14 0 24
  let n := c.fld 0x18 0 24
  let busy := s.grs.loads.any fun j => overlaps base n j.base j.count
  if busy || (List.range n).any (fun i => (nd s (base + i)).kind != .free) then refuse s q c 0x16 0
  else if Config.hostTop < c.fld 8 0 64 + c.fld 0x10 0 32 then refuse s q c 0x18 0
  else emit { s with grs.loads := s.grs.loads ++ [{ q := q, seq := c.seq, base := base, count := n,
                                                    relocBase := relocBase s q, started := false, image := [] }] }
    (.chiRead (c.fld 8 0 64) (c.fld 0x10 0 32))

/-- A record of an image is stored with STATE LOADING, GEN 0 and its graph (R71). -/
def storeRecord (s : State) (j : LoadJob) (i b : Nat) : State :=
  updN s (j.base + i) fun _ => parseNode j.relocBase b j.base .loading

/-- Image bytes arrive in order (R71): the header starts the load, later records are stored. A record 0 that is no
graph header starts nothing; the load ends with its last request (R423). -/
def storeImage (s : State) (q seq : Nat) (data : Bytes) : State :=
  match s.grs.loads.find? fun j => j.q == q && j.seq == seq with
  | none => s
  | some j =>
    let have' := j.image.length / 256
    let img := (j.image ++ data).take (256 * j.count)
    let j' := { j with image := img }
    let put := fun (s : State) (j : LoadJob) =>
      { s with grs.loads := updFirst (fun x => x.q == q && x.seq == seq) (fun _ => j) s.grs.loads }
    let recs := imageRecs (img.length / 256) img
    if recs = [] ∨ (!j.started ∧ nfld (recs.headD 0) 0 0 8 ≠ 5) then put s j'
    else
      let j' := { j' with started := true }
      let s := put s j'
      ((List.range recs.length).drop have').foldl (fun s i => storeRecord s j' i (recs.getD i 0)) s

/-- Image bytes of a load arrive; once it has started, the next command of its queue is tested (R40, R71).
(DEDUCED, log entry 23). -/
def graphImage (s : State) (q seq : Nat) (data : Bytes) : State := settleQ (storeImage s q seq data) q

/-- The last record of a load has arrived: the checks of the whole image decide (R70, R71). -/
def graphLoadEnd (s : State) (q seq : Nat) : State :=
  match s.grs.loads.find? fun j => j.q == q && j.seq == seq with
  | none => s
  | some j =>
    if j.image.length ≠ 256 * j.count then s
    else
      let recs := imageRecs j.count j.image
      match imageFault (blockId s) (j.base - j.relocBase) recs with
      | some o => endLoad s j 0x10 (2 ^ 31 + o)
      | none =>
        match imageHandle s q recs with
        | some h => endLoad s j 0x14 h
        | none => endLoad s j 0 0

/-- A GRAPH_LAUNCH takes effect: its further slots are reserved, then the table of R72 decides (R59, R72). -/
def launchNow (s : State) (q : Nat) (c : Cmd) (h : Nat) : State :=
  let k := (nd s h).hdr.cplCount
  let src : LaunchSrc := { q := q, sqIdx := c.idx, internal := false, seq := c.seq, main := none, table := none }
  let s' := updQ s q fun u => { (mapLive u c.seq fun l => { l with nodes := k }) with resv := u.resv + k }
  match startLaunch s' h (BitVec.ofNat 64 (c.fld 0x10 0 64)) src with
  | some s' => s'
  | none => refuse s q c 0x17 0

/-- GRAPH_LAUNCH (R59, R72, R80): a reservation beyond the ring is refused, and one that does not fit now waits. -/
def doGraphLaunch (s : State) (q : Nat) (c : Cmd) : State :=
  match launchHeader s q c with
  | none => refuse s q c 0x14 (c.fld 8 0 24)
  | some h =>
    let k := (nd s h).hdr.cplCount
    if cqSize s q - 1 < 1 + k then refuse s q c 0x17 0
    else if freeSlots s q < k then updQ s q fun u => { u with want := k }
    else launchNow s q c h

/-- Completion slots free up for a waiting GRAPH_LAUNCH (R59). -/
def launchSlots (s : State) (q : Nat) : State :=
  let u := queue s q
  if u.want = 0 ∨ freeSlots s q < u.want then s
  else
    let s := updQ s q fun u => { u with want := 0 }
    match (u.live.reverse.find? fun l => l.cmd.op == 0x11 && !l.ended) with
    | none => s
    | some l =>
      match launchHeader s q l.cmd with
      | some h => settleQ (launchNow s q l.cmd h) q
      | none => settleQ (refuse s q l.cmd 0x14 (l.cmd.fld 8 0 24)) q

/-- TASK_SUBMIT (R77). (DEDUCED, log entry 24). -/
def doTaskSubmit (s : State) (q : Nat) (c : Cmd) : State :=
  let n := relocBase s q + c.fld 8 0 24
  let old := nd s n
  let busy := old.kind != .free && !(isWork old.kind && old.graph == Config.noNode && old.st == .retired)
  if busy then refuse (updQ s q fun u => { u with resv := u.resv - extraSlot c }) q c 0x16 0
  else
    let r := parseNode (relocBase s q) (c.body / 2 ^ 512 % 2 ^ 2048) Config.noNode .waiting
    let src : LaunchSrc := { q := q, sqIdx := c.idx, internal := false, seq := c.seq, main := none, table := none }
    let s := updN s n fun _ => { r with src := src }
    let s := updQ s q fun u => mapLive u c.seq fun l => { l with nodes := extraSlot c }
    let s := complete s q c 0 0
    if r.initTally = 0 then zeroReached s n else s

/-- SIGNAL (R78): one decrement of COUNT through TLY's intake. -/
def doSignal (s : State) (q : Nat) (c : Cmd) : State :=
  tlyOffer s (.dec { node := relocBase s q + c.fld 8 0 24, w := c.fld 0xC 0 24, n := 1, src := .signal q c.seq, also := [] })

/-- The queues whose SIGNALs stand between CFE and TLY's intake. -/
def signalQueues (s : State) : List Nat := s.tly.wait.filterMap fun i => match i with
  | .dec { src := .signal q _, .. } => some q
  | _ => none

/-- Whether the queue from CFE's decode to GRS has a credit for a queue: 128, 4 for each partition and 64 shared; a kernel
queue takes a shared one (R87). (DEDUCED, log entry 47). -/
def grsCredit (s : State) (q : Nat) : Bool :=
  let users := ((signalQueues s).filter fun k => !isKernel k).map fun k => (queue s k).part
  let n := fun p => (users.filter (· == p)).length
  let excess := ((List.range 16).map fun p => n p - 4).foldl (· + ·) 0 + ((signalQueues s).filter isKernel).length
  decide (excess < 64) || (!isKernel q && decide (n (queue s q).part < 4))

/-- The SIGNAL at the front of a queue starts once it has a credit (R21, R87). -/
def startSignal (s : State) (q : Nat) : State := if grsCredit s q then runCmd s q 0x13 fun s c => doSignal s q c else s

/-- GRAPH_RELEASE (R79). -/
def doGraphRelease (s : State) (q : Nat) (c : Cmd) : State :=
  let base := relocBase s q + c.fld 8 0 24
  let n := c.fld 0xC 0 24
  let hs := (List.range n).map (base + ·)
  let inR := fun h => decide (base ≤ h ∧ h < base + n)
  let heads := ((hs.filter fun h => (nd s h).kind != .free && (nd s h).graph != Config.noNode).map
    fun h => (nd s h).graph).eraseDups
  let cuts := heads.any fun h => !inR h || !(graphHandles s h).all inR
  let busy := heads.any (fun h => (nd s h).hdr.lstate != .loaded || !(nd s h).hdr.pend.isEmpty ||
      s.grs.tpl.any (fun e => e.2.valid && e.2.header == h)) || hs.any fun h => nodeInFlight (nd s h)
  if cuts then refuse s q c 0x10 0xC
  else if busy then refuse s q c 0x16 0
  else complete (hs.foldl (fun s h => updN s h fun _ => default) s) q c 0 0

/-! ### Data and cache commands (R45, R247, R396, R423) -/

/-- The Slate address that COPY_IN or COPY_OUT names (R247). -/
def copySlate (s : State) (q : Nat) (c : Cmd) : Nat :=
  if isKernel q then c.fld 0x10 0 40 else dataBase s (queue s q).part + c.fld 0x10 0 40

/-- Slate blocks counted for a partition (R374, SLATE_BLK). -/
def slateBlocks (s : State) (q a n : Nat) : State :=
  if isKernel q then s else pageCount s (queue s q).part 6 ((a + n + 255) / 256 - a / 256)

/-- The location of a Slate address of the data pool: the region that holds it, or the pool itself (R246, R253). -/
def poolLoc (s : State) (a : Nat) : SlateLoc :=
  match firstFrom (fun p => decide (dataBase s p ≤ a) && inData s p (a - dataBase s p) 1) 0 16 with
  | some p => .data p (a - dataBase s p)
  | none => .system a

/-- COPY_IN: reads of its range are issued. (DEDUCED, log entry 26). -/
def doCopyIn (s : State) (q : Nat) (c : Cmd) : State :=
  if Config.hostTop < c.fld 8 0 64 + c.fld 0x18 0 32 then refuse s q c 0x18 0
  else emit s (.chiRead (c.fld 8 0 64) (c.fld 0x18 0 32))

/-- COPY_OUT: the region's bytes are written. An error response to its Slate read discards a user queue's command with its
partition's work and ends a kernel queue's with DISCARDED (R253). -/
def doCopyOut (s : State) (q : Nat) (c : Cmd) : State :=
  if Config.hostTop < c.fld 8 0 64 + c.fld 0x18 0 32 then refuse s q c 0x18 0
  else
    let a := copySlate s q c
    let n := c.fld 0x18 0 32
    let p := (queue s q).part
    if !isKernel q && injPart s 0x0F01 p then rangeResponse s p a true
    else match badRange s a n with
    | some b =>
      let s := badRead s (poolLoc s b) b
      if isKernel q then complete s q c 0x30 0 else s
    | none => emit (slateBlocks s q a n) (.chiWrite (c.fld 8 0 64) (memRead s a n))

/-- INVALIDATE: one CleanInvalid for each line of its range (R45). -/
def doInvalidate (s : State) (q : Nat) (c : Cmd) : State :=
  if Config.hostTop < c.fld 8 0 64 + c.fld 0x10 0 32 then refuse s q c 0x18 0
  else emit s (.chiClean (c.fld 8 0 64) (c.fld 0x10 0 32))

/-- Bytes of a copy stored line by line; a line whose read failed keeps its contents (R423). -/
def storeLines (s : State) (a : Nat) (errs : List Nat) : Nat → Nat → Bytes → State
  | 0, _, _ => s
  | n + 1, o, d => storeLines (if errs.contains o then s else memWrite s (a + o) (d.take 64)) a errs n (o + 64) (d.drop 64)

/-- The lines of a copy that reach the Slate: a block that arrives whole replaces a bad one, and a part of a bad block is
not stored (R251, R252). `errs` are the lines that did not arrive; the result adds those of bad blocks. -/
def copyBlocks (s : State) (a n : Nat) (errs : List Nat) : State × List Nat :=
  if s.slt.vaults.any fun e => !e.2.bad.isEmpty then
    (List.range' (a / 256) ((a + n + 255) / 256 - a / 256)).foldl (fun (x : State × List Nat) k =>
      let lines := [0, 64, 128, 192].map fun j => 256 * k + j - a
      let v := physOf x.1 (k % 120) (k / 120)
      if !(vault x.1 v).bad.contains (k / 120) then x
      else if a ≤ 256 * k ∧ 256 * k + 256 ≤ a + n ∧ !(lines.any errs.contains) then
        (updV x.1 v fun y => { y with bad := y.bad.filter (· != k / 120) }, x.2)
      else (x.1, x.2 ++ lines)) (s, errs)
  else (s, errs)

/-- The last CHI request of a copy, an invalidation or a failed load completes (R423): `errs` are the offsets, from the
command's host address, of the 64 B lines that received an error response. -/
def hostDone (s : State) (q seq : Nat) (data : Bytes) (errs : List Nat) : State :=
  match liveCmd s q seq with
  | none => s
  | some l =>
    let c := l.cmd
    let fin := fun (s : State) => match minBy id errs with
      | some o => complete (count s .cfeRefuse) q c 0x18 o
      | none => complete s q c 0 0
    if l.ended then s
    else if c.op = 0x20 then
      let a := copySlate s q c
      let n := c.fld 0x18 0 32 / 64
      if s.slt.stopped then s
      else match if isKernel q then none else partRange s (queue s q).part (c.fld 0x10 0 40) (64 * n) with
      | some s => s
      | none =>
        let (s, skip) := copyBlocks s a (64 * n) errs
        fin (slateBlocks (storeLines s a skip n 0 (Bytes.slice data 0 (64 * n))) q a (64 * n))
    else if c.op = 0x21 ∨ c.op = 0x22 then fin s
    else if c.op = 0x10 then
      match s.grs.loads.find? fun j => j.q == q && j.seq == seq, minBy id errs with
      | some j, some o => endLoad s j 0x18 o
      | _, _ => s
    else s

/-! ### Channel commands (R177, R178, R47) -/

/-- CHAN_OPEN. The partition is the queue's, or for a kernel queue the one whose range holds the channel (R53). -/
def doChanOpen (s : State) (q : Nat) (c : Cmd) : State :=
  match relocChan s q (c.fld 8 0 16) with
  | none => refuse s q c 0x14 (c.fld 8 0 16)
  | some ch =>
    let p := if isKernel q then (partOfChan s ch).getD 0 else (queue s q).part
    let h := chan s ch
    let quota := c.fld 0xC 0 24
    if h.open_ || !h.claims.isEmpty then refuse s q c 0x16 0
    else if (s.parts.look p).cellQuota < cellsHeld s p + quota then refuse s q c 0x17 0
    else complete (openChan s ch p q quota (c.fld 0x10 0 16) (c.fld 0xA 0 2 = 1)) q c 0 0

/-- CHAN_CLOSE (R47, R177). -/
def doChanClose (s : State) (q : Nat) (c : Cmd) : State :=
  match relocChan s q (c.fld 8 0 16) with
  | none => refuse s q c 0x14 (c.fld 8 0 16)
  | some ch => if (chan s ch).open_ then complete (closeChan s ch) q c 0 0 else complete s q c 0 1

end Sys2Proof.Machine
end

