-- ==== Sys2Proof/Machine/Crypto.lean ====
section
/-!
DEFINITION. The published algorithms that the spec names and does not print: AES-128 and AES-CMAC (NIST SP 800-38B),
AES Key Wrap (RFC 3394), CRC-32C, SHA-384 and ECDSA P-384 verification (FIPS 186-5). PRESUMED: their constants come
from the standards themselves, not from the spec.
-/

namespace Sys2Proof

/-! ### Evaluation -/

/-- `f x`, with `x` computed first: an evaluation that would copy `x` unevaluated computes it once. -/
def force {α : Type} (x : Nat) (f : Nat → α) : α :=
  match x with
  | 0 => f 0
  | n + 1 => f (Nat.succ n)

/-! ### AES-128 -/

/-- Doubling in the field of AES. -/
def gfDouble (x : Nat) : Nat := if x < 128 then 2 * x else (2 * x) % 256 ^^^ 0x1B

/-- Product in the field of AES; `n` bits of `y` are used. -/
def gfMulN : Nat → Nat → Nat → Nat
  | 0, _, _ => 0
  | n + 1, x, y => if y = 0 then 0
    else force (gfDouble x) fun z => (if y % 2 = 1 then x else 0) ^^^ gfMulN n z (y / 2)

def gfMul (x y : Nat) : Nat := gfMulN 8 x y

/-- 256-bit numbers joined, the first one lowest. -/
def leWords : List Nat → Nat
  | [] => 0
  | w :: r => w + 2 ^ 256 * leWords r

/-- The substitution table: byte `x` of this number (the first row holds bytes 0 to 31) stands for `x`. -/
def aesTable : Nat := leWords [
  0xc072a49cafa2d4adf04759fa7dc982ca76abd7fe2b670130c56f6bf27b777c63,
  0x75b227ebe28012079a059618c323c7041531d871f1e5a534ccf73f362693fdb7,
  0xcf584c4a39becb6a5bb1fc20ed00d153842fe329b3d63b52a05a6e1b1a2c8309,
  0xd2f3ff1021dab6bcf5389d928f40a351a89f3c507f02f94585334d43fbaaefd0,
  0xdb0b5ede14b8ee4688902a22dc4f816073195d643d7ea7c41744975fec130ccd,
  0x08ae7a65eaf4566ca94ed58d6d37c8e779e4959162acd3c25c2406490a3a32e0,
  0x9e1dc186b95735610ef6034866b53e708a8bbd4b1f74dde8c6b4a61c2e2578ba,
  0x16bb54b00f2d99416842e6bf0d89a18cdf2855cee9871e9b948ed9691198f8e1]

/-- Its inverse. -/
def aesTableInv : Nat := leWords [
  0xcbe9dec444438e3487ff2f9b8239e37cfbd7f3819ea340bf38a53630d56a0952,
  0x25d18b6d49a25b76b224d92866a12e084ec3fa420b954cee3d23c2a632947b54,
  0x849d8da75746155edab9edfd5048706c92b6655dcc5ca4d41698688664f6f872,
  0x6b8a130103bdafc1020f3fca8f1e2cd00645b3b80558e4f70ad3bc8c00abd890,
  0x6edf751ce837f9e28535ade72274ac9673e6b4f0cecff297eadc674f4111913a,
  0xf45acd78fec0db9a2079d2c64b3e56fc1bbe18aa0e62b76f89c5291d711af147,
  0xef9cc9939f7ae52d0d4ab519a97f51605fec8027591012b131c7078833a8dd1f,
  0x7d0c2155631469e126d677ba7e042b17619953833cbbebc8b0f52aae4d3be0a0]

/-- The substitution of one byte, and its inverse. -/
def aesSub (x : Nat) : Nat := aesTable / 256 ^ x % 256
def aesSubInv (x : Nat) : Nat := aesTableInv / 256 ^ x % 256

/-- One step of the key schedule: the next four words (16 bytes) from the last four. -/
def aesNextKey (k : List Nat) (rcon : Nat) : List Nat :=
  let g := fun i => k.getD i 0
  let t := [aesSub (g 13) ^^^ rcon, aesSub (g 14), aesSub (g 15), aesSub (g 12)]
  let w0 := (List.range 4).map fun i => g i ^^^ t.getD i 0
  let w1 := (List.range 4).map fun i => g (4 + i) ^^^ w0.getD i 0
  let w2 := (List.range 4).map fun i => g (8 + i) ^^^ w1.getD i 0
  let w3 := (List.range 4).map fun i => g (12 + i) ^^^ w2.getD i 0
  w0 ++ w1 ++ w2 ++ w3

/-- The round keys from round `n` on. -/
def aesKeys : Nat → List Nat → Nat → List (List Nat)
  | 0, k, _ => [k]
  | n + 1, k, rcon => k :: aesKeys n (aesNextKey k rcon) (gfDouble rcon)

def xorList (a b : List Nat) : List Nat := List.zipWith (· ^^^ ·) a b

/-- Row shift: byte `r + 4c` of the result comes from column `c + r`. -/
def aesShift (s : List Nat) : List Nat := (List.range 16).map fun i => s.getD ((i + 4 * (i % 4)) % 16) 0
def aesShiftInv (s : List Nat) : List Nat := (List.range 16).map fun i => s.getD ((i + 12 * (i % 4)) % 16) 0

/-- Column mix with the four factors of the first row. -/
def aesMix (a b c d : Nat) (s : List Nat) : List Nat :=
  (List.range 16).map fun i =>
    let g := fun k => s.getD (i / 4 * 4 + (i + k) % 4) 0
    gfMul (g 0) a ^^^ gfMul (g 1) b ^^^ gfMul (g 2) c ^^^ gfMul (g 3) d

/-- AES-128 encryption of one block. -/
def aesEnc (key blk : List Nat) : List Nat :=
  match aesKeys 10 key 1 with
  | k0 :: ks =>
    let s := (ks.take 9).foldl (fun s k => xorList (aesMix 2 3 1 1 (aesShift (s.map aesSub))) k) (xorList blk k0)
    xorList (aesShift (s.map aesSub)) (ks.getD 9 [])
  | [] => blk

/-- AES-128 decryption of one block. -/
def aesDec (key blk : List Nat) : List Nat :=
  match (aesKeys 10 key 1).reverse with
  | k10 :: ks =>
    let s := (aesShiftInv (xorList blk k10)).map aesSubInv
    let s := (ks.take 9).foldl (fun s k => (aesShiftInv (aesMix 14 11 13 9 (xorList s k))).map aesSubInv) s
    xorList s (ks.getD 9 [])
  | [] => blk

/-- Bytes as numbers. -/
def byteNats (b : Bytes) : List Nat := b.map BitVec.toNat

/-- AES-128 of 128-bit numbers whose byte 0 is the first byte (little-endian value of the byte string). -/
def aesEncNat (key x : Nat) : Nat :=
  leNat ((aesEnc (byteNats (leBytes 16 key)) (byteNats (leBytes 16 x))).map (BitVec.ofNat 8))

def aesDecNat (key x : Nat) : Nat :=
  leNat ((aesDec (byteNats (leBytes 16 key)) (byteNats (leBytes 16 x))).map (BitVec.ofNat 8))

/-! ### AES-CMAC (SP 800-38B) -/

/-- Doubling of a 128-bit big-endian number in the field of CMAC. -/
def cmacDouble (x : Nat) : Nat := if x < 2 ^ 127 then 2 * x else (2 * x) % 2 ^ 128 ^^^ 0x87

/-- The chain over whole blocks, big-endian numbers. -/
def cmacChain (key : List Nat) : List Nat → Nat → Nat
  | [], y => y
  | m :: r, y => cmacChain key r
      (beNat ((aesEnc key (byteNats (beBytes 16 (y ^^^ m)))).map (BitVec.ofNat 8)))

/-- The message as big-endian 16-byte blocks, the last one padded and masked with its subkey. -/
def cmacBlocks (k1 k2 : Nat) : Nat → Bytes → List Nat
  | 0, _ => []
  | fuel + 1, m =>
    if m.length = 16 then [beNat m ^^^ k1]
    else if m.length < 16 then [beNat (m ++ [0x80] ++ List.replicate (15 - m.length) 0) ^^^ k2]
    else beNat (m.take 16) :: cmacBlocks k1 k2 fuel (m.drop 16)

/-- AES-CMAC-128 of a message: the tag as the little-endian value of its 16 bytes, byte 0 first.
(PRESUMED, log entry 7). -/
def aesCmac (key : Nat) (msg : Bytes) : Nat :=
  let k := byteNats (leBytes 16 key)
  let l := beNat ((aesEnc k (List.replicate 16 0)).map (BitVec.ofNat 8))
  let k1 := cmacDouble l
  let y := cmacChain k (cmacBlocks k1 (cmacDouble k1) (msg.length / 16 + 1) msg) 0
  leNat (beBytes 16 y)

/-! ### AES Key Wrap (RFC 3394), unwrapping two 64-bit registers -/

/-- One step of the unwrap: A and the two registers, big-endian numbers; `t` counts down from 12. -/
def unwrapSteps (key : List Nat) : Nat → Nat → Nat → Nat → Nat × Nat × Nat
  | 0, a, r1, r2 => (a, r1, r2)
  | t + 1, a, r1, r2 =>
    let odd := (t + 1) % 2 = 1
    let x := (a ^^^ (t + 1)) * 2 ^ 64 + (if odd then r1 else r2)
    let y := beNat ((aesDec key (byteNats (beBytes 16 x))).map (BitVec.ofNat 8))
    if odd then unwrapSteps key t (y / 2 ^ 64) (y % 2 ^ 64) r2
    else unwrapSteps key t (y / 2 ^ 64) r1 (y % 2 ^ 64)

/-- The 128-bit key wrapped in 24 bytes (little-endian value of the bytes), or none where the integrity check fails.
-/
def keyUnwrap (kek wrapped : Nat) : Option Nat :=
  let b := leBytes 24 wrapped
  let r := unwrapSteps (byteNats (leBytes 16 kek)) 12 (beNat (b.take 8)) (beNat ((b.drop 8).take 8)) (beNat (b.drop 16))
  if r.1 = 0xA6A6A6A6A6A6A6A6 then some (leNat (beBytes 8 r.2.1 ++ beBytes 8 r.2.2)) else none

/-! ### CRC-32C -/

/-- Eight bits of the reflected CRC-32C. -/
def crcBits : Nat → Nat → Nat
  | 0, c => c
  | n + 1, c => crcBits n (if c % 2 = 1 then c / 2 ^^^ 0x82F63B78 else c / 2)

/-- CRC-32C of a byte string. -/
def crc32c (b : Bytes) : Nat := (b.foldl (fun c x => crcBits 8 (c ^^^ x.toNat)) 0xFFFFFFFF) ^^^ 0xFFFFFFFF

/-! ### SHA-384 -/

/-- The largest `x` with `x ^ k ≤ n`, by `fuel` bits. -/
def rootBits (k n : Nat) : Nat → Nat → Nat
  | 0, x => x
  | b + 1, x => force (x + 2 ^ b) fun y => rootBits k n b (if y ^ k ≤ n then y else x)

/-- The first 80 primes. -/
def primes80 : List Nat :=
  [2, 3, 5, 7, 11, 13, 17, 19, 23, 29, 31, 37, 41, 43, 47, 53, 59, 61, 67, 71, 73, 79, 83, 89, 97, 101, 103, 107, 109, 113]
    ++ [127, 131, 137, 139, 149, 151, 157, 163, 167, 173, 179, 181, 191, 193, 197, 199, 211, 223, 227, 229, 233, 239, 241]
    ++ [251, 257, 263, 269, 271, 277, 281, 283, 293, 307, 311, 313, 317, 331, 337, 347, 349, 353, 359, 367, 373, 379, 383]
    ++ [389, 397, 401, 409]

/-- Round constants: the fractions of the cube roots of the first 80 primes. -/
def shaK : List Nat := primes80.map fun p => rootBits 3 (p * 2 ^ 192) 70 0 % 2 ^ 64

/-- Initial value: the fractions of the square roots of the 9th to 16th primes. -/
def shaIV : List Nat := ((primes80.drop 8).take 8).map fun p => rootBits 2 (p * 2 ^ 128) 70 0 % 2 ^ 64

def rotr64 (x n : Nat) : Nat := (x / 2 ^ n) ||| (x * 2 ^ (64 - n) % 2 ^ 64)

/-- The message schedule, newest first. -/
def shaSchedule : Nat → List Nat → List Nat
  | 0, w => w
  | n + 1, w =>
    let a := w.getD 14 0
    let b := w.getD 1 0
    let s0 := rotr64 a 1 ^^^ rotr64 a 8 ^^^ a / 2 ^ 7
    let s1 := rotr64 b 19 ^^^ rotr64 b 61 ^^^ b / 2 ^ 6
    force ((w.getD 15 0 + s0 + w.getD 6 0 + s1) % 2 ^ 64) fun x => shaSchedule n (x :: w)

/-- The rounds, one for each sum of a constant and a schedule word. -/
def shaRounds : List Nat → Nat → Nat → Nat → Nat → Nat → Nat → Nat → Nat → List Nat
  | [], a, b, c, d, e, f, g, x => [a, b, c, d, e, f, g, x]
  | kw :: r, a, b, c, d, e, f, g, x =>
    let s1 := rotr64 e 14 ^^^ rotr64 e 18 ^^^ rotr64 e 41
    let ch := (e &&& f) ^^^ ((2 ^ 64 - 1 - e) &&& g)
    let s0 := rotr64 a 28 ^^^ rotr64 a 34 ^^^ rotr64 a 39
    let mj := (a &&& b) ^^^ (a &&& c) ^^^ (b &&& c)
    force (x + s1 + ch + kw) fun t1 =>
    force ((t1 + s0 + mj) % 2 ^ 64) fun a' =>
    force ((d + t1) % 2 ^ 64) fun e' => shaRounds r a' a b c e' e f g

/-- One 128-byte block. -/
def shaBlock (h : List Nat) (m : Bytes) : List Nat :=
  let w0 := ((List.range 16).map fun i => beNat ((m.drop (8 * i)).take 8)).reverse
  let w := (shaSchedule 64 w0).reverse
  match h with
  | [a, b, c, d, e, f, g, x] =>
    List.zipWith (fun a b => (a + b) % 2 ^ 64) h (shaRounds (List.zipWith (· + ·) shaK w) a b c d e f g x)
  | _ => h

def shaBlocks : Nat → List Nat → Bytes → List Nat
  | 0, h, _ => h
  | n + 1, h, m => shaBlocks n (shaBlock h (m.take 128)) (m.drop 128)

/-- SHA-384 of a message, as a 384-bit big-endian number. -/
def sha384 (m : Bytes) : Nat :=
  let pad := (239 - m.length % 128) % 128
  let msg := m ++ [0x80] ++ List.replicate pad 0 ++ beBytes 16 (8 * m.length)
  beNat (((shaBlocks (msg.length / 128) shaIV msg).take 6).flatMap (beBytes 8))

/-! ### ECDSA P-384 -/

def p384P : Nat := 2 ^ 384 - 2 ^ 128 - 2 ^ 96 + 2 ^ 32 - 1
def p384B : Nat :=
  0xb3312fa7e23ee7e4988e056be3f82d19181d9c6efe8141120314088f5013875ac656398d8a2ed19d2a85c8edd3ec2aef
def p384N : Nat :=
  0xffffffffffffffffffffffffffffffffffffffffffffffffc7634d81f4372ddf581a0db248b0a77aecec196accc52973
def p384Gx : Nat :=
  0xaa87ca22be8b05378eb1c71ef320ad746e1d3b628ba79b9859f741e082542a385502f25dbf55296c3a545e3872760ab7
def p384Gy : Nat :=
  0x3617de4a96262c6f5d9e98bf9292dc29f8f41dbd289a147ce9da3113b5f0b8c00a60b1ce1d7e819d7a431d7c90ea0e5f

/-- `x ^ e mod m` over `n` bits of `e`. -/
def powMod (m : Nat) : Nat → Nat → Nat → Nat
  | 0, _, _ => 1 % m
  | n + 1, x, e => force (x * x % m) fun y => (if e % 2 = 1 then x else 1) * powMod m n y (e / 2) % m

def invMod (m x : Nat) : Nat := powMod m 384 (x % m) (m - 2)

/-- A point of the curve in projective coordinates: (x/z, y/z), or the point at infinity where z is 0. -/
structure EcPoint where
  x : Nat
  y : Nat
  z : Nat
  deriving DecidableEq, Repr, Inhabited

/-- The point with the given coordinates modulo the field's prime. -/
def EcPoint.of (x y z : Nat) : EcPoint :=
  force (x % p384P) fun x => force (y % p384P) fun y => force (z % p384P) fun z => { x := x, y := y, z := z }

/-- `a - b` modulo the field's prime. -/
def ecSub (a b : Nat) : Nat := (a + (p384P - b % p384P)) % p384P

/-- Twice a point. -/
def ecDouble (a : EcPoint) : EcPoint :=
  force (ecSub (3 * a.x * a.x) (3 * a.z * a.z)) fun w =>
  force (a.y * a.z % p384P) fun s =>
  force (a.x * a.y * s % p384P) fun b =>
  force (ecSub (w * w) (8 * b)) fun h =>
    EcPoint.of (2 * h * s) (ecSub (w * ecSub (4 * b) h) (8 * a.y * a.y * s * s)) (8 * s * s * s)

/-- Sum of two points. -/
def ecAdd (a b : EcPoint) : EcPoint :=
  if a.z = 0 then b
  else if b.z = 0 then a
  else
    force (ecSub (b.y * a.z) (a.y * b.z)) fun u =>
    force (ecSub (b.x * a.z) (a.x * b.z)) fun v =>
      if v = 0 then (if u = 0 then ecDouble a else { x := 0, y := 1, z := 0 })
      else
        force (v * v * v % p384P) fun v3 =>
        force (v * v * a.x * b.z % p384P) fun r =>
        force (ecSub (u * u * a.z * b.z) (v3 + 2 * r)) fun e =>
          EcPoint.of (v * e) (ecSub (u * ecSub r e) (v3 * a.y * b.z)) (v3 * a.z * b.z)

/-- `k` times a point, over `n` bits of `k`. -/
def ecMul : Nat → Nat → EcPoint → EcPoint
  | 0, _, _ => { x := 0, y := 1, z := 0 }
  | n + 1, k, q => ecAdd (if k % 2 = 1 then q else { x := 0, y := 1, z := 0 }) (ecMul n (k / 2) (ecDouble q))

/-- ECDSA P-384: whether (r, s) signs the digest under the public point. -/
def ecdsaVerify (qx qy digest r s : Nat) : Bool :=
  let p := p384P
  let n := p384N
  if qx ≥ p || qy ≥ p || qy * qy % p != (qx * qx * qx + (p - 3) * qx + p384B) % p then false
  else if r = 0 || s = 0 || r ≥ n || s ≥ n then false
  else
    let w := invMod n s
    let sum := ecAdd (ecMul 384 (digest * w % n) { x := p384Gx, y := p384Gy, z := 1 })
      (ecMul 384 (r * w % n) { x := qx, y := qy, z := 1 })
    sum.z != 0 && sum.x * invMod p sum.z % p % n == r

end Sys2Proof
end

