-- ==== Sys2Proof/Machine/BootImg.lean ====
section
/-!
DEFINITION. The checks of a Kordal image that depend on its bytes alone, or on its bytes and the block's fuses: the
header, the section table and each section (R311–R321, R360). A check that fails names its FAIL_CODE (R323).
-/

namespace Sys2Proof.Machine

open Sys2Proof

/-! ### The header (R311–R313) -/

/-- Bytes `lo` to `hi` of a byte string are zero. -/
def zeroBytes (b : Bytes) (lo hi : Nat) : Bool := (Bytes.slice b lo (hi + 1 - lo)).allZero

/-- SECTIONS of a header. -/
def hdrSections (b : Bytes) : Nat := b.fld 6 0 16

/-- IMAGE_LEN of a header. -/
def hdrImageLen (b : Bytes) : Nat := b.fld 8 0 32

/-- The section table of a header. -/
def hdrTable (b : Bytes) : List BootSec :=
  (List.range (min 32 (hdrSections b))).map fun i =>
    let o := 0x100 + 64 * i
    { type := b.fld o 0 8, off := b.fld (o + 4) 0 32, len := b.fld (o + 8) 0 32,
      digest := beNat (Bytes.slice b (o + 16) 48) }

/-- Whether the reserved bytes of a header are zero. -/
def hdrReserved (b : Bytes) : Bool :=
  let n := min 32 (hdrSections b)
  b.fld 0xE 2 14 == 0 && zeroBytes b 0x15 0x17 && zeroBytes b 0x20 0x7F && zeroBytes b 0xE0 0xFF
    && zeroBytes b (0x100 + 64 * n) 0xF9F
    && (List.range n).all fun i => zeroBytes b (0x101 + 64 * i) (0x103 + 64 * i)
        && zeroBytes b (0x10C + 64 * i) (0x10F + 64 * i)

/-- Whether the entries ascend by TYPE and OFFSET without overlap, from byte `lo` on. -/
def tableOrder : Nat → Nat → List BootSec → Bool
  | _, _, [] => true
  | t, lo, x :: r => decide (t < x.type) && decide (lo ≤ x.off) && tableOrder x.type (x.off + x.len) r

/-- The checks of R313 on a section table. -/
def tableOk (b : Bytes) : Bool :=
  let l := hdrTable b
  decide (1 ≤ hdrSections b ∧ hdrSections b ≤ 32) && tableOrder 0 0x1000 l
    && l.all (fun x => decide (x.type ≤ 0xB) && x.off % 256 == 0 && decide (16 ≤ x.len)
        && decide (x.off + x.len ≤ hdrImageLen b))
    && [1, 2, 3, 4, 6].all fun t => l.any (·.type == t)

/-- The first check of R312 that a header fails. -/
def headerFail (s : State) (b : Bytes) : Option Nat :=
  let key := Bytes.slice b 0x80 96
  let slot := b.fld 0xE 0 2
  let sig := Bytes.slice b 0xFA0 96
  let len := hdrImageLen b
  if b.fld 0 0 32 ≠ 0x44524F4B then some 0x04
  else if b.fld 4 0 16 ≠ 1 ∨ len % 256 ≠ 0 ∨ 0x4000000 < len ∨ b.fld 0x12 0 16 ≠ 3 ∨ b.fld 0x14 0 8 ≠ agentCount s
      ∨ !hdrReserved b then some 0x05
  else if sha384 key ≠ s.crb.otp.digest.look slot ∨ !s.crb.otp.programmed.getLsbD slot
      ∨ s.crb.otp.revoked.getLsbD slot then some 0x06
  else if !ecdsaVerify (beNat (key.take 48)) (beNat (key.drop 48)) (sha384 (Bytes.slice b 0 0xFA0))
      (beNat (sig.take 48)) (beNat (sig.drop 48)) then some 0x07
  else if b.fld 0xC 0 16 < s.crb.otp.minSvn then some 0x08
  else if !tableOk b then some 0x05
  else none

/-! ### Sections (R313, R315–R321, R360) -/

/-- COUNT of a section. -/
def secCount (b : Bytes) : Nat := b.fld 4 0 32

/-- Entry `i`, of `n` bytes, of a section. -/
def secEntry (b : Bytes) (n i : Nat) : Bytes := Bytes.slice b (16 + n * i) n

/-- The entries, of `n` bytes each, of a section. -/
def secEntries (b : Bytes) (n : Nat) : List Bytes := (List.range (secCount b)).map (secEntry b n)

/-- The prefix of a section of TYPE `t`. -/
def prefixOk (b : Bytes) (t : Nat) : Bool := b.fld 0 0 8 == t && zeroBytes b 1 3 && zeroBytes b 8 15

/-- Whether no bit of `b` outside `fields` is set. -/
def onlyFields (b : Bytes) (fields : List (Nat × Nat × Nat)) : Bool :=
  (lowestReserved (leNat b) (fieldMask fields) b.length).isNone

/-- SLATE: rows and lanes. -/
def slateRows (b : Bytes) : List Nat := (List.range (b.fld 0x110 0 16)).map fun i => b.fld (0x140 + 8 * i) 0 64
def slateLanes (b : Bytes) : List Nat :=
  (List.range (b.fld 0x112 0 16)).map fun i => b.fld (0x140 + 8 * b.fld 0x110 0 16 + 4 * i) 0 32

/-- The key of the row that a ROW entry names (R257). -/
def rowEntryKey (e : Nat) : Nat := bitsOf e 13 11 + 8 * bitsOf e 10 7 + 128 * bitsOf e 24 14

/-- SLATE (R315). -/
def slateSecOk (b : Bytes) : Bool :=
  let vmap := (List.range 120).map fun l => b.fld (0x18 + l) 0 8
  let role := fun v => b.fld (0x90 + v) 0 8
  let active := (List.range 128).filter fun v => role v == 0
  let rows := slateRows b
  let lanes := slateLanes b
  let spareRow := fun e => (bitsOf e 6 0, bitsOf e 13 7, bitsOf e 29 25)
  let spareLane := fun e => (bitsOf e 13 0, bitsOf e 19 19)
  secCount b == 0 && b.length == 0x140 + 8 * rows.length + 4 * lanes.length
    && b.fld 0x10 25 7 == 0 && b.fld 0x14 25 7 == 0 && zeroBytes b 0x114 0x13F
    && (List.range 128).all (fun v => decide (role v ≤ 2))
    && vmap.eraseDups.length == 120 && vmap.all (fun v => decide (v < 128) && role v == 0) && active.length == 120
    && rows.all (fun e => decide (e < 2 ^ 30)) && lanes.all (fun e => decide (e < 2 ^ 20))
    && (rows.map spareRow).eraseDups.length == rows.length && (lanes.map spareLane).eraseDups.length == lanes.length

/-- Bits of trim word `i` (R360). -/
def trimBits (i : Nat) : Nat :=
  if i < 48 then 10 else if i < 56 then 8 else if i = 56 then 16 else if i < 65 then 13 else 12

/-- TRIMS (R315, R360). -/
def trimSecOk (b : Bytes) : Bool :=
  let n := secCount b
  decide (n ≤ 193) && b.length == 16 + 4 * n && (List.range n).all fun i => decide (b.fld (16 + 4 * i) 0 32 < 2 ^ trimBits i)

/-- MGT: at most 256 KiB of firmware (R315). -/
def mgtSecOk (b : Bytes) : Bool := decide (b.length ≤ 16 + 0x40000)

/-- Fields of a PARTS entry (R316). -/
def partFields : List (Nat × Nat × Nat) :=
  [(0, 0, 1), (4, 0, 24), (8, 0, 24), (0xC, 0, 16), (0xE, 0, 16), (0x10, 0, 24), (0x13, 0, 8), (0x14, 0, 16),
   (0x18, 0, 17), (0x1C, 0, 10), (0x1E, 0, 10)]

/-- PARTS, its form (R316). -/
def partSecOk (b : Bytes) : Bool :=
  secCount b == 16 && b.length == 16 + 512 && (secEntries b 32).all fun e => onlyFields e partFields

/-- REGS, its form (R317). -/
def regSecForm (b : Bytes) : Bool :=
  b.length == 16 + 24 * secCount b && (secEntries b 24).all fun e =>
    onlyFields e [(0, 0, 26), (8, 0, 64), (0x10, 0, 64)] && e.fld 0 0 3 == 0

/-- KEYS (R318); `device` is the device key. -/
def keySecOk (b : Bytes) (device : Nat) : Bool :=
  let l := secEntries b 48
  let slot := fun (e : Bytes) => e.fld 0 0 3
  let st := fun (e : Bytes) => e.fld 0 3 2
  b.length == 16 + 48 * secCount b
    && l.all (fun e => onlyFields e [(0, 0, 5), (8, 0, 64), (0x10, 0, 192)] && decide (st e ≤ 2)
        && (if st e = 1 then (keyUnwrap device (leNat (Bytes.slice e 0x10 24))).isSome else zeroBytes e 0x10 0x27))
    && (l.map slot).eraseDups.length == l.length && l.any fun e => slot e == 0 && st e == 1

/-- Chunk offsets of a section of chunks: where each of `n` chunks starts, from byte `o` on, and where the last ends
(R319). `len` reads a chunk's LEN. (DEDUCED, log entry 53). -/
def chunkOffs (b : Bytes) (len : Bytes → Nat → Nat) : Nat → Nat → List Nat × Nat
  | 0, o => ([], o)
  | 1, o => ([o], o + 32 + len b o)
  | n + 1, o =>
    let r := chunkOffs b len n ((o + 32 + len b o + 63) / 64 * 64)
    (o :: r.1, r.2)

/-- LEN of an RKN chunk and of a DATA chunk. -/
def rknLen (b : Bytes) (o : Nat) : Nat := b.fld (o + 0xC) 0 17
def dataLen (b : Bytes) (o : Nat) : Nat := b.fld (o + 0x10) 0 32

/-- The chunks of an RKN section. A COUNT that the section's bytes cannot hold is cut: its length is then wrong. -/
def rknChunks (b : Bytes) : List Nat × Nat := chunkOffs b rknLen (min (secCount b) (b.length / 32)) 16
def dataChunks (b : Bytes) : List Nat × Nat := chunkOffs b dataLen (min (secCount b) (b.length / 32)) 16

/-- RKN (R319); `n` is the number of agents. -/
def rknSecOk (b : Bytes) (n : Nat) : Bool :=
  let c := rknChunks b
  c.1.length == secCount b && b.length == c.2 && c.1.all fun o =>
    onlyFields (Bytes.slice b o 32) [(0, 0, 64), (8, 0, 16), (0xC, 0, 17)] && decide (b.fld o 0 64 < 2 ^ n)
      && b.fld (o + 8) 0 16 % 64 == 0 && rknLen b o % 64 == 0 && decide (b.fld (o + 8) 0 16 + rknLen b o ≤ 65536)

/-- DATA, its form (R319). -/
def dataSecForm (b : Bytes) : Bool :=
  let c := dataChunks b
  c.1.length == secCount b && b.length == c.2 && c.1.all fun o =>
    onlyFields (Bytes.slice b o 32) [(0, 0, 4), (8, 0, 40), (0x10, 0, 32)] && b.fld (o + 8) 0 8 == 0
      && dataLen b o % 256 == 0

/-- Directory entries of TEMPLATES: template, partition, node offset, image offset and node count (R320). -/
structure TplEntry where
  tpl : Nat
  part : Nat
  nodeOff : Nat
  imgOff : Nat
  count : Nat
  deriving DecidableEq, Repr, Inhabited

/-- The directory of a TEMPLATES section. -/
def tplEntries (b : Bytes) : List TplEntry :=
  (secEntries b 16).map fun e =>
    { tpl := e.fld 0 0 10, part := e.fld 2 0 4, nodeOff := e.fld 4 0 24, imgOff := e.fld 8 0 32, count := e.fld 0xC 0 24 }

/-- TEMPLATES, its form (R320): the images end where the section does. -/
def tplSecOk (b : Bytes) : Bool :=
  let l := tplEntries b
  (secEntries b 16).all (fun e => onlyFields e [(0, 0, 10), (2, 0, 4), (4, 0, 24), (8, 0, 32), (0xC, 0, 24)])
    && l.all (fun e => e.imgOff % 256 == 0 && decide (16 + 16 * secCount b ≤ e.imgOff))
    && b.length == l.foldl (fun n e => max n (e.imgOff + 256 * e.count)) (16 + 16 * secCount b)

/-- The records of a template's image. -/
def tplRecords (b : Bytes) (e : TplEntry) : List Nat := imageRecs e.count (Bytes.slice b e.imgOff (256 * e.count))

/-- QUEUES, its form (R321). -/
def queueSecOk (b : Bytes) : Bool :=
  b.length == 16 + 48 * secCount b && (secEntries b 48).all fun e =>
    onlyFields e [(0, 0, 13), (2, 0, 4), (3, 0, 8), (4, 0, 5), (5, 0, 5), (6, 0, 6), (7, 0, 1), (7, 4, 4), (8, 0, 64),
      (0x10, 0, 64), (0x18, 0, 24), (0x1C, 0, 24), (0x20, 0, 16), (0x22, 0, 16)]

/-- CHANNELS, its form (R321). -/
def chanSecOk (b : Bytes) : Bool :=
  b.length == 16 + 16 * secCount b && (secEntries b 16).all fun e =>
    onlyFields e [(0, 0, 16), (2, 0, 2), (4, 0, 24), (8, 0, 16), (0xA, 0, 13)]

/-- Whether a section of TYPE `t` has the form of its table: FAIL_CODE SECTION otherwise. -/
def sectionForm (s : State) (t : Nat) (b : Bytes) : Bool :=
  prefixOk b t && match t with
    | 1 => slateSecOk b
    | 2 => trimSecOk b
    | 3 => mgtSecOk b
    | 4 => partSecOk b
    | 5 => regSecForm b
    | 6 => keySecOk b s.crb.otp.deviceKey
    | 7 => rknSecOk b (agentCount s)
    | 8 => dataSecForm b
    | 9 => tplSecOk b
    | 0xA => queueSecOk b
    | _ => chanSecOk b

/-! ### PARTS and REGS (R316, R317) -/

/-- Ranges given as base and length do not overlap. -/
def disjointRanges : List (Nat × Nat) → Bool
  | [] => true
  | x :: r => r.all (fun y => !overlaps x.1 x.2 y.1 y.2) && disjointRanges r

/-- The base of the data pool in units, for NODES and CELLS (R246). -/
def poolUnit (nodes cells : Nat) : Nat :=
  8 + (nodes * 256 + unitBytes - 1) / unitBytes + (cells * 4 + unitBytes - 1) / unitBytes
    + (cells * 2048 + unitBytes - 1) / unitBytes

/-- The checks of R316 on PARTS, with the geometry of SLATE; step 1 of R322 holds the node ranges against NODES (R246). -/
def layoutOk (b : Bytes) (nodes cells : Nat) : Bool :=
  let l := secEntries b 32
  let f := fun (e : Bytes) (o bits : Nat) => e.fld o 0 bits
  let u := poolUnit nodes cells
  l.all (fun e => e.fld 0 0 1 == 1 || e.allZero)
    && disjointRanges (l.map fun e => (f e 4 24, f e 8 24)) && disjointRanges (l.map fun e => (f e 0xC 16, f e 0xE 16))
    && disjointRanges (l.map fun e => (f e 0x14 16, f e 0x18 17)) && disjointRanges (l.map fun e => (f e 0x1C 10, f e 0x1E 10))
    && decide ((l.map fun e => f e 0x13 8).foldl (· + ·) 0 ≤ 256) && decide ((l.map fun e => f e 0x10 24).foldl (· + ·) 0 ≤ cells)
    && l.all fun e => f e 0x1E 10 == 0 || decide (u ≤ f e 0x1C 10 ∧ f e 0x1C 10 + f e 0x1E 10 ≤ 840)

/-- RW fields of the configuration registers that the image may set (R317). -/
def imgConfig (a : Nat) : Nat :=
  if a = 0x100000 then 0x1F
  else if a = 0x400000 then 0x00FFFFFF0FFFFFFF
  else if inRow a 0x502000 32 16 then 0x3FF000FFFF0
  else if inRow a 0x502008 32 16 then maskBits 39 0
  else if a = 0xa00300 then 0x80FFFFFF
  else if a = 0xa00308 then 0xFFFF
  else if a = 0xb00010 then 0x00FFFFFF00FFFFFF
  else if a = 0xb00018 then 0xFFFFFF
  else if a = 0xc00040 then maskBits 40 0
  else if a = 0xe00030 then 0xFFFF
  else 0

/-- IMG fields that no section derives and that are not RW-L (R317). -/
def imgPlain (n a : Nat) : Nat :=
  if inRow a 0x810000 0x20 1024 then 0x80000000FFF7FF07
  else if inRow a 0x810008 0x20 1024 then 0x1FFFFFFFFFFFFFFF
  else if inRow a 0x810010 0x20 1024 then maskBits 63 0
  else if inRow a 0x810018 0x20 1024 then 0x03FFFFFFFFFFFFFF
  else if inRow a 0x910000 0x20 256 then 0x80FFFFFFFFFF007F
  else if inRow a 0x910008 0x20 256 then maskBits 39 0
  else if inRow a 0x910010 0x20 256 then maskBits 43 0
  else if inRow a 0x910018 0x20 256 then maskBits 63 0
  else if inRow a 0xb00100 0x20 8 then 0x0000FFFFFF000001
  else if a = 0xd00020 then maskBits 31 0
  else if a = 0xd00038 then 0x1FFFF
  else if inRow a 0x1000028 0x10000 n then 0xFFFF
  else 0

/-- The bits that MASK of a REGS entry for the 8 bytes at `a` may cover (R317). -/
def imgMask (s : State) (a : Nat) : Nat :=
  let derived := inRow a 0x700100 8 16 || inRow a 0xa00200 8 16
  (if derived then 0 else lockMask s a) ||| imgConfig a ||| imgPlain (agentCount s) a

/-- Whether every MASK of a REGS section stays in what it may cover. -/
def regSecOk (s : State) (b : Bytes) : Bool :=
  (secEntries b 24).all fun e => (e.fld 0x10 0 64 &&& imgMask s (e.fld 0 0 26)) == e.fld 0x10 0 64

/-- `old` with the bits of `m` taken from `v`. -/
def mergeBits (old v m : Nat) : Nat := old - (old &&& m) + (v &&& m)

/-- The 8 bytes of registers at `a` after a masked write: an entry of REGS, or LOCKED_WRITE (R317, R422). Bits of
DIS_PART_AGENTS at and above the agent count read 0. -/
def maskedWrite (s : State) (a v m : Nat) : State :=
  let m := if inRow a 0x400200 8 16 then m % 2 ^ agentCount s else m
  let put := fun (s : State) (a v m : Nat) =>
    if m = 0 then s
    else
      regSet s a (BitVec.ofNat 64 (mergeBits (regGet s a).toNat v m))
  let pair := inRow a 0xb10000 8 2048 || inRow a 0xd00180 8 4
  if pair then put (put s a (v % 2 ^ 32) (m % 2 ^ 32)) (a + 4) (v / 2 ^ 32) (m / 2 ^ 32) else put s a v m

/-! ### QUEUES and CHANNELS (R30, R48, R52, R321) -/

/-- The queue of an entry. -/
def entryQueue (e : Bytes) : Nat := e.fld 0 0 13

/-- Whether an entry of QUEUES meets R30, R48 and R52, given the partitions. -/
def queueEntryOk (s : State) (e : Bytes) : Bool :=
  let q := entryQueue e
  let p := s.parts.look (e.fld 2 0 4)
  let sq := e.fld 4 0 5
  let cq := e.fld 5 0 5
  let inside := fun (b n pb pn : Nat) => n == 0 || (decide (pb ≤ b) && decide (b + n ≤ pb + pn))
  isQueue q && decide (4 ≤ sq ∧ sq ≤ 16 ∧ 4 ≤ cq ∧ cq ≤ 16) && e.fld 8 0 6 == 0 && e.fld 0x10 0 5 == 0
    && (if isKernel q then e.fld 2 0 16 == 0 && e.fld 7 0 1 == 0 && zeroBytes e 0x18 0x23
        else e.fld 7 4 4 == 0 && decide (1 ≤ e.fld 3 0 8) && inside (e.fld 0x18 0 24) (e.fld 0x1C 0 24) p.nodeBase p.nodeCount
          && inside (e.fld 0x20 0 16) (e.fld 0x22 0 16) p.chanBase p.chanCount)

/-- Whether every entry of QUEUES may be applied, each queue named once. -/
def queuesOk (s : State) (b : Bytes) : Bool :=
  let l := secEntries b 48
  l.all (queueEntryOk s) && (l.map entryQueue).eraseDups.length == l.length

/-- An entry of QUEUES configures its queue (R48, R321); its tail latch and PEND stay (R325). -/
def applyQueue (s : State) (e : Bytes) : State :=
  let q := entryQueue e
  let s := if isKernel q then
      let cfg := e.fld 4 0 5 + e.fld 5 0 5 * 2 ^ 8 + e.fld 7 4 4 * 2 ^ 16 + e.fld 6 0 6 * 2 ^ 24 + 2 ^ 31
      regSet (regSet (regSet s (kqAddr q) (BitVec.ofNat 64 (e.fld 8 0 64))) (kqAddr q + 8)
        (BitVec.ofNat 64 (e.fld 0x10 0 64))) (kqAddr q + 0x10) (BitVec.ofNat 64 cfg)
    else s
  updQ s q fun u => { (default : Queue) with
    tail := u.tail, pend := u.pend, phase := true,
    part := e.fld 2 0 4, slice := e.fld 3 0 8, sqLog2 := e.fld 4 0 5, cqLog2 := e.fld 5 0 5, intVec := e.fld 6 0 6,
    reloc := e.fld 7 0 1 == 1, sqBase := e.fld 8 0 64, cqBase := e.fld 0x10 0 64, nodeBase := e.fld 0x18 0 24,
    nodeCount := e.fld 0x1C 0 24, chanBase := e.fld 0x20 0 16, chanCount := e.fld 0x22 0 16 }

/-- An entry of CHANNELS opens its channel as a CHAN_OPEN of its queue; none where that command would be refused
(R177, R321). `queues` are the queues that the image enables. -/
def openEntry (queues : List Nat) (s : State) (e : Bytes) : Option State :=
  let q := e.fld 0xA 0 13
  match relocChan s q (e.fld 0 0 16) with
  | none => none
  | some c =>
    let p := if isKernel q then (partOfChan s c).getD 0 else (queue s q).part
    let quota := e.fld 4 0 24
    if !queues.contains q ∨ 1 < e.fld 2 0 2 ∨ quota = 0 ∨ e.fld 8 0 16 = 0 ∨ (chan s c).open_
        ∨ (s.parts.look p).cellQuota < cellsHeld s p + quota then none
    else some (openChan s c p q quota (e.fld 8 0 16) (e.fld 2 0 2 == 1))

/-- All entries of CHANNELS opened in order. -/
def openEntries (queues : List Nat) (s : State) : List Bytes → Option State
  | [] => some s
  | e :: r => match openEntry queues s e with
    | none => none
    | some s => openEntries queues s r

end Sys2Proof.Machine
end

