-- ==== Sys2Proof/Machine/Float.lean ====
section
/-!
DEFINITION. Arithmetic and number formats (chapter 08): formats by their exact values, rounding, K8, RTE's products and
groups of 32, FP32x3, the ranking of FP32 values, and Long Sums (R202–R220).
-/

namespace Sys2Proof

/-- A value that the block's arithmetic handles: `fin m e` is m × 2^e (R203: signs of zero do not enter). -/
inductive FVal where
  | nan
  | inf (neg : Bool)
  | fin (m e : Int)
  deriving DecidableEq, Repr, Inhabited

/-- An integer times a power of two that is not below one. -/
def shl (m : Int) (n : Int) : Int := m * 2 ^ n.toNat

/-- Value of an IEEE encoding with `eb` exponent bits and `fb` fraction bits (R202). -/
def ieeeVal (eb fb x : Nat) : FVal :=
  let frac := x % 2 ^ fb
  let exp := x / 2 ^ fb % 2 ^ eb
  let neg := bitOf x (eb + fb)
  let bias : Int := 2 ^ (eb - 1) - 1
  let sg := fun (n : Nat) => if neg then -(n : Int) else (n : Int)
  if exp = 2 ^ eb - 1 then (if frac = 0 then .inf neg else .nan)
  else if exp = 0 then .fin (sg frac) (1 - bias - fb)
  else .fin (sg (2 ^ fb + frac)) (exp - bias - fb)

/-- Value of a K8 code (R207). -/
def k8Val (x : Nat) : FVal :=
  let m := x % 8
  let e := x / 8 % 16
  let neg := bitOf x 7
  let sg := fun (n : Nat) => if neg then -(n : Int) else (n : Int)
  if x % 256 = 0x80 then .nan
  else if e = 0 then .fin (sg m) (-10)
  else .fin (sg (8 + m)) ((e : Int) - 11)

/-- Bytes of an element by FORMAT code (R202). -/
def elemSize (fmt : Nat) : Nat :=
  match fmt with
  | 0 | 1 => 2
  | 2 | 4 => 4
  | _ => 1

/-- Value of an element by FORMAT code; S32 by its integer. -/
def fmtVal (fmt x : Nat) : FVal :=
  match fmt with
  | 0 => ieeeVal 8 7 x
  | 1 => ieeeVal 5 10 x
  | 2 => ieeeVal 8 23 x
  | 3 => k8Val x
  | _ => .fin (BitVec.ofNat 32 x).toInt 0

/-- A magnitude divided by 2^k, rounded to nearest, ties to even (R204). -/
def rneShift (a k : Nat) : Nat :=
  let d := a / 2 ^ k
  let r := a % 2 ^ k
  if 2 * r > 2 ^ k ∨ (2 * r = 2 ^ k ∧ d % 2 = 1) then d + 1 else d

/-- The magnitude m × 2^e on the grid 2^q, rounded to nearest, ties to even. -/
def onGrid (m : Nat) (e q : Int) : Nat :=
  if q ≤ e then m * 2 ^ (e - q).toNat else rneShift m (q - e).toNat

/-- Encoding of a value in an IEEE format, rounded once; overflow gives infinity, an exact zero is +0 (R203–R205). A value that
rounds to zero keeps its sign. (DEDUCED, log entry 99). -/
def ieeeEnc (eb fb : Nat) (v : FVal) : Nat :=
  let top := 2 ^ eb - 1
  match v with
  | .nan => top * 2 ^ fb + 2 ^ (fb - 1)
  | .inf neg => b2n neg * 2 ^ (eb + fb) + top * 2 ^ fb
  | .fin m e =>
    let a := m.natAbs
    let bias : Int := 2 ^ (eb - 1) - 1
    let low : Int := 1 - bias - fb
    let q := max ((a.log2 : Int) + e - fb) low
    let n := onGrid a e q
    let code := (q - low).toNat * 2 ^ fb + n
    let sg := if m < 0 then 2 ^ (eb + fb) else 0
    if a = 0 then 0
    else if top * 2 ^ fb ≤ code then sg + top * 2 ^ fb
    else sg + code

/-- Whether |m × 2^e| ≥ t × 2^0. -/
def magGe (m : Nat) (e : Int) (t : Nat) : Bool :=
  if 0 ≤ e then decide (t ≤ m * 2 ^ e.toNat) else decide (t * 2 ^ (-e).toNat ≤ m)

/-- K8 encoding (R208): the code, and whether it saturated, and whether strict mode made a NaN of it (R209). -/
def k8Enc (v : FVal) (strict : Bool) : Nat × Bool × Bool :=
  let excess := fun (neg : Bool) =>
    if strict then (0x80, false, true) else (b2n neg * 128 + 0x7F, true, false)
  match v with
  | .nan => (0x80, false, false)
  | .inf neg => excess neg
  | .fin m e =>
    let a := m.natAbs
    if magGe a e 248 then excess (decide (m < 0))
    else
      let l := (a.log2 : Int) + e
      let code :=
        if a = 0 then 0
        else if l < -7 then onGrid a e (-10)
        else
          let n := onGrid a e (l - 3)
          ((l + 8).toNat * 8 + n) - 8
      (if code = 0 then 0 else (if m < 0 then 128 else 0) + code, false, false)

/-- Encoding by FORMAT code: the bits, and R209's two events. -/
def fmtEnc (fmt : Nat) (v : FVal) (strict : Bool) : Nat × Bool × Bool :=
  match fmt with
  | 0 => (ieeeEnc 8 7 v, false, false)
  | 1 => (ieeeEnc 5 10 v, false, false)
  | 2 => (ieeeEnc 8 23 v, false, false)
  | _ => k8Enc v strict

/-- Exact product (R211 for specials). -/
def mulVal : FVal → FVal → FVal
  | .nan, _ => .nan
  | _, .nan => .nan
  | .inf a, .inf b => .inf (a != b)
  | .inf a, .fin m _ => if m = 0 then .nan else .inf (a != decide (m < 0))
  | .fin m _, .inf b => if m = 0 then .nan else .inf (b != decide (m < 0))
  | .fin m e, .fin n f => .fin (m * n) (e + f)

/-- Exact sum of finite values. -/
def addFin (m e n f : Int) : Int × Int :=
  let g := min e f
  (shl m (e - g) + shl n (f - g), g)

/-- Exact sum, with IEEE 754 specials (R212). -/
def addVal : FVal → FVal → FVal
  | .nan, _ => .nan
  | _, .nan => .nan
  | .inf a, .inf b => if a = b then .inf a else .nan
  | .inf a, .fin _ _ => .inf a
  | .fin _ _, .inf b => .inf b
  | .fin m e, .fin n f =>
    let s := addFin m e n f
    .fin s.1 s.2

/-- FP32 value of a rounded exact value. -/
def roundFp32 (v : FVal) : FVal := ieeeVal 8 23 (ieeeEnc 8 23 v)

/-- floor(log2 |m × 2^e|) for a non-zero value. -/
def log2Val (m e : Int) : Int := (m.natAbs.log2 : Int) + e

/-- A product truncated to the grid 2^q: its signed multiple of the grid (R211). -/
def truncGrid (m e q : Int) : Int :=
  let a := if q ≤ e then m.natAbs * 2 ^ (e - q).toNat else m.natAbs / 2 ^ (q - e).toNat
  if m < 0 then -(a : Int) else a

/-- Sum of one group of 32 products (R211). -/
def groupSum (p : List FVal) : FVal :=
  let isNan := p.any fun v => v == .nan
  let pos := p.any fun v => v == .inf false
  let neg := p.any fun v => v == .inf true
  if isNan || (pos && neg) then .nan
  else if pos then .inf false
  else if neg then .inf true
  else
    let nz := p.filterMap fun v => match v with
      | .fin m e => if m = 0 then none else some (m, e)
      | _ => none
    match nz with
    | [] => .fin 0 0
    | x :: r =>
      let emax := r.foldl (fun a y => max a (log2Val y.1 y.2)) (log2Val x.1 x.2)
      let q := emax - 47
      .fin ((nz.map fun y => truncGrid y.1 y.2 q).foldl (· + ·) 0) q

/-- Groups of 32 positions (R211). `fuel` bounds them. -/
def groups32 {α : Type} : Nat → List α → List (List α)
  | 0, _ => []
  | n + 1, l => if l.isEmpty then [] else l.take 32 :: groups32 n (l.drop 32)

/-- The accumulator over the groups of one pass, from `acc` (R212). -/
def dotPass (acc : FVal) (a b : List FVal) : FVal :=
  let p := List.zipWith mulVal a b
  (groups32 p.length p).foldl (fun acc g => roundFp32 (addVal acc (groupSum g))) acc

/-- The pieces of an FP32 operand (R213): `k` is 0, 1 or 2. -/
def fp32Piece (k : Nat) (v : FVal) : FVal :=
  match v with
  | .fin m e =>
    let a := m.natAbs
    let part : Nat := if k = 0 then a / 2 ^ 16 * 2 ^ 16 else if k = 1 then a / 2 ^ 8 % 2 ^ 8 * 2 ^ 8 else a % 2 ^ 8
    .fin (if m < 0 then -(part : Int) else part) e
  | v => v

/-- A dot product in FP32x3 mode (R214). -/
def dotFp32 (a b : List FVal) : FVal :=
  [(2, 0), (1, 1), (0, 2), (1, 0), (0, 1), (0, 0)].foldl (fun acc p =>
    dotPass acc (a.map (fp32Piece p.1)) (b.map (fp32Piece p.2))) (.fin 0 0)

/-- A dot product of two rows of one format (R211–R214). -/
def dotRows (fmt : Nat) (a b : List Nat) : FVal :=
  let x := a.map (fmtVal fmt)
  let y := b.map (fmtVal fmt)
  if fmt = 2 then dotFp32 x y else dotPass (.fin 0 0) x y

/-- m × 2^e < n × 2^f. -/
def ltFin (m e n f : Int) : Bool :=
  let g := min e f
  decide (shl m (e - g) < shl n (f - g))

/-- Order of values without NaN. -/
def ltVal : FVal → FVal → Bool
  | .nan, _ => false
  | _, .nan => false
  | .inf a, .inf b => a && !b
  | .inf a, .fin _ _ => a
  | .fin _ _, .inf b => !b
  | .fin m e, .fin n f => ltFin m e n f

/-- Equality by value; false where either is a NaN. -/
def eqVal (a b : FVal) : Bool := a != .nan && b != .nan && !ltVal a b && !ltVal b a

/-- Whether `a` ranks below `b` in the selection order (R216). -/
def rankLt (a b : FVal) : Bool :=
  match a, b with
  | .nan, .nan => false
  | .nan, _ => true
  | _, .nan => false
  | _, _ => ltVal a b

/-- Correctly rounded quotient in FP32 of the FP32 code `x` (R229). A division by an infinity gives a zero of the quotient's sign,
as IEEE 754 has it. -/
def divFp32 (x : Nat) (b : FVal) : Nat :=
  let enc := ieeeEnc 8 23
  match fmtVal 2 x, b with
  | .nan, _ => enc .nan
  | _, .nan => enc .nan
  | .inf _, .inf _ => enc .nan
  | .inf s, .fin n _ => enc (.inf (s != decide (n < 0)))
  | .fin _ _, .inf s => if bitOf x 31 != s then 2 ^ 31 else 0
  | .fin m e, .fin n f =>
    if n = 0 then (if m = 0 then enc .nan else enc (.inf (decide (m < 0))))
    else
      let k := 80 + n.natAbs.log2
      let num := m.natAbs * 2 ^ k
      let q := num / n.natAbs
      let st := if num % n.natAbs = 0 then 0 else 1
      let r := 2 * q + st
      let s : Int := if (m < 0) != (n < 0) then -1 else 1
      enc (.fin (s * r) (e - f - k - 1))

/-! ### Long Sums (R217–R220) -/

/-- A Long Sum. -/
structure LongSum where
  value : BitVec 640
  nan : Bool
  pinf : Bool
  ninf : Bool
  ovf : Bool
  deriving DecidableEq, Repr, Inhabited

/-- An addend applied (R218). The Bool says that this addend set OVF. -/
def lsAdd (l : LongSum) (v : FVal) : LongSum × Bool :=
  match v with
  | .nan => ({ l with nan := true }, false)
  | .inf false => ({ l with pinf := true }, false)
  | .inf true => ({ l with ninf := true }, false)
  | .fin m e =>
    let a := if 0 ≤ e + 300 then shl m (e + 300) else m / 2 ^ (-(e + 300)).toNat
    let t := l.value.toInt + a
    let excess := decide (t < -(2 ^ 639) ∨ 2 ^ 639 ≤ t)
    ({ l with value := BitVec.ofInt 640 t, ovf := l.ovf || excess }, excess)

/-- The value that a readout rounds (R219). -/
def lsVal (l : LongSum) : FVal :=
  if l.ovf || l.nan || (l.pinf && l.ninf) then .nan
  else if l.pinf then .inf false
  else if l.ninf then .inf true
  else .fin l.value.toInt (-300)

/-- The 128 B image (R220). -/
def lsImage (l : LongSum) : Bytes :=
  leBytes 80 l.value.toNat ++ leBytes 1 (b2n l.nan + 2 * b2n l.pinf + 4 * b2n l.ninf + 8 * b2n l.ovf) ++
    List.replicate 47 0

/-- A Long Sum from its image, and whether its reserved bits are zero (R220). -/
def lsOfImage (b : Bytes) : LongSum × Bool :=
  let f := Bytes.fld b 80 0 8
  ({ value := BitVec.ofNat 640 (leNat (b.take 80)), nan := bitOf f 0, pinf := bitOf f 1, ninf := bitOf f 2,
     ovf := bitOf f 3 }, f / 16 == 0 && Bytes.allZero (b.drop 81))

end Sys2Proof
end

