-- ==== Sys2Proof/Machine/Hif.lean ====
section
/-!
DEFINITION. The Host Interface at work: completion writes, the spill and HIF_Q_RESUME, and failed ring reads
(R44, R58, R60, R61, R392).
-/

namespace Sys2Proof.Machine

open Sys2Proof

/-- Spilled records of a queue are sent again, oldest first (R60). -/
def resumeSpill (s : State) (q : Nat) : State :=
  let mine := s.hif.spill.filter (·.q == q)
  let again := mine.map fun i => { i with resumed := true }
  let s := { s with hif.flight := s.hif.flight ++ again }
  emits s (again.map fun i => .cplWrite (cqBase s q + 32 * i.slot) (cplBytes i.record))

/-- A spilled record has been written: it leaves the spill; behind the last one the queue returns to FETCHING (R60). -/
def spillWritten (s : State) (i : CplItem) : State :=
  let left := (takeFirst (fun x => x.q == i.q && x.slot == i.slot) s.hif.spill).elim s.hif.spill (·.2)
  let s := { s with hif.spill := left }
  if s.hif.flight.any (fun x => x.q == i.q && x.resumed) then s
  else if left.any (·.q == i.q) then resumeSpill s i.q
  else if (queue s i.q).st = .stopped then
    let st := runState s i.q
    updQ s i.q fun u => { u with st := st, reason := .none }
  else s

/-- A completion write ends in success (R58, R76, R340, R392). -/
def cplWritten (s : State) (i : CplItem) : State :=
  let s := if i.irq then emit s (.irqQ (intVec s i.q)) else s
  let s := progress s i.q
  if i.resumed then spillWritten s i
  else if i.node then nodeRecordWritten s i.q i.seq i.record.node i.gen
  else s

/-- A completion write ends in an error response: the record goes to the spill, or stays there, and the queue stops
(R60); a record of a device discard is not written (R338). `full` is the injection's full spill.
(DEDUCED, log entry 16). -/
def cplFailed (s : State) (i : CplItem) (full : Bool) : State :=
  let stop := fun (s : State) => if (queue s i.q).st = .disabled then { s with hif.irqStat := s.hif.irqStat ||| 1 }
    else stopQueue s i.q .cplFault
  if s.flt.devReset then (if i.node then nodeRecordWritten s i.q i.seq i.record.node i.gen else s)
  else if i.resumed then stop { s with hif.flight := s.hif.flight.filter fun x => !(x.q == i.q && x.resumed) }
  else if full then raiseInj (stop s) 0x0102 .ud 0 i.q true
  else
    let s := stop (spillItem s i)
    if i.node then nodeRecordWritten s i.q i.seq i.record.node i.gen else s

/-- The `i`-th completion write in flight ends (R60). -/
def completionWriteDone (s : State) (i : Nat) (err : Bool) : State :=
  match takeAt s.hif.flight i with
  | none => s
  | some (x, rest) =>
    let s := { s with hif.flight := rest }
    let s := if injArmed s 0x0102 (· == x.q) then cplFailed (injFire s) x true
      else if err then cplFailed s x false
      else cplWritten s x
    settleQ s x.q

/-- A write of a queue id to HIF_Q_RESUME (R60, R61). -/
def qResume (s : State) (q : Nat) : State :=
  if !isQueue q || (queue s q).st != .stopped || s.hif.flight.any (fun x => x.q == q && x.resumed) then ignoreInput s
  else if s.hif.spill.any (·.q == q) then resumeSpill s q
  else
    let st := runState s q
    settleQ (updQ s q fun u => { u with st := st, reason := .none }) q

/-- A CHI read of a submission ring receives an error response (R44). -/
def ringReadError (s : State) (q : Nat) : State :=
  let inj := injArmed s 0x0101 (· == q)
  if (queue s q).st = .fetching ∧ (s.cfe.turn.map (·.q)) = some q then
    raiseInj (if inj then injFire s else s) 0x0101 .ud 0 q inj
  else s

end Sys2Proof.Machine
end

