-- ==== Sys2Proof/Machine/Tally.lean ====
section
/-!
DEFINITION. The Graph Store and the Tally Engine at work: the end of a launch, of a sweep and of a drain, retirements,
the expander, the lanes, cache misses, the ready backlogs and remote decrements (R73–R93).
-/

namespace Sys2Proof.Machine

open Sys2Proof

/-! ### Launches (R73, R76, R90) -/

/-- Activation of the LOADED graph at `h` by a command of queue `q` or by PDM (R73). The live command with that ring
index is the launch's own. -/
def graphActivate (s : State) (h : Nat) (arg : W64) (q sqIdx : Nat) (internal : Bool) : State :=
  let r := nd s h
  if r.kind == .graph && r.hdr.lstate == .loaded && launchRoom s h then
    let seq := ((queue s q).live.find? fun l => l.cmd.idx == sqIdx && !l.ended).elim 0 (·.cmd.seq)
    activate s h arg { q := q, sqIdx := sqIdx, internal := internal, seq := seq, main := none, table := none }
  else s

/-- A sweep ends: the header goes to TLY's intake (R73). -/
def sweepComplete (s : State) (h : Nat) : State :=
  if s.grs.sweeping.contains h then
    pushHeader { s with grs.sweeping := s.grs.sweeping.filter (· != h) } h
  else s

/-- The oldest pending launch activates, or the graph is LOADED and its launch-table entry is free (R76, R90). -/
def nextLaunch (s : State) (h : Nat) : State :=
  match (nd s h).hdr.pend with
  | p :: rest => activate (updH s h fun x => { x with pend := rest }) h p.arg p.src
  | [] => { updH s h (fun x => { x with lstate := .loaded }) with grs.table := s.grs.table.filter (· != h) }

/-- The step launch of a batching table has ended: its step boundary follows, or the table turns OFF (R120, R121). -/
def stepEnded (s : State) (b : Nat) : State :=
  { s with pdm.bt := s.pdm.bt.upd b fun t =>
      if t.st == .stepping then { t with st := if t.stopping then .off else .boundary, stopping := false } else t }

/-- Status and DETAIL of a launch's completion (R76). -/
def launchStatus (h : Header) : Nat × Nat :=
  if h.switched then (0x22, 0)
  else if h.peerClosed then (0x20, 0)
  else if h.drops ≠ 0 then (0x01, h.drops)
  else (0, 0)

/-- A launch ends once RETIRED equals WORK_COUNT and its node records are written (R76, R116). -/
def launchEnd (s : State) (h : Nat) : State :=
  let r := nd s h
  if r.kind == .graph && r.hdr.lstate == .active && r.hdr.retired == r.hdr.workCount && r.hdr.cplOut == 0
      && !s.grs.sweeping.contains h then
    let d := launchStatus r.hdr
    let s := dlDisarm (completeLaunch s r.hdr.src d.1 d.2) h
    let s := match r.hdr.src.table with
      | some b => stepEnded s b
      | none => s
    nextLaunch s h
  else s

/-! ### Retirements (R81–R83, R91) -/

/-- Whether a retirement of node `r` carries its current generation: that of its graph's header, whatever the state of
its launch, or its own where it is standalone (R75, R91). (DEDUCED, log entry 83). -/
def currentGen (s : State) (r : NodeRec) (gen : BitVec 16) : Bool :=
  (if inGraph r then (nd s r.graph).gen else r.gen) == gen

/-- A retirement enters TLY's intake (R82, R83, R91), in the state that R75 gives its node. TLY leaves it on the Beam while
it is stopped or has no credit for the node's partition (R87, R92). -/
def retirement (s : State) (n : Nat) (gen : BitVec 16) (res : RetResult) (drops : Nat) : State :=
  if !intakeOpen s (partOr0 s n) then s
  else
    let r := nd s n
    let s := { s with dis.running := s.dis.running.filter fun x => !(x.node == n && x.gen == gen && !x.aborted) }
    if isWork r.kind && !currentGen s r gen then count s .tlyStaleRet
    else if !isWork r.kind || (armed s r).st != .issued || res == .reserved then count s .tlyBadRet
    else if res == .halted then s
    else pushCarry (noteRetired s n res drops false) n

/-! ### Expansion (R67, R84, R85, R88) -/

/-- The entries of one list merged by target, in list order: the sum of the weights capped, and the decrements carried
(R84). -/
def mergeSuccs : List Succ → List (Nat × Nat × Nat)
  | [] => []
  | e :: r =>
    let l := mergeSuccs r
    let same := l.filter (·.1 == e.node)
    let w := same.foldl (fun a x => a + x.2.1) e.weight
    let n := same.foldl (fun a x => a + x.2.2) 1
    (e.node, min w 0xFFFFFF, n) :: l.filter (·.1 != e.node)

/-- The source of the decrements that an expansion entry emits (R74, R91). -/
def expSrc (s : State) (e : ExpEntry) : DecSrc :=
  if e.header then .root e.node e.gen
  else .edge e.node (if inGraph (nd s e.node) then (nd s e.node).graph else Config.noNode) e.gen

/-- A remote decrement to partner `block` (R88). -/
def decHdr (s : State) (p : Nat) (e : Succ) : FabHdr :=
  { op := 7, final := false, scope := 0, ord := false, srcPart := p, aop := 0, dstBlock := e.block, hops := 15,
    srcBlock := blockId s, srcAgent := 0, srcUnit := 31, loc := e.node, data := BitVec.ofNat 64 e.weight, cmp := 0,
    hallTag := 0, txn := 0, dcrc := 0, mask := 0, payload := [] }

/-- Operations of a batch that find their lane taken by an earlier one of the batch (R84). (DEDUCED, log entry 30). -/
def laneClashes : List Nat → Nat
  | [] => 0
  | e :: r => (if r.any (fun x => x % 32 == e % 32) then 1 else 0) + laneClashes r

/-- The operations of the list read before, where they are the newest of the lanes still: what a second list of the same
ac is merged with (R84). -/
def lastList (s : State) : Option (Nat × List LaneOp) :=
  s.tly.last.filter fun l => !l.2.isEmpty && s.tly.ops.drop (s.tly.ops.length - l.2.length) == l.2

/-- Whether a list is read in the ac of the list before it; where one can be, the choice is free.
(DESIGN CHOICE, log entry 84). -/
def sameAc (s : State) : Bool × State :=
  if (lastList s).isNone then (false, s)
  else
    let (k, s) := freeNat s
    (k % 2 == 1, s)

/-- An operation with a later one of the same node merged into it (R84). -/
def mergeOp (a b : LaneOp) : LaneOp := { a with also := a.also ++ b.parts }

/-- Two lists of one ac: decrements of one node become one operation, the others follow in the order of their entries,
and each of a second entry that finds its lane taken waits one ac (R84). -/
def joinLists (a b : List LaneOp) : List LaneOp × Nat :=
  let into := a.map fun x => match b.find? (·.node == x.node) with
    | some y => mergeOp x y
    | none => x
  let rest := b.filter fun y => !a.any (·.node == y.node)
  (into ++ rest, (rest.filter fun y => a.any fun x => x.node % 32 == y.node % 32).length)

/-- The operations that the expander emits from entry `i`'s list reach their lanes (R84, R85). -/
def emitOps (s : State) (i : Nat) (new : List LaneOp) : State :=
  let s := countN s .tlyLaneStall (laneClashes (new.map (·.node)))
  match lastList s, sameAc s with
  | some (j, old), (true, s) =>
    let (ops, stalls) := if i < j then joinLists new old else joinLists old new
    let first := s.tly.ops.take (s.tly.ops.length - old.length)
    countN { s with tly.ops := first ++ ops, tly.last := none } .tlyLaneStall stalls
  | _, (_, s) => { s with tly.ops := s.tly.ops ++ new, tly.last := some (i, new) }

/-- The expander reads the list at an entry's cursor: local entries are merged and go to their lanes, remote entries to
FAB, and the cursor advances (R85). `i` is the entry's place in the table; `later` puts the advanced entry back. -/
def expandList (s : State) (i : Nat) (e : ExpEntry) (later : ExpEntry → State → State) : State :=
  let list := match e.next with
    | none => (nd s e.node).succs
    | some b => (nd s b).succs
  let next := match e.next with
    | none => (nd s e.node).succNext
    | some b => (nd s b).succNext
  let p := partOr0 s e.node
  let merged := mergeSuccs (list.filter fun x => !x.remote)
  let src := expSrc s e
  let s := emitOps s i (merged.map fun x => { node := x.1, w := x.2.1, n := x.2.2, src := src, also := [] })
  let s := (list.filter (·.remote)).foldl (fun s x => fabSubmit (count s .tlyRemoteOut) (decHdr s p x) .tly) s
  if next = Config.noNode then s else later { e with next := some next } s

/-- The expander reads the successor list of expansion entry `i` (R85): from the cache, or it parks on a miss once the miss
buffer has a place. List reads and lane operations are the accesses that GRS_HIT_CNT and GRS_MISS_CNT count.
(DESIGN CHOICE, log entry 85). -/
def succListRead (s : State) (i : Nat) (hit : Bool) : State :=
  if s.tly.stopped then s
  else match takeAt s.tly.exp i with
  | none => s
  | some (e, rest) =>
    if e.parked then s
    else if hit then
      expandList (count { s with tly.exp := rest } .grsHit) i e fun e' s =>
        { s with tly.exp := s.tly.exp.take i ++ e' :: s.tly.exp.drop i }
    else if !missCredit s (partOr0 s e.node) then s
    else
      let parked := s.tly.exp.take i ++ { e with parked := true } :: s.tly.exp.drop (i + 1)
      count { s with tly.exp := parked, tly.miss := s.tly.miss ++ [.list e] } .grsMiss

/-- A parked operation's Slate read returns (R85). -/
def missReturn (s : State) (i : Nat) : State :=
  match takeAt s.tly.miss i with
  | none => s
  | some (m, rest) =>
    let s := { s with tly.miss := rest }
    match m with
    | .lane op => applyDec s op
    | .list e =>
      let s := { s with tly.exp := (takeFirst (· == { e with parked := true }) s.tly.exp).elim s.tly.exp (·.2) }
      expandList s s.tly.exp.length e fun e' s => { s with tly.exp := s.tly.exp ++ [e'] }

/-! ### Lanes (R84, R86, R88) -/

/-- Lane `k`: node handles whose low five bits are `k`. -/
def inLane (k : Nat) (op : LaneOp) : Bool := op.node % 32 == k

/-- Whether a lane operation is a switch, which EXIT_SWITCH performs. -/
def isSwitch (op : LaneOp) : Bool :=
  match op.src with
  | .switch _ => true
  | _ => false

/-- The first operation of lane `k` is performed, or parks on a miss once the miss buffer has a place (R84, R85, R87). -/
def tallyDecrement (s : State) (k : Nat) (hit : Bool) : State :=
  match takeFirst (inLane k) s.tly.ops with
  | none => s
  | some (op, rest) =>
    if isSwitch op then s
    else if hit then applyDec (count { s with tly.ops := rest } .grsHit) op
    else if !missCredit s (partOr0 s op.node) then s
    else count { s with tly.ops := rest, tly.miss := s.tly.miss ++ [.lane op] } .grsMiss

/-- The switch operation of deadline entry `g` reaches the front of EXIT's lane (R115). -/
def exitSwitch (s : State) (g : Nat) : State :=
  match s.tly.ops.find? (fun op => op.src == .switch g) with
  | none => s
  | some op =>
    match takeFirst (inLane (op.node % 32)) s.tly.ops with
    | some (x, rest) => if x == op then applySwitch { s with tly.ops := rest } op.node g else s
    | none => s

/-- TLY moves the oldest node of partition `p`'s backlog into the bead queue while the partition has a credit
(R86, R107). -/
def backlogMove (s : State) (p : Nat) : State :=
  match s.tly.backlog.look p with
  | [] => s
  | w :: rest =>
    if beadCredit s p && !s.tly.stopped then
      let s := { s with tly.backlog := s.tly.backlog.put p rest }
      if (nd s w.node).st == .ready && (nd s w.node).gen == w.gen then
        { s with dis.beads := s.dis.beads ++ [beadOf s w.node] }
      else s
    else s

/-- A remote decrement reaches TLY (R88): applied at its lane, behind the operations already there. FAB keeps it while
TLY's intake is closed to its partition (R87, R92). -/
def remoteDec (s : State) (h : FabHdr) : State :=
  let n := h.loc % 2 ^ 24
  if !intakeOpen s (partOr0 s n) then s
  else
    let op : LaneOp := { node := n, w := h.data.toNat % 256, n := 1, src := .remote h, also := [] }
    if s.tly.ops.any (inLane (n % 32)) then { s with tly.ops := s.tly.ops ++ [op] } else applyDec s op

end Sys2Proof.Machine
end

