-- ==== Sys2Proof/Machine/Dis.lean ====
section
/-!
DEFINITION. The Dispatcher (chapter 04): sharing, placement, slices, holds and drains, and the packets that agents
send it (R94–R113, R367). Cores are numbered agent × 16 + core.
-/

namespace Sys2Proof.Machine

open Sys2Proof

/-! ### Agents and capacity (R99–R101) -/

/-- An agent. -/
def agt (s : State) (a : Nat) : Agent := s.agt.look a

/-- Whether agent `a` takes nothing in: it is stopped, or the Slate takes no request (R141, R261). -/
def agtShut (s : State) (a : Nat) : Bool := (agt s a).stopped || s.slt.stopped

/-- An agent changed. -/
def updA (s : State) (a : Nat) (f : Agent → Agent) : State := { s with agt := s.agt.upd a f }

/-- Connected cores of an agent, ascending: those with an engine (AGT_STAT.CORES). -/
def coresOf (s : State) (a : Nat) : List Nat :=
  (List.range 16).filter fun k => bitsOf (agt s a).eng.toNat (4 * k + 3) (4 * k) != 0

/-- Agents that partition `p` may use, ascending (DIS_PART_AGENTS_p). -/
def partAgents (s : State) (p : Nat) : List Nat :=
  (List.range (agentCount s)).filter fun a => regBit s (0x400200 + 8 * p) a

/-- BEAD_SHARE of a partition. -/
def shareOf (s : State) (p : Nat) : Nat := regFld s (0x400100 + 8 * p) 7 0

/-- Whether a partition dispatches in pinned mode (R111). -/
def isPinned (s : State) (p : Nat) : Bool := regBit s (0x400100 + 8 * p) 8

/-- The four resources in the order of R99. -/
def resList (r : Res) : List Nat := [r.regs, r.lmem, r.groups, r.blocks]

/-- Sum of two resource vectors. -/
def addRes (a b : Res) : Res :=
  { regs := a.regs + b.regs, lmem := a.lmem + b.lmem, groups := a.groups + b.groups, blocks := a.blocks + b.blocks }

/-- Difference of two resource vectors, never below zero. -/
def subRes (a b : Res) : Res :=
  { regs := a.regs - b.regs, lmem := a.lmem - b.lmem, groups := a.groups - b.groups, blocks := a.blocks - b.blocks }

/-- A resource vector `n` times. -/
def scaleRes (n : Nat) (a : Res) : Res :=
  { regs := n * a.regs, lmem := n * a.lmem, groups := n * a.groups, blocks := n * a.blocks }

/-- What one block of a bead needs on a core. -/
def needOf (b : Bead) : Res := { regs := b.regs * b.groups, lmem := b.lmem, groups := b.groups, blocks := 1 }

/-- Use of a core by a partition. -/
def usedOf (s : State) (c p : Nat) : Res := s.dis.used.look (c * 16 + p)

/-- Reservation of partition `p` of one resource on core `c` (R100). -/
def reserved (s : State) (c p cap : Nat) : Nat :=
  if regBit s (0x400200 + 8 * p) (c / 16) then cap * shareOf s p / 256 else 0

/-- The fit test of R100 for one resource: the charge beyond the reservation, and whether the pool holds it. `i` picks
the resource. -/
def overOne (s : State) (c p i need : Nat) : Int × Int :=
  let cap := (resList (s.dis.cap.look c)).getD i 0
  let res := fun q => reserved s c q cap
  let use := fun q => (resList (usedOf s c q)).getD i 0
  let overs : Nat := ((List.range 16).map fun q => use q - res q).foldl (· + ·) 0
  let resSum : Nat := ((List.range 16).map res).foldl (· + ·) 0
  let excess := ((use p + need - res p : Nat) : Int) - ((use p - res p : Nat) : Int)
  (excess, (cap : Int) - resSum - overs)

/-- Whether a block that needs `need` fits partition `p` on core `c` (R100); `ownOnly` asks that nothing of its charge
falls on the pool (R110). -/
def fits (s : State) (c p : Nat) (need : Res) (ownOnly : Bool) : Bool :=
  ((List.range 4).zip (resList need)).all fun e =>
    let o := overOne s c p e.1 e.2
    decide (o.1 ≤ o.2) && (!ownOnly || o.1 == 0)

/-- Whether a core could hold one block with the core otherwise empty: reservation and pool as the limit (R101). -/
def fitsEmpty (s : State) (c p : Nat) (need : Res) : Bool :=
  ((List.range 4).zip (resList need)).all fun e =>
    let cap := (resList (s.dis.cap.look c)).getD e.1 0
    let others := ((List.range 16).filter (· != p)).foldl (fun a q => a + reserved s c q cap) 0
    decide (e.2 ≤ cap - others)

/-- A charge on a core. -/
def charge (s : State) (c p : Nat) (r : Res) : State :=
  { s with dis.used := s.dis.used.upd (c * 16 + p) fun u => addRes u r }

/-! ### Beads -/

/-- LAYER is class 4 (R65). -/
def isLayer (b : Bead) : Bool := b.cls == 4

/-- Whether two beads are one: node and generation. -/
def sameBead (a b : Bead) : Bool := a.node == b.node && a.gen == b.gen

/-- Head of a rod (R94). -/
def rodHead (s : State) (p cls pr : Nat) : Option Bead :=
  s.dis.beads.find? fun b => b.part == p && b.cls == cls && b.prio == pr

/-- A bead leaves its rod. -/
def dropBead (s : State) (b : Bead) : State := { s with dis.beads := s.dis.beads.filter fun x => !sameBead x b }

/-- A bead of a graph whose launch has another generation is stale (R107). -/
def staleBead (s : State) (b : Bead) : Bool := b.graph != Config.noNode && (nd s b.graph).gen != b.gen

/-- A bead of a group whose entry's switched bit is set is skipped (R117). -/
def skipBead (s : State) (b : Bead) : Bool :=
  b.dlGroup != 0 && b.graph != Config.noNode && (s.pdm.dl.look b.dlGroup).switched &&
    (s.pdm.dl.look b.dlGroup).main == b.graph

/-- Blocks of a pinned bead that fall to an agent without a connected core (R111). -/
def pinnedLost (s : State) (b : Bead) : Bool :=
  let l := partAgents s b.part
  let m := l.length
  if m = 0 then true
  else if isLayer b then (coresOf s (l.getD (b.node % m) 0)).isEmpty
  else
    let sl := max 1 (regFld s (0x400100 + 8 * b.part) 23 16)
    let lo := b.next / sl
    let hi := (b.blocks - 1) / sl
    (List.range (min m (hi + 1 - lo))).any fun j => (coresOf s (l.getD ((lo + j) % m) 0)).isEmpty

/-- An unplaceable bead (R101, R111), or one that the armed injection takes for it (R331). -/
def unplaceable (s : State) (b : Bead) : Bool :=
  let need := needOf b
  let ok := fun c => fitsEmpty s c b.part need
  let per := (partAgents s b.part).map fun a => ((List.range 16).filter fun k => ok (16 * a + k)).length
  (isPinned s b.part && pinnedLost s b) ||
  (if isLayer b then decide (16 < b.blocks) || !per.any (fun n => decide (b.blocks ≤ n)) else per.all (· == 0))

/-- Drains that keep a bead of a lower priority off the pool of agent `a` (R110). -/
def drained (s : State) (b : Bead) (a : Nat) : Bool :=
  s.dis.beads.any fun x => x.drain == some a && decide (b.prio < x.prio)

/-! ### Choosing and issuing (R102–R105, R111) -/

/-- What DIS does with a head it examines: a slice for an agent with the blocks of each core, nothing fits, or the head
waits for another reason. -/
inductive Choice where
  | slice (agent : Nat) (cores : List (Nat × Nat))
  | nofit
  | wait
  deriving DecidableEq, Repr, Inhabited

/-- Blocks granted on core `c`, one at a time, each charged before the next is tested (R103). `n` bounds the blocks. -/
def grantCore (s : State) (c : Nat) (b : Bead) (ownOnly : Bool) : Nat → Nat × State
  | 0 => (0, s)
  | n + 1 =>
    if fits s c b.part (needOf b) ownOnly then
      let (k, s) := grantCore (charge s c b.part (needOf b)) c b ownOnly n
      (k + 1, s)
    else (0, s)

/-- Blocks granted on the cores of an agent, core 0 first; a core that takes 255 blocks ends the slice (R103). -/
def grantCores (s : State) (a : Nat) (b : Bead) (ownOnly : Bool) : List Nat → Nat → List (Nat × Nat)
  | [], _ => []
  | k :: r, left =>
    if left = 0 then []
    else
      let (n, s) := grantCore s (16 * a + k) b ownOnly (min 255 left)
      if n = 0 then grantCores s a b ownOnly r left
      else if n = 255 then [(k, n)]
      else (k, n) :: grantCores s a b ownOnly r (left - n)

/-- SLICE_MAX; 0 acts as 1. -/
def sliceMax (s : State) : Nat := max 1 (regFld s 0x400000 23 16)

/-- The blocks of a pinned slice from block `i`: each on its fixed core, until one lacks room, belongs to another
agent, or a limit is reached (R111). -/
def grantPinned (s : State) (a : Nat) (cores : List Nat) (b : Bead) (sl m own : Nat) (ownOnly : Bool) :
    Nat → Nat → Tab Nat → Tab Nat
  | 0, _, t => t
  | n + 1, i, t =>
    let k := cores.getD (i % cores.length) 0
    if b.blocks ≤ i ∨ i / sl % m ≠ own ∨ 255 ≤ t.look k then t
    else if fits s (16 * a + k) b.part (needOf b) ownOnly then
      grantPinned (charge s (16 * a + k) b.part (needOf b)) a cores b sl m own ownOnly n (i + 1) (t.upd k (· + 1))
    else t

/-- Whether the Reckoner of an agent may take a layer: idle as DIS counts it, and neither held nor loading
(R102, R142, R143). -/
def rknFree (s : State) (a : Nat) : Bool :=
  !s.dis.rknBusy.look a && !(agt s a).held && (agt s a).rkn.st != .loading

/-- Cores of an agent on which a layer's block fits, lowest first. -/
def layerCores (s : State) (a : Nat) (b : Bead) : List Nat :=
  (List.range 16).filter fun k => fits s (16 * a + k) b.part (needOf b) (drained s b a)

/-- Agents of a partition from its class's rotating pointer onwards, with wrap-around (R102). -/
def agentOrder (s : State) (b : Bead) : List Nat :=
  let ptr := s.dis.agentPtr.look (8 * b.part + b.cls)
  let l := partAgents s b.part
  l.filter (fun a => decide (ptr ≤ a)) ++ l.filter (fun a => decide (a < ptr))

/-- What one agent can take of a bead now. -/
def offer (s : State) (b : Bead) (a : Nat) : List (Nat × Nat) :=
  if isLayer b then
    let l := layerCores s a b
    if rknFree s a && decide (b.blocks ≤ l.length) then (l.take b.blocks).map fun k => (k, 1) else []
  else grantCores s a b (drained s b a) (List.range 16) (min (sliceMax s) (b.blocks - b.next))

/-- The choice for a head in a pinned partition (R111). -/
def choosePinned (s : State) (b : Bead) (sent : Nat → Bool) : Choice :=
  let l := partAgents s b.part
  let m := l.length
  if isLayer b then
    let a := l.getD (b.node % m) 0
    let cores := (coresOf s a).take b.blocks
    if decide (cores.length = b.blocks) && rknFree s a &&
        cores.all (fun k => fits s (16 * a + k) b.part (needOf b) (drained s b a)) then
      .slice a (cores.map fun k => (k, 1))
    else .nofit
  else
    let sl := max 1 (regFld s (0x400100 + 8 * b.part) 23 16)
    let own := b.next / sl % m
    let a := l.getD own 0
    if sent a then .wait
    else
      let t := grantPinned s a (coresOf s a) b sl m own (drained s b a) (sliceMax s) b.next []
      if t.isEmpty then .nofit else .slice a t

/-- The choice for a head: the first candidate agent (R102), or the fixed one (R111). `sent` names the agents that have
had a slice of this bead in this ac (R103). -/
def choose (s : State) (b : Bead) (sent : Nat → Bool) : Choice :=
  if isPinned s b.part then choosePinned s b sent
  else
    let cand := (agentOrder s b).filter fun a => !(offer s b a).isEmpty
    match cand.find? (fun a => !sent a) with
    | some a => .slice a (offer s b a)
    | none => if cand.isEmpty then .nofit else .wait

/-- Blocks of a slice. -/
def sliceBlocks (l : List (Nat × Nat)) : Nat := l.foldl (fun a e => a + e.2) 0

/-- Whether the slice table has an entry for a newly split bead of partition `p` (R104). -/
def sliceCredit (s : State) (p : Nat) : Bool :=
  decide (s.dis.slices.length < 4096) && hasCredit (s.dis.slices.map (·.part)) 128 2048 p

/-- A slice is charged and sent as a launch flit (R102–R105, R112). -/
def issueSlice (s : State) (b : Bead) (a : Nat) (cores : List (Nat × Nat)) : State :=
  let p := b.part
  let n := if isLayer b then b.blocks else sliceBlocks cores
  let whole := isLayer b || (b.next == 0 && n == b.blocks)
  let last := isLayer b || b.next + n == b.blocks
  let s := cores.foldl (fun s e => charge s (16 * a + e.1) p (scaleRes e.2 (needOf b))) s
  let l : Launch := {
    cls := b.cls, retTo := !whole, pinned := isPinned s p, part := p, node := b.node, gen := b.gen,
    firstBlock := if isLayer b then 0 else b.next, arg := b.arg, kdesc := b.kdesc, regs := b.regs, groups := b.groups,
    lmem := b.lmem, blocks := b.blocks,
    coreBlocks := (List.range 16).map fun k => ((cores.find? (·.1 == k)).map (·.2)).getD 0, params := b.params }
  let ent : SliceEnt := { node := b.node, gen := b.gen, part := p, outstanding := 1, allIssued := last, halted := false,
                          peerClosed := false, drops := 0 }
  let mine := fun (e : SliceEnt) => e.node == b.node && e.gen == b.gen
  let slices := if whole then s.dis.slices
    else if b.split then
      s.dis.slices.map fun e => if mine e then { e with outstanding := e.outstanding + 1, allIssued := last } else e
    else s.dis.slices ++ [ent]
  let b' := { b with next := b.next + n, fails := 0, held := false, drain := none, split := !whole }
  let beads := if last then s.dis.beads.filter (fun x => !sameBead x b)
    else s.dis.beads.map fun x => if sameBead x b then b' else x
  let run : Running := { node := b.node, gen := b.gen, graph := b.graph, part := p, cls := b.cls, agent := a,
                         aborted := false }
  let s := { s with
    dis.slices := slices,
    dis.beads := beads,
    dis.running := s.dis.running ++ [run],
    dis.agentPtr := if isPinned s p then s.dis.agentPtr
                    else s.dis.agentPtr.put (8 * p + b.cls) ((a + 1) % agentCount s),
    dis.rknBusy := if isLayer b then s.dis.rknBusy.put a true else s.dis.rknBusy }
  let s := updN s b.node fun r => if r.st == .ready then { r with st := .issued } else r
  let s := progress (pageCount (count s .disDispatch) p 1 1) (queueOfNode s b.node)
  let counted := !isPinned s p && regBit s 0xe00030 p
  let s := if counted then detReport s p 1 b.node b.node 0 else s
  let bits := cores.foldl (fun x e => x + 2 ^ e.1) 0
  let s := trRecord s { type := 2, part := p, cls := b.cls, gen := b.gen.toNat, node := b.node, sub := a, ts := s.ts,
                        arg1 := BitVec.ofNat 64 (l.firstBlock + n * 2 ^ 32), arg2 := bits + b2n counted * 2 ^ 16 }
  emit s (.launch a l)

/-! ### One ac (R96–R98, R107, R109, R361, R367) -/

/-- What DIS has done so far in an ac: the slots filled, the stale and skipped heads removed, the agents that had a
slice of each bead, and the beads found not to fit. -/
structure AcWork where
  s : State
  slots : Nat
  removed : Nat
  sent : List (Nat × BitVec 16 × Nat)
  failed : List (Nat × BitVec 16)
  deriving DecidableEq, Repr, Inhabited

/-- A skipped bead retires without carry (R81, R117). -/
def skipNode (s : State) (b : Bead) : State :=
  count (noteRetired (dropBead s b) b.node .done 0 true) .pdmSkip

/-- One rod is examined for a slot: stale and skipped heads go, up to 8 in the ac, unplaceable ones go, and the first
remaining head is issued, or fails, or waits. `fuel` bounds the heads. -/
def examineRod : Nat → AcWork → Nat → Nat → Nat → AcWork × Bool
  | 0, w, _, _, _ => (w, false)
  | fuel + 1, w, p, cls, pr =>
    match rodHead w.s p cls pr with
    | none => (w, false)
    | some b =>
      if staleBead w.s b then
        if 8 ≤ w.removed then (w, false)
        else examineRod fuel { w with s := count (dropBead w.s b) .disStaleBead, removed := w.removed + 1 } p cls pr
      else if skipBead w.s b then
        if 8 ≤ w.removed then (w, false)
        else examineRod fuel { w with s := skipNode w.s b, removed := w.removed + 1 } p cls pr
      else if injPart w.s 0x0601 p then
        examineRod fuel { w with s := raiseInj (injFire (count (dropBead w.s b) .disNofit)) 0x0601 .up p b.node true }
          p cls pr
      else if unplaceable w.s b then
        examineRod fuel { w with s := raise (count (dropBead w.s b) .disNofit) 0x0601 .up p b.node } p cls pr
      else match choose w.s b (fun a => w.sent.contains (b.node, b.gen, a)) with
        | .slice a cores =>
          let n := sliceBlocks cores
          let splits := !isLayer b && !b.split && n != b.blocks
          if splits && !sliceCredit w.s p then (w, false)
          else ({ w with s := issueSlice w.s b a cores, slots := w.slots + 1,
                         sent := (b.node, b.gen, a) :: w.sent }, true)
        | .nofit => ({ w with failed := (b.node, b.gen) :: w.failed }, false)
        | .wait => (w, false)

/-- The classes of one priority, from the class pointer onwards (R97). -/
def examineClasses (w : AcWork) (p pr : Nat) : List Nat → AcWork × Bool
  | [] => (w, false)
  | cls :: r =>
    let (w, ok) := examineRod (w.s.dis.beads.length + 1) w p cls pr
    if ok then
      let d := { w.s with dis.clsPtr := w.s.dis.clsPtr.put (16 * p + pr) ((cls + 1) % 5) }
      ({ w with s := d }, true)
    else examineClasses w p pr r

/-- The priorities from `n − 1` down to the lowest that a hold of the partition leaves (R97, R98). -/
def examinePart (w : AcWork) (p : Nat) : Nat → AcWork × Bool
  | 0 => (w, false)
  | pr + 1 =>
    if w.s.dis.beads.any (fun b => b.part == p && b.held && decide (pr < b.prio)) then (w, false)
    else
      let ptr := w.s.dis.clsPtr.look (16 * p + pr)
      let (w, ok) := examineClasses w p pr ((List.range 5).map fun i => (ptr + i) % 5)
      if ok then (w, true) else examinePart w p pr

/-- Whether DIS may dispatch for a partition (R109, R333). -/
def partOpen (s : State) (p : Nat) : Bool := !regBit s 0x500000 p && !s.flt.discarding.look p

/-- Slots that metering leaves (R367). -/
def tokens (s : State) : Nat := s.dis.meter / 1024

/-- Whether a further slot may be filled in this ac. -/
def slotLeft (w : AcWork) : Bool := decide (w.slots < 8) && decide (0 < tokens w.s)

/-- A filled slot spends a token. -/
def spendToken (w : AcWork) : AcWork :=
  let d := { w.s with dis.meter := w.s.dis.meter - 1024 }
  { w with s := d }

/-- One round of the share phase: each partition with 32 credits and an eligible bead takes a slot and pays 32
(R96). The Bool says whether any slot was filled. -/
def shareRound (w : AcWork) : List Nat → AcWork × Bool
  | [] => (w, false)
  | p :: r =>
    if slotLeft w && decide (32 ≤ w.s.dis.credit.look p) && partOpen w.s p then
      let (w, ok) := examinePart w p 16
      if ok then
        let d := { w.s with dis.credit := w.s.dis.credit.upd p (· - 32) }
        ((shareRound (spendToken { w with s := d }) r).1, true)
      else shareRound w r
    else shareRound w r

/-- One round of the spare phase: any partition with an eligible bead takes a slot (R96). -/
def spareRound (w : AcWork) : List Nat → AcWork × Bool
  | [] => (w, false)
  | p :: r =>
    if slotLeft w && partOpen w.s p then
      let (w, ok) := examinePart w p 16
      if ok then ((spareRound (spendToken w) r).1, true) else spareRound w r
    else spareRound w r

/-- Rounds until none fills a slot. -/
def rounds (f : AcWork → List Nat → AcWork × Bool) (l : List Nat) : Nat → AcWork → AcWork
  | 0, w => w
  | n + 1, w =>
    let (w, ok) := f w l
    if ok then rounds f l n w else w

/-- Rise of a partition's slot credit in an ac (R96, R367). -/
def creditRise (s : State) (p : Nat) : Nat :=
  if s.mgt.rate < 8192 then shareOf s p * s.mgt.rate / 8192 else shareOf s p

/-- One ac of the dispatcher (R96). -/
def dispatchCycle (s : State) : State :=
  if s.dis.stopped || !isReady s then s
  else
    let order := (List.range 16).map fun i => (s.dis.ptr + i) % 16
    let s := { s with
      dis.credit := (List.range 16).foldl (fun t p => t.upd p fun c => min 256 (c + creditRise s p)) s.dis.credit,
      dis.meter := min 8192 (s.dis.meter + s.mgt.rate),
      dis.ptr := (s.dis.ptr + 1) % 16 }
    if 0 < s.dis.droop then { s with dis.droop := s.dis.droop - 1 }
    else
      let w : AcWork := { s := s, slots := 0, removed := 0, sent := [], failed := [] }
      let w := rounds spareRound order 9 (rounds shareRound order 9 w)
      let issued := fun (b : Bead) => w.sent.any fun x => x.1 == b.node && x.2.1 == b.gen
      let beads := w.s.dis.beads.map fun b =>
        if w.failed.contains (b.node, b.gen) && !issued b then { b with fails := b.fails + 1 } else b
      { w.s with dis.beads := beads }

/-- HOLD_AC; 0 acts as 1. -/
def holdAc (s : State) : Nat := max 1 (regFld s 0x400000 15 0)

/-- The agents that may take the next blocks of a bead: in a pinned partition the one that R111 fixes. -/
def mayTake (s : State) (b : Bead) : List Nat :=
  let l := partAgents s b.part
  if !isPinned s b.part then l
  else if isLayer b then (l.drop (b.node % l.length)).take 1
  else (l.drop (b.next / max 1 (regFld s (0x400100 + 8 * b.part) 23 16) % l.length)).take 1

/-- The drain target of a held bead: the lowest agent of its partition that could take it empty (R110). -/
def drainTarget (s : State) (b : Bead) : Option Nat :=
  (mayTake s b).find? fun a =>
    let n := ((List.range 16).filter fun k => fitsEmpty s (16 * a + k) b.part (needOf b)).length
    if isLayer b then decide (b.blocks ≤ n) else decide (0 < n)

/-- The first rod head of partition `p` that has failed its fit in HOLD_AC examined ac holds the partition, and starts
a drain from PRE_PRIO on (R98, R110). -/
def holdStart (s : State) (p : Nat) : State :=
  if s.dis.stopped then s else
  let head := fun (b : Bead) => rodHead s p b.cls b.prio == some b
  match s.dis.beads.find? fun b => b.part == p && !b.held && decide (holdAc s ≤ b.fails) && head b with
  | none => s
  | some b =>
    let s := count s .disHold
    let target := if regFld s 0x400000 27 24 ≤ b.prio then drainTarget s b else none
    let s := if target.isSome then count s .disDrain else s
    let beads := s.dis.beads.map fun x => if sameBead x b then { x with held := true, drain := target } else x
    { s with dis.beads := beads }

/-! ### What agents report (R99, R104, R108) -/

/-- Whether agent `a` still has a launch of node `n` and generation `gen`: a TASK launch, one of its blocks, or a
layer. -/
def agentHolds (s : State) (a n : Nat) (gen : BitVec 16) : Bool :=
  let x := agt s a
  x.tasks.any (fun t => t.l.node == n && t.l.gen == gen) || x.blocks.any (fun b => b.node == n && b.gen == gen) ||
    x.rkn.launch.any fun l => l.node == n && l.gen == gen

/-- Whether a packet under way is a launch of node `n` and generation `gen` to agent `a`, or a return of its occupancy. -/
def ofSlice (a n : Nat) (gen : BitVec 16) : Out → Bool
  | .launch b l => b == a && l.node == n && l.gen == gen
  | .occ b _ m g => b == a && m == n && g == gen
  | _ => false

/-- Whether an aborted slice has returned its occupancy: its agent holds nothing more of it, and neither its launch nor a
return of it is under way (R108). -/
def sliceOver (s : State) (r : Running) : Bool :=
  r.aborted && !agentHolds s r.agent r.node r.gen && !s.beam.any (ofSlice r.agent r.node r.gen)

/-- A held Reckoner that does not run enters LOADING (R143). -/
def enterLoading (s : State) (a : Nat) : State :=
  if (agt s a).held ∧ (agt s a).rkn.st = .idle ∧ !s.dis.rknBusy.look a then
    updA s a fun x => { x with rkn.st := .loading }
  else s

/-- An occupancy return (R99, R102): the charge is credited, a Reckoner that ended is free and, where a load holds it, enters LOADING
(R143), and the aborted slices that have returned everything are over (R108). -/
def occReturn (s : State) (a : Nat) (k : OccPkt) : State :=
  if s.dis.stopped then s else
  let run := s.dis.running.filter fun r => !sliceOver s r
  enterLoading { s with
    dis.used := s.dis.used.upd ((16 * a + k.core) * 16 + k.part) fun u => subRes u k.res,
    dis.rknBusy := if k.rknFree then s.dis.rknBusy.put a false else s.dis.rknBusy,
    dis.running := run } a

/-- A capacity report (R99). -/
def capReport (s : State) (a : Nat) (k : OccPkt) : State :=
  if s.dis.stopped then s else { s with dis.cap := s.dis.cap.put (16 * a + k.core) k.res }

/-- RESULT of the merged retirement (R104). -/
def mergedResult (e : SliceEnt) : RetResult := if e.halted then .halted else if e.peerClosed then .peerClosed else .done

/-- A slice retirement reaches DIS and is merged; the node's retirement follows the last slice (R104). -/
def sliceRetire (s : State) (a n : Nat) (gen : BitVec 16) (res : RetResult) (drops : Nat) : State :=
  if s.dis.stopped then s else
  let mine := fun (e : SliceEnt) => e.node == n && e.gen == gen
  match s.dis.slices.find? mine with
  | none => s
  | some e =>
    let run := (takeFirst (fun (r : Running) => r.node == n && r.gen == gen && r.agent == a && !r.aborted)
      s.dis.running).elim s.dis.running (·.2)
    let s := progress { s with dis.running := run } (queueOfNode s n)
    let e := { e with outstanding := e.outstanding - 1, halted := e.halted || res == .halted,
                      peerClosed := e.peerClosed || res == .peerClosed, drops := min (e.drops + drops) (2 ^ 32 - 1) }
    if e.allIssued && e.outstanding == 0 then
      let l := s.dis.slices.filter fun e => !mine e
      emit { s with dis.slices := l } (.merged n gen (mergedResult e) e.drops)
    else
      let l := s.dis.slices.map fun x => if mine x then e else x
      { s with dis.slices := l }

/-- Whether a task or slice of partition `p` is issued (R109, PDM_PART_STAT.DRAINED, R50). -/
def issuedOf (s : State) (p : Nat) : Bool := s.dis.running.any fun r => r.part == p && !sliceOver s r

/-- DIS reports the last occupancy of a discarded launch returned (R90, R108). -/
def drainEnd (s : State) (h : Nat) : State :=
  let r := nd s h
  if r.kind == .graph && r.hdr.lstate == .draining
      && !(s.dis.running.any fun x => x.graph == h && x.aborted && !sliceOver s x) then
    nextLaunch { s with dis.running := s.dis.running.filter fun x => !(x.graph == h && x.aborted) } h
  else s

end Sys2Proof.Machine
end

