-- ==== Sys2Proof/Machine/Pdm.lean ====
section
/-!
DEFINITION. The Partition and Deadline Manager: switch points of deadline entries (R115) and the continuous-batching
tables (R119–R122).
-/

namespace Sys2Proof.Machine

open Sys2Proof

/-! ### Switch points (R115) -/

/-- Whether FALLBACK can be started: LOADED with a launch-table entry free, or ACTIVE with a pending place free. Behind a
reservation of a LOADED graph's entry, the further ones are of its pending places. -/
def fallbackFree (s : State) (h : Nat) : Bool :=
  let r := nd s h
  (r.hdr.lstate == .loaded && (if reservedFor s h = 0 then tableFree s else decide (reservedFor s h ≤ 4))) ||
    (r.hdr.lstate == .active && decide (r.hdr.pend.length + reservedFor s h < 4))

/-- Whether a waiting item is the switch of deadline entry `g`. -/
def isSwitchOf (g : Nat) : TlyItem → Bool
  | .dec op => op.src == .switch g
  | .carry _ => false

/-- The timestamp has reached the switch point of armed entry `g`: PDM reserves the fall-back and sends a switch to
EXIT, or abandons it (R115). -/
def switchPoint (s : State) (g : Nat) : State :=
  let d := s.pdm.dl.look g
  if !d.armed || decide (s.ts < d.at_) || s.pdm.stopped || s.tly.ops.any (fun op => op.src == .switch g)
      || s.tly.wait.any (fun i => isSwitchOf g i) then s
  else
    let fb := (tpl s d.fallback).header
    let x := d.exit_
    if fallbackFree s fb then
      tlyOffer { s with grs.reserved := s.grs.reserved ++ [fb] } (.dec { node := x, w := 0, n := 0, src := .switch g, also := [] })
    else
      let s := { s with pdm.dl := s.pdm.dl.upd g fun d => { d with armed := false } }
      trRecord (count s .pdmFbBusy)
        { type := 4, part := partOr0 s x, cls := 0, gen := (nd s x).gen.toNat, node := x, sub := g, ts := s.ts,
          arg1 := BitVec.ofNat 64 d.fallback, arg2 := 1 }

/-! ### Batching tables (R119–R122) -/

/-- Address of PDM_BT_CFG_b; PDM_BT_CB_b stands 8 above. -/
def btAddr (b : Nat) : Nat := 0x502000 + 32 * b

/-- Fields of table `b`. -/
def btPart (s : State) (b : Nat) : Nat := regFld s (btAddr b) 7 4
def btLimit (s : State) (b : Nat) : Nat := 2 ^ min 8 (regFld s (btAddr b) 11 8)
def btJoin (s : State) (b : Nat) : Nat := 2 ^ regFld s (btAddr b) 15 12
def btLeave (s : State) (b : Nat) : Nat := 2 ^ regFld s (btAddr b) 19 16
def btTpl (s : State) (b : Nat) : Nat := regFld s (btAddr b) 41 32
def btCb (s : State) (b : Nat) : Nat := regFld s (btAddr b + 8) 39 0

/-- Slate address of an offset in the control area (R119). -/
def btAt (s : State) (b o : Nat) : Nat := dataBase s (btPart s b) + btCb s b + o

/-- A batching table. -/
def bt (s : State) (b : Nat) : BatchTable := s.pdm.bt.look b

/-- A batching table changed. -/
def updBt (s : State) (b : Nat) (f : BatchTable → BatchTable) : State := { s with pdm.bt := s.pdm.bt.upd b f }

/-- A word of the control area. -/
def btWord (s : State) (b o : Nat) : Nat := (memWord s (btAt s b o)).toNat

/-- Bytes of the control area written; the part of a bad block is not (R251). -/
def btPut (s : State) (b o : Nat) (x : Bytes) : State := (writeAt s (btAt s b o) x).1

/-- A word of the control area written. -/
def btSet (s : State) (b o v : Nat) : State := btPut s b o (leBytes 8 v)

/-- What PDM meets on its way to the control area's words, if anything: an area outside the data region, or an uncorrectable block
under the words (R248, R253). -/
def btFault (s : State) (b : Nat) : Option State :=
  match partRange s (btPart s b) (btCb s b) (0x2000 + btJoin s b * 16 + btLeave s b * 16) with
  | some s => some s
  | none => (badRange s (btAt s b 0) 0x50).map fun k => badRead s (.data (btPart s b) (btCb s b)) k

/-- A 16 B entry: TYPE, SLOT, SEQ_ID and ARG (chapter 04). -/
def btEntry (type slot seqId : Nat) (arg : W64) : Bytes :=
  leBytes 1 type ++ leBytes 1 slot ++ [0, 0] ++ leBytes 4 seqId ++ leBytes 8 arg.toNat

/-- Slots in use: active ones and held leaves. -/
def slotUsed (t : BatchTable) (i : Nat) : Bool := (t.slots.look i).active || (t.slots.look i).leaving != 0

/-- Active slots of a table, ascending. -/
def activeSlots (s : State) (b : Nat) : List Nat :=
  (List.range (btLimit s b)).filter fun i => (bt s b).slots.look i |>.active

/-- Slot `i` leaves with a record of `type`, or is held where the leave ring is full (R120). -/
def btLeaves (s : State) (b i type : Nat) : State :=
  let x := (bt s b).slots.look i
  let tail := btWord s b 0x10
  let size := btLeave s b
  if size ≤ (tail + 2 ^ 64 - btWord s b 0x18) % 2 ^ 64 then
    let s := if x.leaving = 0 then count s .pdmBtErr else s
    updBt s b fun t => { t with slots := t.slots.upd i fun y => { y with active := false, leaving := type } }
  else
    let o := 0x2000 + btJoin s b * 16 + tail % size * 16
    let s := btPut s b o (btEntry type i x.seqId x.arg)
    let s := btSet s b 0x10 ((tail + 1) % 2 ^ 64)
    updBt (count s .pdmBtLeave) b fun t => { t with slots := t.slots.put i default }

/-- Step 1 of R120: held leaves and the slots that LEAVE_MAP names, in ascending slot order. -/
def btStep1 (s : State) (b : Nat) : State :=
  let map := leNat (memRead s (btAt s b 0x20) 32)
  let s := btPut s b 0x20 (List.replicate 32 0)
  (List.range (btLimit s b)).foldl (fun s i =>
    let x := (bt s b).slots.look i
    if x.leaving ≠ 0 then btLeaves s b i x.leaving
    else if x.active && bitOf map i then btLeaves s b i 1
    else s) s

/-- Step 2 of R120: the join entries from `head`, at most `n` of them; the answer is the new JOIN_HEAD. An entry in an
uncorrectable block ends it (R253). -/
def btStep2 (b : Nat) : Nat → State → Nat → State × Nat
  | 0, s, head => (s, head)
  | n + 1, s, head =>
    match badRange s (btAt s b (0x2000 + head % btJoin s b * 16)) 16 with
    | some k => (badRead s (.data (btPart s b) (btCb s b)) k, head)
    | none =>
    let e := memRead s (btAt s b (0x2000 + head % btJoin s b * 16)) 16
    let type := Bytes.fld e 0 0 2
    let seqId := Bytes.fld e 4 0 32
    let arg := BitVec.ofNat 64 (Bytes.fld e 8 0 64)
    let next := (head + 1) % 2 ^ 64
    let mine := (List.range (btLimit s b)).find? fun i =>
      ((bt s b).slots.look i).active && ((bt s b).slots.look i).seqId == seqId
    let bad := fun (s : State) => btStep2 b n (count s .pdmBtErr) next
    if type = 1 then
      match mine with
      | some _ => bad s
      | none =>
        match (List.range (btLimit s b)).find? fun i => !slotUsed (bt s b) i with
        | none => (s, head)
        | some i =>
          let s := updBt (count s .pdmBtJoin) b fun t =>
            { t with slots := t.slots.put i { active := true, seqId := seqId, arg := arg, leaving := 0 } }
          btStep2 b n s next
    else if type = 2 then
      match mine with
      | some i => btStep2 b n (btLeaves s b i 2) next
      | none => bad s
    else bad s

/-- The source of a step launch (R120). -/
def stepSrc (b : Nat) : LaunchSrc :=
  { q := 0x1FFF, sqIdx := 0, internal := true, seq := 0, main := none, table := some b }

/-- Whether a step launch would be accepted (R72). -/
def stepRoom (s : State) (b : Nat) : Bool :=
  let h := (tpl s (btTpl s b)).header
  (nd s h).hdr.lstate != .loading && launchRoom s h

/-- The step template is launched with the STEP_LIST that stands (R120 step 5, R122). -/
def launchStep (s : State) (b : Nat) : State :=
  let h := (tpl s (btTpl s b)).header
  match startLaunch s h (BitVec.ofNat 64 (btCb s b + 0x1000)) (stepSrc b) with
  | some s => updBt s b fun t => { t with st := .stepping }
  | none => s

/-- A step boundary (R120). It waits while a step launch would find no room. (DEDUCED, log entry 31). -/
def stepBoundary (s : State) (b : Nat) : State :=
  if (bt s b).st != .boundary || s.pdm.stopped || s.slt.stopped || !stepRoom s b then s
  else match btFault s b with
  | some s => s
  | none =>
    let s := btStep1 s b
    let head := btWord s b 8
    let n := min (btJoin s b) ((btWord s b 0 + 2 ^ 64 - head) % 2 ^ 64)
    let (s, head) := btStep2 b n s head
    let s := btSet s b 8 head
    let (k, s) := freeNat s
    let s := setTag s (btAt s b 0x10) (k % 3) (blockId s) 0 31
    let act := activeSlots s b
    let s := ((List.range act.length).zip act).foldl (fun s e =>
      let x := (bt s b).slots.look e.2
      btPut s b (0x1000 + 16 * e.1) (btEntry 1 e.2 x.seqId x.arg)) s
    let s := btPut s b 0x48 (leBytes 2 act.length)
    let s := btSet s b 0x40 ((btWord s b 0x40 + 1) % 2 ^ 64)
    let s := updBt s b fun t => { t with listed := act.length, step := t.step + 1 }
    if act = [] then updBt s b fun t => { t with st := .idle } else launchStep s b

/-- An idle table reads JOIN_TAIL (R121). -/
def btPoll (s : State) (b : Nat) : State :=
  if (bt s b).st ≠ .idle ∨ s.pdm.stopped ∨ s.slt.stopped then s
  else match btFault s b with
  | some s => s
  | none => if btWord s b 0 = btWord s b 8 then s else updBt s b fun t => { t with st := .boundary }

/-- The checks of R121 on a table that is to be enabled. -/
def btChecks (s : State) (b : Nat) : Bool :=
  let t := tpl s (btTpl s b)
  let j := regFld s (btAddr b) 15 12
  let l := regFld s (btAddr b) 19 16
  t.valid && t.part == btPart s b && (nd s t.header).hdr.cplCount == 0 && decide (4 ≤ j ∧ j ≤ 12 ∧ 4 ≤ l ∧ l ≤ 12)
    && btCb s b % 4096 == 0 && inData s (btPart s b) (btCb s b) (0x2000 + btJoin s b * 16 + btLeave s b * 16)

/-- RW bits of PDM_BT_CFG beside EN. -/
def btCfgMask : Nat := 0x3FF000FFFF0

/-- A write of PDM_BT_CFG_b with the value `v` (the bytes without strobes keep theirs): EN and, while the table is OFF,
the other fields (R121, R122). EN = 1 on an interrupted table whose step launch finds no place is ignored and counted.
(DESIGN CHOICE, log entry 86). -/
def btCfgWrite (s : State) (b v : Nat) : State :=
  let old := (regGet s (btAddr b)).toNat
  let en := bitOf v 0
  let off := (bt s b).st == .off
  let new := if off then v &&& btCfgMask else old &&& btCfgMask
  let s0 := if !off && (v &&& btCfgMask) != (old &&& btCfgMask) then count s .pdmBtErr else s
  let s1 := regSet s0 (btAddr b) (BitVec.ofNat 64 (new + b2n en))
  if en && off then
    if !btChecks s1 b || ((bt s b).interrupted && !stepRoom s1 b) then count s .pdmBtErr
    else if (bt s b).interrupted then launchStep (updBt s1 b fun t => { t with interrupted := false }) b
    else updBt s1 b fun t => { t with st := .idle, stopping := false }
  else if en then updBt s1 b fun t => { t with stopping := false }
  else if (bt s b).st = .stepping then updBt s1 b fun t => { t with stopping := true }
  else updBt s1 b fun t => { t with st := .off }

/-- A write of PDM_BT_CB_b: only while the table is OFF. -/
def btCbWrite (s : State) (b v : Nat) : State :=
  let new := v % 2 ^ 40
  if (bt s b).st = .off then regSet s (btAddr b + 8) (BitVec.ofNat 64 new)
  else if new = btCb s b then s
  else count s .pdmBtErr

/-- A fault discards partition `p`: its tables that are not OFF turn OFF, and EN reads 0 (R122).
(DESIGN CHOICE, log entry 87). -/
def btDiscard (s : State) (p : Nat) : State :=
  (List.range 16).foldl (fun s b =>
    if btPart s b = p ∧ (bt s b).st ≠ .off then
      let s := regSetFld s (btAddr b) 0 0 0
      updBt (count s .pdmBtErr) b fun t =>
        { t with st := .off, interrupted := t.st == .stepping, stopping := false }
    else s) s

/-- PARTITION_RESET of partition `p`: its tables turn OFF and free their slots (R122). -/
def btReset (s : State) (p : Nat) : State :=
  (List.range 16).foldl (fun s b =>
    if btPart s b = p ∧ ((bt s b).st ≠ .off ∨ (bt s b).interrupted ∨ (bt s b).slots ≠ []) then
      let s := regSetFld s (btAddr b) 0 0 0
      let s := if inData s p (btCb s b) 0x50 then
          btPut (btPut s b 0x48 [0, 0]) b 0x20 (List.replicate 32 0)
        else s
      updBt s b fun t => { t with st := .off, interrupted := false, slots := [], listed := 0, stopping := false }
    else s) s

end Sys2Proof.Machine
end

