-- ==== Sys2Proof/Machine/Cmb.lean ====
section
/-!
DEFINITION. The Combine Unit (chapter 09): groups, tally sets, addends, readouts and the end of a pass (R235–R240),
and the bytes of tiles.
-/

namespace Sys2Proof.Machine

open Sys2Proof

/-! ### Tiles -/

/-- Slate address of an offset of partition `p`. -/
def slateAt (s : State) (p : Nat) (o : W64) : Nat := dataBase s p + o.toNat

/-- Where an address of a tile in space `space` lies, as partition `p` sees it: at an offset of its own data region, in the
region of another partition, at a hall address of this block without a target, or outside what this block holds (R131, R264,
R265). -/
inductive TilePlace where
  | own (off : Nat)
  | other (q off : Nat)
  | noTarget
  | outside
  deriving DecidableEq, Repr, Inhabited

def tilePlace (s : State) (p space addr : Nat) : TilePlace :=
  if space = 1 then .own addr
  else if space = 2 ∧ addr / 2 ^ 52 = blockId s then
    match targetOf s (addr % 2 ^ 52) with
    | .data q o => if q = p then .own o else .other q o
    | .none => .noTarget
    | _ => .outside
  else .outside

/-- `w` bytes of a tile from an address: from this block's Slate, or `given` (R168, R265). -/
def tileRead (s : State) (p space addr w : Nat) (given : Bytes) : Bytes × State :=
  match tilePlace s p space addr with
  | .own o => readPart s p o w
  | .other q o => (List.replicate w 0, rangeResponse s p (dataBase s q + o) false)
  | .noTarget => (List.replicate w 0, raise s 0x1001 .up p (blockId s))
  | .outside => (given, s)

/-- The packed bytes of a tile, row by row: from the Slate, or as the request carries them. -/
def tileBytes (s : State) (p : Nat) (t : Tile) (data : Bytes) : Bytes × State :=
  let w := t.cols * elemSize t.fmt
  (List.range t.rows).foldl (fun a r =>
    let (b, s) := tileRead a.2 p t.space (t.base.toNat + r * t.stride) w (Bytes.slice data (r * w) w)
    (a.1 ++ b, s)) ([], s)

/-- The header of a WR_W of agent `a` for partition `p` at hall address `addr`. -/
def tileHdr (s : State) (a p addr : Nat) (data : W64) (mask : Nat) : FabHdr :=
  { op := 2, final := false, scope := 0, ord := false, srcPart := p, aop := 0, dstBlock := addr / 2 ^ 52, hops := 15,
    srcBlock := blockId s, srcAgent := a, srcUnit := 16, loc := addr % 2 ^ 52, data := data, cmp := 0, hallTag := 0, txn := 0,
    dcrc := 0, mask := BitVec.ofNat 32 mask, payload := [] }

/-- Bytes written at a hall address of another block, one aligned word after another with a byte mask each; how an agent
cuts them is not stated. (DESIGN CHOICE, log entry 89). -/
def hallWords (a p : Nat) : Nat → Nat → Bytes → State → State
  | 0, _, _, s => s
  | n + 1, addr, b, s =>
    if b = [] then s
    else
      let k := addr % 8
      let x := b.take (8 - k)
      let h := tileHdr s a p (addr - k) (BitVec.ofNat 64 (leNat x * 2 ^ (8 * k))) ((2 ^ x.length - 1) * 2 ^ k)
      hallWords a p n (addr - k + 8) (b.drop (8 - k)) (fabSubmit s h (.tile a))

/-- Bytes of a tile or a list written through agent `a` at an address: into this block's Slate, over the fabric, or into a
space that is not the block's (R168, R191, R231, R265). -/
def tileWrite (s : State) (a p space core addr : Nat) (b : Bytes) : State :=
  if b = [] then s
  else match tilePlace s p space addr with
  | .own o => writePart s p o b
  | .other q o => rangeResponse s p (dataBase s q + o) false
  | .noTarget => raise s 0x1001 .up p (blockId s)
  | .outside =>
    if space = 2 ∧ addr / 2 ^ 52 ≠ blockId s then hallWords a p (b.length / 8 + 2) addr b s
    else emit s (.tile a space core (BitVec.ofNat 64 addr) b)

/-- Elements of a byte string. `n` of them, `w` bytes each. -/
def elems (w : Nat) : Nat → Bytes → List Nat
  | 0, _ => []
  | n + 1, b => leNat (b.take w) :: elems w n (b.drop w)

/-! ### Combine groups (R235) -/

/-- Address of CMB_GRP_A_g; B, C and D stand 8 apart. -/
def grpAddr (g : Nat) : Nat := 0x910000 + 0x20 * g

/-- Fields of group `g`. -/
def grpOutFmt (s : State) (g : Nat) : Nat := regFld s (grpAddr g) 3 0
def grpStrict (s : State) (g : Nat) : Bool := regBit s (grpAddr g) 4
def grpResid (s : State) (g : Nat) : Bool := regBit s (grpAddr g) 5
def grpNotify (s : State) (g : Nat) : Bool := regBit s (grpAddr g) 6
def grpPart (s : State) (g : Nat) : Nat := regFld s (grpAddr g) 11 8
def grpCols (s : State) (g : Nat) : Nat := regFld s (grpAddr g) 31 16
def grpTokens (s : State) (g : Nat) : Nat := regFld s (grpAddr g) 55 32
def grpValid (s : State) (g : Nat) : Bool := regBit s (grpAddr g) 63
def grpOut (s : State) (g : Nat) : Nat := regFld s (grpAddr g + 8) 39 0
def grpResidual (s : State) (g : Nat) : Nat := regFld s (grpAddr g + 0x10) 39 0
def grpResFmt (s : State) (g : Nat) : Nat := regFld s (grpAddr g + 0x10) 43 40
def grpImages (s : State) (g : Nat) : Nat := regFld s (grpAddr g + 0x18) 39 0
def grpDoneNode (s : State) (g : Nat) : Nat := regFld s (grpAddr g + 0x18) 63 40

/-- A group's run-time state. -/
def grp (s : State) (g : Nat) : CmbGrp := s.cmb.grps.look g

/-- A group's run-time state changed. -/
def updG (s : State) (g : Nat) (f : CmbGrp → CmbGrp) : State := { s with cmb.grps := s.cmb.grps.upd g f }

/-- Bytes of a group's images and token records. -/
def grpBytes (s : State) (g : Nat) : Nat := grpTokens s g * grpCols s g * 128 + grpTokens s g * 4

/-- Slate address of a Long Sum image and of a token record. -/
def imageAt (s : State) (g i : Nat) : Nat := dataBase s (grpPart s g) + grpImages s g + i * 128
def recordAt (s : State) (g t : Nat) : Nat :=
  dataBase s (grpPart s g) + grpImages s g + grpTokens s g * grpCols s g * 128 + t * 4

/-- Offsets of a Long Sum image and of a token record in the data region of the group's partition. -/
def imageOff (s : State) (g i : Nat) : Nat := grpImages s g + i * 128
def recordOff (s : State) (g t : Nat) : Nat := grpImages s g + grpTokens s g * grpCols s g * 128 + t * 4

/-- The checks of R64 and R235 on a group that is to be VALID. -/
def grpChecks (s : State) (g : Nat) : Bool :=
  let p := grpPart s g
  let n := grpTokens s g * grpCols s g
  !(grpNotify s g && grpDoneNode s g == Config.noNode) && decide (n ≤ 2 ^ 30) && decide (grpOutFmt s g ≤ 3) && decide (grpResFmt s g ≤ 3) && grpImages s g % 256 == 0
    && grpOut s g % 256 == 0 && grpResidual s g % 256 == 0
    && inData s p (grpImages s g) (grpBytes s g)
    && inData s p (grpOut s g) (n * elemSize (grpOutFmt s g))
    && inData s p (grpResidual s g) (n * elemSize (grpResFmt s g))

/-- RW bits of the four registers of a group, VALID left out. -/
def grpMask (i : Nat) : Nat :=
  match i with
  | 0 => 0x00FFFFFFFFFF007F
  | 1 => 0x000000FFFFFFFFFF
  | 2 => 0x00000FFFFFFFFFFF
  | _ => 0xFFFFFFFFFFFFFFFF

/-- Whether CMB takes no new request: it is stopped, or the Slate takes none (R241, R261). -/
def cmbShut (s : State) : Bool := s.cmb.stopped || s.slt.stopped

/-- A write of the value `v` to register `i` of group `g` (R235): fields only while VALID is 0; a 1 in VALID starts
zeroing, a 0 disables an IDLE group. -/
def grpWrite (s : State) (g i v : Nat) : State :=
  let a := grpAddr g + 8 * i
  let old := (regGet s a).toNat
  let m := grpMask i
  let valid := grpValid s g
  let keep := old - (old &&& m)
  let vbit := if i = 0 then bitOf v 63 else valid
  if !valid then
    let s1 := regSet s a (BitVec.ofNat 64 (keep + (v &&& m)))
    if i = 0 && vbit then
      if grpChecks s1 g && (grp s g).st == .idle then
        updG (regSetFld s1 a 63 63 1) g fun x => { x with st := .zeroing, done := 0 }
      else count s .cmbCfgIgn
    else s1
  else
    let s := if (v &&& m) ≠ (old &&& m) then count s .cmbCfgIgn else s
    if vbit then s
    else if (grp s g).st = .idle then regSetFld s (grpAddr g) 63 63 0
    else count s .cmbCfgIgn

/-- Zeroing of a group ends (R235). -/
def zeroingDone (s : State) (g : Nat) : State :=
  if (grp s g).st = .zeroing ∧ !cmbShut s then
    let s := zeroPart s (grpPart s g) (imageOff s g 0) (grpBytes s g)
    updG s g fun x => { x with st := .idle, done := 0 }
  else s

/-! ### Token records and Long Sums (R236–R239) -/

/-- A token record: TALLY, ROUTED, DONE. -/
def tokRec (s : State) (g t : Nat) : Nat := leNat (memRead s (recordAt s g t) 4)

/-- A token record as CMB reads it from the Slate. -/
def tokRead (s : State) (g t : Nat) : Nat × State :=
  let (b, s) := unitRead s (grpPart s g) (recordOff s g t) 4
  (leNat b, s)

/-- A token record written. -/
def setTok (s : State) (g t tally : Nat) (routed done : Bool) : State :=
  unitWrite s (grpPart s g) (recordOff s g t) (leBytes 4 (tally % 2 ^ 24 + b2n routed * 2 ^ 24 + b2n done * 2 ^ 25))

/-- Long Sum `i` of a group, reloaded from its image: a non-zero reserved byte raises CMB_IMAGE (R220).
(DEDUCED, log entry 61). -/
def loadSum (s : State) (g i : Nat) : LongSum × State :=
  let (b, s) := unitRead s (grpPart s g) (imageOff s g i) 128
  let (l, ok) := lsOfImage b
  if injArmed s 0x0E01 (· == g) then (l, raiseInj (injFire s) 0x0E01 .up (grpPart s g) g true)
  else if ok then (l, s)
  else (l, raise s 0x0E01 .up (grpPart s g) g)

/-- One addend applied to Long Sum `i` of a group (R218). -/
def addend (s : State) (g i : Nat) (v : FVal) : State :=
  let (l, s) := loadSum s g i
  let (l, excess) := lsAdd l v
  let s := if excess then count s .cmbOvf else s
  count (unitWrite s (grpPart s g) (imageOff s g i) (lsImage l)) .cmbAddend

/-- Addends `v` applied to a token's Long Sums in column order. -/
def addRow (s : State) (g t : Nat) : Nat → List FVal → State
  | _, [] => s
  | c, v :: r => addRow (addend s g (t * grpCols s g + c) v) g t (c + 1) r

/-- The rounded elements of a token's row, with the counts of R209. -/
def roundRow (s : State) (g t : Nat) : Nat → Nat → Bytes × State
  | 0, _ => ([], s)
  | n + 1, c =>
    let (l, s) := loadSum s g (t * grpCols s g + c)
    let (x, sat, sn) := fmtEnc (grpOutFmt s g) (lsVal l) (grpStrict s g)
    let s := if sat then count s .cmbSat else s
    let s := if sn then count s .cmbStrictNan else s
    let (b, s) := roundRow s g t n (c + 1)
    (leBytes (elemSize (grpOutFmt s g)) x ++ b, s)

/-- Every token of the pass is DONE: the notice, cleared records, and the group IDLE (R237). -/
def passEnd (s : State) (g : Nat) : State :=
  let s := if grpNotify s g then pushNotice s (grpDoneNode s g) else s
  let s := (List.range (grpTokens s g)).foldl (fun s t =>
    setTok s g t (tokRec s g t % 2 ^ 24) false false) s
  updG s g fun x => { x with st := .idle, done := 0 }

/-- A token is read out: each Long Sum rounded once, the row written, the images zeroed (R237). -/
def readout (s : State) (g t : Nat) : State :=
  let n := grpCols s g
  let w := elemSize (grpOutFmt s g)
  let (b, s) := roundRow s g t n 0
  let s := writePart s (grpPart s g) (grpOut s g + t * n * w) b
  let s := zeroPart s (grpPart s g) (imageOff s g (t * n)) (n * 128)
  let s := setTok s g t 0 true true
  let s := updG (count s .cmbReadout) g fun x => { x with done := x.done + 1 }
  if (grp s g).done = grpTokens s g then passEnd s g else s

/-- A tally set for token `t` with `n` placed choices (R236). -/
def tallySet (s : State) (g t n : Nat) : State :=
  let (r, s) := tokRead s g t
  let s := if bitOf r 24 then count s .cmbUnder else s
  let s := setTok s g t n true false
  let s := if grpResid s g then
      let w := elemSize (grpResFmt s g)
      let c := grpCols s g
      let (b, s) := readPart s (grpPart s g) (grpResidual s g + t * c * w) (c * w)
      addRow s g t 0 ((elems w c b).map (fmtVal (grpResFmt s g)))
    else s
  if n = 0 then readout s g t else s

/-- TALLY of a routed token lowered by `n`: at zero the token reads out (R237, R239). -/
def tallyDown (s : State) (g t n : Nat) : State :=
  let y := tokRec s g t % 2 ^ 24
  let s := if y < n then count s .cmbUnder else s
  if y ≤ n then readout s g t else setTok s g t (y - n) true false

/-- Whether a row or a count for token `t` is stray: not ROUTED, or DONE. -/
def strayTok (r : Nat) : Bool := !bitOf r 24 || bitOf r 25

/-- One row of a CADD (R238): the Bool says that it was accepted. -/
def caddRow (s : State) (g word : Nat) (w : Option Nat) (row : List FVal) : State × Bool :=
  let t := word % 2 ^ 24
  if bitOf word 31 then (s, false)
  else
    let (r, s) := if t < grpTokens s g then tokRead s g t else (0, s)
    if bitsOf word 30 24 ≠ 0 ∨ grpTokens s g ≤ t ∨ strayTok r ∨ r % 2 ^ 24 = 0 ∨ (grp s g).st ≠ .opened then
      (count s .cmbStray, false)
    else
      let v := match w with
        | some x => row.map (mulVal (fmtVal 2 x))
        | none => row
      (tallyDown (count (addRow s g t 0 v) .cmbRow) g t 1, true)

/-- A CADD reaches CMB (R238): its rows in order, then the answer with the rows accepted. `misses` of its Long Sums were
read from the Slate. -/
def caddRequest (s : State) (c : CaddReq) (misses : Nat) : State :=
  if cmbShut s then s
  else
    let g := c.group
    let n := c.tile.rows
    let w := elemSize c.tile.fmt
    let (b, s) := tileBytes s c.part c.tile c.data
    let (tb, s) := tileBytes s c.part c.tok c.tokData
    let (wb, s) := match c.wt with
      | some x =>
        let (y, s) := tileBytes s c.part x c.wtData
        (some (elems 4 n y), s)
      | none => (none, s)
    let words := elems 4 n tb
    let s := countN s .cmbMiss misses
    let (s, k) := (List.range n).foldl (fun (a : State × Nat) j =>
      let row := (elems w c.tile.cols (b.drop (j * c.tile.cols * w))).map (fmtVal c.tile.fmt)
      let (s, ok) := caddRow a.1 g (words.getD j 0) (wb.map fun l => l.getD j 0) row
      (s, a.2 + b2n ok)) (s, 0)
    let src : Src := { block := blockId s, agent := c.agent, unit := 16, part := c.part, node := 0, gen := 0, group := 0 }
    emit s (.answer src (ansRequest c.req) (BitVec.ofNat 64 k))

/-- Whether partition `p` may access the apertures of group `g` (R239). -/
def grpAllowed (s : State) (g p : Nat) : Bool := grpValid s g && grpPart s g == p

/-- A write of value `v` to a TALLY word from partition `p` (R239). A refused access is counted as R175 counts one.
(DEDUCED, log entry 100). -/
def tallyWrite (s : State) (g t p v : Nat) : State :=
  if cmbShut s then s
  else if !grpAllowed s g p then count s .chnXpart
  else
    let (r, s') := if t < grpTokens s g then tokRead s g t else (0, s)
    if strayTok r ∨ (grp s g).st ≠ .opened then count s' .cmbStray
    else tallyDown s' g t (v % 2 ^ 24)

/-- A read of a TALLY word from partition `p` (R239): the token record; a token that the group does not have reads zero. -/
def tallyRead (s : State) (g t p : Nat) : Nat × State :=
  if !grpAllowed s g p then (0, count s .chnXpart)
  else if t < grpTokens s g then tokRead s g t
  else (0, s)

/-- The work of a partition is discarded: its OPEN groups are zeroed (R240). -/
def cmbDiscard (s : State) (p : Nat) : State :=
  { s with cmb.grps := s.cmb.grps.foldUpd fun g x =>
      if x.st = .opened ∧ grpPart s g = p then { x with st := .zeroing, done := 0 } else x }

/-- Whether an FADD lane names an element of a group that takes addends from partition `p` (R199, R239). -/
def faddOk (s : State) (g i p : Nat) : Bool :=
  grpValid s g && grpPart s g == p && (grp s g).st != .zeroing && decide (i < grpTokens s g * grpCols s g)

end Sys2Proof.Machine
end

