-- ==== Sys2Proof/Machine/Rte.lean ====
section
/-!
DEFINITION. The Router Engine (chapter 09): router entries and passes, scores, choices, weights, capacity, dispatch
lists, the count table and the answer (R222–R234).
-/

namespace Sys2Proof.Machine

open Sys2Proof

/-! ### Router entries -/

/-- Address of RTE_RC_A_r; B, C and D stand 8 apart. -/
def rcAddr (r : Nat) : Nat := 0x810000 + 0x20 * r

/-- Fields of entry `r`. -/
def rcMode (s : State) (r : Nat) : Nat := regFld s (rcAddr r) 1 0
def rcNorm (s : State) (r : Nat) : Bool := regBit s (rcAddr r) 2
def rcExperts (s : State) (r : Nat) : Nat := regFld s (rcAddr r) 15 8 + 1
def rcK (s : State) (r : Nat) : Nat := regFld s (rcAddr r) 18 16 + 1
def rcPadLog2 (s : State) (r : Nat) : Nat := regFld s (rcAddr r) 23 20
def rcGroup (s : State) (r : Nat) : Nat := regFld s (rcAddr r) 31 24
def rcPart (s : State) (r : Nat) : Nat := regFld s (rcAddr r) 35 32
def rcValid (s : State) (r : Nat) : Bool := regBit s (rcAddr r) 63
def rcTokens (s : State) (r : Nat) : Nat := regFld s (rcAddr r + 8) 23 0
def rcCap (s : State) (r : Nat) : Nat := regFld s (rcAddr r + 8) 47 24
def rcListCap (s : State) (r : Nat) : Nat := regFld s (rcAddr r + 8) 60 48
def rcSeed (s : State) (r : Nat) : W64 := regGet s (rcAddr r + 0x10)
def rcGate (s : State) (r : Nat) : Nat := regFld s (rcAddr r + 0x18) 39 0
def rcCounts (s : State) (r : Nat) : Nat := regFld s (rcAddr r + 0x18) 57 40

/-- An entry's run-time state. -/
def rc (s : State) (r : Nat) : RteEnt := s.rte.ents.look r

/-- An entry's run-time state changed. -/
def updRc (s : State) (r : Nat) (f : RteEnt → RteEnt) : State := { s with rte.ents := s.rte.ents.upd r f }

/-- RW bits of the four registers of an entry, VALID left out. -/
def rcMask (i : Nat) : Nat :=
  match i with
  | 0 => 0x00000000FFF7FF07
  | 1 => 0x1FFFFFFFFFFFFFFF
  | 2 => 0xFFFFFFFFFFFFFFFF
  | _ => 0x03FFFFFFFFFFFFFF

/-- A write of the value `v` to register `i` of entry `r`: fields other than VALID only while the entry is IDLE or
CLOSED. -/
def rcWrite (s : State) (r i v : Nat) : State :=
  let a := rcAddr r + 8 * i
  let old := (regGet s a).toNat
  let m := rcMask i
  let new := old - (old &&& m) + (v &&& m)
  let busy := (rc s r).st == .active
  let s := if busy && (v &&& m) ≠ (old &&& m) then count s .rteCfgIgn else s
  let s := if busy then s else regSet s a (BitVec.ofNat 64 new)
  if i = 0 then regSetFld s a 63 63 (b2n (bitOf v 63)) else s

/-- Whether entry `r` is usable by a ROUTE of partition `p` (R222). -/
def rcUsable (s : State) (r p : Nat) : Bool :=
  let g := rcGroup s r
  decide (r < 1024) && rcValid s r && rcPart s r == p && rcMode s r != 3 && decide (rcPadLog2 s r ≤ 8)
    && decide (1 ≤ rcCap s r) && decide (1 ≤ rcTokens s r) && decide (1 ≤ rcListCap s r ∧ rcListCap s r ≤ 4096)
    && decide (rcK s r ≤ rcExperts s r)
    && grpValid s g && grpPart s g == p && grpTokens s g == rcTokens s r

/-! ### Choices and weights (R226–R229) -/

/-- The mixing function of HASH mode (R228). -/
def mix (x : W64) : W64 :=
  let x := x ^^^ (x >>> 31)
  let x := x * 0x8E516A2DC3F74B19#64
  let x := x ^^^ (x >>> 27)
  let x := x * 0x5B3CE9A17D24F60B#64
  x ^^^ (x >>> 33)

/-- The first expert from `e` on that earlier choices have not taken; `fuel` is the number of experts. -/
def freeExpert (e n : Nat) (taken : List Nat) : Nat → Nat
  | 0 => e
  | f + 1 => if taken.contains e then freeExpert ((e + 1) % n) n taken f else e

/-- The choices of a key in HASH mode: `k` of them from rank `r` on (R228). -/
def hashChoices (key : Nat) (seed : W64) (n : Nat) : Nat → Nat → List Nat → List Nat
  | 0, _, l => l
  | k + 1, r, l =>
    let h := mix (BitVec.ofNat 64 (key * 2 ^ 32 + r) ^^^ seed)
    let e := freeExpert (h.toNat * n / 2 ^ 64) n l n
    hashChoices key seed n k (r + 1) (l ++ [e])

/-- The expert that ranks first among those not yet chosen: the highest score, the lowest index of equals (R227). -/
def bestExpert (scores : List Nat) (l : List Nat) : Nat :=
  let cand := (List.range scores.length).filter fun e => !l.contains e
  cand.foldl (fun b e => if rankLt (fmtVal 2 (scores.getD b 0)) (fmtVal 2 (scores.getD e 0)) then e else b)
    (cand.headD 0)

/-- The `k` choices of a token by its FP32 scores (R227). -/
def topK (scores : List Nat) : Nat → List Nat → List Nat
  | 0, l => l
  | k + 1, l => topK scores k (l ++ [bestExpert scores l])

/-- The FP32 weights of the choices of a token (R229). (DEDUCED, log entry 60). -/
def weights (s : State) (r : Nat) (scores choice : List Nat) : List Nat :=
  let sc := choice.map fun e => scores.getD e 0
  if rcMode s r = 0 then choice.map fun _ => divFp32 0x3F800000 (.fin (rcK s r) 0)
  else if !rcNorm s r then sc.map fun x => if fmtVal 2 x = .nan then 0x7FC00000 else x
  else
    let total := roundFp32 ((sc.map (fmtVal 2)).foldl addVal (.fin 0 0))
    sc.map fun x => divFp32 x total

/-- Scores of one row in LOGIT mode against the gate matrix (R226): `gate` holds its elements row by row. -/
def logits (fmt n : Nat) (row gate : List Nat) : List Nat :=
  (List.range n).map fun e =>
    let col := (List.range row.length).map fun d => gate.getD (d * n + e) 0
    match dotRows fmt row col with
    | v => ieeeEnc 8 23 v

/-- What RTE decides for one token: its choices by rank and their weights. -/
def tokenChoices (s : State) (r fmt : Nat) (row gate : List Nat) : List (Nat × Nat) :=
  let n := rcExperts s r
  let k := rcK s r
  if rcMode s r = 0 then
    let c := hashChoices (row.headD 0 % 2 ^ 32) (rcSeed s r) n k 0 []
    c.zip (weights s r [] c)
  else
    let sc := if rcMode s r = 1 then row else logits fmt n row gate
    let c := topK sc k []
    c.zip (weights s r sc c)

/-! ### Capacity, lists and the count table (R230–R232) -/

/-- What a routing builds: the state, the entries of each expert's list in order, and the counts. -/
structure RouteWork where
  s : State
  lists : Tab (List (Nat × Nat × Nat))
  placed : Nat
  dropped : Nat
  skipped : Nat
  deriving DecidableEq, Repr, Inhabited

/-- The choices of a token in rank order: placed while the expert has room, else dropped (R230). The number is the
placed ones. -/
def placeChoices (r t : Nat) : RouteWork → Nat → List (Nat × Nat) → RouteWork × Nat
  | w, _, [] => (w, 0)
  | w, rank, (e, wt) :: rest =>
    if (rc w.s r).cnt.look e < rcCap w.s r then
      let st := updRc (count w.s .rtePlaced) r fun x => { x with cnt := x.cnt.upd e (· + 1) }
      let w := { w with s := st, lists := w.lists.upd e (· ++ [(t, rank, wt)]), placed := w.placed + 1 }
      let (w, n) := placeChoices r t w (rank + 1) rest
      (w, n + 1)
    else
      let st := pageCount (count w.s .rteDrop) (rcPart w.s r) 9 1
      placeChoices r t { w with s := st, dropped := w.dropped + 1 } (rank + 1) rest

/-- The tokens of a micro-batch in ascending order from `t` on (R230). -/
def routeTokens (r fmt : Nat) (gate : List Nat) : RouteWork → Nat → List (List Nat) → RouteWork
  | w, _, [] => w
  | w, t, row :: rest =>
    let (w, n) := placeChoices r t w 0 (tokenChoices w.s r fmt row gate)
    let s := tallySet w.s (rcGroup w.s r) t n
    let w := if n = 0 then
        { w with s := pageCount (count s .rteSkip) (rcPart s r) 10 1, skipped := w.skipped + 1 }
      else { w with s := s }
    routeTokens r fmt gate w (t + 1) rest

/-- An entry of a dispatch list (R231). -/
def listEntry (t rank wt : Nat) : Bytes := leBytes 4 (t % 2 ^ 24 + rank % 8 * 2 ^ 24) ++ leBytes 4 wt

/-- A pad entry (R231). -/
def padEntry : Bytes := leBytes 4 0x80FFFFFF ++ leBytes 4 0

/-- Count of a list with its pads (R231). -/
def padded (pad n : Nat) : Nat := (n + pad - 1) / pad * pad

/-- The lists are written into slot 1's area: the Slate, or another space through the agent (R231). -/
def writeLists (s : State) (q : RouteReq) (r : Nat) (lists : Tab (List (Nat × Nat × Nat))) : State :=
  let pad := 2 ^ rcPadLog2 s r
  (List.range (rcExperts s r)).foldl (fun s e =>
    let l := lists.look e
    let n := padded pad l.length
    let b := (l.flatMap fun x => listEntry x.1 x.2.1 x.2.2) ++
      (List.range (n - l.length)).flatMap fun _ => padEntry
    let o := q.list.base.toNat + e * rcListCap s r * 8
    tileWrite s q.agent q.part q.list.space q.list.core o b) s

/-- Rows of the micro-batch as elements. -/
def rowsOf (fmt cols : Nat) : Nat → Bytes → List (List Nat)
  | 0, _ => []
  | n + 1, b =>
    let w := cols * elemSize fmt
    elems (elemSize fmt) cols (b.take w) :: rowsOf fmt cols n (b.drop w)

/-- A request that may proceed is routed whole (R223, R226–R231). -/
def routeNow (s : State) (q : RouteReq) : State :=
  let r := q.entry
  let n := rcExperts s r
  let (b, s) := tileBytes s q.part q.tile q.data
  let (gb, s) := if rcMode s r = 2 then
      readPart s q.part (rcGate s r) (q.tile.cols * n * elemSize q.tile.fmt) else ([], s)
  let gate := elems (elemSize q.tile.fmt) (if rcMode s r = 2 then q.tile.cols * n else 0) gb
  let rows := rowsOf q.tile.fmt q.tile.cols q.tile.rows b
  let w := routeTokens r q.tile.fmt gate { s := s, lists := [], placed := 0, dropped := 0, skipped := 0 } q.first rows
  let s := writeLists w.s q r w.lists
  let pad := 2 ^ rcPadLog2 s r
  let table := (List.range n).map fun e => (padded pad (w.lists.look e).length, (w.lists.look e).length)
  let s := updRc s r fun x =>
    let next := x.next + q.tile.rows
    { x with next := next, st := if next = rcTokens s r then .closed else .active }
  { s with rte.routing := s.rte.routing ++
      [{ req := q, placed := w.placed, dropped := w.dropped, skipped := w.skipped, table := table }] }

/-- Whether RTE can route a request of entry `r` now: fewer than four, and none of the entry (R224), with CMB, which sets the
tallies, and the Slate taking requests (R241, R261). -/
def rteRoom (s : State) (r : Nat) : Bool :=
  decide (s.rte.routing.length < 4) && !(s.rte.routing.any fun x => x.req.entry == r) && !cmbShut s

/-- What R223 says of a request. -/
inductive RouteFate where
  | go | start | hold | order
  deriving DecidableEq, Repr, Inhabited

/-- The table of R223. -/
def routeFate (s : State) (q : RouteReq) : RouteFate :=
  let x := rc s q.entry
  if x.st = .active then
    if q.first = x.next then .go else if x.next < q.first then .hold else .order
  else if q.first = 0 then
    (if (grp s (rcGroup s q.entry)).st = .idle then .start else .hold)
  else .hold

/-- A pass starts (R223). -/
def startPass (s : State) (r : Nat) : State :=
  let s := updRc s r fun x => { x with st := .active, pass := x.pass + 1, cnt := [], next := 0 }
  updG s (rcGroup s r) fun x => { x with st := .opened, done := 0 }

/-- A request is routed, starts a pass, is held, or raises RTE_ORDER (R223). `counted` says that it stands in the hold
table already. -/
def routeTry (s : State) (q : RouteReq) (counted : Bool) : State :=
  let go := fun (s : State) =>
    if rteRoom s q.entry then routeNow s q else { s with rte.ready := s.rte.ready ++ [q] }
  match routeFate s q with
  | .go => go s
  | .start => go (startPass s q.entry)
  | .hold =>
    let s := { s with rte.held := s.rte.held ++ [q] }
    if counted then s else count s .rteHold
  | .order => raise s 0x0D01 .up q.part q.entry

/-- Whether a held request could proceed. -/
def canGo (s : State) (q : RouteReq) : Bool := routeFate s q == .go || routeFate s q == .start

/-- The held requests that `mine` picks are tested again, oldest first, as long as one can proceed (R223). -/
def rteRetest : Nat → State → (RouteReq → Bool) → State
  | 0, s, _ => s
  | n + 1, s, mine =>
    if s.rte.ready.any mine then s
    else match takeFirst (fun q => mine q && (canGo s q || routeFate s q == .order)) s.rte.held with
    | none => s
    | some (q, rest) => rteRetest n (routeTry { s with rte.held := rest } q true) mine

/-- Held requests of entry `r` are tested again. -/
def retestEntry (s : State) (r : Nat) : State := rteRetest (s.rte.held.length + 1) s (·.entry == r)

/-- Held requests of every entry that names group `g` are tested again: the group is IDLE (R223). -/
def retestGroup (s : State) (g : Nat) : State :=
  if (grp s g).st = .idle then
    rteRetest (s.rte.held.length + 1) s fun q => rcGroup s q.entry == g
  else s

/-- A ROUTE reaches RTE (R223). -/
def routeRequest (s : State) (q : RouteReq) : State :=
  if s.rte.stopped then s
  else if injArmed s 0x0D01 (· == q.entry) then raiseInj (injFire s) 0x0D01 .up q.part q.entry true
  else retestEntry (routeTry s q false) q.entry

/-- Requests that wait for a place are tested again and routed while there is one (R223). -/
def routeReady : Nat → State → State
  | 0, s => s
  | n + 1, s =>
    match takeFirst (fun q => rteRoom s q.entry) s.rte.ready with
    | none => s
    | some (q, rest) => routeReady n (routeTry { s with rte.ready := rest } q true)

/-- The count table of a routing reaches agent `a`: in the requesting Reckoner's DMEM where the request still stands, and held
with the answer while the agent is stopped (R141, R232, R336). -/
def tableAnswer (s : State) (a id off : Nat) (b : Bytes) : State :=
  if !(agt s a).rkn.reqs.any (fun q => q.id == id && q.kind == .route) then s
  else if agtShut s a then updA s a fun x => { x with inbox := x.inbox ++ [.table id off b] }
  else updA s a fun x => { x with rkn.dmem := memPut x.rkn.dmem off b }

/-- The count table of a routing (R232). -/
def writeTable (s : State) (x : Routing) : State :=
  tableAnswer s x.req.agent x.req.req (rcCounts s x.req.entry)
    (x.table.flatMap fun e => leBytes 8 (e.1 % 2 ^ 16 + e.2 % 2 ^ 16 * 2 ^ 16))

/-- The `i`-th routing in progress is done: the count table, the answer, and the requests that waited for it
(R232, R233). -/
def routingDone (s : State) (i : Nat) : State :=
  match takeAt s.rte.routing i with
  | none => s
  | some (x, rest) =>
    let r := x.req.entry
    let s := writeTable { s with rte.routing := rest } x
    let s := count s .rteRoute
    let s := if x.dropped ≠ 0 ∨ x.skipped ≠ 0 then
        trRecord s { type := 5, part := x.req.part, cls := 0, gen := 0, node := x.req.node, sub := 1, ts := s.ts,
                     arg1 := BitVec.ofNat 64 r, arg2 := min x.dropped 0xFFFF + min x.skipped 0xFFFF * 2 ^ 16 }
      else s
    let src : Src := { block := blockId s, agent := x.req.agent, unit := 16, part := x.req.part, node := x.req.node,
                       gen := 0, group := 0 }
    let s := emit s (.answer src (ansRequest x.req.req) (BitVec.ofNat 64 (x.placed + x.dropped * 2 ^ 32)))
    let s := routeReady (s.rte.ready.length + 1) s
    retestGroup (retestEntry s r) (rcGroup s r)

/-- The work of a partition is discarded (R240). -/
def rteDiscard (s : State) (p : Nat) : State :=
  { s with
    rte.held := s.rte.held.filter (·.part != p),
    rte.ready := s.rte.ready.filter (·.part != p),
    rte.routing := s.rte.routing.filter (·.req.part != p),
    rte.ents := s.rte.ents.foldUpd fun r x => if rcPart s r = p then { x with st := .idle } else x }

end Sys2Proof.Machine
end

