-- ==== Sys2Proof/Machine/Credit.lean ====
section
/-!
DEFINITION. The operations that leave their agent, or FAB, only with a credit of a table that partitions share: a
RESERVE, a CLAIM, a WAIT and a ROUTE (R22, R180, R189, R196, R224).
-/

namespace Sys2Proof.Machine

open Sys2Proof

/-- The partition whose credit an operation takes. -/
def heldPart : HeldOp → Nat
  | .reserve _ src _ => src.part
  | .claim _ src _ => src.part
  | .wait _ src _ => src.part
  | .route q => q.part

/-- The table that an operation enters. -/
def heldTable : HeldOp → Nat
  | .reserve _ _ _ => 0
  | .claim _ _ _ => 1
  | .wait _ _ _ => 2
  | .route _ => 3

/-- Whether a credit is free for an operation: 1,024 open-send entries and as many claims with 32 in reserve and 512
shared, 2,048 waits with 64 and 1,024, 256 held requests with 8 and 128 (R180, R189, R196, R224).
(DEDUCED, log entry 34). -/
def opCredit (s : State) (o : HeldOp) : Bool :=
  match o with
  | .reserve _ src _ => hasCredit (s.chn.sends.map (·.src.part)) 32 512 src.part
  | .claim _ src _ => hasCredit (s.chn.claims.map (·.src.part)) 32 512 src.part
  | .wait _ src _ => hasCredit (s.bau.waits.map (·.src.part)) 64 1024 src.part
  | .route q => hasCredit (s.rte.held.map (·.part)) 8 128 q.part

/-- Whether the unit of an operation runs. -/
def opRuns (s : State) : HeldOp → Bool
  | .reserve _ _ _ => !chnShut s
  | .claim _ _ _ => !chnShut s
  | .wait _ _ _ => !s.bau.stopped
  | .route _ => !s.rte.stopped

/-- An operation reaches its unit. -/
def opPerform (s : State) : HeldOp → State
  | .reserve c src v => chanReserve s c src v
  | .claim c src v => chanClaim s c src v
  | .wait b src ph => barWait s b src ph
  | .route q => routeRequest s q

/-- An operation is offered: it leaves with a credit, or waits behind those of its partition and table (R180). -/
def opOffer (s : State) (o : HeldOp) : State :=
  if s.held.any (fun x => heldTable x == heldTable o && heldPart x == heldPart o) || !opCredit s o then
    { s with held := s.held ++ [o] }
  else opPerform s o

/-- Operations that wait leave, oldest first, as credits become free. -/
def opRelease : Nat → State → State
  | 0, s => s
  | n + 1, s =>
    match takeFirst (fun o => opRuns s o && opCredit s o) s.held with
    | none => s
    | some (o, rest) => opRelease n (opPerform { s with held := rest } o)

/-- The block's own operations of a discarded partition no longer wait (R335). -/
def dropHeld (s : State) (p : Nat) : State :=
  { s with held := s.held.filter fun o => !(heldPart o == p && match o with
      | .reserve _ src _ => src.block == blockId s
      | .claim _ src _ => src.block == blockId s
      | .wait _ src _ => src.block == blockId s
      | .route _ => true) }

end Sys2Proof.Machine
end

