-- ==== Sys2Proof/Machine/Bau.lean ====
section
/-!
DEFINITION. Local hall addresses and their targets (R264), the word operations that BAU performs on a data region
(R266), and group atomics (R199–R201).
-/

namespace Sys2Proof.Machine

open Sys2Proof

/-! ### Local hall addresses (R264) -/

/-- The partition that owns a target (R264, R272). -/
def targetPart (s : State) : Target → Option Nat
  | .data p _ => some p
  | .chan c _ => partOfChan s c
  | .bar b _ => firstFrom (fun p => ownsBar s p b) 0 16
  | .sum g _ => if grpValid s g then some (grpPart s g) else Option.none
  | .tally g _ => if grpValid s g then some (grpPart s g) else Option.none
  | .none => Option.none

/-! ### Words (R170, R199, R201, R266) -/

/-- The signed value of an `n`-byte number. -/
def signedOf (n x : Nat) : Int := if 2 ^ (8 * n - 1) ≤ x then (x : Int) - 2 ^ (8 * n) else x

/-- The value that an atomic of code `aop` writes to an `n`-byte word (R170). -/
def atomVal (n aop old x c : Nat) : Nat :=
  match aop with
  | 0 => (old + x) % 2 ^ (8 * n)
  | 1 => old &&& x
  | 2 => old ||| x
  | 3 => old ^^^ x
  | 4 => if signedOf n old < signedOf n x then x else old
  | 5 => if signedOf n x < signedOf n old then x else old
  | 6 => max old x
  | 7 => min old x
  | 8 => x
  | 9 => if old = c then x else old
  | _ => old

/-- Whether two sources are one thread group (R201): a Reckoner is one group. -/
def sameGroup (a b : Src) : Bool :=
  a.block == b.block && a.agent == b.agent && a.unit == b.unit && (a.unit == 16 || a.group == b.group)

/-- An atomic updates `n` bytes at an offset of partition `p`'s region; the Bool says that another thread group updated
one of them in the current barrier epoch (R201). (DEDUCED, log entry 40). -/
def noteUpdate (s : State) (p o n : Nat) (src : Src) : State × Bool :=
  let k := (dataBase s p + o) / 4
  let keys := if n = 8 then [k, k + 1] else [k]
  let ep := s.bau.epoch.look p
  let other := keys.any fun k => (s.bau.upd.look k).any fun u => u.epoch == ep && !sameGroup u.src src
  let upd := keys.foldl (fun t k => t.put k (some { src := src, epoch := ep })) s.bau.upd
  ({ s with bau.upd := upd }, other)

/-- The word at an offset of a data region (RD_W). -/
def wordRead (s : State) (p o : Nat) : W64 × State :=
  let (b, s) := readPart s p o 8
  (BitVec.ofNat 64 (leNat b), s)

/-- The bytes of a word that a mask selects are written (WR_W). -/
def wordWrite (s : State) (p o : Nat) (v : W64) (mask : Nat) : State :=
  if mask % 256 = 255 then writePart s p o (leBytes 8 v.toNat)
  else ((List.range 8).filter fun j => bitOf mask j).foldl (fun s j =>
    writePart s p (o + j) [BitVec.ofNat 8 (v.toNat / 2 ^ (8 * j))]) s

/-- The words of a block that a mask selects are written (WR_B). -/
def blockWrite (s : State) (p o : Nat) (b : Bytes) (mask : Nat) : State :=
  if mask % 2 ^ 32 = 2 ^ 32 - 1 then writePart s p o (Bytes.slice b 0 256)
  else ((List.range 32).filter fun j => bitOf mask j).foldl (fun s j =>
    writePart s p (o + 8 * j) (Bytes.slice b (8 * j) 8)) s

/-- An atomic on a word (AT_W): its old value. -/
def wordAtomic (s : State) (p o aop : Nat) (x c : W64) (src : Src) : W64 × State :=
  let (v, s) := wordRead s p o
  let s := writePart s p o (leBytes 8 (atomVal 8 aop v.toNat x.toNat c.toNat))
  (v, (noteUpdate s p o 8 src).1)

/-! ### Group atomics (R199–R201) -/

/-- What becomes of a lane. -/
inductive LaneFate where
  | here (part off : Nat)
  | fadd (g i : Nat)
  | remote (addr : Nat)
  | refused
  deriving DecidableEq, Repr, Inhabited

/-- The checks of R199 on a lane of partition `p`. -/
def laneFate (s : State) (p aop size : Nat) (addr : W64) : LaneFate :=
  let a := addr.toNat
  if 11 ≤ aop ∨ a % size ≠ 0 then .refused
  else
    let t := targetOf s (a % 2 ^ 52)
    if a / 2 ^ 52 ≠ blockId s then
      (if aop = 10 then
        (match t with
        | .sum _ _ => if size = 4 then .remote a else .refused
        | _ => .refused)
      else .remote a)
    else match t with
      | .sum g i => if aop = 10 ∧ size = 4 ∧ faddOk s g i p then .fadd g i else .refused
      | .data q o => if aop ≠ 10 ∧ q = p then .here p o else .refused
      | _ => .refused

/-- What a group atomic has done so far: the state, the old values by lane, and the address to report. -/
structure GroupWork where
  s : State
  old : Tab Nat
  det : Option Nat
  deriving DecidableEq, Repr, Inhabited

/-- The lanes of one address in ascending order, with the value they leave; each lane's old value is noted. -/
def runLanes (aop size : Nat) : List (Nat × Lane) → Nat → Tab Nat → Nat × Tab Nat
  | [], v, t => (v, t)
  | (i, l) :: r, v, t =>
    runLanes aop size r (atomVal size aop v (l.opnd.toNat % 2 ^ (8 * size)) (l.cmp.toNat % 2 ^ (8 * size))) (t.put i v)

/-- One indivisible read-modify-write of an address by its lanes. -/
def rmwAddr (src : Src) (aop size p o : Nat) (lanes : List (Nat × Lane)) (w : GroupWork) : GroupWork :=
  let (b, s) := readPart w.s p o size
  let (v, old) := runLanes aop size lanes (leNat b) w.old
  let s := count (writePart s p o (leBytes size v)) .bauRmw
  let (s, other) := noteUpdate s p o size src
  { s := s, old := old,
    det := if other && w.det.isNone then some (blockId s * 2 ^ 52 + p * 2 ^ 40 + o) else w.det }

/-- The lanes that BAU performs in this block, with their counts and the report of R201. -/
def groupLocal (s : State) (p : Nat) (src : Src) (aop size : Nat) (lanes : List (Nat × Lane)) : State × Tab Nat :=
  let fates := lanes.map fun e => (e, laneFate s p aop size e.2.addr)
  let s := countN s .bauRefuse (fates.filter (·.2 == .refused)).length
  let s := fates.foldl (fun s e => match e.2 with
    | .fadd g i => addend s g i (fmtVal 2 (e.1.2.opnd.toNat % 2 ^ 32))
    | _ => s) s
  let addrs := (fates.filterMap fun e => match e.2 with
    | .here q o => some (q, o)
    | _ => none).eraseDups
  let w := addrs.foldl (fun w a =>
    rmwAddr src aop size a.1 a.2 ((fates.filter (·.2 == .here a.1 a.2)).map (·.1)) w)
    { s := s, old := [], det := none }
  let s := match w.det with
    | some a => detReport w.s (a % 2 ^ 52 / 2 ^ 40) 2 a Config.noNode (srcIdent src)
    | none => w.s
  (s, w.old)

/-- Old values as bytes, 8 for each lane. -/
def oldBytes (t : Tab Nat) : Bytes := (List.range 32).flatMap fun i => leBytes 8 (t.look i)

/-- The mask of a list of lanes. -/
def laneMask (l : List (Nat × Lane)) : Nat := (l.map fun e => 2 ^ e.1).foldl (· + ·) 0

/-- The remote atomic that carries the lanes of one address of another block (R199, R266). -/
def groupHdr (src : Src) (aop a : Nat) (size8 : Bool) (lanes : List (Nat × Lane)) : FabHdr :=
  let opnds := (List.range 32).flatMap fun i => leBytes 8 (((lanes.find? (·.1 == i)).map (·.2.opnd.toNat)).getD 0)
  let cmps := (List.range 32).flatMap fun i => leBytes 8 (((lanes.find? (·.1 == i)).map (·.2.cmp.toNat)).getD 0)
  { op := 6, final := false, scope := 0, ord := false, srcPart := src.part, aop := aop, dstBlock := a / 2 ^ 52,
    hops := 15, srcBlock := src.block, srcAgent := src.agent, srcUnit := src.unit, loc := a % 2 ^ 52,
    data := BitVec.ofNat 64 (b2n size8), cmp := 0, hallTag := 0, txn := 0, dcrc := 0,
    mask := BitVec.ofNat 32 (laneMask lanes), payload := if aop = 9 then opnds ++ cmps else opnds }

/-- The outcome of an operation that this block performed for a core stands with its agent until ANSWER delivers it. -/
def setGot (s : State) (a core tag st : Nat) (v : W64) (b : Bytes) : State :=
  let mine := fun (o : CoreOp) => o.core == core && o.tag == tag
  updA s a fun x => { x with ops := updFirst mine (fun o => { o with got := some (st, v, b) }) x.ops }

/-- A group atomic of a core is complete: its old values go to the source. -/
def groupDone (s : State) (src : Src) (tag : Nat) (b : Bytes) : State :=
  setGot (emit s (.readData src b)) src.agent src.unit tag 0 0 b

/-- Whether BAU takes no group atomic: it is stopped, or CMB or the Slate takes nothing (R198, R241, R261). -/
def bauShut (s : State) : Bool := s.bau.stopped || s.cmb.stopped || s.slt.stopped

/-- A group atomic reaches BAU (R199): `lanes` are its 32 lanes, `tag` its operation tag at the core. -/
def groupAtomic (s : State) (src : Src) (tag aop : Nat) (size8 : Bool) (lanes : List Lane) : State :=
  if bauShut s then s
  else
    let size := if size8 then 8 else 4
    let act := (((List.range 32).zip lanes).filter (·.2.active))
    let s := countN (count s .bauAtom) .bauLane act.length
    let far := act.filterMap fun e => match laneFate s src.part aop size e.2.addr with
      | .remote a => some (a, e)
      | _ => none
    let (s, old) := groupLocal s src.part src aop size act
    let addrs := (far.map (·.1)).eraseDups
    if addrs.isEmpty then groupDone s src tag (oldBytes old)
    else
      let run : GroupRun := { src := src, tag := tag, left := addrs.length, old := oldBytes old }
      addrs.foldl (fun s a =>
        let mine := (far.filter (·.1 == a)).map (·.2)
        fabSubmit s (groupHdr src aop a size8 mine)
          (.bau src.agent src.unit tag ((mine.map (·.1)).headD 0)))
        { s with bau.groups := s.bau.groups ++ [run] }

/-- The old values of the lanes of a mask taken from an answer (R266, DATA_B). -/
def mergeLanes (mask : Nat) (old new : Bytes) : Bytes :=
  (List.range 32).flatMap fun i => if bitOf mask i then Bytes.slice new (8 * i) 8 else Bytes.slice old (8 * i) 8

/-- A remote part of a group atomic is answered. -/
def groupAnswer (s : State) (a core tag mask : Nat) (b : Bytes) : State :=
  let mine := fun (g : GroupRun) => g.src.agent == a && g.src.unit == core && g.tag == tag
  match takeFirst mine s.bau.groups with
  | none => s
  | some (g, rest) =>
    let old := mergeLanes mask g.old b
    if g.left ≤ 1 then groupDone { s with bau.groups := rest } g.src tag old
    else { s with bau.groups := updFirst mine (fun g => { g with left := g.left - 1, old := old }) s.bau.groups }

/-- A remote group atomic performed for a partner (R199, R266): the old values of its lanes. `p` owns the target. -/
def groupRemote (s : State) (p : Nat) (h : FabHdr) : State × Bytes :=
  let size8 := bitOf h.data.toNat 0
  let src : Src := { block := h.srcBlock, agent := h.srcAgent, unit := h.srcUnit, part := p, node := 0, gen := 0, group := 0 }
  let addr := BitVec.ofNat 64 (blockId s * 2 ^ 52 + h.loc)
  let act := ((List.range 32).filter fun i => bitOf h.mask.toNat i).map fun i =>
    (i, ({ active := true, addr := addr, opnd := BitVec.ofNat 64 (leNat (Bytes.slice h.payload (8 * i) 8)),
           cmp := BitVec.ofNat 64 (leNat (Bytes.slice h.payload (256 + 8 * i) 8)) } : Lane))
  let s := countN (count s .bauAtom) .bauLane act.length
  let (s, old) := groupLocal s p src h.aop (if size8 then 8 else 4) act
  (s, oldBytes old)

end Sys2Proof.Machine
end

