-- ==== Sys2Proof/Machine/Agent.lean ====
section
/-!
DEFINITION. The Cluster Agents and the Agent Port (chapters 05 and 16): launches, blocks, ends, aborts of TASK launches,
the operations of the cores and their answers, credits and capacity (R123–R125, R186, R196, R197, R265, R274–R278, R335,
R405–R411), and the halt record (R137).
-/

namespace Sys2Proof.Machine

open Sys2Proof

/-! ### Halts (R137) -/

/-- A halt is recorded and counted: a record that is VALID already is kept (R137). `addr` is the halting instruction's,
0xFFFF for setup and for a TASK's descriptor. -/
def haltNote (s : State) (a reason addr node part : Nat) : State :=
  let r := agentBase a + 8
  let s := count s (.rknHalt a)
  if regBit s r 0 then s
  else regSet s r (BitVec.ofNat 64 (1 + reason % 256 * 2 ^ 8 + addr % 2 ^ 16 * 2 ^ 16 + node % 2 ^ 24 * 2 ^ 32 +
      part % 16 * 2 ^ 56))

/-- RKN_HALT is raised on the partition (R137). -/
def haltFault (s : State) (a reason part : Nat) (inj : Bool) : State :=
  raiseInj s 0x0A01 .up part (a % 64 + reason % 256 * 256) inj

/-- A halt is recorded and counted, and raises RKN_HALT (R137). -/
def haltRecord (s : State) (a reason addr node part : Nat) (inj : Bool) : State :=
  haltFault (haltNote s a reason addr node part) a reason part inj

/-! ### What waits at a stopped agent (R141, R349, R350) -/

/-- The credited upstream channel that a message takes, 0 CTL or 1 OP, and its flits; an answer of a unit takes none. -/
def AgtIn.flits : AgtIn → Option (Nat × Nat)
  | .blockEnd .. => some (0, 1)
  | .groupEnd .. => some (0, 1)
  | .engDone .. => some (0, 1)
  | .credit .. => some (0, 1)
  | .op m => some (1, max 1 m.flits)
  | _ => none

/-- What reaches a stopped agent waits at its input, in order, and is applied when the agent runs again. A cluster that has
no credit left of the 16 of a channel sends nothing more (R405). -/
def agtHold (s : State) (a : Nat) (m : AgtIn) : State :=
  let used := fun vc => ((((agt s a).inbox.filterMap AgtIn.flits).filter (·.1 == vc)).map (·.2)).foldl (· + ·) 0
  if m.flits.any fun x => decide (16 < used x.1 + x.2) then s
  else updA s a fun x => { x with inbox := x.inbox ++ [m] }

/-! ### The downstream FIFO (R405, R407) -/

/-- Flits of a downstream message (R407). -/
def dnFlits : DnMsg → Nat
  | .engCmd .. => 2
  | _ => 1

/-- The core of a block message, and whether it starts or aborts a block with that tag. -/
def isStart (core tag : Nat) : DnMsg → Bool
  | .blockStart c t .. => c == core && t == tag
  | _ => false

/-- What leaving the agent means for a message: a block has started (R411). -/
def dnLeft (s : State) (a : Nat) (m : DnMsg) : State :=
  match m with
  | .blockStart core tag .. =>
    let mine := fun (b : Block) => b.core == core && b.tag == tag
    updA s a fun x => { x with blocks := updFirst mine (fun b => { b with started := true }) x.blocks }
  | _ => s

/-- Waiting messages leave while credits last. -/
def dnPump (a : Nat) : List DnMsg → State → State
  | [], s => updA s a fun x => { x with dnQ := [] }
  | m :: r, s =>
    let x := agt s a
    if dnFlits m ≤ x.dnCred ∧ !x.stopped ∧ x.portRdy then
      let s := updA s a fun x => { x with dnCred := x.dnCred - dnFlits m }
      dnPump a r (emit (dnLeft s a m) (.dn a m))
    else updA s a fun x => { x with dnQ := m :: r }

/-- A downstream message of agent `a` enters the FIFO, or waits for credits (R405). -/
def dnSend (s : State) (a : Nat) (m : DnMsg) : State := dnPump a ((agt s a).dnQ ++ [m]) s

/-- The cluster returns a downstream credit (R405). -/
def dnCredit (s : State) (a : Nat) : State :=
  if (agt s a).portRdy then
    let s := updA s a fun x => { x with dnCred := min 16 (x.dnCred + 1) }
    dnPump a (agt s a).dnQ s
  else s

/-! ### Launches (R124, R125) -/

/-- Whether two launches are of one node and generation. -/
def sameLaunch (l : Launch) (n : Nat) (gen : BitVec 16) : Bool := l.node == n && l.gen == gen

/-- What one block of a launch is charged. -/
def launchNeed (l : Launch) : Res := { regs := l.regs * l.groups, lmem := l.lmem, groups := l.groups, blocks := 1 }

/-- The charge of a launch on each core. -/
def launchCharge (l : Launch) : List (Nat × Res) :=
  (((List.range 16).zip l.coreBlocks).filter (·.2 != 0)).map fun e => (e.1, scaleRes e.2 (launchNeed l))

/-- Charges of a launch are returned, merged into one return for each core (R99, R335). -/
def returnMerged (s : State) (a part n : Nat) (gen : BitVec 16) (l : List (Nat × Res)) : State :=
  (List.range 16).foldl (fun s k =>
    let mine := l.filter (·.1 == k)
    if mine.isEmpty then s
    else emit s (.occ a { core := k, rknFree := false, part := part,
                          res := mine.foldl (fun r e => addRes r e.2) default } n gen)) s

/-- The whole charge of a launch, one return for each core (R125, R411). -/
def returnCharge (s : State) (a : Nat) (l : Launch) : State := returnMerged s a l.part l.node l.gen (launchCharge l)

/-- A TASK launch reaches agent `a`, which reads its kernel descriptor (R124, R125). -/
def taskLaunch (s : State) (a : Nat) (l : Launch) : State :=
  if agtShut s a then s
  else updA s a fun x => { x with tasks := x.tasks ++ [{ l := l, checked := false, peerClosed := false, drops := 0 }] }

/-- Cores of the blocks of a launch in block order: numbered upwards from FIRST_BLOCK in core order, or fixed in pinned
mode (R105, R111). -/
def blockCores (s : State) (a : Nat) (l : Launch) : List (Nat × Nat) :=
  let total : Nat := l.coreBlocks.foldl (· + ·) 0
  let order := ((List.range 16).zip l.coreBlocks).flatMap fun e => List.replicate e.2 e.1
  let conn := coresOf s a
  (List.range total).map fun i =>
    let b := l.firstBlock + i
    (b, if l.pinned then conn.getD (b % conn.length) 0 else order.getD i 0)

/-- One block starts: its tag is unique among the core's live blocks (R407). -/
def startBlock (s : State) (a : Nat) (l : Launch) (entry : W64) (b core : Nat) : State :=
  let (t, s) := pickFresh s (fun t => (agt s a).blocks.any fun x => x.core == core && x.tag == t) (2 ^ 32)
  let tag := t.getD 0
  let blk : Block := { core := core, tag := tag, node := l.node, gen := l.gen, first := l.firstBlock, part := l.part,
                       groups := l.groups, index := b, res := launchNeed l, started := false, aborted := false }
  let s := updA s a fun x => { x with blocks := x.blocks ++ [blk] }
  dnSend s a (.blockStart core tag l.node l.part l.gen l.groups entry l.arg b l.regs l.lmem l.params)

/-- The kernel descriptor of a TASK launch has been read (R125): blocks start, or the launch retires HALTED. -/
def kernelDescCheck (s : State) (a n : Nat) (gen : BitVec 16) : State :=
  let mine := fun (t : AgtTask) => sameLaunch t.l n gen && !t.checked
  match (agt s a).tasks.find? mine with
  | none => s
  | some t =>
    if agtShut s a then s
    else
      let (b, s) := readPart s t.l.part t.l.kdesc 16
      if Bytes.fld b 0 0 8 = 1 then
        let s := updA s a fun x => { x with tasks := updFirst mine (fun t => { t with checked := true }) x.tasks }
        let entry := BitVec.ofNat 64 (Bytes.fld b 8 0 64)
        (blockCores s a t.l).foldl (fun s e => startBlock s a t.l entry e.1 e.2) s
      else
        let s := updA s a fun x => { x with tasks := (takeFirst mine x.tasks).elim x.tasks (·.2) }
        let s := returnCharge s a t.l
        let s := emit s (.retire a t.l.retTo n gen .halted 0)
        haltRecord s a 3 0xFFFF n t.l.part false

/-! ### Ends (R124, R197, R407, R410, R411) -/

/-- A protocol error of the Agent Port is counted (R410). -/
def portErr (s : State) (a : Nat) : State := count s (.agtPortErr a)

/-- Outstanding fabric requests of a requester become orphans, but those that a refusal has answered already (R268, R269). -/
def orphan (s : State) (mine : Requester → Bool) : State :=
  { s with fab.outst := s.fab.outst.foldUpd fun _ e => e.bind fun e =>
      if !mine e.who then some e else if e.failed then none else some { e with aborted := true } }

/-- Whether a task still has blocks. -/
def hasBlocks (x : Agent) (t : AgtTask) : Bool :=
  x.blocks.any fun b => b.node == t.l.node && b.gen == t.l.gen && b.first == t.l.firstBlock

/-- The retirement of a task whose last block has ended (R124). -/
def taskEnd (s : State) (a n first : Nat) (gen : BitVec 16) : State :=
  let mine := fun (t : AgtTask) => sameLaunch t.l n gen && t.l.firstBlock == first && t.checked
  match takeFirst mine (agt s a).tasks with
  | none => s
  | some (t, rest) =>
    if hasBlocks (agt s a) t then s
    else
      let s := updA s a fun x => { x with tasks := rest }
      emit s (.retire a t.l.retTo n gen (if t.peerClosed then .peerClosed else .done) t.drops)

/-- A live block: one whose BLOCK_START has left and that has not reported ended. -/
def liveBlock (s : State) (a core tag : Nat) : Option Block :=
  (agt s a).blocks.find? fun b => b.core == core && b.tag == tag && b.started

/-- BLOCK_END (R407, R411): the block's occupancy returns, and a launch's last block ends it. -/
def blockEnd (s : State) (a core tag : Nat) : State :=
  if agtShut s a then agtHold s a (.blockEnd core tag)
  else if !isReady s then portErr s a
  else match liveBlock s a core tag with
  | none => portErr s a
  | some b =>
    let mine := fun (b : Block) => b.core == core && b.tag == tag
    let tags := ((agt s a).ops.filter fun o => o.core == core && o.btag == tag).map (·.tag)
    let s := updA s a fun x => { x with
      blocks := (takeFirst mine x.blocks).elim x.blocks (·.2),
      ops := x.ops.filter fun o => !(o.core == core && o.btag == tag),
      groupPairs := x.groupPairs.filter fun g => !(g.core == core && g.tag == tag) }
    let s := orphan s fun w => match w with
      | .core a' c t => a' == a && c == core && tags.contains t
      | .bau a' c t _ => a' == a && c == core && tags.contains t
      | _ => false
    let s := emit s (.occ a { core := core, rknFree := false, part := b.part, res := b.res } b.node b.gen)
    taskEnd s a b.node b.first b.gen

/-- GROUP_END (R197, R407): the group's retirement notice goes to BAU. -/
def groupEnd (s : State) (a core tag group : Nat) : State :=
  if agtShut s a then agtHold s a (.groupEnd core tag group)
  else if !isReady s then portErr s a
  else match liveBlock s a core tag with
  | none => portErr s a
  | some b =>
    if b.groups ≤ group then portErr s a
    else
      let mine := fun (g : GroupPairs) => g.core == core && g.tag == tag && g.group == group
      let pairs := ((agt s a).groupPairs.filter mine).flatMap (·.pairs)
      let s := updA s a fun x => { x with groupPairs := x.groupPairs.filter fun g => !mine g }
      emit s (.notice a b.node b.gen pairs)

/-! ### Aborts of TASK launches (R335, R411) -/

/-- An abort of a TASK launch: what has not started is dropped and returned, one return for each core, and running blocks
are asked to end. -/
def abortTask (s : State) (a n : Nat) (gen : BitVec 16) : State :=
  let x := agt s a
  let tasks := x.tasks.filter fun t => sameLaunch t.l n gen
  let mine := fun (b : Block) => b.node == n && b.gen == gen
  let idle := x.blocks.filter fun b => mine b && !b.started
  let busy := x.blocks.filter fun b => mine b && b.started && !b.aborted
  let s := updA s a fun x => { x with
    tasks := x.tasks.filter (fun t => !sameLaunch t.l n gen),
    blocks := (x.blocks.filter fun b => !(mine b && !b.started)).map fun b => if mine b then { b with aborted := true } else b,
    dnQ := x.dnQ.filter fun m => !idle.any fun b => isStart b.core b.tag m }
  let fresh := tasks.filter fun t => !t.checked
  let s := returnMerged s a ((fresh.map (·.l.part) ++ idle.map (·.part)).headD 0) n gen
    (fresh.flatMap (fun t => launchCharge t.l) ++ idle.map fun b => (b.core, b.res))
  busy.foldl (fun s b => dnSend s a (.abortBlock b.core b.tag)) s

/-! ### Operations of the cores (R265, R266, R274–R278, R410) -/

/-- The source of a core operation, with what the agent adds from its block (R407). -/
def coreSrc (s : State) (a : Nat) (b : Block) (group : Nat) : Src :=
  { block := blockId s, agent := a, unit := b.core, part := b.part, node := b.node, gen := b.gen, group := group }

/-- The pair that the agent recorded for a participant and a barrier. -/
def pairOf (l : List PhasePair) (bar : Nat) : Option (BitVec 16) := (l.find? (·.bar == bar)).map (·.phase)

/-- An accepted arrival is recorded: it replaces the barrier's pair, or the oldest of four (R196). -/
def recordPair (l : List PhasePair) (bar : Nat) (ph : BitVec 16) : List PhasePair :=
  let l := l.filter (·.bar != bar)
  (if 4 ≤ l.length then l.drop 1 else l) ++ [{ bar := bar, phase := ph }]

/-- The pairs of a participant of a core. -/
def pairsOf (s : State) (a core tag group : Nat) : List PhasePair :=
  (((agt s a).groupPairs.find? fun g => g.core == core && g.tag == tag && g.group == group).map (·.pairs)).getD []

/-- The pairs of a participant of a core replaced. -/
def setPairs (s : State) (a core tag group : Nat) (l : List PhasePair) : State :=
  let rest := (agt s a).groupPairs.filter fun g => !(g.core == core && g.tag == tag && g.group == group)
  updA s a fun x => { x with
    groupPairs := if l.isEmpty then rest else rest ++ [{ core := core, tag := tag, group := group, pairs := l }] }

/-- What the agent does with an operation on its own block that is answered at once: status, value and data. -/
def coreGot (s : State) (a : Nat) (o : CoreOp) (st : Nat) (v : W64) (b : Bytes) : State := setGot s a o.core o.tag st v b

/-- An operation on an aligned word or block of the data region of the source's own partition (R266). -/
def coreData (s : State) (a : Nat) (o : CoreOp) (off : Nat) : State :=
  let h := o.hdr
  let p := o.src.part
  let align := if h.op = 4 ∨ h.op = 5 then 256 else 8
  if off % align ≠ 0 ∨ (h.op = 3 ∧ 9 < h.aop) then
    raise (coreGot s a o 5 0 []) 0x1001 .up p (blockId s)
  else match h.op with
  | 1 =>
    let (v, s) := wordRead s p off
    let s := if h.ord then acquireCheck s (tagWord s (dataBase s p + off)) h.scope a o.core else s
    coreGot s a o 0 v []
  | 2 =>
    let s := wordWrite s p off h.data h.mask.toNat
    let s := if h.ord then setTag s (dataBase s p + off) h.scope (blockId s) a o.core else s
    coreGot s a o 0 0 []
  | 3 =>
    let (v, s) := wordAtomic s p off h.aop h.data h.cmp o.src
    coreGot s a o 0 v []
  | 4 =>
    let (b, s) := readPart s p off 256
    coreGot s a o 0 0 b
  | _ =>
    let s := blockWrite s p off h.payload h.mask.toNat
    let s := if h.ord then setTag s (dataBase s p + off) h.scope (blockId s) a o.core else s
    coreGot s a o 0 0 []

/-- An operation of a core leaves the agent for its target (R265, R266). (DEDUCED, log entry 42). -/
def corePerform (s : State) (a : Nat) (o : CoreOp) : State :=
  let h := o.hdr
  let send := fun (s : State) (h : FabHdr) => emit s (.unitOp o.src o.tag h o.size8 o.lanes)
  if h.op = 6 then send s h
  else if h.dstBlock ≠ blockId s then fabSubmit s h (.core a o.core o.tag)
  else match targetOf s h.loc with
  | .data q off =>
    if q = o.src.part then coreData s a o off
    else rangeResponse s o.src.part (dataBase s q + off) false
  | .bar b off =>
    if !(h.op == 2 && off == 0) && !(h.op == 3 && (off == 8 || off == 16)) then
      let (s, v) := barOther s b o.src off (h.op == 1) (h.op == 3)
      coreGot s a o 0 v (if h.op = 4 then List.replicate 256 0 else [])
    else
    let rec' := pairOf (pairsOf s a o.core o.btag o.group) b
    send s (if off = 8 then { h with cmp := BitVec.ofNat 64 (rec'.elim 0 fun p => 2 ^ 16 + p.toNat) } else h)
  | .chan _ _ => send s h
  | .sum _ _ => send s h
  | .tally g t =>
    if h.op = 1 then
      let (r, s) := tallyRead s g t o.src.part
      coreGot s a o 0 (BitVec.ofNat 64 r) []
    else send s h
  | .none => raise (coreGot s a o 5 0 []) 0x1001 .up o.src.part (blockId s)

/-- Whether an operation of a core must wait in the agent: a write behind a held write to the same block, a final write
or release behind earlier writes of its sequence (R274, R277), or a read behind an acquire (R278). `before` holds the core's
earlier operations. -/
def coreMustWait (own : Nat) (before : List CoreOp) (h : FabHdr) : Bool :=
  let same := fun (o : CoreOp) => o.hdr.dstBlock == h.dstBlock
  let open_ := before.filter fun o => isWrite o.hdr && o.got.isNone
  let fin := isFinal h && (h.dstBlock == own || h.ord)
  (isWrite h && before.any fun o => o.held && isWrite o.hdr && same o) ||
  (fin && open_.any fun o => if h.ord then (o.hdr.dstBlock == own && decide (1 ≤ h.scope)) || same o || decide (2 ≤ h.scope)
                             else same o && !isFinal o.hdr) ||
  ((h.op == 1 || h.op == 4) && before.any fun o => o.hdr.op == 1 && o.hdr.ord)

/-- The open sequences of an agent's sources to its own block: a unit and a partition each (R275). -/
def agtSeqs (s : State) (a : Nat) : List (Nat × Nat) :=
  let x := agt s a
  let live := fun (o : CoreOp) => isWrite o.hdr && o.hdr.dstBlock == blockId s && !o.held && o.got.isNone
  let cores : List (Nat × Nat) := (x.ops.filter live).map fun o => (o.core, o.src.part)
  let layer : List (Nat × Nat) := if x.rkn.writes.isEmpty then [] else x.rkn.launch.toList.map fun l => (16, l.part)
  (cores ++ layer).eraseDups

/-- Whether a write of unit `u` and partition `p` to the own block finds no entry of the agent's sequence table, which has 64
with 2 in reserve for each partition and 32 shared (R275). -/
def agtSeqFull (s : State) (a u p : Nat) : Bool :=
  !(agtSeqs s a).contains (u, p) && !hasCredit ((agtSeqs s a).map (·.2)) 2 32 p

/-- Whether an operation of a core waits for a sequence entry. -/
def coreSeqFull (s : State) (a : Nat) (o : CoreOp) : Bool :=
  isWrite o.hdr && o.hdr.dstBlock == blockId s && agtSeqFull s a o.core o.src.part

/-- Held operations of a core that need wait no longer leave, in order; `pick` says which may be tried. -/
def coreRelease (a core : Nat) (pick : CoreOp → Bool) : List CoreOp → List CoreOp → State → State
  | _, [], s => s
  | before, o :: r, s =>
    if o.core = core ∧ o.held ∧ pick o ∧ !coreMustWait (blockId s) before o.hdr ∧ !coreSeqFull s a o then
      let mine := fun (x : CoreOp) => x.core == core && x.tag == o.tag
      let s := updA s a fun x => { x with ops := updFirst mine (fun x => { x with held := false }) x.ops }
      let s := corePerform s a { o with held := false }
      let o' := ((agt s a).ops.find? mine).getD { o with held := false }
      coreRelease a core pick (before ++ [o']) r s
    else coreRelease a core pick (if o.core = core then before ++ [o] else before) r s

/-- Flits that an OP message must have (R407). -/
def opFlits (op aop : Nat) : Nat := if op = 5 then 2 else if op = 6 then (if aop = 9 then 4 else 3) else 1

/-- An OP message of a core (R407, R410). Before Ready it waits at the port for its credit (R324, R326). -/
def agentPortOp (s : State) (a : Nat) (m : OpMsg) : State :=
  if agtShut s a then agtHold s a (.op m)
  else if !m.credit ∨ m.reserved ∨ m.op = 0 ∨ 6 < m.op ∨ m.flits ≠ opFlits m.op m.aop then portErr s a
  else if !isReady s then updA s a fun x => { x with inbox := x.inbox ++ [.op m] }
  else
    let refuse := fun (s : State) => emit (portErr s a) (.ans a m.core m.tag 0xFF 0 [])
    if 64 ≤ ((agt s a).ops.filter (·.core == m.core)).length then refuse s
    else match liveBlock s a m.core m.btag with
    | none => refuse s
    | some b =>
      let s := if m.scope = 3 then count s .fabScopeBad else s
      let h : FabHdr := {
        op := m.op, final := m.final, scope := if m.scope = 3 then 2 else m.scope, ord := m.ord, srcPart := b.part,
        aop := m.aop, dstBlock := if m.op = 6 then blockId s else m.addr.toNat / 2 ^ 52, hops := 15,
        srcBlock := blockId s, srcAgent := a, srcUnit := m.core, loc := m.addr.toNat % 2 ^ 52, data := m.data,
        cmp := m.cmp, hallTag := 0, txn := 0, dcrc := BitVec.ofNat 32 (crc32c m.payload), mask := m.mask, payload := m.payload }
      let before := (agt s a).ops.filter (·.core == m.core)
      let o : CoreOp := { core := m.core, tag := m.tag, btag := m.btag, group := m.group, src := coreSrc s a b m.group,
                          hdr := h, size8 := m.size8, lanes := m.lanes, held := false, got := none }
      let wait := coreMustWait (blockId s) before h || coreSeqFull s a o
      let o := { o with held := wait }
      let s := updA s a fun x => { x with ops := x.ops ++ [o] }
      if wait then s else corePerform s a o

/-! ### Answers (R186, R196, R278, R405) -/

/-- The offset in a channel window, or none where the address is not in one. -/
def chanOff (loc : Nat) : Option Nat :=
  if 0xC000000000000 ≤ loc ∧ loc < 0xC010000000000 then some (loc % 2 ^ 24) else none

/-- The barrier and the offset in its window. -/
def barOff (loc : Nat) : Option (Nat × Nat) :=
  let x := loc - 0xC010000000000
  if 0xC010000000000 ≤ loc ∧ x < 2 ^ 22 then some (x / 64, x % 64) else none

/-- A drop or a PEER_CLOSED of a block's channel operation is charged to the block's task (R186, R124). -/
def blockOutcome (s : State) (a core btag drops : Nat) (closed : Bool) : State :=
  match (agt s a).blocks.find? fun b => b.core == core && b.tag == btag with
  | none => s
  | some b =>
    let mine := fun (t : AgtTask) => sameLaunch t.l b.node b.gen && t.l.firstBlock == b.first
    updA s a fun x => { x with tasks := updFirst mine (fun t =>
      { t with drops := min (t.drops + drops) (2 ^ 32 - 1), peerClosed := t.peerClosed || closed }) x.tasks }

/-- What an answer value means for the block's drops (R186) and the group's pairs (R196). -/
def answerNote (s : State) (a : Nat) (o : CoreOp) (v : W64) : State :=
  let s := match chanOff o.hdr.loc with
    | some 0x7FFFF0 =>
      if o.hdr.op = 3 then blockOutcome s a o.core o.btag (if v.toNat % 4 = 1 then 1 else 0) (v.toNat % 4 == 2) else s
    | some 0x7FFFF8 => if o.hdr.op = 2 then blockOutcome s a o.core o.btag 0 (v.toNat == 2) else s
    | _ => s
  match barOff o.hdr.loc with
  | some (b, off) =>
    let l := pairsOf s a o.core o.btag o.group
    if o.hdr.op = 3 ∧ !bitOf v.toNat 63 ∧ o.hdr.dstBlock = blockId s then
      if off = 8 then setPairs s a o.core o.btag o.group (recordPair l b (BitVec.ofNat 16 v.toNat))
      else if off = 16 then
        let ph := BitVec.ofNat 16 o.hdr.data.toNat
        setPairs s a o.core o.btag o.group (l.filter fun x => !(x.bar == b && x.phase == ph))
      else s
    else s
  | none => s

/-- An answer to a core's operation reaches the agent (R186, R405): its own block's outcome where the operation was
performed here, else the answer as given. -/
def coreAnswer (s : State) (a core tag st : Nat) (v : W64) (b : Bytes) : State :=
  if agtShut s a then agtHold s a (.answer core tag st v b)
  else
    let mine := fun (o : CoreOp) => o.core == core && o.tag == tag && !o.held
    match takeFirst mine (agt s a).ops with
    | none => count s .fabOrphanRsp
    | some (o, rest) =>
      let (st, v, b) := o.got.getD (st, v, b)
      let s := updA s a fun x => { x with ops := rest }
      let s := if st = 0 then answerNote s a o v else s
      let s := emit s (.ans a core tag st v b)
      if o.hdr.ord ∧ o.hdr.op = 1 then
        coreRelease a core (fun x => x.hdr.op == 1 || x.hdr.op == 4) [] ((agt s a).ops.filter (·.core == core)) s
      else s

/-! ### Capacity and activity (R408, R409) -/

/-- A capacity record of a core is taken; after Ready it goes on to DIS (R99, R408). -/
def capacityRecord (s : State) (a core : Nat) (r : Res) : State :=
  if !(agt s a).portRdy ∨ 16 ≤ core then s
  else
    let s := updA s a fun x => { x with capRec := x.capRec.put core r }
    if isReady s then emit s (.cap a { core := core, rknFree := false, part := 0, res := r }) else s

/-- Activity of a launch is reported, at most once in a window (R340). -/
def activity (s : State) (a n : Nat) (gen : BitVec 16) : State :=
  if (agt s a).acts.contains (n, gen) then s
  else progress (updA s a fun x => { x with acts := x.acts ++ [(n, gen)] }) (queueOfNode s n)

/-- A core raises its activity indication (R409). -/
def apAct (s : State) (a core : Nat) : State :=
  ((agt s a).blocks.filter fun b => b.core == core && b.started).foldl (fun s b => activity s a b.node b.gen) s

end Sys2Proof.Machine
end

