-- ==== Sys2Proof/Machine/Rkn.lean ====
section
/-!
DEFINITION. The Reckoner sequencer (chapter 05): registers and memories, descriptors, setup, ends and halts, cursors and
claims, requests and their answers, aborts of LAYER launches, code loads and the standby (R123–R145, R167–R172, R187,
R191, R336, R337, R397).
-/

namespace Sys2Proof.Machine

open Sys2Proof

/-! ### Registers and memories -/

/-- The active Reckoner of an agent. -/
def rkn (s : State) (a : Nat) : Rkn := (agt s a).rkn

/-- The active Reckoner of an agent changed. -/
def updR (s : State) (a : Nat) (f : Rkn → Rkn) : State := updA s a fun x => { x with rkn := f x.rkn }

/-- A scalar register; s0 reads as 0. -/
def getS (s : State) (a i : Nat) : W64 := if i = 0 then 0 else (rkn s a).sreg.look i

/-- A scalar register written; a result written to s0 is discarded (R149). -/
def setS (s : State) (a i : Nat) (v : W64) : State := if i = 0 then s else updR s a fun r => { r with sreg := r.sreg.put i v }

/-- Whether a scalar register awaits a result (R133, R149). -/
def isPend (s : State) (a i : Nat) : Bool := i != 0 && (rkn s a).pend.getLsbD i

/-- A register's pending mark set or cleared. -/
def setPend (s : State) (a i : Nat) (b : Bool) : State :=
  let m : BitVec 32 := (1 : BitVec 32) <<< i
  if i = 0 then s else updR s a fun r => { r with pend := if b then r.pend ||| m else r.pend &&& ~~~m }

/-- `n` bytes of DMEM from an address. -/
def dmemRead (m : Tab Byte) (o : Nat) : Nat → Bytes
  | 0 => []
  | n + 1 => m.look o :: dmemRead m (o + 1) n

/-- The launch of a Reckoner, an empty one where it runs none. -/
def rknLaunch (s : State) (a : Nat) : Launch := ((rkn s a).launch).getD default

/-- The partition of the layer program. -/
def rknPart (s : State) (a : Nat) : Nat := (rknLaunch s a).part

/-- The source of a Reckoner's requests (R267). -/
def rknSrc (s : State) (a : Nat) : Src :=
  let l := rknLaunch s a
  { block := blockId s, agent := a, unit := 16, part := l.part, node := l.node, gen := l.gen, group := 0 }

/-- Whether the debug level is full for a partition (R51, R138). -/
def debugFull (s : State) (p : Nat) : Bool := s.obs.dbgLevel == 2 && s.obs.dbgMask.getLsbD p

/-! ### Tensor descriptors (R126–R128, R131, R135) -/

/-- Fields of a tensor descriptor. -/
def tdFmt (d : BitVec 512) : Nat := bitsOf d.toNat 3 0
def tdSpace (d : BitVec 512) : Nat := bitsOf d.toNat 5 4
def tdRank (d : BitVec 512) : Nat := bitsOf d.toNat 7 6 + 1
def tdCore (d : BitVec 512) : Nat := bitsOf d.toNat 11 8
def tdRows (d : BitVec 512) : Nat := bitsOf d.toNat 31 16
def tdCols (d : BitVec 512) : Nat := bitsOf d.toNat 47 32
def tdBase (d : BitVec 512) : Nat := bitsOf d.toNat 127 64
def tdDim (d : BitVec 512) (i : Nat) : Nat := bitsOf d.toNat (159 + 32 * i) (128 + 32 * i)
def tdStride (d : BitVec 512) (i : Nat) : Nat := bitsOf d.toNat (255 + 32 * i) (224 + 32 * i)

/-- The bits of a descriptor that its rank names. -/
def tdMask (rank : Nat) : Nat :=
  maskBits 11 0 + maskBits 47 16 + maskBits 127 64 + maskBits (127 + 32 * rank) 128 +
    (if 1 < rank then maskBits (223 + 32 * rank) 256 else 0)

/-- A descriptor with its BASE replaced. -/
def tdSetBase (d : BitVec 512) (b : W64) : BitVec 512 :=
  BitVec.ofNat 512 (d.toNat - tdBase d * 2 ^ 64 + b.toNat * 2 ^ 64)

/-- The first check of R128 that a descriptor fails: its halt reason. R128 names no check of "TILE_R at least 1", "TILE_C at least
1" and "1 for rank 1", which the descriptor's table states; a descriptor that breaks them fails with DESCRIPTOR_MISMATCH.
(DESIGN CHOICE, log entry 90). -/
def tdCheck (d : BitVec 512) (blocks : Nat) : Option Nat :=
  let es := elemSize (tdFmt d)
  let rank := tdRank d
  let x := d.toNat
  if 4 < tdFmt d ∨ x - (x &&& tdMask rank) ≠ 0 then some 0x0B
  else if tdBase d % es ≠ 0 ∨ (List.range' 1 (rank - 1)).any fun i => tdStride d i % es != 0 then some 7
  else if ((List.range rank).any fun i => tdDim d i == 0) ∨ (1 < rank ∧ tdStride d 1 < tdDim d 0 * es) ∨
      tdDim d 0 < tdCols d ∨ (1 < rank ∧ tdDim d 1 < tdRows d) ∨ (tdSpace d = 0 ∧ blocks ≤ tdCore d) ∨
      tdRows d = 0 ∨ tdCols d = 0 ∨ (rank = 1 ∧ tdRows d ≠ 1) then some 3
  else none

/-- Extent of an operand in bytes (R131). -/
def tdExtent (d : BitVec 512) : Nat := (tdRows d - 1) * tdStride d 1 + tdCols d * elemSize (tdFmt d)

/-- Packed size of an operand in bytes (R168). -/
def tdPacked (d : BitVec 512) : Nat := tdRows d * tdCols d * elemSize (tdFmt d)

/-- The entry that a handle names, where the launch may use it (R127). -/
def usableTd (s : State) (a h : Nat) : Option (BitVec 512) :=
  let e := (agt s a).td.look h
  if h < 4096 ∧ e.valid ∧ e.part = rknPart s a then some e.bits else none

/-- IDX of a loop level, 0 where it is not active. -/
def loopIdx (r : Rkn) (l : Nat) : Nat := if l < r.depth then (r.loops.look l).idx.toNat else 0

/-- The cursor of an operand (R135). -/
def cursor (s : State) (a : Nat) (d : BitVec 512) (mask : Nat) : W64 :=
  let r := rkn s a
  ((List.range 8).filter fun k => bitOf mask k).foldl (fun c k =>
    let i := r.incs.look k
    c + BitVec.ofInt 64 (i.stride.toInt * (loopIdx r i.level : Int))) (BitVec.ofNat 64 (tdBase d))

/-- The physical core of a layer core. -/
def physCore (s : State) (a k : Nat) : Nat := (rkn s a).cores.getD k 0

/-- The end of a space (R131): local memory of a physical core, the partition's data region, or 2^64. -/
def spaceEnd (s : State) (a core : Nat) (d : BitVec 512) : Nat :=
  match tdSpace d with
  | 0 => ((agt s a).capRec.look core).lmem
  | 1 => dataSize s (rknPart s a)
  | _ => 2 ^ 64

/-- The tile of a request, at its cursor. -/
def tileOf (s : State) (a : Nat) (d : BitVec 512) (c : W64) : Tile :=
  { fmt := tdFmt d, space := tdSpace d, core := physCore s a (tdCore d), base := c,
    stride := if tdRank d = 1 then 0 else tdStride d 1, rows := tdRows d, cols := tdCols d }

/-! ### Halts, launches and setup (R126, R137, R140) -/

/-- A halt of the running or starting layer program at an instruction, or at 0xFFFF in setup: nothing further is fetched or
issued, and the rest follows once what has been issued is complete (R137). -/
def rknHaltAt (s : State) (a reason addr : Nat) (inj : Bool) : State :=
  updR s a fun r => { r with st := .halting, halted := true, halt := some { reason := reason, addr := addr, inj := inj },
                             stepping := false }

/-- The halt that the Reckoner of agent `a` holds is recorded and counted (R137). -/
def rknHaltNote (s : State) (a : Nat) : State :=
  match (rkn s a).halt with
  | none => s
  | some h => haltNote s a h.reason h.addr (rknLaunch s a).node (rknLaunch s a).part

/-- A LAYER launch reaches agent `a` (R126, R140). -/
def layerLaunch (s : State) (a : Nat) (l : Launch) : State :=
  if agtShut s a then s
  else if injArmed s 0x0901 (· == a) then raiseInj (injFire (count s (.agtBadLaunch a))) 0x0901 .ud 0 a true
  else if (rkn s a).st ≠ .idle then raise (count s (.agtBadLaunch a)) 0x0901 .ud 0 a
  else
    let cores := ((List.range 16).zip l.coreBlocks).filterMap fun e => if e.2 = 0 then none else some e.1
    updR s a fun r => { r with st := .setup, launch := some l, cores := cores, drops := 0, peerClosed := false,
                               halted := false, halt := none, writes := [], line := [], atBreak := false,
                               stepping := false, sb := [], ops := [], reqs := [], pairs := [] }

/-- The named bits of a layer's kernel descriptor (chapter 05). -/
def kdMask : List (Nat × Nat × Nat) :=
  [(0, 0, 8), (8, 0, 16), (0x10, 0, 40), (0x18, 0, 12), (0x1A, 0, 13), (0x20, 0, 40), (0x28, 0, 18), (0x2C, 0, 19),
   (0x30, 0, 1)]

/-- Step 1 of setup: the halt reason of a kernel descriptor, or none. R126's table names ALIGN for ENTRY alone; TD_SRC, DMEM_SRC,
DMEM_OFF and DMEM_LEN, which their fields' descriptions align, halt with it too. (DESIGN CHOICE, log entry 91). -/
def kdCheck (b : Bytes) : Option Nat :=
  let f := fun o n => Bytes.fld b o 0 n
  if f 0 8 ≠ 2 then some 3
  else if (lowestReserved (leNat b) (fieldMask kdMask) 256).isSome then some 0x0B
  else if f 8 16 % 8 ≠ 0 ∨ f 0x10 40 % 64 ≠ 0 ∨ f 0x20 40 % 256 ≠ 0 ∨ f 0x28 18 % 256 ≠ 0 ∨ f 0x2C 19 % 256 ≠ 0 then some 7
  else none

/-- Step 4 of setup: descriptors from `b` written to entries from `h` on, up to the first that fails. -/
def loadTds (a part blocks : Nat) : Nat → Nat → Bytes → State → State × Option Nat
  | 0, _, _, s => (s, none)
  | n + 1, h, b, s =>
    let d := BitVec.ofNat 512 (leNat (b.take 64))
    match tdCheck d blocks with
    | some r => (updA s a fun x => { x with td := x.td.upd h fun e => { e with valid := false } }, some r)
    | none =>
      let e : TdEntry := { valid := true, part := part, bits := d }
      loadTds a part blocks n (h + 1) (b.drop 64) (updA s a fun x => { x with td := x.td.put h e })

/-- Step 6 of setup. -/
def setupRegs (r : Rkn) (l : Launch) (entry : Nat) : Rkn :=
  let regs : Tab W64 := ((Tab.put [] 1 l.arg).put 2 (BitVec.ofNat 64 l.node)).put 3 (BitVec.ofNat 64 l.blocks)
  { r with st := .running, sreg := regs, pend := 0, loops := [], depth := 0, incs := [], slots := [],
           pc := BitVec.ofNat 16 entry }

/-- Setup's reads and checks end (R126): the Reckoner runs from ENTRY, or halts. A launch that halts in step 1 counts neither as
the previous layer program nor as the last launch of step 2. (DESIGN CHOICE, log entry 91). -/
def layerSetup (s : State) (a : Nat) : State :=
  if agtShut s a ∨ (rkn s a).st ≠ .setup then s
  else
    let l := rknLaunch s a
    let p := l.part
    let halt := fun (s : State) r => rknHaltAt s a r 0xFFFF false
    let (b, s) := readPart s p l.kdesc 256
    match kdCheck b with
    | some r => halt s r
    | none =>
      let f := fun o n => Bytes.fld b o 0 n
      let zero := f 0x30 1 = 1 || (rkn s a).swappedIn || ((rkn s a).prevPart.any (· != p))
      let s := updR s a fun r => { r with dmem := if zero then [] else r.dmem, prevPart := some p, swappedIn := false }
      let off := f 0x28 18
      let len := f 0x2C 19
      if 262144 < off + len then halt s 5
      else
        let (d, s) := readPart s p (f 0x20 40) len
        let s := updR s a fun r => { r with dmem := memPut r.dmem off d }
        let first := f 0x18 12
        let n := f 0x1A 13
        if 4096 < first + n then halt s 2
        else
          let (t, s) := readPart s p (f 0x10 40) (64 * n)
          match loadTds a p l.blocks n first t s with
          | (s, some r) => halt s r
          | (s, none) =>
            let s := updR s a fun r => { r with dmem := memPut r.dmem 0 (leBytes 64 l.params.toNat) }
            updR s a fun r => setupRegs r l (f 8 16)

/-! ### Ends and aborts (R136, R137, R336) -/

/-- One occupancy return for each layer core, RKN_FREE on the last (R136). -/
def returnLayer (s : State) (a : Nat) : State :=
  let l := rknLaunch s a
  let cores := (rkn s a).cores
  ((List.range cores.length).zip cores).foldl (fun s e =>
    emit s (.occ a { core := e.2, rknFree := e.1 + 1 == cores.length, part := l.part, res := launchNeed l } l.node l.gen)) s

/-- The Reckoner is IDLE and holds no launch. -/
def rknIdle (s : State) (a : Nat) : State :=
  updR s a fun r => { r with st := .idle, launch := none, cores := [], sb := [], ops := [], reqs := [], pairs := [],
                             halted := false, halt := none, writes := [], line := [], atBreak := false, stepping := false }

/-- Every operation of an ending, halting or aborting Reckoner is answered (R136, R137, R336): a halt is recorded, the occupancy
returns, the retirement leaves, and a halt's fault follows. -/
def rknDrained (s : State) (a : Nat) : State :=
  let r := rkn s a
  let l := rknLaunch s a
  if agtShut s a then s
  else if (r.st = .ending ∨ r.st = .halting) ∧ r.ops = [] ∧ r.reqs = [] then
    let res : RetResult := if r.halted then .halted else if r.peerClosed then .peerClosed else .done
    let s := returnLayer (rknHaltNote s a) a
    let s := emit s (.notice a l.node l.gen r.pairs)
    let s := rknIdle (emit s (.retire a l.retTo l.node l.gen res r.drops)) a
    match r.halt with
    | none => s
    | some h => haltFault s a h.reason l.part h.inj
  else if r.st = .aborting ∧ r.ops = [] then rknIdle (returnLayer s a) a
  else s

/-- The core, the engine and the tag of a downstream engine command; a configuration write has no operation of its tag. -/
def engMsg : DnMsg → Option (Nat × Nat × Option Nat)
  | .engCmd core eng tag .. => some (core, eng, some tag)
  | .engCfg core eng _ _ _ => some (core, eng, none)
  | _ => none

/-- An abort of a LAYER launch (R336): fetch stops, and what has not left the agent is discarded, its section credits with it
(R123). A halt that has not sent its retirement is still recorded and counted (R137). (DEDUCED, log entry 58). -/
def abortLayer (s : State) (a n : Nat) (gen : BitVec 16) : State :=
  let r := rkn s a
  if !(r.launch.any fun l => sameLaunch l n gen) ∨ r.st = .idle ∨ r.st = .aborting ∨ r.st = .loading then s
  else
    let unsent := (agt s a).dnQ.filterMap engMsg
    let s := rknHaltNote s a
    let s := updA s a fun x => { x with
      dnQ := x.dnQ.filter fun m => (engMsg m).isNone,
      eqUsed := unsent.foldl (fun t e => t.upd (4 * e.1 + e.2.1) (· - 1)) x.eqUsed }
    let s := updR s a fun r => { r with st := .aborting,
                                        ops := r.ops.filter fun o => !unsent.any fun e => e.1 == o.core && e.2.2 == some o.tag,
                                        reqs := [], halt := none, writes := [], line := [], stepping := false }
    orphan s fun w => match w with
      | .rkn a' _ => a' == a
      | _ => false

/-- An abort flit reaches agent `a` (R334–R336). -/
def abortFlit (s : State) (a n : Nat) (gen : BitVec 16) : State :=
  if agtShut s a then s else abortLayer (abortTask s a n gen) a n gen

/-! ### The scoreboard (R131, R132) -/

/-- A region that an operation claims. -/
structure Claim4 where
  space : Nat
  core : Nat
  lo : Nat
  hi : Nat
  write : Bool
  deriving DecidableEq, Repr, Inhabited

/-- Whether a claim conflicts with an entry (R132, R167): `eng` and `core` are those of the claiming engine operation, none
for a request. -/
def conflicts (c : Claim4) (own : Option (Nat × Nat)) (e : SbEntry) : Bool :=
  e.space == c.space && (c.space != 0 || e.core == c.core) && decide (c.lo < e.hi) && decide (e.lo < c.hi) &&
    (c.write || e.write) &&
    (match own with
      | some (eng, core) => e.req || e.eng != eng || e.engCore != core
      | none => true)

/-- The claim of an operand at its cursor on a physical core. -/
def claimOf (d : BitVec 512) (c : W64) (core : Nat) (write : Bool) : Claim4 :=
  { space := tdSpace d, core := if tdSpace d = 0 then core else 0, lo := c.toNat, hi := c.toNat + tdExtent d, write := write }

/-- Whether claims can be entered now: free entries, and no conflict. -/
def sbReady (s : State) (a : Nat) (l : List (Claim4 × Option (Nat × Nat))) : Bool :=
  decide ((rkn s a).sb.length + l.length ≤ 64) && l.all fun e => !(rkn s a).sb.any (conflicts e.1 e.2)

/-! ### Requests (R167, R187, R191) -/

/-- A window operation on a unit of this block, with its request as the tag. -/
def rknUnit (s : State) (a : Nat) (q : Nat) (op loc : Nat) (data : W64) (mask : Nat) (final : Bool) (payload : Bytes) :
    State :=
  let src := rknSrc s a
  let h : FabHdr := { op := op, final := final, scope := 0, ord := false, srcPart := src.part, aop := 0,
                      dstBlock := blockId s, hops := 15, srcBlock := blockId s, srcAgent := a, srcUnit := 16, loc := loc,
                      data := data, cmp := 0, hallTag := 0, txn := 0, dcrc := BitVec.ofNat 32 (crc32c payload),
                      mask := BitVec.ofNat 32 mask, payload := payload }
  emit s (.unitOp src q h true [])

/-- A write of the Reckoner to a channel of this block: it is on its way until CHN performs it (R274). -/
def rknWrite (s : State) (a q op c off : Nat) (data : W64) (mask : Nat) (payload : Bytes) : State :=
  rknUnit (updR s a fun r => { r with writes := r.writes ++ [(c, off)] }) a q op (0xC000000000000 + c * 2 ^ 24 + off) data mask
    false payload

/-- Local address of an offset in a channel window. -/
def chanLoc (c off : Nat) : Nat := 0xC000000000000 + c * 2 ^ 24 + off

/-- A request of a Reckoner changed. -/
def updReq (s : State) (a id : Nat) (f : RknReq → RknReq) : State :=
  updR s a fun r => { r with reqs := updFirst (·.id == id) f r.reqs }

/-- A CSEND leaves the agent: its RESERVE (R187). -/
def csendReserve (s : State) (a : Nat) (q : RknReq) : State :=
  rknUnit (updReq s a q.id fun x => { x with held := false, sent := 0 }) a q.id 3 (chanLoc q.target 0x7FFFF0)
    (BitVec.ofNat 64 (tdPacked q.td)) 0xFF false []

/-- A request is answered: RD takes its value, and its place and its claims are free (R149, R167). The next CSEND to the
same channel leaves (R187). -/
def reqDone (s : State) (a : Nat) (q : RknReq) (v : W64) : State :=
  let s := setPend (setS s a q.rd v) a q.rd false
  let s := updR s a fun r => { r with reqs := r.reqs.filter (·.id != q.id), line := r.line.erase q.id,
                                      sb := r.sb.filter fun e => !(e.req && e.id == q.id) }
  if q.kind = .csend then
    match (rkn s a).reqs.find? fun x => x.kind == .csend && x.target == q.target && x.held with
    | some x => csendReserve s a x
    | none => s
  else s

/-- Rows of a tile: the byte offsets of each from its cursor, and the bytes in a row. -/
def tileRows (t : Tile) : List Nat × Nat := ((List.range t.rows).map (· * t.stride), t.cols * elemSize t.fmt)

/-- The tile of a request. -/
def reqTile (s : State) (a : Nat) (q : RknReq) : Tile := tileOf s a q.td (BitVec.ofNat 64 q.lo)

/-- A packet's bytes are written into a tile from its first element, row by row (R168, R191). -/
def writeTile (a p : Nat) (t : Tile) : List Nat → Nat → Bytes → State → State
  | [], _, _, s => s
  | o :: r, w, b, s => writeTile a p t r w (b.drop w) (tileWrite s a p t.space t.core (t.base.toNat + o) (b.take w))

/-- SEND_DATA writes of packed bytes, 256 at a time from offset `o`. -/
def sendData (a : Nat) (q : RknReq) : Nat → Nat → Bytes → State → State
  | 0, _, _, s => s
  | n + 1, o, b, s => if b = [] then s
    else sendData a q n (o + 256) (b.drop 256) (rknWrite s a q.id 5 q.target o 0 0xFFFFFFFF (b.take 256))

/-! ### Final writes of a Reckoner (R170, R274–R277) -/

/-- Where the writes of a request go: a block, or 4,096 for host memory. -/
def reqDst (s : State) (q : RknReq) : Nat :=
  if q.kind = .rst then (if q.host then 4096 else q.hdr.dstBlock) else blockId s

/-- Whether a write of request `id` to `d` stands behind one that waits in the agent: writes of one source to one block keep
their order there (R274). -/
def lineBlocks (s : State) (a id d : Nat) : Bool :=
  ((rkn s a).line.takeWhile (· != id)).any fun i => (rkn s a).reqs.any fun q => q.id == i && reqDst s q == d

/-- Request `id` takes its place among those whose writes wait. -/
def joinLine (s : State) (a id : Nat) : State :=
  updR s a fun r => { r with line := if r.line.contains id then r.line else r.line ++ [id] }

/-- Request `id` waits no longer. -/
def leaveLine (s : State) (a id : Nat) : State := updR s a fun r => { r with line := r.line.erase id }

/-- Whether a write of the Reckoner to this block has not been performed. -/
def ownWritesOpen (s : State) (a : Nat) : Bool :=
  !(rkn s a).writes.isEmpty ||
    (rkn s a).reqs.any fun q => q.kind == .rst && !q.held && q.got.isNone && reqDst s q == blockId s

/-- Whether a release RST may leave: every earlier request is answered, every earlier engine operation that writes outside
local memory is complete, and no earlier write is on its way (R170, R277). -/
def releaseReady (s : State) (a id : Nat) : Bool :=
  !((rkn s a).reqs.any fun q => decide (q.id < id)) && !((rkn s a).ops.any fun o => o.outside && decide (o.at_ ≤ id)) &&
    (rkn s a).writes.isEmpty

/-- Whether an RST must wait in the agent: behind writes that wait, as a release, or for a sequence entry. -/
def rstWaits (s : State) (a : Nat) (q : RknReq) : Bool :=
  lineBlocks s a q.id (reqDst s q) || (q.hdr.ord && !releaseReady s a q.id) ||
    (reqDst s q == blockId s && agtSeqFull s a 16 (rknPart s a))

/-- A granted CSEND writes its packet's bytes, unless they wait behind other writes; its commit is held from then on
(R185, R187, R274). -/
def csendWrite (s : State) (a : Nat) (q : RknReq) : State :=
  if lineBlocks s a q.id (blockId s) || agtSeqFull s a 16 (rknPart s a) then s
  else sendData a q (q.data.length / 256 + 1) 0 q.data (updReq s a q.id fun q => { q with sent := 3, data := [] })

/-- The commit of a CSEND leaves once every earlier write to this block has been performed (R184, R274). -/
def csendCommit (s : State) (a : Nat) (q : RknReq) : State :=
  if lineBlocks s a q.id (blockId s) || ownWritesOpen s a then s
  else
    rknUnit (leaveLine (updReq s a q.id fun q => { q with sent := 1 }) a q.id) a q.id 2 (chanLoc q.target 0x7FFFF8)
      (BitVec.ofNat 64 (bitsOf q.grant.toNat 31 16)) 0xFF true []

/-- An answer of CHN to a CSEND (R187). `data` holds the packed bytes of a tile outside the Slate.
(DESIGN CHOICE, log entry 79). -/
def csendAnswer (s : State) (a id : Nat) (v : W64) (data : Bytes) : State :=
  match (rkn s a).reqs.find? fun q => q.id == id && q.kind == .csend && !q.held with
  | none => count s .fltLateAns
  | some q =>
    let x := v.toNat % 4
    let c := q.target
    if agtShut s a then agtHold s a (.csend id v data)
    else if 2 ≤ q.sent then count s .fltLateAns
    else if q.sent = 0 then
      if x = 0 then
        let (b, s) := tileBytes s (rknPart s a) (reqTile s a q) data
        let q := { q with sent := 2, grant := v, data := b }
        csendWrite (joinLine (updReq s a id fun _ => q) a id) a q
      else if x = 1 then reqDone (updR s a fun r => { r with drops := min (r.drops + 1) (2 ^ 32 - 1) }) a q 1
      else if x = 2 then reqDone (updR s a fun r => { r with peerClosed := true }) a q 2
      else
        let inj := s.chn.refused.look c
        raiseInj { s with chn.refused := s.chn.refused.put c false } 0x0B03 .up (rknPart s a) c inj
    else if x = 0 then reqDone s a q 0
    else if x = 1 then
      if 3 ≤ q.resends then
        let inj := (s.chn.inverted.look c).isSome
        raiseInj { s with chn.inverted := s.chn.inverted.put c none } 0x0B02 .up (rknPart s a) c inj
      else csendReserve (updReq s a id fun q => { q with resends := q.resends + 1 }) a { q with resends := q.resends + 1 }
    else if x = 2 then reqDone (updR s a fun r => { r with peerClosed := true }) a q 2
    else
      let (w, s) := freeWord s
      reqDone s a q w

/-- A CRECV that has its packet releases the claim slot, once no write of the Reckoner to this block waits before it, and writes
its outcome (R191, R274). -/
def crecvRelease (s : State) (a : Nat) (q : RknReq) : State :=
  if lineBlocks s a q.id (blockId s) || agtSeqFull s a 16 (rknPart s a) then
    joinLine (updReq s a q.id fun _ => { q with sent := 2 }) a q.id
  else
    let s := rknWrite s a q.id 2 q.target 0xFC0008 (BitVec.ofNat 64 (bitsOf q.grant.toNat 40 36)) 0xFF []
    reqDone s a q (BitVec.ofNat 64 (bitsOf q.grant.toNat 31 0))

/-- An answer of CHN to a CRECV's CLAIM (R191). -/
def crecvAnswer (s : State) (a id : Nat) (v : W64) : State :=
  match (rkn s a).reqs.find? fun q => q.id == id && q.kind == .crecv && q.sent == 0 with
  | none => count s .fltLateAns
  | some q =>
    let x := v.toNat
    if agtShut s a then agtHold s a (.crecv id v)
    else if bitsOf x 35 32 = 0 then
      let k := bitsOf x 40 36
      let n := bitsOf x 31 0
      let (b, s) := match (chan s q.target).claims.look k with
        | some p => pktRead s p 0 n
        | none => (List.replicate n 0, s)
      let t := reqTile s a q
      let s := writeTile a (rknPart s a) t (tileRows t).1 (tileRows t).2 b s
      crecvRelease s a { q with grant := v }
    else
      let s := if bitOf x 33 then count s (.rknRecvShort a) else s
      reqDone s a q (BitVec.ofNat 64 (x % 2 ^ 35))

/-- An answer to any other request (R167, R172, R196). A word performed in this block has its value already. -/
def requestAnswer (s : State) (a id : Nat) (v : W64) : State :=
  match (rkn s a).reqs.find? fun q => q.id == id && !q.held && !q.host && q.kind != .csend && q.kind != .crecv with
  | none => count s .fltLateAns
  | some q =>
    if agtShut s a then agtHold s a (.request id v)
    else
      let v := q.got.getD v
      let bit := !bitOf v.toNat 63
      let s := match q.kind with
        | .bara => if bit then updR s a fun r => { r with pairs := recordPair r.pairs q.target (BitVec.ofNat 16 v.toNat) } else s
        | .barw => if bit then updR s a fun r => { r with pairs := r.pairs.filter fun x =>
            !(x.bar == q.target && x.phase.toNat == q.lo) } else s
        | .route => updR s a fun r => { r with drops := min (r.drops + v.toNat / 2 ^ 32) (2 ^ 32 - 1) }
        | _ => s
      reqDone s a q v

/-- The value of a host-word transaction reaches its Reckoner (R397). -/
def hostAnswer (s : State) (a id : Nat) (v : W64) : State :=
  match (rkn s a).reqs.find? fun q => q.id == id && q.host with
  | none => count s .fltLateAns
  | some q => if agtShut s a then agtHold s a (.hostWord id v) else reqDone s a q v

/-- A host-word transaction completes (R397): an error raises HIF_HOST_ERR and leaves the request unanswered. -/
def hostWordResponse (s : State) (a id : Nat) (v : W64) (err : Bool) : State :=
  match takeFirst (fun (w : HostWord) => w.agent == a && w.req == id) s.hif.words with
  | none => s
  | some (w, rest) =>
    let s := { s with hif.words := rest }
    let inj := injArmed s 0x0103 (· == a)
    let s := if inj then injFire s else s
    if err ∨ inj then raiseInj (count s .hifUnmapped) 0x0103 .up w.part a inj
    else hostAnswer s a id v

/-! ### Words of RLD, RST and ATOM (R170) -/

/-- An operation on a hall word leaves the agent, or is performed where the word lies in this block (R265). -/
def rknWord (s : State) (a : Nat) (q : RknReq) : State :=
  let h := q.hdr
  let src := rknSrc s a
  let p := src.part
  let got := fun (s : State) (v : W64) => updReq s a q.id fun q => { q with got := some v, held := false }
  let s := updReq s a q.id fun q => { q with held := false }
  if h.dstBlock ≠ blockId s then fabSubmit s h (.rkn a q.id)
  else match targetOf s h.loc with
  | .data r o =>
    if r ≠ p then rangeResponse s p (dataBase s r + o) false
    else if h.op = 1 then
      let (v, s) := wordRead s p o
      got (if h.ord then acquireCheck s (tagWord s (dataBase s p + o)) h.scope a 16 else s) v
    else if h.op = 2 then
      let s := wordWrite s p o h.data 0xFF
      got (if h.ord then setTag s (dataBase s p + o) h.scope (blockId s) a 16 else s) 0
    else
      let (v, s) := wordAtomic s p o h.aop h.data h.cmp src
      got s v
  | .tally g t =>
    if h.op = 1 then
      let (r, s) := tallyRead s g t p
      got s (BitVec.ofNat 64 r)
    else emit s (.unitOp src q.id h true [])
  | .none => raise s 0x1001 .up p (blockId s)
  | _ => emit s (.unitOp src q.id h true [])

/-- A host word goes to the CHI requester (R397); an address at or above 2^52 counts as an error response (R396). -/
def rknHostWord (s : State) (a : Nat) (q : RknReq) : State :=
  let h := q.hdr
  let w : HostWord := { agent := a, req := q.id, op := if h.op = 3 then 2 + h.aop else h.op - 1, part := rknPart s a,
                        addr := q.lo, data := h.data, cmp := h.cmp }
  let s := updReq s a q.id fun q => { q with held := false }
  if Config.hostTop ≤ q.lo then raise (count s .hifUnmapped) 0x0103 .up (rknPart s a) a
  else emit { s with hif.words := s.hif.words ++ [w] } (.chiWord w)

/-- An RST leaves the agent, to the host or to its hall address. -/
def rstSend (s : State) (a : Nat) (q : RknReq) : State := if q.host then rknHostWord s a q else rknWord s a q

/-- What a request of the Reckoner still has to send leaves once it may: a held RST, a granted CSEND's data, its commit, or the
release of a CRECV's slot (R170, R274). -/
def rstRelease (s : State) (a id : Nat) : State :=
  match (rkn s a).reqs.find? fun q => q.id == id with
  | none => s
  | some q =>
    if agtShut s a then s
    else match q.kind with
    | .rst => if !q.held ∨ rstWaits s a q then s else rstSend (leaveLine s a id) a q
    | .csend => if q.sent = 2 then csendWrite s a q else if q.sent = 3 then csendCommit s a q else s
    | .crecv => if q.sent = 2 then crecvRelease s a q else s
    | _ => s

/-! ### Engine completions and credits (R132, R133, R407) -/

/-- ENG_DONE (R132, R133): the operation's entries are free, and a returned value reaches its register. Of an FN above 0x7F on
several cores RD takes each core's value as it arrives, and stays pending up to the last. (DESIGN CHOICE, log entry 92). -/
def engDone (s : State) (a core tag : Nat) (value : Option W64) : State :=
  let mine := fun (o : EngOp) => o.core == core && o.tag == tag
  if agtShut s a then agtHold s a (.engDone core tag value)
  else match takeFirst mine (rkn s a).ops with
  | none => portErr s a
  | some (o, rest) =>
    let s := updR s a fun r => { r with ops := rest, sb := r.sb.filter fun e => e.req || !(e.id == tag && e.engCore == core) }
    let s := if (rkn s a).st = .aborting then s
      else setPend (setS s a o.rd (value.getD 0)) a o.rd (rest.any fun x => x.rd == o.rd)
    activity s a (rknLaunch s a).node (rknLaunch s a).gen

/-- CREDIT (R407): Reckoner-section credits return; `counts` holds 64 counts of 4 bits. -/
def engCredit (s : State) (a : Nat) (counts : BitVec 256) : State :=
  if agtShut s a then agtHold s a (.credit counts)
  else updA s a fun x => { x with eqUsed := (List.range 64).foldl (fun t i =>
    t.upd i fun n => n - bitsOf counts.toNat (4 * i + 3) (4 * i)) x.eqUsed }

/-! ### Code loads (R142–R144) -/

/-- Agents that a mask selects. -/
def maskAgents (s : State) (m : Nat) : List Nat := (List.range (agentCount s)).filter fun a => bitOf m a

/-- A load of the Reckoner ends: it is IDLE, or will be once its agent runs again (R140). -/
def leaveLoading (r : Rkn) : Rkn :=
  { r with st := if r.st = .loading then .idle else r.st,
           prior := if r.st = .stopped ∧ r.prior = .loading then .idle else r.prior }

/-- The read of a code load is issued (R144). (DEDUCED, log entry 66). -/
def startLoad (s : State) (c : Cmd) : State := emit s (.chiRead (c.fld 0x10 0 64) (c.fld 0x1C 0 17))

/-- Every held Reckoner of a quiesced load of queue `q` is in LOADING: the load starts (R143). -/
def quiesceReady (s : State) (q : Nat) : State :=
  let mine := fun (l : CodeLoad) => l.q == q && !l.started
  match s.codeLoads.find? mine with
  | none => s
  | some l =>
    match liveCmd s q l.seq with
    | none => s
    | some c =>
      if (maskAgents s l.mask.toNat).all fun a => (rkn s a).st == .loading then
        startLoad { s with codeLoads := updFirst mine (fun l => { l with started := true }) s.codeLoads } c.cmd
      else s

/-- Instruction words of a byte string, written from word index `i` on. -/
def putWords : Nat → Nat → Bytes → Tab W64 → Tab W64
  | 0, _, _, t => t
  | n + 1, i, b, t => putWords n (i + 1) (b.drop 8) (t.put i (BitVec.ofNat 64 (leNat (b.take 8))))

/-- The read of a code load of queue `q` ends (R144): `errs` are the offsets of the lines that received an error
response. -/
def loadEnd (s : State) (q : Nat) (data : Bytes) (errs : List Nat) : State :=
  match takeFirst (fun (l : CodeLoad) => l.q == q && l.started) s.codeLoads with
  | none => s
  | some (l, rest) =>
    match liveCmd s q l.seq with
    | none => s
    | some c =>
      let off := c.cmd.fld 0x18 0 16
      let n := c.cmd.fld 0x1C 0 17
      let b := if errs.isEmpty then Bytes.slice data 0 n else List.replicate n (0 : Byte)
      let other := fun a => rest.any fun (x : CodeLoad) => x.mask.getLsbD a
      let s := (maskAgents s l.mask.toNat).foldl (fun s a =>
        let s := updA s a fun x => { x with held := x.held && other a }
        updR s a fun r => { (if other a then r else leaveLoading r) with
          imem := putWords (n / 8) (off / 8) b r.imem,
          imemS := putWords (n / 8) (off / 8) b r.imemS }) { s with codeLoads := rest }
      match minBy id errs with
      | some o => complete (count s .cfeRefuse) q c.cmd 0x18 o
      | none => complete s q c.cmd 0 0

/-! ### The standby and memory errors (R145, R337) -/

/-- A swap is requested; after the standby has been used, the trigger is only reported to MGT, in a record of the type that the
swap itself has (R145). (DESIGN CHOICE, log entry 93). -/
def requestSwap (s : State) (a : Nat) : State :=
  if (agt s a).spareUsed then logRecord s 7 a 1 else updA s a fun x => { x with swapReq := true }

/-- A write of FORCE (R145). (DEDUCED, log entry 15). -/
def spareForce (s : State) (a : Nat) : State := requestSwap s a

/-- The standby takes over in an ac in which the active Reckoner is IDLE (R145). -/
def standbySwap (s : State) (a : Nat) : State :=
  if (agt s a).swapReq ∧ (rkn s a).st = .idle ∧ !(agt s a).spareUsed then
    let s := updA s a fun x => { x with swapReq := false, spareUsed := true }
    let s := updR s a fun r => { r with imem := r.imemS, imemS := r.imem, dmem := r.dmemS, dmemS := r.dmem, swappedIn := true }
    logRecord (count s (.agtSpare a)) 7 a 0
  else s

/-- Corrected IMEM and DMEM errors are counted; at CE_LIMIT the standby is called for (R145). -/
def memCorrected (s : State) (a : Nat) : State :=
  let s := count s (.rknCe a)
  let lim := regFld s (agentBase a + 0x28) 15 0
  if lim ≠ 0 ∧ lim ≤ regFld s (Ctr.rknCe a).addr 31 0 then requestSwap s a else s

/-- A word of IMEM or DMEM is read with an error (R145, R337): by the scrub of an idle Reckoner, or by the layer program that
runs. `ue` says that it is uncorrectable, `ce` that it was corrected; `standby` says that the word is the standby's.
(DEDUCED, log entry 72). -/
def imemScrub (s : State) (a : Nat) (standby ce ue : Bool) : State :=
  if agtShut s a then s
  else if (rkn s a).st = .running ∧ !standby then
    if ue then requestSwap (raise s 0x0902 .up (rknPart s a) a) a
    else if ce then memCorrected s a
    else s
  else if (rkn s a).st ≠ .idle then s
  else if ue then
    let s := raise s 0x0902 .c 0 a
    if standby then s else requestSwap s a
  else if ce then memCorrected s a
  else s

/-- What waited at the input of a stopped agent is applied (R141, R353). -/
def agtTake (a : Nat) (s : State) : AgtIn → State
  | .blockEnd core tag => blockEnd s a core tag
  | .groupEnd core tag group => groupEnd s a core tag group
  | .engDone core tag v => engDone s a core tag v
  | .credit counts => engCredit s a counts
  | .op m => agentPortOp s a m
  | .answer core tag st v b => coreAnswer s a core tag st v b
  | .csend id v b => csendAnswer s a id v b
  | .crecv id v => crecvAnswer s a id v
  | .request id v => requestAnswer s a id v
  | .table id off b => tableAnswer s a id off b
  | .hostWord id v => hostAnswer s a id v

/-- A stopped agent runs again: its Reckoner takes the state it had, what waits at its input is applied, and what waits to leave
leaves (R140, R141, R353). -/
def agentRuns (s : State) (a : Nat) : State :=
  let l := (agt s a).inbox
  let s := updA s a fun x => { x with stopped := false, inbox := [],
                                      rkn.st := if x.rkn.st = .stopped then x.rkn.prior else x.rkn.st }
  dnPump a (agt s a).dnQ (l.foldl (agtTake a) s)

/-- RKN_FEAT0 (chapter 05). -/
def rknFeat0 : W64 :=
  BitVec.ofNat 64 (0x01 + 0x10 * 2 ^ 16 + 0x12 * 2 ^ 21 + 0xC * 2 ^ 26 + 0x8 * 2 ^ 30 + 0x40 * 2 ^ 34 + 0x10 * 2 ^ 41 +
    0x1F * 2 ^ 46)

end Sys2Proof.Machine
end

