-- ==== Sys2Proof/Machine/Link.lean ====
section
/-!
DEFINITION. The Hall Fabric as a receiver (chapter 11): links, flits, replay, lanes and partners (R286–R298), requests of
partners performed here (R266–R272), and the responses and refusals of the block's own requests (R268–R270).
-/

namespace Sys2Proof.Machine

open Sys2Proof

/-! ### Link states (R288–R294) -/

/-- Address of FAB_PORT_CFG_k. -/
def portCfg (k : Nat) : Nat := 0xb00100 + 0x20 * k

/-- A NACK of this block sent to the source of a request (R269). -/
def nackTo (s : State) (h : FabHdr) (code : Nat) : State :=
  let h' : FabHdr := { h with op := 0xB, final := false, ord := false, dstBlock := h.srcBlock, hops := 15,
                              srcBlock := blockId s, data := BitVec.ofNat 64 code, cmp := 0, payload := [] }
  fabRoute (emit (count s .fabNackOut) (.fab h')) h'

/-- LINK_LOST for a header of port `k` (R291): a request's source is told, or a response's requester. -/
def headerLost (k : Nat) (s : State) (h : FabHdr) : State :=
  let s := count s .fabLinkLost
  let asker := if vcOf h.op = 0 then h.srcBlock else h.dstBlock
  if asker = blockId s then sourceNack s h.txn 6 k false
  else nackTo s { h with srcBlock := asker } 6

/-- Operation headers of a flit. -/
def flitOps (f : SentFlit) : List FabHdr :=
  match f.body with
  | .ops hs => hs
  | _ => []

/-- The port drops what its replay buffer and its input buffers hold, each header answered LINK_LOST (R291). -/
def linkLost (s : State) (k : Nat) : State :=
  let p := port s k
  let hs := p.replay.flatMap flitOps ++ p.partials.filterMap (fun e => e.2.map (·.1)) ++ p.inBuf
  let s := updPort s k fun p => { p with replay := [], inBuf := [], partials := [], tx := [], rx := [], nakSent := false,
                                         replays := [], peerReady := false, peerStopped := false, trained := false,
                                         eqReq := false, ctlQ := [], stopSent := false }
  hs.foldl (headerLost k) s

/-- A link enters DEAD (R294). -/
def linkDead (s : State) (k : Nat) (inj : Bool) : State :=
  let s := updPort s k fun p => { p with st := .dead }
  linkLost (raiseInj s 0x1004 .c 0 k inj) k

/-- An UP link enters RETRAIN (R294). -/
def linkRetrain (s : State) (k : Nat) : State :=
  if (port s k).st = .up then
    count (updPort s k fun p => { p with st := .retrain, trained := false, trainFails := 0, eqReq := false, replays := [] }) .fabRetrain
  else s

/-- IDENT while the two ends do not yet know each other's sequence numbers: it stands outside the sequence. -/
def sendIdent (s : State) (k : Nat) : State :=
  emit s (.flit k (lastAck (port s k)) 0 { seq := (port s k).txSeq, vc := 2, body := ctrlBody s k 1, flits := 1 })

/-- The receive credits of port `k` for REQ and RSP, all of them (R290, R295). -/
def giveCredits (s : State) (k : Nat) : State :=
  emits s ([0, 1].flatMap fun vc => (List.range 16).map (fun p => Out.credit k vc p 8) ++ [Out.credit k vc 16 128])

/-- Flits from sequence number `a` on that the replay buffer of port `k` still holds. -/
def unsent (p : FabPort) (a : Nat) : Nat :=
  let n := (p.txSeq + 4096 - a % 4096) % 4096
  if n ≤ replayLoad p then n else 0

/-- An ACK drops the flits it covers from the replay buffer (R289). -/
def applyAck (s : State) (k ack : Nat) : State :=
  let covered := fun (f : SentFlit) => decide ((ack + 4096 - (f.seq + f.flits - 1) % 4096) % 4096 < 2048)
  let old := (port s k).replay
  let new := old.dropWhile covered
  if new.length = old.length then s else updPort s k fun p => { p with replay := new, lastAdvance := s.ts }

/-- Every flit from sequence number `a` on is sent again: of an operation that it lies within, the flits that remain (R289). -/
def resend (s : State) (k a : Nat) : State :=
  let s := countN s .fabTxFlit (unsent (port s k) a)
  (port s k).replay.foldl (fun s f =>
    let skip := (a + 4096 - f.seq) % 4096
    emit s (.flit k (lastAck (port s k)) (if skip < f.flits then skip else 0) f)) s

/-- A replay from sequence number `a`: counted, and a storm of them retrains the link (R289). -/
def replayFrom (s : State) (k a : Nat) : State :=
  let s := count (resend s k a) .fabReplay
  let l := ((port s k).replays.filter fun t => decide ((s.ts - t).toNat ≤ 65536)) ++ [s.ts]
  let s := updPort s k fun p => { p with replays := l, lastAdvance := s.ts }
  if regFld s 0xb00018 23 16 < l.length then linkRetrain s k else s

/-- The oldest unacknowledged flit has waited REPLAY_QC (R289). -/
def replayTimeout (s : State) (k : Nat) : State :=
  let p := port s k
  match p.replay with
  | [] => s
  | f :: _ =>
    if p.st = .up ∧ max 1 (regFld s 0xb00018 15 0) ≤ (s.ts - p.lastAdvance).toNat then replayFrom s k f.seq else s

/-- The link is UP: the sender replays from the partner's RX_NEXT, and after Ready a new link's credits are given
(R294, R295). With nothing left to replay the sender goes on from RX_NEXT. A new link's CTL credits are given at once, and a RESUME that
a retrain held back leaves (R290, R297). -/
def linkUp (s : State) (k rxNext : Nat) (fresh : Bool) : State :=
  let s := updPort s k fun p => { p with st := .up }
  let s := applyAck s k ((rxNext + 4095) % 4096)
  let s := if (port s k).replay.isEmpty then updPort s k fun p => { p with txSeq := rxNext % 4096 }
           else resend s k rxNext
  let s := updPort s k fun p => { p with lastAdvance := s.ts }
  let s := if fresh then emit s (.credit k 2 16 16) else s
  let s := if (port s k).stopSent && !s.fab.stopped then sendCtrl (updPort s k fun p => { p with stopSent := false }) k 3 else s
  fabPump (portReady (if fresh && isReady s then giveCredits s k else s) k)

/-- An IDENT message is received on port `k` (R294, R295). (DEDUCED, log entry 43). -/
def identReceive (s : State) (k : Nat) (ready : Bool) (blk prt rxNext : Nat) : State :=
  let inj := injArmed s 0x1003 (· == k)
  let s := if inj then injFire s else s
  let blk := if inj then 0xFFE else blk
  let p := port s k
  let note := fun (s : State) =>
    updPort s k fun p => { p with peerReady := ready, peerBlock := blk, peerPort := prt, trained := false }
  let want := regFld s (portCfg k) 19 8
  match p.st with
  | .ident =>
    if blk ≠ blockId s ∧ (want = 0xFFF ∨ want = blk) then linkUp (note s) k rxNext true
    else linkDead (raiseInj (note s) 0x1003 .c 0 k inj) k false
  | .retrain =>
    if !p.trained then s
    else if blk = p.peerBlock ∧ prt = p.peerPort then linkUp (note s) k rxNext false
    else linkDead s k false
  | .up =>
    let s := updPort s k fun p => { p with peerReady := ready, peerBlock := blk, peerPort := prt }
    fabPump (if ready && !p.peerReady then portReady s k else s)
  | _ => s

/-- STOP and RESUME of a partner (R298). -/
def stopReceive (s : State) (k : Nat) : State := fabPump (updPort s k fun p => { p with peerStopped := true })
def resumeReceive (s : State) (k : Nat) : State :=
  let was := (port s k).peerStopped
  let s := updPort s k fun p => { p with peerStopped := false }
  fabPump (if was then portReady s k else s)

/-! ### Training and lanes (R292, R294) -/

/-- The lanes of a port that run when `good` lanes are good: the first four, the spare being lane 4. -/
def lanesOf (good : BitVec 5) : BitVec 5 :=
  ((List.range 5).foldl (fun (a : BitVec 5 × Nat) j =>
    if good.getLsbD j && decide (a.2 < 4) then (a.1 ||| ((1 : BitVec 5) <<< j), a.2 + 1) else a) (0, 0)).1

/-- The number of good lanes. -/
def laneCount (good : BitVec 5) : Nat := ((List.range 5).filter fun j => good.getLsbD j).length

/-- The lanes in use change: a spare that comes into use is counted, three lanes run DEGRADED, which MGT logs (R292). -/
def useLanes (s : State) (k : Nat) (good : BitVec 5) : State :=
  let p := port s k
  let new := lanesOf good
  let s := if new.getLsbD 4 && !p.lanes.getLsbD 4 then count s .fabLaneSpare else s
  updPort s k fun p => { p with lanes := new, degraded := laneCount new == 3 }

/-- A training attempt of port `k` ends with the lanes `good` aligned (R294). -/
def trainResult (s : State) (k : Nat) (aligned : BitVec 5) : State :=
  let p := port s k
  if p.st ≠ .train ∧ (p.st ≠ .retrain ∨ p.trained) then s
  else
    let inj := injArmed s 0x1004 (· == k)
    let top := max 1 (regFld s (portCfg k) 31 24)
    let good := aligned &&& ~~~p.failedLanes
    if inj then
      linkDead (countN (injFire s) .fabTrainFail (top - p.trainFails)) k true
    else if laneCount good < 3 then
      let s := count (updPort s k fun p => { p with trainFails := p.trainFails + 1 }) .fabTrainFail
      if top ≤ p.trainFails + 1 then linkDead s k false else s
    else
      let s := useLanes s k good
      let s := updPort s k fun p => { p with trainFails := 0, st := if p.st = .train then .ident else p.st,
                                             trained := true }
      sendIdent s k

/-- Lane `j` of a port reports `errs` errors within 1 ms (R292): above LANE_ERR it has failed, and the port retrains with the spare or
on three lanes, or is dead. -/
def laneFailure (s : State) (k j errs : Nat) : State :=
  let p := port s k
  if p.st = .down ∨ p.st = .dead ∨ !p.lanes.getLsbD j ∨ errs ≤ regFld s (portCfg k) 47 32 then s
  else
    let s := updPort s k fun p => { p with failedLanes := p.failedLanes ||| ((1 : BitVec 5) <<< j) }
    let good := ~~~(port s k).failedLanes
    if laneCount good < 3 then linkDead s k false else linkRetrain (useLanes s k good) k

/-- A write of EN = 1 to a DOWN port (R294). -/
def portEnable (s : State) (k : Nat) : State :=
  if (port s k).st = .down then updPort s k fun p => { p with st := .train, trainFails := 0 } else s

/-- A write of EN = 0 (R291, R294). -/
def portDisable (s : State) (k : Nat) : State :=
  if (port s k).st = .down then s
  else
    let s := updPort s k fun p => { p with st := .down, failedLanes := 0, lanes := 0, degraded := false }
    linkLost s k

/-- Periodic re-equalisation of a port (R369): one at a time, not in RETRAIN and not while the block is stopped. -/
def reEqualise (s : State) (k : Nat) : State :=
  if (port s k).st ≠ .up ∨ s.fab.stopped ∨ s.fab.ports.any (·.2.eqReq) then s
  else emit (updPort s k fun p => { p with eqReq := true }) (.eqReq k)

/-- The PHY acknowledges an equalisation (R403). -/
def eqDone (s : State) (k : Nat) : State :=
  if (port s k).eqReq then fabPump (updPort s k fun p => { p with eqReq := false }) else s

/-! ### Flits (R286–R291) -/

/-- The operation header in a 64 B block (R267). -/
def hdrOf (x : Nat) : FabHdr :=
  let f := fun off sh bits => x / 2 ^ (8 * off + sh) % 2 ^ bits
  { op := f 0 0 4, final := bitOf x 4, scope := f 0 5 2, ord := bitOf x 7, srcPart := f 1 0 4, aop := f 1 4 4,
    dstBlock := f 2 0 12, hops := f 2 12 4, srcBlock := f 4 0 12, srcAgent := f 4 12 6, srcUnit := f 4 18 5,
    loc := f 8 0 52, data := BitVec.ofNat 64 (f 0x10 0 64), cmp := BitVec.ofNat 64 (f 0x18 0 64), hallTag := f 0x20 0 16,
    txn := f 0x22 0 16, dcrc := BitVec.ofNat 32 (f 0x24 0 32), mask := BitVec.ofNat 32 (f 0x28 0 32), payload := [] }

/-- The 64 B block of an operation header (R267). -/
def hdrBytes (h : FabHdr) : Bytes :=
  leBytes 1 (h.op % 16 + b2n h.final * 16 + h.scope % 4 * 32 + b2n h.ord * 128) ++ leBytes 1 (h.srcPart % 16 + h.aop % 16 * 16)
    ++ leBytes 2 (h.dstBlock % 4096 + h.hops % 16 * 4096)
    ++ leBytes 4 (h.srcBlock % 4096 + h.srcAgent % 64 * 2 ^ 12 + h.srcUnit % 32 * 2 ^ 18)
    ++ leBytes 8 (h.loc % 2 ^ 52) ++ leBytes 8 h.data.toNat ++ leBytes 8 h.cmp.toNat ++ leBytes 2 h.hallTag ++ leBytes 2 h.txn
    ++ leBytes 4 h.dcrc.toNat ++ leBytes 4 h.mask.toNat ++ leBytes 20 0

/-- A flit as it leaves, 272 bytes (R286): `vc` and `kind` with NAK, the valid slots, and the credits that it returns: their virtual
channel, pool and number. -/
def wireFlit (seq ack vc kind : Nat) (nak : Bool) (slots : Nat) (cred : Nat × Nat × Nat) (block : Bytes) : Bytes :=
  let pool := if cred.2.1 = 16 then 64 else cred.2.1 % 16 * 4
  let b := Bytes.slice block 0 256 ++ leBytes 2 (seq % 4096) ++ leBytes 2 (ack % 4096)
    ++ leBytes 1 (vc % 4 + kind % 4 * 4 + b2n nak * 16) ++ leBytes 1 (cred.1 % 4 + pool) ++ leBytes 1 cred.2.2
    ++ leBytes 1 (slots % 16) ++ leBytes 4 0
  b ++ leBytes 4 (crc32c b)

/-- The flits on the wire of a sequenced flit with its DATA flits (R286, R287). -/
def flitWire (ack : Nat) (f : SentFlit) (cred : Nat × Nat × Nat) : List Bytes :=
  match f.body with
  | .ops hs =>
    let data := hs.flatMap fun h => (List.range (dataFlits h)).map fun i => Bytes.slice h.payload (256 * i) 256
    wireFlit f.seq ack f.vc 0 false (2 ^ hs.length - 1) cred (hs.flatMap hdrBytes) ::
      ((List.range data.length).zip data).map fun e => wireFlit (f.seq + 1 + e.1) ack f.vc 1 false 0 cred e.2
  | .ctrl cmd ready blk prt rx =>
    [wireFlit f.seq ack 2 2 false 0 cred
      (leBytes 8 (cmd % 256 + b2n ready * 256 + blk % 4096 * 2 ^ 16 + prt % 8 * 2 ^ 32 + rx % 4096 * 2 ^ 48))]
  | .null => [wireFlit 0 ack 0 3 false 0 cred []]

/-- The fields of a flit's trailer (R286). -/
structure Flit where
  block : Bytes
  seq : Nat
  ack : Nat
  vc : Nat
  kind : Nat
  nak : Bool
  cvc : Nat
  cpool : Nat
  cred : Nat
  slots : Nat
  crcOk : Bool
  deriving DecidableEq, Repr

/-- A flit as it arrives, 272 bytes, byte 0 lowest. -/
def flitOf (x : BitVec 2176) : Flit :=
  let b := leBytes 272 x.toNat
  let f := fun off sh bits => Bytes.fld b off sh bits
  { block := b.take 256, seq := f 0x100 0 12, ack := f 0x102 0 12, vc := f 0x104 0 2, kind := f 0x104 2 2,
    nak := f 0x104 4 1 == 1, cvc := f 0x105 0 2, cpool := if f 0x105 6 1 = 1 then 16 else f 0x105 2 4,
    cred := f 0x106 0 8, slots := f 0x107 0 4, crcOk := crc32c (b.take 268) == f 0x10C 0 32 }

/-- The valid headers of an OPS flit, in slot order. -/
def flitHdrs (f : Flit) : List FabHdr :=
  ((List.range 4).filter fun i => bitOf f.slots i).map fun i => hdrOf (leNat (Bytes.slice f.block (64 * i) 64))

/-- Whether a flit by itself obeys R287. -/
def flitForm (f : Flit) : Bool :=
  let hs := flitHdrs f
  match f.kind with
  | 0 => decide (f.vc < 2) && !hs.isEmpty && hs.all (fun h => vcOf h.op == f.vc) &&
      hs.all (fun h => h.srcPart == (hs.headD default).srcPart) && hs.dropLast.all (fun h => dataFlits h == 0)
  | 1 => decide (f.vc < 2)
  | 2 => f.vc == 2 && decide (1 ≤ Bytes.fld f.block 0 0 8 ∧ Bytes.fld f.block 0 0 8 ≤ 3)
  | _ => f.vc == 0

/-- Whether the next flit in sequence follows those before it as R287 gives: DATA where a header of its virtual channel waits for it,
OPS where none does. -/
def flitFollows (p : FabPort) (f : Flit) : Bool :=
  let waits := (p.partials.look f.vc).isSome
  if f.kind = 0 then !waits else f.kind != 1 || waits

/-- A flit is discarded: the first one after an accepted flit is answered with a NAK (R288). -/
def discardFlit (s : State) (k : Nat) : State :=
  let p := port s k
  if p.nakSent then s
  else emit (updPort s k fun p => { p with nakSent := true }) (.nullFlit k ((p.rxNext + 4095) % 4096) true)

/-- Buffer places taken by `n` flits of partition `q`. -/
def holdFlits (s : State) (k vc q n : Nat) : State := updPort s k fun p => { p with rx := p.rx.upd (vc * 17 + q) (· + n) }

/-- A whole operation is in the input buffer. -/
def enterOp (s : State) (k : Nat) (h : FabHdr) : State := updPort s k fun p => { p with inBuf := p.inBuf ++ [h] }

/-- A header of an OPS flit: it waits for its DATA flits, or is whole. -/
def takeHdr (k : Nat) (s : State) (h : FabHdr) : State :=
  let s := holdFlits s k (vcOf h.op) h.srcPart 1
  if dataFlits h = 0 then enterOp s k h
  else updPort s k fun p => { p with partials := p.partials.put (vcOf h.op) (some (h, dataFlits h)) }

/-- A DATA flit joins its header. -/
def takeData (s : State) (k vc : Nat) (b : Bytes) : State :=
  match (port s k).partials.look vc with
  | none => s
  | some (h, n) =>
    let h := { h with payload := h.payload ++ b }
    let s := holdFlits s k vc h.srcPart 1
    if n ≤ 1 then enterOp (updPort s k fun p => { p with partials := p.partials.put vc none }) k h
    else updPort s k fun p => { p with partials := p.partials.put vc (some (h, n - 1)) }

/-- A control message (R287). (DEDUCED, log entry 48). -/
def takeCtrl (s : State) (k : Nat) (b : Bytes) : State :=
  match Bytes.fld b 0 0 8 with
  | 1 => identReceive s k (Bytes.fld b 1 0 1 == 1) (Bytes.fld b 2 0 12) (Bytes.fld b 4 0 3) (Bytes.fld b 6 0 12)
  | 2 => stopReceive s k
  | 3 => resumeReceive s k
  | _ => s

/-- An accepted flit's content; a control message leaves its buffer at once (R290). -/
def takeFlit (s : State) (k : Nat) (f : Flit) : State :=
  match f.kind with
  | 0 => (flitHdrs f).foldl (takeHdr k) s
  | 1 => takeData s k f.vc f.block
  | 2 => emit (takeCtrl s k f.block) (.credit k 2 16 1)
  | _ => s

/-- ACK, NAK and credits of a flit with a good CRC (R288, R289, R290). -/
def takeTrailer (s : State) (k : Nat) (f : Flit) : State :=
  let s := applyAck s k f.ack
  let s := if f.cvc = 3 ∨ f.cred = 0 then s
           else updPort s k fun p => { p with tx := p.tx.upd (f.cvc * 17 + f.cpool) (· + f.cred) }
  if f.nak then replayFrom s k (f.ack + 1) else s

/-- A flit arrives on port `k` (R288). Before the link is UP only an IDENT counts. -/
def flitReceive (s : State) (k : Nat) (x : BitVec 2176) : State :=
  let f := flitOf x
  let p := port s k
  if p.st = .ident ∨ p.st = .retrain then
    (if f.crcOk ∧ flitForm f ∧ f.kind = 2 ∧ Bytes.fld f.block 0 0 8 = 1 then takeCtrl s k f.block else s)
  else if p.st ≠ .up then s
  else if !f.crcOk then discardFlit (count s .fabCrcErr) k
  else if !flitForm f ∨ (f.kind ≠ 3 ∧ f.seq = p.rxNext ∧ !flitFollows p f) then discardFlit (count s .fabProto) k
  else
    let s := takeTrailer s k f
    if f.kind = 3 then fabPump s
    else if f.seq ≠ (port s k).rxNext then fabPump (discardFlit s k)
    else
      let s := updPort s k fun p => { p with rxNext := (p.rxNext + 1) % 4096, nakSent := false }
      fabPump (takeFlit (count s .fabRxFlit) k f)

/-! ### Requests of partners performed here (R266, R267, R272) -/

/-- The response of this block to a request: ACK 8, DATA_W 9 or DATA_B 0xA (R266, R268). -/
def respond (s : State) (h : FabHdr) (op : Nat) (v cmp : W64) (b : Bytes) : State :=
  let h' : FabHdr := { h with op := op, final := false, ord := false, dstBlock := h.srcBlock, hops := 15,
                              srcBlock := blockId s, srcAgent := 0, srcUnit := 31, data := v, cmp := cmp, mask := 0,
                              dcrc := BitVec.ofNat 32 (crc32c b), payload := b }
  fabRoute (emit s (.fab h')) h'

/-- The CMP of a word's answer where no release tag stands behind it (R280). -/
def noTag : W64 := 3

/-- A request's header is malformed (R267). (DEDUCED, log entry 44). -/
def malformed (h : FabHdr) : Bool :=
  h.op == 0 || decide (0xC ≤ h.op) || (h.final && !isWrite h) || (h.ord && !(h.op == 1 || isWrite h))

/-- Whether a request on a data-region word is malformed (R266). -/
def misaligned (h : FabHdr) (o : Nat) : Bool :=
  match h.op with
  | 1 => o % 8 != 0
  | 2 => o % 8 != 0
  | 3 => o % 8 != 0 || decide (9 < h.aop)
  | 4 => o % 256 != 0
  | 5 => o % 256 != 0
  | _ => false

/-- The bytes of a WR_W's word that its mask selects. -/
def maskedWord (h : FabHdr) : Nat :=
  leNat ((List.range 8).map fun j => if bitOf h.mask.toNat j then BitVec.ofNat 8 (h.data.toNat / 2 ^ (8 * j)) else 0)

/-- The source of a partner's operation. R267's header names no group slot, so the groups of one core of a partner are one group
for R201. (DEDUCED, log entry 97). -/
def farSrc (h : FabHdr) : Src :=
  { block := h.srcBlock, agent := h.srcAgent, unit := h.srcUnit, part := h.srcPart, node := 0, gen := 0, group := 0 }

/-- A WR_B (R266): a whole block whose CRC does not match is rejected and counted (R251). The Bool says that it was stored. -/
def blockStore (s : State) (p o : Nat) (h : FabHdr) : State × Bool :=
  if h.mask.toNat = 2 ^ 32 - 1 ∧ crc32c (Bytes.slice h.payload 0 256) ≠ h.dcrc.toNat then (count s .sltWrCrc, false)
  else (blockWrite s p o h.payload h.mask.toNat, true)

/-- A request on a word or block of partition `p`'s data region, performed by BAU (R266). (DEDUCED, log entry 46). A WR_B that
the Slate rejects is acknowledged. (DESIGN CHOICE, log entry 98). -/
def serveData (s : State) (h : FabHdr) (p o : Nat) : State :=
  let a := dataBase s p + o
  let release := fun (s : State) => if h.ord then setTag s a h.scope h.srcBlock h.srcAgent h.srcUnit else s
  match h.op with
  | 1 =>
    let tag := tagWord s a
    let (v, s) := wordRead s p o
    respond s h 9 v (BitVec.ofNat 64 tag) []
  | 2 => respond (release (wordWrite s p o h.data h.mask.toNat)) h 8 0 0 []
  | 3 =>
    let tag := tagWord s a
    let (v, s) := wordAtomic s p o h.aop h.data h.cmp (farSrc h)
    respond s h 9 v (BitVec.ofNat 64 tag) []
  | 4 =>
    let (b, s) := readPart s p o 256
    respond s h 0xA 0 0 b
  | 5 =>
    let (s, ok) := blockStore s p o h
    respond (if ok then release s else s) h 8 0 0 []
  | _ =>
    let (s, b) := groupRemote s p h
    respond s h 0xA 0 0 b

/-- The request waits with its unit, which answers it later (R180, R189). -/
def serveLater (s : State) (h : FabHdr) : State := { s with fab.served := s.fab.served ++ [h] }

/-- A request on a channel's window, as if it were a local operation (R266, R174). -/
def serveChan (s : State) (h : FabHdr) (c o : Nat) : State :=
  let src := farSrc h
  let ack := fun (s : State) => respond s h 8 0 0 []
  let v := maskedWord h
  match h.op with
  | 1 =>
    let (b, s) := windowRead s c src o 8
    respond s h 9 (BitVec.ofNat 64 (leNat b)) noTag []
  | 4 =>
    let (b, s) := windowRead s c src o 256
    respond s h 0xA 0 0 b
  | 2 =>
    if o = 0x7FFFF8 ∧ h.final then chanCommit (serveLater s h) c src v
    else if o = 0xFC0008 then ack (chanRelease s c src v)
    else if o = 0xFC0010 then ack (chanNotify s c src v)
    else ack (chanWrite s c src o (leBytes 8 h.data.toNat) (bitOf h.mask.toNat) true)
  | 5 => ack (chanWrite s c src o (Bytes.slice h.payload 0 256) (fun i => bitOf h.mask.toNat (i / 8))
              (crc32c (Bytes.slice h.payload 0 256) == h.dcrc.toNat))
  | 3 =>
    if o = 0x7FFFF0 then opOffer (serveLater s h) (.reserve c src h.data.toNat)
    else if o = 0xFC0000 then opOffer (serveLater s h) (.claim c src h.data.toNat)
    else if o = 0x7FFFF8 then chanCommit (serveLater s h) c src h.data.toNat
    else if o = 0xFC0008 then respond (chanRelease s c src h.data.toNat) h 9 0 noTag []
    else if o = 0xFC0010 then respond (chanNotify s c src h.data.toNat) h 9 0 noTag []
    else respond (count s .chnOrphan) h 9 0 noTag []
  | _ =>
    let (s, b) := groupRemote s ((partOfChan s c).getD 0) h
    respond s h 0xA 0 0 b

/-- A request on the Long Sum or TALLY aperture of group `g` (R239): FADD lanes and TALLY writes and reads have their
effect; every other access reads zero and writes nothing. -/
def serveGroup (s : State) (h : FabHdr) (p g : Nat) (tok : Option Nat) : State :=
  match h.op, tok with
  | 6, _ =>
    let (s, b) := groupRemote s p h
    respond s h 0xA 0 0 b
  | 2, some t => respond (retestGroup (tallyWrite s g t p (maskedWord h)) g) h 8 0 0 []
  | 1, some t =>
    let (r, s) := tallyRead s g t p
    respond s h 9 (BitVec.ofNat 64 r) noTag []
  | 2, none => respond (count s .bauRefuse) h 8 0 0 []
  | 5, _ => respond (count s .bauRefuse) h 8 0 0 []
  | 4, _ => respond (count s .bauRefuse) h 0xA 0 0 (List.replicate 256 0)
  | _, _ => respond (count s .bauRefuse) h 9 0 noTag []

/-- The partition that owns a request's target, and the target (R272). -/
def requestPart (s : State) (h : FabHdr) : Option Nat :=
  if h.op = 7 then partOfNode s (h.loc % 2 ^ 24) else targetPart s (targetOf s h.loc)

/-- Whether partition `q` accepts a partner's request (R272). -/
def admits (s : State) (q : Nat) (h : FabHdr) : Bool :=
  let a := 0xb00400 + 8 * q
  regBit s a 63 && regFld s a 15 0 == h.hallTag && decide (regFld s a 27 16 ≤ h.srcBlock) &&
    decide (h.srcBlock ≤ regFld s a 43 32)

/-- A request is checked and performed, or answered with a NACK (R266, R267, R269, R272). -/
def serve (s : State) (h : FabHdr) : State :=
  let denied := fun (s : State) => nackTo (count s .fabDenied) h 4
  let toBar := match targetOf s h.loc with
    | .bar _ _ => h.op != 7
    | _ => false
  if h.op = 0 ∨ 0xC ≤ h.op then nackTo (count s .fabProto) h 5
  else if malformed h then nackTo s h 5
  else if toBar then denied s
  else match requestPart s h with
  | none => nackTo s h 5
  | some q =>
    if !admits s q h then denied s
    else if h.op = 7 then remoteDec s h
    else match targetOf s h.loc with
    | .data p o => if misaligned h o then nackTo s h 5 else serveData s h p o
    | .chan c o => serveChan s h c o
    | .bar _ _ => denied s
    | .sum g _ => serveGroup s h q g none
    | .tally g t => serveGroup s h q g (some t)
    | .none => nackTo s h 5

/-- The first header of port `k`'s input buffer that is for this block and that `pick` accepts. -/
def takeIn (s : State) (k : Nat) (pick : FabHdr → Bool) : Option (FabHdr × State) :=
  (takeFirst (fun h => h.dstBlock == blockId s && pick h) (port s k).inBuf).map fun (h, rest) =>
    (h, freeHeader (updPort s k fun p => { p with inBuf := rest }) k h)

/-- Whether a response of this block waits for credits: no request is taken until it can leave (R290).
(DEDUCED, log entry 45). -/
def responseWaits (s : State) : Bool := s.fab.sendQ.any fun h => vcOf h.op == 1

/-- Whether the unit that performs a request takes none now, because it or one that it needs is stopped or full: the request stays
in FAB's buffer (R24, R87, R92, R193, R198, R241, R261). -/
def unitFull (s : State) (h : FabHdr) : Bool :=
  if h.op = 7 then (partOfNode s (h.loc % 2 ^ 24)).any fun p => !intakeOpen s p
  else match targetOf s h.loc with
  | .data _ _ => bauShut s
  | .chan _ _ => chnShut s || (h.op == 6 && bauShut s)
  | .sum _ _ => bauShut s
  | .tally _ _ => cmbShut s
  | _ => false

/-- The first request in port `k`'s input buffer is taken (R272). -/
def requestReceive (s : State) (k : Nat) : State :=
  if s.fab.stopped ∨ !isReady s ∨ responseWaits s then s
  else match takeIn s k (fun h => vcOf h.op == 0) with
  | none => s
  | some (h, t) => if unitFull s h then s else serve t h

/-- The answer code of a request that its unit holds. -/
def servedCode (h : FabHdr) : Nat :=
  let c := (h.loc - 0xC000000000000) / 2 ^ 24
  match h.loc % 2 ^ 24 with
  | 0x7FFFF0 => ansReserve c
  | 0x7FFFF8 => ansCommit c
  | _ => ansClaim c

/-- Answers that CHN gave to partners' requests in this command leave as responses (R268). -/
def fabCollect (s : State) : State :=
  s.out.foldl (fun s o => match o with
    | .answer src code v =>
      if src.block = blockId s then s
      else match takeFirst (fun h => sameSrc (farSrc h) src && servedCode h == code) s.fab.served with
        | some (h, rest) =>
          let s := { s with fab.served := rest }
          if h.op = 3 then respond s h 9 v noTag [] else respond s h 8 v 0 []
        | none => s
    | _ => s) s

/-! ### Responses, refusals and retries of the block's own requests (R268–R270, R424) -/

/-- The value of a positive response reaches its requester. -/
def deliver (s : State) (e : OutEnt) (r : FabHdr) : State :=
  let h := e.hdr
  let acq := fun (s : State) (a u : Nat) => if h.op = 1 ∧ h.ord then acquireCheck s (r.cmp.toNat % 2 ^ 25) h.scope a u else s
  match e.who with
  | .core a c tag => setGot (acq s a c) a c tag 0 r.data r.payload
  | .rkn a id => updReq (acq s a 16) a id fun q => { q with got := some r.data }
  | .tly => s
  | .tile _ => s
  | .bau a c tag _ => groupAnswer s a c tag h.mask.toNat r.payload
  | .flagSet q seq => endFlag s q seq 0 0
  | .flagWait q seq =>
    match liveCmd s q seq with
    | none => s
    | some l =>
      let s := acq s 0 31
      if flagMeets l.cmd r.data.toNat then endFlag s q seq 0 0
      else retryLater s r.txn { e with retries := 0 }

/-- Whether a response or refusal has a retry as its effect that finds no place in the retry queue (R270). It stays in the input
buffer until there is one. (DEDUCED, log entry 47). -/
def retryFull (s : State) (r : FabHdr) : Bool :=
  (outEnt s r.txn).any fun e => !e.aborted && !e.failed && !retryRoom s e.hdr.srcPart &&
    if r.op = 0xB then r.data.toNat % 256 == 1 || r.data.toNat % 256 == 2
    else match e.who with
      | .flagWait q seq => (liveCmd s q seq).any fun l => !flagMeets l.cmd r.data.toNat
      | _ => false

/-- The first response in port `k`'s input buffer is taken (R268, R296). -/
def responseReceive (s : State) (k : Nat) : State :=
  if s.fab.stopped then s
  else match takeIn s k (fun h => decide (8 ≤ h.op ∧ h.op ≤ 0xA)) with
  | none => s
  | some (r, t) =>
    if retryFull s r then s else
    let s := t
    match outEnt s r.txn with
    | none => count s .fabOrphanRsp
    | some e =>
      let s := { s with fab.outst := s.fab.outst.put r.txn none }
      let s := if s.fab.partner.look e.hdr.dstBlock == .notReady then
          { s with fab.partner := s.fab.partner.put e.hdr.dstBlock .reachable } else s
      let s := if e.counted then seqAck s e.hdr e.who else s
      let s := if e.aborted || e.failed then count s .fabOrphanRsp else deliver s e r
      fabPump (fabRefill s)

/-- The first NACK in port `k`'s input buffer is taken (R269). -/
def nackReceive (s : State) (k : Nat) : State :=
  if s.fab.stopped then s
  else match takeIn s k (fun h => h.op == 0xB) with
  | none => s
  | some (r, t) =>
    if retryFull s r then s else
    let s := t
    match outEnt s r.txn with
    | none => count s .fabOrphanRsp
    | some e => if e.failed then s else fabPump (fabRefill (seqRetry (sourceNack s r.txn (r.data.toNat % 256) k false)))

/-- A retry spacing of entry `t` expires and the request is sent again (R270, R88). -/
def retryNow (s : State) (t : Nat) : State :=
  match outEnt s t with
  | none => s
  | some e =>
    match e.due with
    | none => s
    | some d =>
      if s.ts < d ∨ s.fab.stopped ∨ e.aborted then s
      else
        let s := { s with fab.outst := s.fab.outst.put t (some { e with due := none }) }
        let s := if e.who == .tly then count s .tlyRemoteRetry else s
        fabRoute (count s .fabRetry) e.hdr

/-! ### Global Stop on the fabric (R297) and Ready (R295) -/

/-- The stop token reaches FAB; while it is stopped, the table holds each retry's remaining spacing. -/
def fabStop (s : State) : State :=
  let ups := (List.range 8).filter fun k => (port s k).st == .up
  let s := ups.foldl (fun s k => updPort (sendCtrl s k 2) k fun p => { p with stopSent := true }) s
  let left := fun (t : W64) => if t ≤ s.ts then (0 : W64) else t - s.ts
  { s with fab.stopped := true,
           fab.outst := s.fab.outst.foldUpd fun _ e => e.map fun e => { e with due := e.due.map left } }

/-- FAB goes on after a stop: it sends RESUME on every port that had a STOP, on one that retrains once it is UP, and takes the requests
that have waited (R297). -/
def fabResume (s : State) : State :=
  let s := { s with fab.stopped := false,
                    fab.outst := s.fab.outst.foldUpd fun _ e => e.map fun e => { e with due := e.due.map (s.ts + ·) } }
  let s := ((List.range 8).filter fun k => (port s k).stopSent && (port s k).st == .up).foldl (fun s k =>
    portReady (sendCtrl (updPort s k fun p => { p with stopSent := false }) k 3) k) s
  fabPump (fabRefill (seqRetry s))

/-- At Ready every UP port sends IDENT with READY = 1 and gives its credits (R295). -/
def fabReady (s : State) : State :=
  ((List.range 8).filter fun k => (port s k).st == .up).foldl (fun s k => giveCredits (sendCtrl s k 1) k) s

/-- The work of a partition is discarded: its requests become orphans, those that have not left, wait for a retry or were refused with a
fault are dropped, and so are its open sequences; remote decrements stand (R268, R333). -/
def fabDiscard (s : State) (p : Nat) : State :=
  let keep := fun (x : FabHdr × Requester) => x.1.srcPart != p || x.2 == .tly
  let ofP := fun (t : Nat) => (outEnt s t).any fun e => e.hdr.srcPart == p && e.who != .tly
  let dropped := (s.fab.sendQ.filter fun h => ownRequest s h && ofP h.txn).map (·.txn)
  { s with
    fab.sendQ := s.fab.sendQ.filter fun h => !(ownRequest s h && ofP h.txn),
    fab.outst := s.fab.outst.foldUpd fun t e => e.bind fun e =>
      if !ofP t then some e else if dropped.contains t || e.due.isSome || e.failed then none
      else some { e with aborted := true, counted := false },
    fab.noEntry := s.fab.noEntry.filter keep, fab.seqWait := s.fab.seqWait.filter fun x => keep (x.hdr, x.who),
    fab.seqs := s.fab.seqs.filter fun e => e.srcPart != p }

end Sys2Proof.Machine
end

