-- ==== Sys2Proof/Machine/Fault.lean ====
section
/-!
DEFINITION. The Fault Controller: recording and combining faults, discards of a partition or of the block, and what
every command does around its own effect (R328–R338, R348, R349).
-/

namespace Sys2Proof.Machine

open Sys2Proof

/-! ### Recording (R328, R329) -/

/-- CLASS of FLT_LAST. -/
def FClass.code : FClass → Nat
  | .c => 0
  | .up => 1
  | .ud => 2

/-- The record as FLT_LAST, FLT_LAST_UD and FLT_LOG show it. -/
def faultWord (f : FaultRec) : W64 :=
  BitVec.ofNat 64 (f.id % 2 ^ 16 + f.cls.code * 2 ^ 16 + b2n f.inj * 2 ^ 18 + f.part % 16 * 2 ^ 20
    + f.detail % 2 ^ 24 * 2 ^ 24)

/-- The four records of R329, and the counter of the class; a UD fault's identifier also goes to CRB_RESET_CAUSE. -/
def recordFault (s : State) (f : FaultRec) : State :=
  let s := { s with flt.last := f }
  let s := if s.flt.log.length < 64 then { s with flt.log := s.flt.log ++ [f] }
           else count { s with flt.log := s.flt.log.tail ++ [f] } .fltLogLost
  match f.cls with
  | .c => count { s with flt.irqStat := s.flt.irqStat ||| 1 } .fltC
  | .up =>
    let s := count { s with flt.irqStat := s.flt.irqStat ||| 2 } .fltUp
    logRecord (pageCount s f.part 12 1) 0x0A f.id (faultWord f).toNat
  | .ud => logRecord { s with flt.lastUd := f, crb.fault := f.id } 0x0A f.id (faultWord f).toNat

/-! ### Discards (R49, R333) -/

/-- GRAPH_LOADs of queue `q` end without a graph: their ranges are FREE again, and the launches of other queues that
wait for them are refused (R71, R72). -/
def dropLoads (s : State) (q : Nat) : State :=
  let mine := s.grs.loads.filter (·.q == q)
  let s := { s with grs.loads := s.grs.loads.filter (·.q != q), grs.waits := s.grs.waits.filter (·.src.q != q) }
  mine.foldl (fun s j =>
    let s := if j.started then ((List.range j.count).map (j.base + ·)).foldl (fun s n => updN s n fun _ => default) s else s
    wakeLaunches s j.base false) s

/-- Code loads of queue `q` end, with nothing loaded, and their Reckoners are let go. -/
def dropCodeLoads (s : State) (q : Nat) : State :=
  let mine := s.codeLoads.filter (·.q == q)
  let s := { s with codeLoads := s.codeLoads.filter (·.q != q) }
  mine.foldl (fun s l => (maskAgents s l.mask.toNat).foldl (fun s a =>
    let other := s.codeLoads.any fun x => x.mask.getLsbD a
    let s := updA s a fun x => { x with held := x.held && other }
    updR s a fun r => if other then r else leaveLoading r) s) s

/-- Every command of queue `q` that was fetched and has not completed ends with a status, and with a record unless
`silent`; the slots of node records that will not come return (R49, R333 step 4). -/
def dropCommands (s : State) (q status : Nat) (silent : Bool) : State :=
  let u := queue s q
  let open' := u.live.filter fun l => !l.ended
  let s := dropCodeLoads (dropLoads s q) q
  let s := { s with
    flt.wait := s.flt.wait.filter (·.q != q), flt.walks := s.flt.walks.filter (· != q),
    aut.held := s.aut.held.filter (·.q != q) }
  let back := (u.fetched.map extraSlot).foldl (· + ·) 0 + (open'.map (·.nodes)).foldl (· + ·) 0
  let s := updQ s q fun u => { u with
    want := 0, found := false, fetched := [], resv := u.resv - back,
    live := u.live.map fun l => if l.ended then l else { l with nodes := 0 } }
  let cmds := open'.map (·.cmd) ++ u.fetched
  if silent then
    updQ s q fun u => { u with live := u.live.filter (·.ended), resv := u.resv - cmds.length }
  else cmds.foldl (fun s c => complete s q c status 0) s

/-- The turn of queue `q` ends. -/
def dropTurn (s : State) (q : Nat) : State :=
  if (s.cfe.turn.map (·.q)) = some q then endTurn s else s

/-- A queue after a discard of its work: IDLE at its tail latch (R61). -/
def idleQueue (s : State) (q : Nat) : State :=
  if (queue s q).st = .disabled then s
  else updQ s q fun u => { u with st := .idle, reason := .none, head := u.tail }

/-- The user queues of partition `p` that are not DISABLED. -/
def partQueues (s : State) (p : Nat) : List Nat :=
  (s.queues.filter fun e => !isKernel e.1 && isQueue e.1 && e.2.st != .disabled && e.2.part == p).map (·.1)

/-- What a discard of partition `p` does at once, with the status of its records (R333 steps 1 to 5, R49). -/
def discardPart (s : State) (p status : Nat) (silent : Nat → Bool) : State :=
  let qs := partQueues s p
  let s := qs.foldl dropTurn s
  let s := discardAll s (fun h _ => partOr0 s h == p) (fun n _ => partOr0 s n == p) status
  let s := resetChans (dropHeld s p) (·.part == p)
  let s := fabDiscard (cmbDiscard (rteDiscard s p) p) p
  qs.foldl (fun s q => idleQueue (dropCommands s q status (silent q)) q) s

/-- The discard of partition `p` by a fault starts (R333). -/
def startDiscard (s : State) (p : Nat) (silent : Nat → Bool) : State :=
  btDiscard (discardPart { s with flt.discarding := s.flt.discarding.put p true } p 0x30 silent) p

/-- The discard of partition `p` ends once every launch of it is LOADED again and no agent runs a slice of it
(R333 step 5); while the block is stopped it is frozen (R348). -/
def discardEnd (s : State) (p : Nat) : State :=
  let drain := s.grs.nodes.any fun e => e.2.kind == .graph &&
    (e.2.hdr.lstate == .active || e.2.hdr.lstate == .draining) && partOr0 s e.1 == p
  if drain || issuedOf s p || s.flt.devReset || s.flt.stop != .running then s
  else { s with flt.discarding := s.flt.discarding.put p false }

/-- All work of queue `q` is discarded with a status, its pending launches of other queues' graphs too (R49, QUEUE_RESET).
(DEDUCED, log entry 28). -/
def discardQueue (s : State) (q status : Nat) : State :=
  let s := dropTurn s q
  let s := discardAll s (fun _ h => h.src.q == q) (fun _ r => r.src.q == q) status
  let s := if s.grs.nodes.any fun e => e.2.hdr.pend.any (·.src.q == q) then
      { s with grs.nodes := s.grs.nodes.foldUpd fun _ r =>
          { r with hdr := { r.hdr with pend := r.hdr.pend.filter fun p => p.src.q != q } } }
    else s
  let s := resetChans s (·.queue == q)
  updQ (dropCommands s q status false) q fun u => { u with st := .disabled, reason := .none, pend := false }

/-! ### Leaving a stop (R140, R347, R348, R353) -/

/-- Every unit and agent runs again: held completion records leave, deadlines run on from their remaining time, operations that wait
in CHN and routings are tested again, and a stopped Reckoner takes the state it had (R113, R140, R193, R241, R349, R353). -/
def unstop (s : State) : State :=
  let s := if s.fab.stopped then fabResume s else s
  let left := s.hif.waiting
  let s := { s with hif.stopped := false, hif.waiting := [], hif.flight := s.hif.flight ++ left }
  let s := emits s (left.map fun i => .cplWrite (cqBase s i.q + 32 * i.slot) (cplBytes i.record))
  let s := if s.pdm.stopped then
      { s with pdm.dl := s.pdm.dl.foldUpd fun _ d => if d.armed then { d with at_ := s.ts + d.at_ } else d }
    else s
  let s := { s with
    tly.stopped := false, dis.stopped := false, pdm.stopped := false, chn.stopped := false, bau.stopped := false,
    rte.stopped := false, cmb.stopped := false, slt.stopped := false, obs.stopped := false, flt.stoppedUnits := [] }
  let s := (s.chn.chans.map (·.1)).foldl (fun s c => retestClaims (retestSends s c) c) s
  let s := routeReady (s.rte.ready.length + 1) s
  (List.range (agentCount s)).foldl agentRuns s

/-! ### What a fault does (R308, R330, R337, R338, R348) -/

/-- A mask of the partitions that a table names. -/
def partMask (t : Tab Bool) : Nat := ((List.range 16).map fun p => b2n (t.look p) * 2 ^ p).foldl (· + ·) 0

/-- A UP fault of partition `p` is held: PENDING_UP of the Cut marks it, in the Slate too once the Cut is written (R348, R352). -/
def holdUp (s : State) (p : Nat) : State :=
  let s := { s with flt.heldUp := s.flt.heldUp.put p true }
  if s.flt.stop = .stopped then memWrite s 0xC (leBytes 2 (partMask s.flt.heldUp)) else s

/-- The Cut is no longer resumable: RESUMABLE clears, in the register and in the Cut's header (R348, R352, R354).
(DEDUCED, log entry 55). -/
def cutLost (s : State) : State :=
  if s.flt.resumable then { memWrite s 7 [memByte s 7 &&& 0xFB] with flt.resumable := false } else s

/-- A UD fault discards every partition and the kernel queues' work, and a DEVICE reset follows (R338, R348). -/
def startDeviceReset (s : State) (silent : Nat → Bool) (source : Nat) : State :=
  let s := cutLost { s with flt.devReset := true, flt.resetSource := source }
  let s := if s.flt.stop = .running then s else unstop { s with flt.stop := .running }
  let s := (List.range 16).foldl (fun s p => startDiscard s p silent) s
  ((List.range 16).map (0x1000 + ·)).foldl (fun s q =>
    if (queue s q).st = .disabled then s else idleQueue (dropCommands (dropTurn s q) q 0x30 (silent q)) q) s

/-- FLT takes one fault. -/
def takeFault (s : State) (f : FaultRec) : State :=
  let s := recordFault s f
  match f.cls with
  | .c => s
  | .up =>
    if !isReady s then s
    else if s.flt.devReset then s
    else if s.flt.stop ≠ .running then holdUp s f.part
    else if s.flt.discarding.look f.part then count s .fltMerge
    else startDiscard s f.part fun _ => false
  | .ud =>
    if !isReady s || s.flt.devReset then s
    else startDeviceReset s (fun q => (f.id == 0x0101 || f.id == 0x0102) && q == f.detail) 1

/-- A fault that is not of class C ends a boot in FAILED (R307, R308). -/
def bootFault (s : State) (f : FaultRec) : State :=
  let booting := match s.crb.stage with
    | .header | .slateInit | .load | .build => true
    | _ => false
  if booting && f.cls != .c then { s with crb.stage := .failed, crb.failCode := 0x0D } else s

/-- Faults in ascending order of identifier, the earlier first among equals. -/
def insFault (f : FaultRec) : List FaultRec → List FaultRec
  | [] => [f]
  | g :: r => if f.id < g.id then f :: g :: r else g :: insFault f r

/-- The faults that a command has raised are taken in ascending order of identifier (R329); a discard can raise further
ones. (DEDUCED, log entry 73). -/
def takeFaults : Nat → State → State
  | 0, s => { s with flt.raised := [] }
  | fuel + 1, s =>
    match s.flt.raised.foldl (fun l f => insFault f l) [] with
    | [] => s
    | l => takeFaults fuel (l.foldl (fun s f => bootFault (takeFault s f) f) { s with flt.raised := [] })

/-! ### Around every command -/

/-- An SRAM that a command reads: the unit's subsystem number, and the slot, channel, barrier, entry, port or stop that
R331 lets TARGET name. -/
abbrev Touch := Nat × Option Nat

/-- OBS discards its buffer (R331, R384, R385): the records count as lost. -/
def dropTrace (s : State) : State :=
  let n := s.obs.buf.length
  { countN s .obsTrLost n with obs.buf := [], obs.lost := s.obs.lost + n }

/-- OBS_SRAM_UE (R331): the buffer is discarded and a LOST record placed. -/
def obsUe (s : State) : State :=
  let s := dropTrace s
  if s.obs.lost = 0 then s
  else
    let l : TrRec := { type := 7, part := 0, cls := 0, gen := 0, node := Config.noNode, sub := 0, ts := s.ts,
                       arg1 := BitVec.ofNat 64 s.obs.lost, arg2 := 0 }
    { s with obs.buf := [l], obs.inAc := s.obs.inAc + 1, obs.lost := 0 }

/-- The double-bit error of an armed xxF1 injection is found at a read of its SRAM (R331, R332). Where R331 names no
object, DETAIL is the SRAM's bank, which the spec does not let the model tell. How the Beam's stops are numbered is not
stated either: whether a Beam packet passes stop TARGET is free. (DESIGN CHOICE, log entry 36). -/
def sramInject (s : State) (t : Touch) : State :=
  let id := t.1 * 256 + 0xF1
  if injArmed s id (fun x => t.2.isNone || t.2 == some x) then
    let target := regFld s 0xc00100 47 24
    let (b, s) := if t.2.isNone then freeNat s else (target, s)
    if t.1 = 8 ∧ b % 2 = 0 then s
    else
      let s := injFire s
      if t.1 = 0x13 then raiseInj (obsUe s) id .c 0 0 true
      else raiseInj s id .ud 0 (if t.1 = 8 then target else b) true
  else s

/-- The Beam packets that a command sent are under way (R18). -/
def underWay (s : State) : State := { s with beam := s.beam ++ s.out.filter (·.beam.isSome) }

/-- What ends every command: its faults are taken, operations that waited for a credit leave, what stands at TLY moves on,
answers to partners leave, and the Beam packets it sent are under way (R18, R87, R180, R268, R329). -/
def finish (s : State) : State :=
  let s := takeFaults 4 s
  underWay (takeFaults 4 (fabCollect (tlyPump (opRelease (s.held.length + 1) s))))

/-- A command's effect `f` on the state, with what stands around it: the list of what the last command sent is new, an
armed SRAM injection fires at a read of a touched SRAM, and faults are taken. The queue of waiting commands and N are no
part of any effect. -/
def act (touches : List Touch) (f : State → State) (s : State) : State :=
  { finish (f (touches.foldl sramInject s.quiet)) with pending := s.pending, agents := s.agents }

end Sys2Proof.Machine
end

