-- ==== Sys2Proof/Machine/Stop.lean ====
section
/-!
DEFINITION. Progress windows, the cycle check, the asynchronous inputs and Global Stop (R339–R354).
-/

namespace Sys2Proof.Machine

open Sys2Proof

/-! ### Progress windows (R339–R341) -/

/-- Commands of a queue that were fetched and have not completed. -/
def unfinished (u : Queue) : List Cmd := ((u.live.filter fun l => !l.ended).map (·.cmd)) ++ u.fetched

/-- Whether a window counts queue `q` (R339). -/
def windowCounts (s : State) (q : Nat) : Bool :=
  let u := queue s q
  let cmds := unfinished u
  let ready := s.grs.nodes.any fun e => isWork e.2.kind && (e.2.st == .ready || e.2.st == .issued) &&
    (!inGraph e.2 || (nd s e.2.graph).gen == e.2.gen) && queueOfNode s e.1 == q
  (!cmds.isEmpty || ready) && !(cmds.length == 1 && cmds.all (·.op == 0x33))
    && u.st != .stopped && u.st != .disabled
    && (isKernel q || (!regBit s 0x500000 u.part && !s.flt.discarding.look u.part))

/-- The node whose work made a fabric request. -/
def requesterNode (s : State) : Requester → Option Nat
  | .core a c tag => ((agt s a).ops.find? fun o => o.core == c && o.tag == tag).map (·.src.node)
  | .bau a c tag _ => ((agt s a).ops.find? fun o => o.core == c && o.tag == tag).map (·.src.node)
  | .rkn a _ => (rkn s a).launch.map (·.node)
  | _ => none

/-- Whether in-flight work of queue `q` waits in CHN, in BAU or in FAB's retry queue (R340). -/
def waitsElsewhere (s : State) (q : Nat) : Bool :=
  s.chn.sends.any (fun e => !e.granted && queueOfNode s e.src.node == q)
    || s.chn.claims.any (fun c => queueOfNode s c.src.node == q)
    || s.bau.waits.any (fun w => queueOfNode s w.src.node == q)
    || s.fab.outst.any fun e => e.2.any fun o => o.due.isSome && match o.who with
        | .flagSet k _ => k == q
        | .flagWait k _ => k == q
        | w => (requesterNode s w).any fun n => queueOfNode s n == q

/-- Whether queue `q` progressed in the window that ends (R340). -/
def progressed (s : State) (q : Nat) : Bool :=
  s.flt.progressed.look q || (waitsElsewhere s q && s.flt.progressed.any fun e =>
    e.2 && e.1 != q && !isKernel q && !isKernel e.1 && (queue s e.1).part == (queue s q).part)

/-- Queue `q` at the end of a window (R341). An armed FLT_HANG finds its queue at LIMIT − 1, without progress (R331). -/
def windowQueue (s : State) (q : Nat) : State :=
  let limit := max 1 (regFld s 0xc00040 39 32)
  let inj := injArmed s 0x1101 (· == q)
  if !inj && (!windowCounts s q || progressed s q) then { s with flt.stall := s.flt.stall.put q 0 }
  else
    let n := if inj then limit else min 255 (s.flt.stall.look q + 1)
    let s := count { s with flt.stall := s.flt.stall.put q n } .fltStallWin
    let s := if inj then injFire s else s
    if n = limit then raiseInj s 0x1101 .ud 0 q inj else s

/-- A progress window ends (R341); none ends before Ready or while the block is stopped (R348).
(DESIGN CHOICE, log entry 3). -/
def windowEnd (s : State) : State :=
  if s.flt.stop ≠ .running || !isReady s then s
  else
    let target := regFld s 0xc00100 47 24
    let known := (s.queues.map (·.1)).filter isQueue
    let qs := if injArmed s 0x1101 (fun _ => true) && !known.contains target then known ++ [target] else known
    let s' := if regBit s 0xc00040 40 then
        qs.foldl (fun t q => windowQueue { t with flt.progressed := s.flt.progressed } q) s
      else s
    { s' with flt.progressed := [], agt := s'.agt.foldUpd fun _ a => { a with acts := [] } }

/-! ### The cycle check (R342, R343) -/

/-- The walk from `x` along the registered waits back to `q`: the queues on it, or none (R342). -/
def walk (s : State) (q : Nat) : Nat → Nat → List Nat → Option (List Nat)
  | 0, _, _ => none
  | fuel + 1, x, path =>
    if x = q then some path
    else match s.flt.wait.find? (·.q == x) with
      | none => none
      | some w => walk s q fuel w.setter (path ++ [x])

/-- The cycle that the wait of queue `q` closes. -/
def cycleOf (s : State) (q : Nat) : Option (List Nat) :=
  match s.flt.wait.find? (·.q == q) with
  | none => none
  | some w => walk s q 4112 w.setter [q]

/-- The FLAG_WAIT of a queue on a declared cycle of `n` queues completes with DEADLOCK, and the queue stops (R343). -/
def deadlock (n : Nat) (s : State) (q : Nat) : State :=
  match s.flt.wait.find? (·.q == q) with
  | none => s
  | some w => stopQueue (endFlag s q w.seq 0x21 n) q .deadlock

/-- The walk of the oldest entry not yet walked ends (R342, R343). -/
def cycleWalkEnd (s : State) : State :=
  match s.flt.walks with
  | [] => s
  | q :: rest =>
    let s := { s with flt.walks := rest }
    match cycleOf s q with
    | none => s
    | some l =>
      let s := l.foldl (deadlock l.length) s
      let s := count { s with flt.irqStat := s.flt.irqStat ||| 4, flt.cycLen := l.length, flt.cycQ := l.take 16 } .fltCycle
      logRecord s 0x0A 0 l.length

/-! ### Asynchronous inputs (R344, R345) -/

/-- Input `k` is asserted: FLT_IN_STAT shows it, and `f` acts once, unless it was asserted already. -/
def inputActive (s : State) (k : Nat) (f : State → State) : State :=
  if s.flt.level.getLsbD k then f { s with flt.level := s.flt.level &&& ~~~((1 : BitVec 5) <<< k) } else s

/-- Input `k` returns to its inactive level for the whole filter time: it re-arms. -/
def inputInactive (s : State) (k : Nat) : State := { s with flt.level := s.flt.level ||| ((1 : BitVec 5) <<< k) }

/-- An excursion of input `k` shorter than the filter time (R345). -/
def inputGlitch (s : State) (k : Nat) : State :=
  if 5 ≤ k then s else count { s with flt.irqStat := s.flt.irqStat ||| 8 } (.fltGlitch k)

/-- THERM_TRIP_N is asserted (R344). -/
def thermTrip (s : State) : State := inputActive s 3 fun s => raise s 0x1202 .ud 0 0

/-! ### Global Stop (R346–R354) -/

/-- A request for Global Stop from SOURCE: 0 STOP_N, 1 host software, 2 management firmware (R308, R346, R347). -/
def stopRequest (s : State) (source : Nat) : State :=
  if !isReady s then count s .crbBootIgn
  else if s.flt.stop ≠ .running then count s .fltStopIgn
  else
    let s := trRecord s { type := 8, part := 0, cls := 0, gen := 0, node := Config.noNode, sub := source, ts := s.ts,
                          arg1 := 0, arg2 := 0 }
    { s with flt.stop := .stopping, flt.stopSource := source, flt.stopTs := s.ts, flt.stoppedUnits := [] }

/-- The Hub units that report stopped, by subsystem number (R349); an agent `a` reports as 32 + `a`. -/
def stopUnits : List Nat := [1, 2, 5, 6, 7, 0xB, 0xC, 0xD, 0xE, 0xF, 0x10, 0x13]

/-- Agent `a` stops: its Reckoner's state is recorded (R140, R141). -/
def stopAgent (s : State) (a : Nat) : State :=
  updA s a fun x => { x with stopped := true, rkn := { x.rkn with prior := x.rkn.st, st := .stopped } }

/-- The stop token reaches unit or agent `u`, which stops at its own boundary (R92, R113, R193, R198, R241, R261, R297,
R349). A stopped PDM keeps each armed deadline's remaining time. -/
def tokenArrive (s : State) (u : Nat) : State :=
  if s.flt.stop ≠ .stopping || s.flt.stoppedUnits.contains u then s
  else if 32 ≤ u then
    if u < 32 + agentCount s then stopAgent { s with flt.stoppedUnits := s.flt.stoppedUnits ++ [u] } (u - 32) else s
  else if !stopUnits.contains u then s
  else
    let s := { s with flt.stoppedUnits := s.flt.stoppedUnits ++ [u] }
    match u with
    | 1 => { s with hif.stopped := true }
    | 5 => { s with tly.stopped := true }
    | 6 => { s with dis.stopped := true }
    | 7 =>
      let left := fun (d : Deadline) => if d.at_ ≤ s.ts then (0 : W64) else d.at_ - s.ts
      { s with pdm.stopped := true,
               pdm.dl := s.pdm.dl.foldUpd fun _ d => if d.armed then { d with at_ := left d } else d }
    | 0xB => { s with chn.stopped := true }
    | 0xC => { s with bau.stopped := true }
    | 0xD => { s with rte.stopped := true }
    | 0xE => { s with cmb.stopped := true }
    | 0xF => { s with slt.stopped := true }
    | 0x10 => fabStop s
    | 0x13 => { s with obs.stopped := true }
    | _ => s

/-- TLY has stopped once its lanes have applied every operation already emitted (R92). -/
def tlyStopped (s : State) : Bool := s.tly.stopped && s.tly.ops.isEmpty && s.tly.miss.isEmpty

/-- Every unit and agent reports stopped: SAVING (R347, R352). -/
def allStopped (s : State) : State :=
  let all := (stopUnits ++ (List.range (agentCount s)).map (32 + ·)).all s.flt.stoppedUnits.contains
  if s.flt.stop = .stopping ∧ all ∧ tlyStopped s ∧ fabHalted s then
    { s with flt.stop := .saving, flt.stoppedTs := s.ts, flt.cutValid := false }
  else s

/-- HIF_ID (R1). -/
def hifId : Nat := 0x00030200

/-- The Cut header (R352); `dir` are its used directory entries. -/
def cutHeader (s : State) (sections len : Nat) (dir : Bytes) : Bytes :=
  leBytes 4 0x31545543 ++ leBytes 2 1 ++ leBytes 1 sections ++ leBytes 1 (s.flt.stopSource % 4 + 4) ++ leBytes 4 len
    ++ leBytes 2 (partMask s.flt.heldUp) ++ leBytes 2 (partMask s.flt.discarding)
    ++ leBytes 8 s.flt.stopTs.toNat ++ leBytes 8 s.flt.stoppedTs.toNat ++ leBytes 4 hifId
    ++ Bytes.slice [] 0 28 ++ Bytes.slice dir 0 1024 ++ Bytes.slice [] 0 3008

/-- The units of the Cut's sections: every subsystem in ascending number, FAB's last (R352). -/
def cutUnits : List Nat := (List.range' 1 20).filter (· != 16) ++ [16]

/-- The images of the Long Sums that CMB has cached (R220, R241): which ones, of those of OPEN groups, and how many of at most
16,384, is free. -/
def cutSums (s : State) : Bytes :=
  let open' := (s.cmb.grps.filter fun e => e.2.st == .opened).map (·.1)
  let n := if open'.isEmpty then 0 else Config.freeNat (s.free + 32) % 16385
  (List.range n).flatMap fun j =>
    let g := open'.getD (Config.freeNat (s.free + 33 + 2 * j) % open'.length) 0
    memRead s (imageAt s g (Config.freeNat (s.free + 34 + 2 * j) % (grpTokens s g * grpCols s g))) 128

/-- The parts of a unit's section whose layout is stated: channel states, barrier states and Long Sums (R176, R194, R220). -/
def cutStated (s : State) (u : Nat) : Bytes :=
  if u = 0xB then (s.chn.chans.take 65536).flatMap fun e => chanImage e.2
  else if u = 0xC then (s.bau.bars.take 65536).flatMap fun e => barImage s e.1
  else if u = 0xE then cutSums s
  else []

/-- The section of unit `u`: what is stated of it, and free bytes (R352). (DESIGN CHOICE, log entry 56). -/
def cutSection (s : State) (u : Nat) : Bytes :=
  let n := Config.freeNat (s.free + u) % 0x400000
  cutStated s u ++ Bytes.slice (Config.freeBytes (s.free + u) n) 0 n

/-- Sections with their offsets: each starts at the next multiple of 256. -/
def cutPlace (s : State) : Nat → List Nat → List (Nat × Nat × Bytes)
  | _, [] => []
  | o, u :: r => (u, o, cutSection s u) :: cutPlace s ((o + (cutSection s u).length + 255) / 256 * 256) r

/-- The directory entry of a section (R352). -/
def dirEntry (x : Nat × Nat × Bytes) : Bytes :=
  leBytes 4 x.1 ++ leBytes 4 x.2.1 ++ leBytes 4 x.2.2.length ++ leBytes 4 (crc32c x.2.2) ++ List.replicate 16 0

/-- The sections of the Cut. -/
def cutSections (s : State) : List (Nat × Nat × Bytes) := cutPlace s 0x1000 cutUnits

/-- The Cut's length, its header included. -/
def cutLength (s : State) : Nat := (cutSections s).foldl (fun n x => max n (x.2.1 + x.2.2.length)) 0x1000

/-- The Cut and, last, its header are written to SYSTEM: STOPPED (R347, R352). -/
def cutWritten (s : State) : State :=
  if s.flt.stop ≠ .saving then s
  else
    let l := cutSections s
    let len := cutLength s
    let s := l.foldl (fun s x => (writeAt s x.2.1 x.2.2).1) { s with free := s.free + 32801 }
    let s := (writeAt s 0 (cutHeader s l.length len (l.flatMap dirEntry))).1
    { s with flt.stop := .stopped, flt.cutValid := true, flt.resumable := true, flt.cutKib := (len + 1023) / 1024,
             flt.irqStat := s.flt.irqStat ||| 16 }

/-- The held discards of UP faults start (R348, R353). -/
def startHeld (s : State) : State :=
  ((List.range 16).filter s.flt.heldUp.look).foldl (fun s p =>
    if s.flt.discarding.look p then s else startDiscard s p fun _ => false) { s with flt.heldUp := [] }

/-- RESUME written by a party that may request: the first ac of RESUMING (R347, R353). -/
def stopResume (s : State) : State :=
  if s.flt.stop ≠ .stopped then count s .fltStopIgn
  else
    let s := trRecord { s with flt.stop := .resuming }
      { type := 9, part := 0, cls := 0, gen := 0, node := Config.noNode, sub := 0, ts := s.ts, arg1 := 0, arg2 := 0 }
    startHeld (unstop s)

/-- Every unit reports running (R347): commands held undecoded are tested again (R349), and UP faults held since the first ac of
RESUMING start their discards (R348). (DEDUCED, log entry 55). -/
def allRunning (s : State) : State :=
  if s.flt.stop ≠ .resuming then s
  else
    let s := startHeld { s with flt.stop := .running }
    ((s.queues.map (·.1)).filter isQueue).foldl settleQ s

end Sys2Proof.Machine
end

