-- ==== Sys2Proof/Machine/RegRead.lean ====
section
/-!
DEFINITION. The register map and what a read of each register returns (chapter 17 and the register tables of every
chapter; R26, R374, R378, R418, R419).
-/

namespace Sys2Proof.Machine

open Sys2Proof

/-! ### The map (R418, R419) -/

/-- Rows of registers: first address, distance, number and width in bits. -/
def regRows : List (Nat × Nat × Nat × Nat) := List.flatten [
  [(0x0, 8, 1, 32), (0x8, 8, 1, 64), (0x400, 0x20, 16, 64), (0x408, 0x20, 16, 64), (0x410, 0x20, 16, 32)],
  [(0x600, 8, 3, 32), (0x10000, 0x1000, 16, 32), (0x10008, 0x1000, 16, 32), (0x10010, 0x1000, 16, 32)],
  [(0x100000, 8, 1, 32), (0x180000, 8, 1, 32), (0x180100, 8, 8, 64), (0x200000, 8, 1, 32)],
  [(0x201000, 4, 1024, 32), (0x300000, 8, 1, 32), (0x300040, 4, 16, 32), (0x400000, 8, 1, 64)],
  [(0x400010, 8, 1, 32), (0x400100, 8, 16, 32), (0x400200, 8, 16, 64), (0x500000, 8, 2, 32)],
  [(0x501010, 8, 510, 64), (0x502000, 32, 16, 64), (0x502008, 32, 16, 64), (0x502010, 32, 16, 64)],
  [(0x600000, 8, 1, 64), (0x600008, 8, 1, 32), (0x600100, 8, 16, 64), (0x600200, 8, 1, 32), (0x600240, 8, 8, 64)],
  [(0x700000, 8, 1, 32), (0x700100, 8, 16, 64), (0x800000, 8, 1, 32), (0x810000, 8, 4096, 64)],
  [(0x830000, 8, 1024, 64), (0x900000, 8, 1, 32), (0x910000, 8, 1024, 64), (0x930000, 8, 256, 64)],
  [(0xa00000, 8, 1, 32), (0xa00100, 8, 5, 32), (0xa00200, 8, 16, 32), (0xa00300, 8, 2, 32), (0xa00320, 4, 4, 32)],
  [(0xa01000, 4, 120, 32), (0xa01400, 8, 128, 64), (0xa02000, 8, 1, 32), (0xa02008, 8, 1, 64)],
  [(0xb00000, 8, 2, 32), (0xb00010, 8, 1, 64), (0xb00018, 8, 3, 32), (0xb00100, 0x20, 8, 64)],
  [(0xb00108, 0x20, 8, 64), (0xb00400, 8, 16, 64), (0xb10000, 4, 4096, 32)],
  [(0xc00000, 8, 1, 32), (0xc00008, 8, 5, 64), (0xc00030, 8, 1, 32), (0xc00040, 8, 1, 64), (0xc00048, 8, 2, 32)],
  [(0xc00100, 8, 1, 64), (0xc00200, 8, 1, 32), (0xc00208, 8, 1, 64), (0xc00300, 8, 1, 32), (0xc00308, 4, 8, 32)],
  [(0xc00400, 8, 1, 32), (0xd00000, 8, 5, 32), (0xd00028, 8, 2, 64), (0xd00038, 8, 2, 32), (0xd00048, 8, 1, 64)],
  [(0xd00050, 8, 1, 32), (0xd00100, 4, 8, 32), (0xd00140, 4, 16, 32), (0xd00180, 4, 8, 32), (0xd10000, 8, 512, 64)],
  [(0xe00000, 8, 2, 64), (0xe00010, 8, 2, 32), (0xe00020, 8, 1, 64), (0xe00030, 8, 1, 32), (0xe00050, 8, 1, 32)],
  (List.range 16).map fun p => (0xe10000 + 0x1000 * p, 8, 18, 64),
  [(0xe100f0, 0x1000, 16, 32), (0xe100f8, 0x1000, 16, 64), (0xe40000, 8, 4 * 0x1010, 64)],
  [(0xf00000, 8, 1, 64), (0xf00008, 8, 2, 32), (0xf00018, 8, 1, 64), (0xf00020, 8, 1, 32)],
  [(0x2000000, 0x1000, 4096, 32), (0x2000008, 0x1000, 4096, 32), (0x2000010, 0x1000, 4096, 32)]]

/-- Registers of an agent window, as offsets and widths. -/
def agentRegs : List (Nat × Nat) :=
  [(0, 32), (8, 64), (0x10, 64), (0x18, 64), (0x20, 32), (0x28, 32), (0x30, 32)]

/-- The counter at an address. -/
def counterAt (s : State) (a : Nat) : Option Ctr :=
  match hubCounters.find? (·.addr == a) with
  | some c => some c
  | none =>
    if 0x1000000 ≤ a ∧ a < 0x1000000 + 0x10000 * agentCount s then
      (agentCounters ((a - 0x1000000) / 0x10000)).find? (·.addr == a)
    else none

/-- The width of the register at an address; none where no register starts there. -/
def regWidth (s : State) (a : Nat) : Option Nat :=
  match counterAt s a with
  | some c => some c.bits
  | none =>
    if 0x1000000 ≤ a ∧ a < 0x1000000 + 0x10000 * agentCount s then
      (agentRegs.find? (·.1 == (a - 0x1000000) % 0x10000)).map (·.2)
    else (regRows.find? fun r => inRow a r.1 r.2.1 r.2.2.1).map (·.2.2.2)

/-- Whether a 64-bit register stands at an address, a multiple of 8. -/
def is64 (s : State) (a : Nat) : Bool := regWidth s a == some 64

/-- The queue of a doorbell page, where the address lies in one. -/
def pageQueue (a : Nat) : Option Nat :=
  if 0x10000 ≤ a ∧ a < 0x20000 then some (0x1000 + (a - 0x10000) / 0x1000)
  else if 0x2000000 ≤ a ∧ a < 0x3000000 then some ((a - 0x2000000) / 0x1000)
  else none

/-- The partition of a partition page, where the address lies in one. -/
def pagePart (a : Nat) : Option Nat :=
  if 0xe10000 ≤ a ∧ a < 0xe20000 then some ((a - 0xe10000) / 0x1000) else none

/-! ### HIF, CFE, AUT, GRS and TLY -/

/-- SPARE_VAULTS: vaults in role SPARE or TARGET (R244). -/
def spareVaults (s : State) : Nat :=
  ((List.range 128).filter fun v => (vault s v).role == .spare || (vault s v).role == .target).length

/-- HIF_FEAT (R26). -/
def hifFeat (s : State) : W64 :=
  BitVec.ofNat 64 (0x0310080078101000 + agentCount s + spareVaults s % 256 * 2 ^ 32)

/-- STATE of DB_STAT. -/
def QState.code : QState → Nat
  | .disabled => 0
  | .idle => 1
  | .fetching => 2
  | .waiting => 3
  | .stopped => 4

/-- STOP_REASON of DB_STAT. -/
def StopReason.code : StopReason → Nat
  | .none => 0
  | .resync => 1
  | .cplFault => 2
  | .deadlock => 3

/-- DB_STAT of a queue. -/
def dbStat (s : State) (q : Nat) : Nat :=
  let u := queue s q
  u.head % 2 ^ 16 + u.st.code * 2 ^ 16 + u.reason.code * 2 ^ 19 + b2n u.pend * 2 ^ 22

/-- HIF_SPILL_STAT. -/
def spillStat (s : State) : Nat :=
  s.hif.spill.length % 2 ^ 13 + ((s.hif.spill.head?).map (·.q)).getD 0 % 2 ^ 13 * 2 ^ 16

/-- STATE_s of AUT_SLOT_STAT. -/
def SlotState.code : SlotState → Nat
  | .empty => 0
  | .valid => 1
  | .revoked => 2

/-- A sum over the first `n` numbers. -/
def sumTo (n : Nat) (f : Nat → Nat) : Nat := (List.range n).foldl (fun a i => a + f i) 0

/-- AUT_SLOT_STAT. -/
def slotStat (s : State) : Nat := sumTo 8 fun i => (s.aut.slots.look i).st.code * 2 ^ (2 * i)

/-- GRS_TPL_t. -/
def tplWord (s : State) (t : Nat) : Nat :=
  let x := tpl s t
  x.header % 2 ^ 24 + x.part % 16 * 2 ^ 24 + b2n x.valid * 2 ^ 31

/-- TLY_STAT. -/
def tlyStat (s : State) : Nat :=
  b2n s.tly.zeroSeen + b2n (tlyStopped s) * 2 + s.tly.exp.length % 2 ^ 7 * 2 ^ 8
    + sumTo 16 fun p => b2n (!(s.tly.backlog.look p).isEmpty) * 2 ^ (16 + p)

/-! ### DIS, PDM, CHN and BAU -/

/-- PDM_PART_STAT: DRAINED and HELD (R98, R109). -/
def partStat (s : State) : Nat :=
  sumTo 16 fun p => b2n (regBit s 0x500000 p && !issuedOf s p) * 2 ^ p
    + b2n (s.dis.beads.any fun b => b.held && b.part == p) * 2 ^ (16 + p)

/-- PDM_DL_B_g. -/
def dlB (s : State) (g : Nat) : Nat :=
  dlSwitchQc s g + b2n (s.pdm.dl.look g).armed * 2 ^ 32 + b2n (s.pdm.dl.look g).switched * 2 ^ 33

/-- STATE of PDM_BT_STAT. -/
def BtState.code : BtState → Nat
  | .off => 0
  | .idle => 1
  | .stepping => 2
  | .boundary => 3

/-- PDM_BT_STAT_b. -/
def btStat (s : State) (b : Nat) : Nat :=
  let t := bt s b
  t.st.code + b2n t.interrupted * 4 + (activeSlots s b).length % 2 ^ 9 * 2 ^ 8 + t.step.toNat % 2 ^ 32 * 2 ^ 32

/-- CHN_POOL. -/
def poolWord (s : State) : Nat :=
  s.chn.cells % 2 ^ 25 + (s.chn.cells - s.chn.taken.length) % 2 ^ 25 * 2 ^ 32

/-- CHN_STAT. -/
def chnStat (s : State) : Nat :=
  b2n s.chn.stopped + s.chn.sends.length % 2 ^ 11 * 2 + s.chn.claims.length % 2 ^ 11 * 2 ^ 12

/-- CHN_PART_CELLS_p. -/
def partCells (s : State) (p : Nat) : Nat :=
  (s.parts.look p).cellQuota % 2 ^ 24 + cellsHeld s p % 2 ^ 24 * 2 ^ 32

/-- First cell of a packet, 0x1FF_FFFF for none. -/
def firstCell (p : Option Pkt) : Nat := ((p.bind (·.cells.head?)).getD 0x1FFFFFF) % 2 ^ 25

/-- Word `k` of a channel's state (R176). -/
def chanWord (s : State) (c k : Nat) : Nat :=
  let h := chan s c
  match k with
  | 0 => b2n h.open_ + b2n h.dropNewest * 2 + b2n h.gapTaken * 4 + h.part % 16 * 2 ^ 8 + h.epoch.toNat * 2 ^ 16
      + h.queue % 2 ^ 13 * 2 ^ 32
  | 1 => h.quota % 2 ^ 24 + h.used % 2 ^ 24 * 2 ^ 32
  | 2 => h.depth % 2 ^ 16 + h.packets % 2 ^ 16 * 2 ^ 16 + firstCell h.list.head? * 2 ^ 32
  | 3 => firstCell h.list.getLast? + h.tailGap % 2 ^ 32 * 2 ^ 32
  | 4 => h.seq.toNat
  | 5 => h.notifyNode % 2 ^ 24 + b2n h.notifyEn * 2 ^ 24 + (sumTo 31 fun i => b2n (h.claims.look i).isSome * 2 ^ i) * 2 ^ 32
  | 6 => h.msg % 2 ^ 32 + h.stall % 2 ^ 32 * 2 ^ 32
  | _ => h.drops % 2 ^ 32 + h.closedDisc % 2 ^ 32 * 2 ^ 32

/-- BAU_STAT. -/
def bauStat (s : State) : Nat :=
  b2n s.bau.stopped + (((s.bau.bars.filter (·.2.bound)).map (·.2.node)).eraseDups).length % 2 ^ 13 * 2
    + s.bau.waits.length % 2 ^ 12 * 2 ^ 14

/-! ### RTE, CMB, SLT and FAB -/

/-- STATE of RTE_RC_STAT. -/
def PassState.code : PassState → Nat
  | .idle => 0
  | .active => 1
  | .closed => 2

/-- RTE_RC_STAT_r. -/
def rcStat (s : State) (r : Nat) : Nat :=
  (rc s r).st.code + (rc s r).next % 2 ^ 24 * 2 ^ 8 + (rc s r).pass.toNat * 2 ^ 32

/-- STATE of CMB_GRP_STAT. -/
def GrpState.code : GrpState → Nat
  | .idle => 0
  | .opened => 1
  | .zeroing => 2

/-- CMB_GRP_STAT_g. -/
def grpStat (s : State) (g : Nat) : Nat := (grp s g).st.code + (grp s g).done % 2 ^ 24 * 2 ^ 8

/-- SLT_STAT. -/
def sltStat (s : State) : Nat :=
  b2n s.slt.stopped + b2n s.slt.scrubActive * 2
    + b2n (s.slt.vs == .test || s.slt.vs == .copy || s.slt.vs == .switch) * 4 + s.slt.refresh2x.toNat * 2 ^ 16

/-- ROLE of SLT_VAULT_STAT. -/
def Role.code : Role → Nat
  | .active => 0
  | .spare => 1
  | .retired => 2
  | .target => 3

/-- A sum over the entries of a table. -/
def sumTab (t : Tab Nat) : Nat := t.foldl (fun a e => a + e.2) 0

/-- SLT_VAULT_STAT_v. -/
def vaultStat (s : State) (v : Nat) : Nat :=
  let x := vault s v
  x.role.code + (144 - sumTab x.lanesUsed) % 2 ^ 8 * 2 ^ 8 + (4096 - sumTab x.rowsUsed) % 2 ^ 13 * 2 ^ 16
    + x.bad.length % 2 ^ 7 * 2 ^ 32

/-- STATE of SLT_VSPARE_STAT. -/
def VsState.code : VsState → Nat
  | .idle => 0
  | .test => 1
  | .copy => 2
  | .switch => 3
  | .failed => 4

/-- SLT_VSPARE_STAT. -/
def vspareStat (s : State) : Nat :=
  s.slt.vs.code + s.slt.vsLogical % 2 ^ 7 * 2 ^ 8 + s.slt.vsTarget % 2 ^ 7 * 2 ^ 16 + s.slt.cursor % 2 ^ 21 * 2 ^ 32

/-- Four tier temperatures from tier `i` on. -/
def tierTemps (s : State) (i : Nat) : Nat := sumTo 4 fun k => min 255 (s.slt.temp.look (i + k)) * 2 ^ (8 * k)

/-- FAB_STAT. -/
def fabStat (s : State) : Nat :=
  b2n (fabHalted s) + sumTo 8 fun k => b2n ((port s k).st == .up) * 2 ^ (8 + k) + b2n ((port s k).st == .dead) * 2 ^ (16 + k)

/-- STATE of FAB_PARTNER_STAT. -/
def PartnerState.code : PartnerState → Nat
  | .unreachable => 0
  | .reachable => 1
  | .notReady => 2
  | .waiting => 3

/-- FAB_PARTNER_STAT. -/
def partnerStat (s : State) : Nat :=
  let d := regFld s 0xb00020 11 0
  (partnerState s d).code
    + (s.fab.outst.filter fun e => e.2.any fun o => o.hdr.dstBlock == d).length % 2 ^ 13 * 2 ^ 16

/-- STATE of FAB_PORT_STAT. -/
def LinkState.code : LinkState → Nat
  | .down => 0
  | .train => 1
  | .ident => 2
  | .up => 3
  | .retrain => 4
  | .dead => 5

/-- FAB_PORT_STAT_k. -/
def portStat (s : State) (k : Nat) : Nat :=
  let p := port s k
  p.st.code + b2n p.peerReady * 8 + b2n p.degraded * 16 + p.lanes.toNat * 2 ^ 8 + p.peerBlock % 2 ^ 12 * 2 ^ 16
    + p.peerPort % 8 * 2 ^ 28 + p.txSeq % 2 ^ 12 * 2 ^ 32 + p.rxNext % 2 ^ 12 * 2 ^ 44

/-! ### FLT, MGT, OBS and CRB -/

/-- STATE of FLT_STOP_STAT. -/
def StopState.code : StopState → Nat
  | .running => 0
  | .stopping => 1
  | .saving => 2
  | .stopped => 3
  | .resuming => 4

/-- FLT_STOP_STAT. -/
def stopStat (s : State) : Nat :=
  s.flt.stop.code + s.flt.stopSource % 4 * 8 + b2n s.flt.cutValid * 32 + b2n s.flt.resumable * 64
    + s.flt.cutKib % 2 ^ 32 * 2 ^ 32

/-- FLT_CYC_Q_j. -/
def cycWord (s : State) (j : Nat) : Nat :=
  s.flt.cycQ.getD (2 * j) 0 % 2 ^ 13 + s.flt.cycQ.getD (2 * j + 1) 0 % 2 ^ 13 * 2 ^ 16

/-- Journal sectors in a state; sectors 2 to 1,023 are the journal's (chapter 14). -/
def sectorsIn (s : State) (st : SecState) : Nat :=
  ((List.range 1022).filter fun i => (s.mgt.sectors.look (i + 2)).st == st).length

/-- MGT_HEALTH. -/
def healthWord (s : State) : Nat :=
  b2n (isReady s && !(List.range 128).any fun v => (vault s v).role == .spare)
    + b2n s.mgt.bankOut * 2 + b2n s.mgt.laneOut * 4 + b2n ((List.range 8).any fun k => (port s k).degraded) * 8
    + b2n ((List.range (agentCount s)).any fun a => (agt s a).spareUsed) * 16 + b2n s.crb.onStby * 32
    + b2n s.crb.stbyFail * 64 + b2n (s.mgt.failed.any (·.2)) * 128 + b2n (decide (15360 ≤ (liveLog s).length)) * 256
    + b2n (decide (1022 - sectorsIn s .retired < 64)) * 512 + b2n s.mgt.thermal * 1024 + b2n s.mgt.sramOut * 2048
    + sumTo 8 fun i => b2n (decide (100 ≤ s.mgt.pmbFail.look i)) * 2 ^ (12 + i)

/-- MGT_LOG_STAT. -/
def logStat (s : State) : Nat :=
  (liveLog s).length % 2 ^ 15 + sectorsIn s .free % 2 ^ 10 * 2 ^ 16 + sectorsIn s .retired % 2 ^ 10 * 2 ^ 32

/-- MGT_PWR_STAT: EST in 0.1 W and RATE. EST is kept in units of 5 × 10⁻¹¹ W. -/
def pwrStat (s : State) : Nat := s.mgt.est / 2000000000 % 2 ^ 16 + s.mgt.rate % 2 ^ 14 * 2 ^ 32

/-- PIN in W: VIN in 10 mV times IIN in 10 mA (R368). -/
def pinWatt (s : State) : Nat := s.mgt.vin * s.mgt.iin / 10000

/-- MGT_BUS. -/
def busWord (s : State) : Nat :=
  s.mgt.vin % 2 ^ 16 + s.mgt.iin % 2 ^ 16 * 2 ^ 16 + pinWatt s % 2 ^ 16 * 2 ^ 32

/-- STATE of MGT_UPD_STAT. -/
def UpdState.code : UpdState → Nat
  | .idle => 0
  | .receiving => 1
  | .verifying => 2
  | .committing => 3
  | .committed => 4

/-- MGT_UPD_STAT. -/
def updStat (s : State) : Nat :=
  s.mgt.upd.code + b2n s.mgt.updPort * 8 + s.mgt.updLast % 256 * 2 ^ 8 + s.mgt.updFail % 256 * 2 ^ 16

/-- Thermal sensor `i` in °C, saturating at 255. -/
def celsius (s : State) (i : Nat) : Nat := min 255 (s.mgt.temp.look i / 8)

/-- Voltage sensor `k` in mV. -/
def millivolt (s : State) (k : Nat) : Nat := s.mgt.volt.look k / 2 % 2 ^ 16

/-- OBS_TR_STAT. -/
def trStat (s : State) : Nat :=
  s.obs.tail % 2 ^ 24 + b2n s.obs.phase * 2 ^ 24 + b2n s.obs.wrErr * 2 ^ 25 + b2n s.obs.stopped * 2 ^ 26
    + s.obs.buf.length % 2 ^ 13 * 2 ^ 32

/-- STAGE of CRB_BOOT_STAT. -/
def Stage.code : Stage → Nat
  | .reset => 0
  | .clocks => 1
  | .header => 2
  | .slateInit => 3
  | .load => 4
  | .build => 5
  | .ready => 6
  | .failed => 7

/-- CRB_BOOT_STAT. -/
def bootStat (s : State) : Nat :=
  s.crb.stage.code + s.crb.failCode % 256 * 2 ^ 8 + s.crb.secType % 256 * 2 ^ 16 + s.crb.bytesRead % 2 ^ 27 * 2 ^ 32

/-- CRB_RESET_CAUSE. -/
def resetCause (s : State) : Nat := s.crb.kind % 4 + s.crb.source % 256 * 2 ^ 8 + s.crb.fault % 2 ^ 16 * 2 ^ 16

/-- CRB_CLK_STAT. -/
def clkStat (s : State) : Nat := b2n s.crb.rootLock + b2n s.crb.stbyLock * 2 + b2n s.crb.onStby * 4

/-- CRB_IMG_INFO. -/
def imgInfo (s : State) : Nat := s.crb.svn % 2 ^ 16 + s.crb.keySlot % 4 * 2 ^ 16 + s.crb.imageLen % 2 ^ 32 * 2 ^ 32

/-- CRB_OTP. -/
def otpWord (s : State) : Nat :=
  s.crb.otp.programmed.toNat + s.crb.otp.revoked.toNat * 16 + s.crb.otp.minSvn % 2 ^ 16 * 2 ^ 16

/-- A word of partition `p`'s page at offset 8 × `i` (R374). -/
def pageWord (s : State) (p i : Nat) : Nat :=
  if i = 0 then p % 16 + b2n (isPinned s p) * 16
  else if i < 18 then (s.obs.snap.look (32 * p + i)).toNat
  else if i = 31 then (s.obs.snapTs.look p).toNat
  else 0

/-! ### Agents -/

/-- STATE of AGT_STAT. -/
def RknState.code : RknState → Nat
  | .idle => 0
  | .setup => 1
  | .running => 2
  | .ending => 3
  | .halting => 4
  | .debug => 5
  | .aborting => 6
  | .loading => 7
  | .stopped => 8

/-- A register of agent `a`'s window at offset `o`. -/
def agentReg (s : State) (a o : Nat) : Nat :=
  match o with
  | 0 => (rkn s a).st.code + b2n (agt s a).spareUsed * 16 + b2n (agt s a).held * 32
      + ((coresOf s a).map (2 ^ ·)).foldl (· + ·) 0 * 2 ^ 16
  | 0x10 => rknFeat0.toNat
  | 0x18 => (agt s a).eng.toNat
  | 0x30 => 0
  | _ => (regGet s (agentBase a + o)).toNat

/-! ### Any register -/

/-- Index in a row of registers. -/
def rowIdx (a base stride : Nat) : Nat := (a - base) / stride

/-- Unit windows 0 to 5. -/
def readLow (s : State) (a : Nat) : Nat :=
  if a = 0 then hifId
  else if a = 8 then (hifFeat s).toNat
  else if a = 0x600 then 0
  else if a = 0x608 then spillStat s
  else if a = 0x610 then s.hif.irqStat.toNat
  else if a = 0x180000 then slotStat s
  else if inRow a 0x180100 8 8 then (s.aut.slots.look (rowIdx a 0x180100 8)).last.toNat
  else if a = 0x200000 then s.grs.table.length % 2 ^ 13 + b2n (!s.grs.sweeping.isEmpty) * 2 ^ 13
  else if inRow a 0x201000 4 1024 then tplWord s (rowIdx a 0x201000 4)
  else if a = 0x300000 then tlyStat s
  else if inRow a 0x300040 4 16 then (s.tly.backlog.look (rowIdx a 0x300040 4)).length % 2 ^ 24
  else if a = 0x400010 then b2n s.dis.stopped + s.dis.beads.length % 2 ^ 11 * 2 + s.dis.slices.length % 2 ^ 13 * 2 ^ 13
  else if a = 0x500008 then partStat s
  else if inRow a 0x501018 16 255 then dlB s (rowIdx a 0x501018 16 + 1)
  else if inRow a 0x502010 32 16 then btStat s (rowIdx a 0x502010 32)
  else (regGet s a).toNat

/-- Unit windows 6 to 11. -/
def readMid (s : State) (a : Nat) : Nat :=
  if a = 0x600000 then poolWord s
  else if a = 0x600008 then chnStat s
  else if inRow a 0x600100 8 16 then partCells s (rowIdx a 0x600100 8)
  else if a = 0x600240 then chanWord s (regFld s 0x600200 15 0) 0
  else if a = 0x700000 then bauStat s
  else if a = 0x800000 then b2n s.rte.stopped + s.rte.held.length % 2 ^ 9 * 2 + s.rte.routing.length % 8 * 2 ^ 10
  else if inRow a 0x830000 8 1024 then rcStat s (rowIdx a 0x830000 8)
  else if a = 0x900000 then b2n s.cmb.stopped + (s.cmb.grps.filter (·.2.st == .opened)).length % 2 ^ 9 * 2
  else if inRow a 0x930000 8 256 then grpStat s (rowIdx a 0x930000 8)
  else if a = 0xa00000 then sltStat s
  else if inRow a 0xa00320 4 4 then tierTemps s (4 * rowIdx a 0xa00320 4)
  else if inRow a 0xa01000 4 120 then s.slt.vmap.look (rowIdx a 0xa01000 4) % 128
  else if inRow a 0xa01400 8 128 then vaultStat s (rowIdx a 0xa01400 8)
  else if a = 0xa02008 then vspareStat s
  else if a = 0xb00008 then fabStat s
  else if a = 0xb00028 then partnerStat s
  else if inRow a 0xb00108 0x20 8 then portStat s (rowIdx a 0xb00108 0x20)
  else (regGet s a).toNat

/-- Unit windows 12 to 15. -/
def readHigh (s : State) (a : Nat) : Nat :=
  if a = 0xc00000 then partMask s.flt.discarding + b2n (!s.flt.walks.isEmpty) * 2 ^ 16
  else if a = 0xc00008 then (faultWord s.flt.last).toNat
  else if a = 0xc00010 then s.flt.last.ts.toNat
  else if a = 0xc00018 then (faultWord s.flt.lastUd).toNat
  else if a = 0xc00020 then s.flt.lastUd.ts.toNat
  else if a = 0xc00028 then (s.flt.log.head?.map fun f => (faultWord f).toNat % 2 ^ 63 + 2 ^ 63).getD 0
  else if a = 0xc00030 then s.flt.irqStat.toNat
  else if a = 0xc00050 then
    let q := regFld s 0xc00048 12 0
    min 255 (s.flt.stall.look q) + b2n (windowCounts s q) * 256
  else if a = 0xc00200 then 0
  else if a = 0xc00208 then stopStat s
  else if a = 0xc00300 then s.flt.cycLen % 2 ^ 13
  else if inRow a 0xc00308 4 8 then cycWord s (rowIdx a 0xc00308 4)
  else if a = 0xc00400 then s.flt.level.toNat
  else if a = 0xd00000 then b2n s.mgt.running + b2n (s.crb.stage == .failed) * 2
  else if a = 0xd00008 then healthWord s
  else if a = 0xd00010 then 0
  else if a = 0xd00018 then b2n s.mgt.busy + b2n s.mgt.done * 2
  else if a = 0xd00028 then pwrStat s
  else if a = 0xd00030 then busWord s
  else if a = 0xd00040 then updStat s
  else if a = 0xd00048 then logStat s
  else if a = 0xd00050 then 0
  else if inRow a 0xd00100 4 8 then sumTo 4 fun n => celsius s (4 * rowIdx a 0xd00100 4 + n) * 2 ^ (8 * n)
  else if inRow a 0xd00140 4 16 then millivolt s (rowIdx a 0xd00140 4)
  else if inRow a 0xd10000 8 512 then leNat ((List.range 8).map fun i => s.mgt.buf.look (a - 0xd10000 + i))
  else if a = 0xe00020 then trStat s
  else if 0xe10000 ≤ a ∧ a < 0xe20000 then pageWord s (rowIdx a 0xe10000 0x1000) (a % 0x1000 / 8)
  else if inRow a 0xe40000 8 (4 * 0x1010) then (s.obs.words.look (rowIdx a 0xe40000 8)).toNat
  else if a = 0xf00000 then bootStat s
  else if a = 0xf00008 then resetCause s
  else if a = 0xf00010 then clkStat s
  else if a = 0xf00018 then imgInfo s
  else if a = 0xf00020 then otpWord s
  else (regGet s a).toNat

/-- The value of the register at an address; 0 where none starts there. -/
def readReg (s : State) (a : Nat) : Nat :=
  match regWidth s a with
  | none => 0
  | some w =>
    let v := match pageQueue a with
      | some q => if a % 0x1000 = 0x10 then dbStat s q else 0
      | none =>
        if 0x1000000 ≤ a ∧ (counterAt s a).isNone then agentReg s (rowIdx a 0x1000000 0x10000) (a % 0x10000)
        else if a < 0x600000 then readLow s a
        else if a < 0xc00000 then readMid s a
        else if a < 0x1000000 then readHigh s a
        else (regGet s a).toNat
    v % 2 ^ w

/-- The 64 bits of the register space at an address, a multiple of 8. -/
def readWord (s : State) (a : Nat) : W64 :=
  if is64 s a then BitVec.ofNat 64 (readReg s a)
  else BitVec.ofNat 64 (readReg s a + readReg s (a + 4) * 2 ^ 32)

/-! ### The level interrupts (R392) -/

/-- IRQ_ERR: high, from Ready on, while an error bit of HIF, FLT or OBS is set (R324). -/
def irqErr (s : State) : Bool := isReady s && (s.hif.irqStat != 0 || s.flt.irqStat != 0 || s.obs.wrErr)

/-- IRQ_MGT: high, from Ready on, while MGT_MBX_STAT.DONE is 1 (R324). -/
def irqMgt (s : State) : Bool := isReady s && s.mgt.done

/-! ### Pins that follow from the state (R395, R398, R403, R404) -/

/-- TXLINKACTIVEREQ of the CHI requester: it rises at the end of stage RESET and falls at a reset (R395). -/
def txLinkActiveReq (s : State) : Bool := s.crb.stage != .reset

/-- AGT_RESET_N of agent `a`: released in stage LOAD, after REGS; low for links at and above N (R404, R417). -/
def agtResetN (s : State) (a : Nat) : Bool := decide (a < agentCount s) && (agt s a).portRdy

/-- FPk_PHY_RST_N: released when EN is written 1 (R403). -/
def phyRstN (s : State) (k : Nat) : Bool := regBit s (0xb00100 + 0x20 * k) 0

/-- FPk_PRESET: trim 57 + k (R360, R403). -/
def phyPreset (s : State) (k : Nat) : Nat := s.crb.trims.look (57 + k) % 2 ^ 13

/-- FPk_EQ_REQ (R369, R403). -/
def eqReqPin (s : State) (k : Nat) : Bool := (port s k).eqReq

/-- FPk_TX_LANE_EN: the lanes in use (R292, R403). -/
def laneEn (s : State) (k : Nat) : BitVec 5 := (port s k).lanes

/-- XSPI_RST_N: 0 from the release of a reset until stage HEADER, 1 from then on (R398). A boot that fails for want of a clock never
reaches HEADER. -/
def xspiRstN (s : State) : Bool :=
  s.crb.stage != .reset && s.crb.stage != .clocks && !(s.crb.stage == .failed && s.crb.failCode == 1)

end Sys2Proof.Machine
end

