-- ==== Sys2Proof/Machine/Boot.lean ====
section
/-!
DEFINITION. Resets, clocks and the boot (chapter 12): what each kind of reset keeps, the PLLs, and the stages from
CLOCKS to READY, with the power-on fill of the Slate and the scan of the graph region.
-/

namespace Sys2Proof.Machine

open Sys2Proof

/-! ### Resets (R304–R307, R354) -/

/-- The block after a POWER_ON reset. What stays lies outside the block's registers: the waiting commands, the inputs, the
fuses, the test access port, and the log region of the NOR. -/
def powerOnState (s : State) : State :=
  { State.reset with
    pending := s.pending, out := s.out, free := s.free, agents := s.agents, apEng := s.apEng, test := s.test,
    crb := { (default : Crb) with otp := s.crb.otp },
    flt := { (default : Flt) with level := s.flt.level },
    mgt := { State.resetMgt with
      log := s.mgt.log, logSeq := s.mgt.logSeq, boot := s.mgt.boot, sectors := s.mgt.sectors, head := s.mgt.head,
      moved := s.mgt.moved } }

/-- A vault through a WARM or DEVICE reset: its role and its repairs stay, its error counts start again. -/
def warmVault (v : Vault) : Vault :=
  { (default : Vault) with role := v.role, rowMap := v.rowMap, rowsUsed := v.rowsUsed, lanesUsed := v.lanesUsed,
                           laneMap := v.laneMap }

/-- The block after a WARM or DEVICE reset: beside what a POWER_ON reset keeps, the clocks and the timestamp, the Slate's
contents, map and spare-in, the graph region, the RO-S fields, and the log records not yet written (R261, R304, R354,
R426). (DEDUCED, log entry 50). (DEDUCED, log entry 51). -/
def warmState (s : State) : State :=
  let p := powerOnState s
  { p with
    ts := s.ts, mem := s.mem,
    grs := { (default : Grs) with nodes := s.grs.nodes },
    slt := { (default : Slt) with
      vmap := s.slt.vmap, vaults := s.slt.vaults.foldUpd fun _ v => warmVault v, vs := s.slt.vs,
      vsLogical := s.slt.vsLogical, vsTarget := s.slt.vsTarget, cursor := s.slt.cursor, tags := s.slt.tags,
      refreshAt := s.slt.refreshAt, filled := s.slt.filled },
    agt := s.agt.foldUpd fun _ a => { (default : Agent) with spareUsed := a.spareUsed },
    aut := { (default : Aut) with slots := s.aut.slots.foldUpd fun _ k => { (default : KeySlot) with last := k.last } },
    crb := { p.crb with rootLock := s.crb.rootLock, stbyLock := s.crb.stbyLock, onStby := s.crb.onStby,
                        stbyFail := s.crb.stbyFail, kind := s.crb.kind, source := s.crb.source, fault := s.crb.fault },
    flt := { p.flt with lastUd := s.flt.lastUd, cutValid := s.flt.cutValid, cutKib := s.flt.cutKib },
    mgt := { p.mgt with logQ := s.mgt.logQ } }

/-- Whether the block runs: ac follows the root PLL, or the standby after a switch (R301, R302). -/
def clocked (s : State) : Bool := if s.crb.onStby then s.crb.stbyLock else s.crb.rootLock

/-- Stage HEADER, in which the clocks run: the management port draws bits [31:0] of its Provisional ID, bit 32 of which is set, and
raises Hot-Join (R307, R359, R399). (DEDUCED, log entry 110). -/
def enterHeader (s : State) : State :=
  let (x, s) := freeNat s
  emit { s with crb.stage := .header, mgt.i3cPid := 2 ^ 32 + x % 2 ^ 32 } .hotJoin

/-- Boot goes on from RESET once no reset pin is held and TEST_MODE is 0 (R305, R307, R402): to HEADER where the PLL that drives
the clocks is already locked. (DEDUCED, log entry 52). -/
def leaveReset (s : State) : State :=
  if s.crb.stage ≠ .reset ∨ !s.flt.level.getLsbD 0 ∨ !s.flt.level.getLsbD 1 ∨ s.test.testMode then s
  else if clocked s then enterHeader s
  else { s with crb.stage := .clocks }

/-- The inputs of a stage FAILED for want of a PLL answer a power-on reset only (R302). -/
def noClock (s : State) : Bool := s.crb.stage == .failed && s.crb.failCode == 1

/-- A WARM reset (kind 1) or a DEVICE reset (kind 2) is asserted; it ends every launch and every level above it,
and the Cut is no longer resumable (R354). FAULT of CRB_RESET_CAUSE stays the last UD fault's (R304, R329).
(DEDUCED, log entry 106). -/
def assertReset (s : State) (kind source : Nat) : State :=
  let w := warmState (cutLost s)
  { w with crb.stage := .reset, crb.kind := kind, crb.source := source }

/-- PORESET_N at its filtered level (R304, R305): asserted, or released. -/
def poReset (s : State) (released : Bool) : State :=
  if released then leaveReset (inputInactive s 0)
  else inputActive s 0 powerOnState

/-- WARM_RESET_N at its filtered level (R304, R305). PORESET_N takes precedence. -/
def warmReset (s : State) (released : Bool) : State :=
  if released then leaveReset (inputInactive s 1)
  else inputActive s 1 fun s =>
    if s.crb.stage = .reset ∨ noClock s then s else assertReset s 1 0

/-- Any of the five inputs at its inactive level: the reset inputs also let the boot go on (R345). -/
def inputReleased (s : State) (k : Nat) : State :=
  if 5 ≤ k then s else if k ≤ 1 then leaveReset (inputInactive s k) else inputInactive s k

/-- The discards have ended, no agent runs a slice and the DISCARDED records on their way are written: the DEVICE reset
(R338). (DEDUCED, log entry 57). -/
def deviceReset (s : State) : State :=
  if s.flt.devReset ∧ s.dis.running = [] ∧ s.hif.flight = [] ∧ !noClock s then
    leaveReset (assertReset s 2 s.flt.resetSource)
  else s

/-- Management firmware requests a DEVICE reset (R338): from Ready on, the work is discarded first. -/
def requestReset (s : State) : State :=
  if s.flt.devReset then s
  else if isReady s then startDeviceReset s (fun _ => false) 2
  else { s with flt.devReset := true, flt.resetSource := 2 }

/-! ### Clocks (R301–R303) -/

/-- A boot check fails (R323). -/
def bootFail (s : State) (code : Nat) : State := { s with crb.stage := .failed, crb.failCode := code }

/-- The clocks start while stage CLOCKS waits for them: stage HEADER (R307). The timestamp of a power-on reset, 0, counts from then
on (R303). -/
def clocksStart (s : State) : State := if s.crb.stage = .clocks then enterHeader s else s

/-- CRB switches the dividers to the standby PLL (R302). -/
def pllSwap (s : State) (inj : Bool) : State :=
  let s := count { s with crb.onStby := true } .crbPllSwap
  logRecord (raiseInj s 0x1401 .c 0 0 inj) 8 0 0

/-- Whether the PLLs run: PORESET_N is released, and the boot has not ended for want of a clock (R301, R302). -/
def pllsRun (s : State) : Bool := s.flt.level.getLsbD 0 && !noClock s

/-- A PLL locks, whatever WARM_RESET_N does: the root PLL, or the standby (R301). -/
def pllLock (s : State) (root : Bool) : State :=
  if !pllsRun s then s
  else if !root then { s with crb.stbyLock := true }
  else clocksStart { s with crb.rootLock := true }

/-- 100 µs after the release, a PLL has not locked: without the root PLL the standby takes over, or the boot fails once stage CLOCKS
waits; a standby that has not locked is reported (R302). (DEDUCED, log entry 52). -/
def pllTimeout (s : State) : State :=
  if !pllsRun s then s
  else if (s.crb.stage = .clocks ∨ s.crb.stage = .reset) ∧ !s.crb.rootLock ∧ !s.crb.onStby then
    if s.crb.stbyLock then pllSwap (clocksStart s) false
    else if s.crb.stage = .clocks then bootFail s 0x01 else s
  else if s.crb.stbyLock then s
  else { s with crb.stbyFail := true }

/-- The root PLL loses lock after having locked (R302). -/
def pllLoss (s : State) : State :=
  if !s.crb.rootLock then s
  else
    let s := { s with crb.rootLock := false }
    if !s.crb.onStby && s.crb.stbyLock then pllSwap s false else s

/-- The injected loss of lock of CRB_PLL_SWAP (R331): the switch takes place. -/
def pllInject (s : State) : State := if !s.crb.onStby && s.crb.stbyLock then pllSwap s true else s

/-! ### Stage HEADER (R310, R312, R370) -/

/-- The newest live record of a type and key. -/
def logNewest (s : State) (type key : Nat) : Option LogRec :=
  (liveLog s).reverse.find? fun r => r.type == type && r.key == key

/-- The spares that the log read brings into effect: the standby PLL, standby Reckoners, repaired SRAM rows (R370). -/
def logSpares (s : State) : State :=
  let live := liveLog s
  let s := if live.any (·.type == 8) && s.crb.stbyLock then { s with crb.onStby := true } else s
  let s := ((live.filter (·.type == 7)).map (·.key)).foldl (fun s a => updA s a fun x => { x with spareUsed := true }) s
  { s with mgt.sramRows := (live.filter (·.type == 9)).map fun r => (r.key / 2 ^ 32, r.key % 2 ^ 32) }

/-- SFDP, log and header have been read: `norOk` and `logOk` say that each could be, `header` is the header. -/
def headerRead (s : State) (norOk logOk : Bool) (header : Bytes) : State :=
  if s.crb.stage ≠ .header then s
  else if !norOk then bootFail s 0x02
  else if !logOk then bootFail s 0x03
  else
    let b := Bytes.slice header 0 0x1000
    let s := logSpares { s with crb.bytesRead := 0x1000 }
    match headerFail s b with
    | some c => bootFail s c
    | none =>
      let l := hdrTable b
      { s with crb.stage := .slateInit, crb.secs := l, crb.svn := b.fld 0xC 0 16, crb.keySlot := b.fld 0xE 0 2,
               crb.imageLen := hdrImageLen b, crb.secType := ((l.head?).map (·.type)).getD 0 }

/-! ### Sections (R314–R321) -/

/-- A row with the spare row, or a lane with the spare lane, that replaces it: both counted from 1. -/
abbrev Repair := Nat × Nat

/-- A vault with the repairs of the image and, over them, those of the log (R315). The repairs that it has through a WARM or DEVICE
reset stay (R304). -/
def repairVault (x : Vault) (rows lanes : List Repair) : Vault :=
  let x := { x with rowMap := rows.foldl (fun (t : Tab Nat) (e : Repair) => t.put e.1 e.2) x.rowMap,
                    laneMap := lanes.foldl (fun (t : Tab Nat) (e : Repair) => t.put e.1 e.2) x.laneMap }
  let banks := x.rowMap.map fun (e : Nat × Nat) => bankKey e.1
  let groups := x.laneMap.map fun (e : Nat × Nat) => e.1 / 128
  { x with
    rowsUsed := banks.eraseDups.foldl (fun (t : Tab Nat) k => t.put k (min 32 (max (t.look k) (banks.count k)))) x.rowsUsed,
    lanesUsed := groups.eraseDups.foldl (fun (t : Tab Nat) g => t.put g (min 2 (max (t.look g) (groups.count g)))) x.lanesUsed }

/-- The repairs of vault `v` that the log's records of a type hold. -/
def logRepairs (live : List LogRec) (t v : Nat) : List Repair :=
  (live.filter fun r => r.type == t && r.key / 2 ^ 32 == v).map fun r => (r.key % 2 ^ 32, r.body)

/-- Whether vault `v` is the target of a spare-in that a reset has kept (R261). -/
def isTarget (s : State) (v : Nat) : Bool :=
  (s.slt.vs == .test || s.slt.vs == .copy || s.slt.vs == .switch) && s.slt.vsTarget == v

/-- SLATE is applied (R315): the geometry, and the map, the roles and the repairs of the section with those of the log over
them. -/
def applySlate (s : State) (b : Bytes) : State :=
  let s := { s with crb.nodes := b.fld 0x10 0 25, crb.cells := b.fld 0x14 0 25, grs.nodeCap := b.fld 0x10 0 25,
                    chn.cells := b.fld 0x14 0 25 }
  let live := liveLog s
  let s := (List.range 120).foldl (fun (s : State) l => { s with slt.vmap := s.slt.vmap.put l (b.fld (0x18 + l) 0 8) }) s
  let s := (live.filter (·.type == 5)).foldl (fun (s : State) r => { s with slt.vmap := s.slt.vmap.put r.key r.body }) s
  let mapped := (List.range 120).map s.slt.vmap.look
  let gone := (live.filter (·.type == 6)).map (·.key)
  (List.range 128).foldl (fun s v =>
    let role := if gone.contains v then Role.retired else if mapped.contains v then .active
      else if isTarget s v then .target
      else if b.fld (0x90 + v) 0 8 = 2 then .retired else .spare
    let rows := (((slateRows b).filter fun e => bitsOf e 6 0 == v).map fun e => (rowEntryKey e, bitsOf e 29 25 + 1))
    let lanes := (((slateLanes b).filter fun e => bitsOf e 6 0 == v).map
      fun e => (bitsOf e 13 7 * 128 + bitsOf e 18 14, bitsOf e 19 19 + 1))
    updV s v fun x => repairVault { x with role := role } (rows ++ logRepairs live 3 v) (lanes ++ logRepairs live 4 v)) s

/-- Trim word `i`. -/
def trim (s : State) (i : Nat) : Nat := s.crb.trims.look i

/-- TRIMS is applied (R315, R360). -/
def applyTrims (s : State) (b : Bytes) : State :=
  (List.range (secCount b)).foldl (fun (s : State) i =>
    { s with crb.trims := s.crb.trims.put i (b.fld (16 + 4 * i) 0 32) }) s

/-- MGT firmware is loaded at MGT memory address 0 and starts; the start counts and gets its BOOT record (R314, R315, R364).
(DEDUCED, log entry 78). -/
def applyMgt (s : State) (b : Bytes) : State :=
  let s := { s with mgt.fw := b.drop 16, mgt.running := true, mgt.boot := s.mgt.boot + 1 }
  logRecord s 0x0C s.mgt.boot 0

/-- PARTS is applied (R316): partitions, barriers and data regions; DIS_PART_AGENTS takes its value where no entry of
REGS sets it (R425). (DEDUCED, log entry 11). -/
def applyParts (s : State) (b : Bytes) : State :=
  (List.range 16).foldl (fun s p =>
    let e := secEntry b 32 p
    let f := fun (o bits : Nat) => e.fld o 0 bits
    let part : Part := { nodeBase := f 4 24, nodeCount := f 8 24, chanBase := f 0xC 16, chanCount := f 0xE 16,
                         cellQuota := f 0x10 24, beadShare := f 0x13 8 }
    let s := { s with parts := s.parts.put p part }
    let s := regSet s (0x400100 + 8 * p) (BitVec.ofNat 64 (f 0x13 8))
    let s := regSet s (0x400200 + 8 * p) (BitVec.ofNat 64 (2 ^ agentCount s - 1))
    let s := regSet s (0x700100 + 8 * p) (BitVec.ofNat 64 (f 0x14 16 + f 0x18 17 * 2 ^ 32))
    regSet s (0xa00200 + 8 * p) (BitVec.ofNat 64 (f 0x1C 10 + f 0x1E 10 * 2 ^ 16))) s

/-- An entry of REGS is applied: a masked write under its register's own rules, so that a VALID bit set in a router entry or in a
group is checked and a group is zeroed (R224, R235, R317). -/
def imageWrite (s : State) (a v m : Nat) : State :=
  if inRow a 0x810000 8 4096 then
    rcWrite s ((a - 0x810000) / 0x20) ((a - 0x810000) % 0x20 / 8) (mergeBits (regGet s a).toNat v m)
  else if inRow a 0x910000 8 1024 then
    grpWrite s ((a - 0x910000) / 0x20) ((a - 0x910000) % 0x20 / 8) (mergeBits (regGet s a).toNat v m)
  else maskedWrite s a v m

/-- REGS is applied in order, and FAB trains every port whose EN it sets (R317). -/
def applyRegs (s : State) (b : Bytes) : State :=
  let s := (secEntries b 24).foldl (fun s e => imageWrite s (e.fld 0 0 26) (e.fld 8 0 64) (e.fld 0x10 0 64)) s
  ((List.range 8).filter fun k => regBit s (0xb00100 + 0x20 * k) 0).foldl portEnable s

/-- KEYS is applied, with the log's keys and revocations over it, and LAST as R56 and R318 give. -/
def applyKeys (s : State) (b : Bytes) : State :=
  let l := secEntries b 48
  (List.range 8).foldl (fun s i =>
    let e := l.find? fun e => e.fld 0 0 3 == i
    let key := logNewest s 2 i
    let last := (liveLog s).reverse.find? fun r => (r.type == 1 || (r.type == 2 && r.body < 2 ^ 128)) && r.key == i
    let init := (e.map fun e => e.fld 8 0 64).getD 0
    let logged := match last with
      | some r => if r.type = 1 then r.body else 0
      | none => init
    let (st, k) : SlotState × Nat := match key with
      | some r => if r.body < 2 ^ 128 then (.valid, r.body) else (.revoked, 0)
      | none => match e with
        | none => (.empty, 0)
        | some e => if e.fld 0 3 2 = 1 then (.valid, (keyUnwrap s.crb.otp.deviceKey (leNat (Bytes.slice e 0x10 24))).getD 0)
            else if e.fld 0 3 2 = 2 then (.revoked, 0) else (.empty, 0)
    let old := (s.aut.slots.look i).last
    let last := if s.crb.kind = 0 then BitVec.ofNat 64 (min (logged + 65536) (2 ^ 64 - 1)) else old
    let slot : KeySlot := { st := st, key := k, last := last, logged := logged }
    { s with aut.slots := s.aut.slots.put i slot }) s

/-- Bytes written into both IMEMs of an agent from byte offset `o`, 8 bytes a word (R144, R319). -/
def putImem (s : State) (a o : Nat) (b : Bytes) : State :=
  updR s a fun r =>
    let f := fun (t : Tab W64) => (List.range (b.length / 8)).foldl (fun (t : Tab W64) i =>
      t.put (o / 8 + i) (BitVec.ofNat 64 (b.fld (8 * i) 0 64))) t
    { r with imem := f r.imem, imemS := f r.imemS }

/-- RKN is applied (R319). -/
def applyRkn (s : State) (b : Bytes) : State :=
  (rknChunks b).1.foldl (fun s o =>
    (maskAgents s (b.fld o 0 64)).foldl (fun s a => putImem s a (b.fld (o + 8) 0 16) (Bytes.slice b (o + 32) (rknLen b o)))
      s) s

/-- Whether every DATA chunk lies in its partition's data region (R247, R319). -/
def dataFits (s : State) (b : Bytes) : Bool :=
  (dataChunks b).1.all fun o => inData s (b.fld o 0 4) (b.fld (o + 8) 0 40) (dataLen b o)

/-- DATA is applied (R319). -/
def applyData (s : State) (b : Bytes) : State :=
  (dataChunks b).1.foldl (fun s o =>
    memWrite s (dataBase s (b.fld o 0 4) + b.fld (o + 8) 0 40) (Bytes.slice b (o + 32) (dataLen b o))) s

/-- The FAIL_CODE of a section whose digest matches, if it has one (R313–R319). -/
def sectionFail (s : State) (t : Nat) (b : Bytes) : Option Nat :=
  if !sectionForm s t b ∨ (t = 5 ∧ !regSecOk s b) ∨ (t = 8 ∧ !dataFits s b) then some 0x0A
  else if t = 4 ∧ !layoutOk b s.crb.nodes s.crb.cells then some 0x0B
  else none

/-- A section takes effect (R313). -/
def applySection (s : State) (t : Nat) (b : Bytes) : State :=
  match t with
  | 1 => applySlate s b
  | 2 => applyTrims s b
  | 3 => applyMgt s b
  | 4 => applyParts s b
  | 5 => applyRegs s b
  | 6 => applyKeys s b
  | 7 => applyRkn s b
  | 8 => applyData s b
  | 9 => { s with crb.tplSec := b }
  | 0xA => { s with crb.queueSec := b }
  | _ => { s with crb.chanSec := b }

/-- The agents leave reset in stage LOAD, after REGS (R398, port list): their ports hold 16 downstream credits.
(DEDUCED, log entry 49). -/
def releaseAgents (s : State) : State :=
  (List.range (agentCount s)).foldl (fun s a => updA s a fun x =>
    if x.portRdy then x else { x with portRdy := true, dnCred := 16 }) s

/-- The stage after a section of TYPE `t` has been applied (R307). -/
def afterSection (s : State) (t : Nat) : State :=
  let next := (s.crb.secs.head?.map (·.type)).getD 0
  let s := { s with crb.secType := next }
  if t = 2 then (if s.slt.filled then { s with crb.stage := .load } else s)
  else
    let s := if 4 ≤ t ∧ (next = 0 ∨ 5 < next) then releaseAgents s else s
    if s.crb.secs = [] then { s with crb.stage := .build, crb.bytesRead := s.crb.imageLen } else s

/-- A section's bytes are staged: those of KEYS, PARTS and the later types in SYSTEM unit 3 (R313, R314).
(DESIGN CHOICE, log entry 105). -/
def stageSection (s : State) (x : BootSec) (b : Bytes) : State :=
  if 4 ≤ x.type then (writeAt s (0xC000000 + x.off) b).1 else s

/-- The next section has been read (R310, R314). -/
def sectionRead (s : State) (norOk : Bool) (data : Bytes) : State :=
  match s.crb.secs with
  | [] => s
  | x :: rest =>
    if ¬(s.crb.stage = .load ∨ (s.crb.stage = .slateInit ∧ x.type ≤ 2)) then s
    else if !norOk then bootFail s 0x02
    else
      let b := Bytes.slice data 0 x.len
      let s := stageSection { s with crb.bytesRead := x.off + x.len } x b
      if sha384 b ≠ x.digest then bootFail s 0x09
      else match sectionFail s x.type b with
      | some c => bootFail s c
      | none => afterSection { applySection s x.type b with crb.secs := rest } x.type

/-! ### The power-on fill (R254, R315) -/

/-- Vault `v` is retired and logged. -/
def retireVault (s : State) (v : Nat) : State :=
  logRecord (updV s v fun x => { x with role := .retired }) 6 v 0

/-- An ACTIVE vault that overflowed its bad-block table is replaced by the lowest SPARE vault; none where none is left. -/
def replaceVault (s : State) (v : Nat) : Option State :=
  match firstFrom (fun t => (vault s t).role == .spare) 0 128 with
  | none => none
  | some t =>
    let l := logicalOf s v
    let s := updV (retireVault s v) t fun x => { x with role := .active }
    some (logRecord { s with slt.vmap := s.slt.vmap.put l t } 5 l t)

/-- Overflowed ACTIVE vaults are replaced in ascending order. -/
def replaceVaults (s : State) : List Nat → Option State
  | [] => some s
  | v :: r => match replaceVault s v with
    | none => none
    | some s => replaceVaults s r

/-- A vault after the fill: the blocks found uncorrectable stand in its table and in SLT_UE_CNT, and their rows wait for repair
(R252, R257). -/
def filledVault (s : State) (v : Nat) (found : List Nat) : State :=
  updV (countN s .sltUe found.length) v fun x => { x with bad := found.take 64, rowQ := (found.map rowKey).eraseDups }

/-- The fill and the spare test end: `bad` lists the uncorrectable blocks found, by physical vault, and `failed` the
spares that failed their test. Every byte of the Slate is zero. A WARM or DEVICE reset that comes before leaves the fill to be done.
(DEDUCED, log entry 54). -/
def fillDone (s : State) (bad : List (Nat × Nat)) (failed : List Nat) : State :=
  if s.crb.stage ≠ .slateInit ∨ s.slt.filled ∨ (s.crb.secs.head?.map (·.type)).getD 0 ≤ 2 then s
  else
    let found := fun v => ((bad.filter fun e => e.1 == v && decide (e.2 < vaultBlocks)).map (·.2)).eraseDups
    let s := { s with mem := [], grs.nodes := [], slt.tags := [], slt.filled := true }
    let s := (List.range 128).foldl (fun s v =>
      if (vault s v).role = .retired then s
      else if (vault s v).role = .spare ∧ (failed.contains v ∨ 64 < (found v).length) then retireVault s v
      else filledVault s v (found v)) s
    let excess := (List.range 128).filter fun v => (vault s v).role == .active && decide (64 < (found v).length)
    match replaceVaults s excess with
    | none => bootFail s 0x0C
    | some s => { s with crb.stage := .load }

/-! ### Stage BUILD (R320–R322, R426) -/

/-- SLT_RGN_k for the geometry (R246). -/
def setRegions (s : State) : State :=
  let size := fun n => (n + unitBytes - 1) / unitBytes
  let g := size (s.crb.nodes * 256)
  let l := size (s.crb.cells * 4)
  let c := size (s.crb.cells * 2048)
  let put := fun (s : State) (k b n : Nat) => regSet s (0xa00100 + 8 * k) (BitVec.ofNat 64 (b % 1024 + n % 1024 * 2 ^ 16))
  put (put (put (put (put s 0 0 4) 1 4 4) 2 8 g) 3 (8 + g) l) 4 (8 + g + l) c

/-- The checks of R246. -/
def regionsOk (s : State) : Bool :=
  s.crb.nodes % 256 == 0 && decide (s.crb.nodes ≤ 2 ^ 24) && decide (s.crb.cells ≤ 25165824)
    && decide (poolUnit s.crb.nodes s.crb.cells < 840)
    && (List.range 16).all fun p => let x := s.parts.look p
        x.nodeCount == 0 || decide (x.nodeBase + x.nodeCount ≤ s.crb.nodes)

/-- A kept record of the graph region after a WARM or DEVICE reset (R426). -/
def scanRecord (r : NodeRec) : NodeRec :=
  if r.kind = .graph then
    if r.hdr.lstate = .active ∨ r.hdr.lstate = .draining then
      { r with gen := r.gen + 1,
               hdr := { r.hdr with lstate := .loaded, sweep := true, pend := [], cplOut := 0, template := none } }
    else { r with hdr := { r.hdr with template := none } }
  else if isWork r.kind ∧ r.graph = Config.noNode ∧ (r.st = .waiting ∨ r.st = .ready ∨ r.st = .issued) then
    { r with gen := r.gen + 1, st := .retired }
  else r

/-- The scan of the graph region (R426): records that no partition owns and graphs that were loading are FREE. The range
of a graph that was loading is what its header's NODE_COUNT, not yet checked, says. (DESIGN CHOICE, log entry 88). -/
def scanGraphs (s : State) : State :=
  let loading := s.grs.nodes.filter fun e => e.2.kind == .graph && e.2.hdr.lstate == .loading
  let lost := fun n => (partOfNode s n).isNone || loading.any fun e => decide (e.1 ≤ n ∧ n < e.1 + e.2.hdr.nodeCount)
  { s with grs.nodes := s.grs.nodes.foldUpd fun n r => if lost n then default else scanRecord r }

/-- A template is instantiated (R320), or none where it fails, as it does on the range of another template and on one that
holds handle 0xFF_FFFF (R64).
(DEDUCED, log entry 33). -/
def instantiate (s : State) (b : Bytes) (e : TplEntry) : Option State :=
  let p := s.parts.look e.part
  let base := p.nodeBase + e.nodeOff
  let recs := tplRecords b e
  let handles := (recs.flatMap fun r => localSuccs 0 r).map (·.2)
  let taken := s.grs.tpl.any fun t => t.2.valid && overlaps base e.count t.2.header (nd s t.2.header).hdr.nodeCount
  if (tpl s e.tpl).valid ∨ taken ∨ e.count = 0 ∨ p.nodeCount < e.nodeOff + e.count ∨
      Config.noNode < base + e.count then none
  else if (imageFault (blockId s) 0 recs).isSome ∨ handles.any (fun h => p.nodeBase + p.nodeCount ≤ base + h) then none
  else
    let s := (List.range recs.length).foldl (fun s i => updN s (base + i) fun _ =>
      parseNode base (recs.getD i 0) base .idle) s
    let s := updH s base fun h => { h with lstate := .loaded, template := some e.tpl }
    some { s with grs.tpl := s.grs.tpl.put e.tpl { header := base, part := e.part, valid := true } }

/-- The templates of the image in order. -/
def instantiateAll (b : Bytes) : List TplEntry → State → Option State
  | [], s => some s
  | e :: r, s => match instantiate s b e with
    | none => none
    | some s => instantiateAll b r s

/-- Capacities and engines of every agent (R99, R408). -/
def sampleAgents (s : State) : State :=
  (List.range (agentCount s)).foldl (fun s a =>
    let s := updA s a fun x => { x with eng := s.apEng.look a }
    (List.range 16).foldl (fun (s : State) c =>
      { s with dis.cap := s.dis.cap.put (a * 16 + c) ((agt s a).capRec.look c) }) s) s

/-- The queues that the image enables. -/
def imageQueues (s : State) : List Nat := (secEntries s.crb.queueSec 48).map entryQueue

/-- The steps of R322 that can fail, on a block whose sections are applied. Where one fails, the answer is the TYPE of the section
it applies, 0 for the regions of step 1 (R323). (DESIGN CHOICE, log entry 107). -/
def buildSteps (s : State) : Nat ⊕ State :=
  if !regionsOk s then .inl 0
  else
    let s := setRegions s
    let s := if s.crb.kind = 0 then s else scanGraphs s
    match instantiateAll s.crb.tplSec (tplEntries s.crb.tplSec) s with
    | none => .inl 9
    | some s =>
      let s := ((List.range 256).drop 1).foldl dlCheck s
      if !queuesOk s s.crb.queueSec then .inl 0xA
      else
        let s := (secEntries s.crb.queueSec 48).foldl applyQueue s
        if (openEntries (imageQueues s) s (secEntries s.crb.chanSec 16)).isNone then .inl 0xB else .inr s

/-- BUILD (R322). -/
def build (s : State) : State :=
  if s.crb.stage ≠ .build ∨ s.crb.built then s
  else match buildSteps s with
    | .inl t => bootFail { s with crb.secType := t } 0x0B
    | .inr s => { sampleAgents s with crb.built := true }

/-! ### The Ready ac (R306, R325, R326) -/

/-- The pending bit of a queue at Ready (R325). -/
def checkPending (enabled : List Nat) (s : State) (q : Nat) : State :=
  if !(queue s q).pend then s
  else if enabled.contains q && decide ((queue s q).tail < sqSize s q) then s
  else count (updQ s q fun u => { u with pend := false }) .hifDbIgn

/-- The DEVICE_RESET record of a kernel queue (R306). -/
def resetRecord (s : State) (q : Nat) : State :=
  let r : CplRec := { status := 0x3F, opcode := 0, queue := q, tag := 0, sqIndex := 0, detail := resetCause s, ts := s.ts,
                      node := 0, phase := true, spilled := false }
  let item : CplItem := { q := q, slot := 0, record := r, irq := false, node := false, gen := 0, seq := 0, resumed := false }
  let s := updQ s q fun u => { u with cplTail := 1 }
  emit { s with hif.flight := s.hif.flight ++ [item] } (.cplWrite (cqBase s q) (cplBytes r))

/-- An agent's port gets its 16 credits of each upstream channel, and the requests that its cores held proceed (R326, R405). -/
def agentReady (s : State) (a : Nat) : State :=
  let l := (agt s a).inbox
  l.foldl (agtTake a) (emits (updA s a fun x => { x with inbox := [] }) [.upCredit a 0 16, .upCredit a 1 16])

/-- READY (R326). -/
def ready (s : State) : State :=
  if s.crb.stage ≠ .build ∨ !s.crb.built then s
  else
    let enabled := imageQueues s
    let s := { s with crb.stage := .ready }
    let s := enabled.foldl (fun s q => updQ s q fun u => { u with st := .idle }) s
    let s := ((s.queues.map (·.1)).filter isQueue).foldl (checkPending enabled) s
    let s := (openEntries enabled s (secEntries s.crb.chanSec 16)).getD s
    let s := if s.crb.kind = 0 then s else (enabled.filter isKernel).foldl resetRecord s
    fabReady ((List.range (agentCount s)).foldl agentReady s)

/-! ### What an update checks (R362) -/

/-- The sections of a whole image checked and applied in order to a scratch state; the first FAIL_CODE, or the state. -/
def applyAll (img : Bytes) : List BootSec → State → Nat ⊕ State
  | [], s => .inr s
  | x :: r, s =>
    let b := Bytes.slice img x.off x.len
    if sha384 b ≠ x.digest then .inl 0x09
    else match sectionFail s x.type b with
    | some c => .inl c
    | none => applyAll img r (applySection s x.type b)

/-- The first failing check of a whole image: header, digests, and every check of R315 to R322 on a block that has
just started. -/
def imageFail (s : State) (img : Bytes) : Option Nat :=
  let h := Bytes.slice img 0 0x1000
  match headerFail s h with
  | some c => some c
  | none => match applyAll img (hdrTable h) (powerOnState s) with
    | .inl c => some c
    | .inr t => if (buildSteps t).isRight then none else some 0x0B

end Sys2Proof.Machine
end

