-- ==== Sys2Proof/Machine/Mgt.lean ====
section
/-!
DEFINITION. Management (chapter 14): messages from the mailbox and the management port, updates and the recovery loader,
the persistent log, sensors, power metering, PMBus supervision and spares.
-/

namespace Sys2Proof.Machine

open Sys2Proof

/-! ### Messages (R357–R359) -/

/-- Bytes put into the mailbox buffer from offset `o`. -/
def putBuf (t : Tab Byte) (o : Nat) : Bytes → Tab Byte
  | [] => t
  | b :: r => putBuf (t.put o b) (o + 1) r

/-- Whether the recovery loader runs (R363). -/
def recovering (s : State) : Bool := s.crb.stage == .failed && !noClock s

/-- The request that a port holds, if MGT can serve that port now. A mailbox whose UPD_COMMIT is still to be answered holds
no new request. -/
def mgtRequest (s : State) (src : MgtIn) : Option Bytes :=
  match src with
  | .mailbox =>
    if s.mgt.busy && s.mgt.running && isReady s && !(s.mgt.updWait && !s.mgt.updPort) then
      some ((List.range 4096).map s.mgt.buf.look)
    else none
  | .i3c _ data => if s.mgt.i3cAddr.isSome && (s.mgt.running || recovering s) then some data else none

/-- Whether a request came through the management port. -/
def isPortMsg : MgtIn → Bool
  | .mailbox => false
  | .i3c _ _ => true

/-- A response to the port (0 mailbox, 1 management port) (R357–R359). -/
def mgtRespond (s : State) (viaPort : Bool) (op tag status : Nat) (payload : Bytes) : State :=
  let m := leBytes 1 op ++ leBytes 1 status ++ leBytes 2 payload.length ++ leBytes 4 tag ++ leBytes 8 0 ++ payload
  if viaPort then emits s [.mctp m, .ibi]
  else { s with mgt.buf := putBuf s.mgt.buf 0 m, mgt.busy := false, mgt.done := true }

/-- The request codes. -/
def mgtOps : List Nat := [1, 2, 3, 0x10, 0x11, 0x12, 0x13, 0x20]

/-- MGT serves the request of a port as OP `op`: `f` makes the response, from the request. An MCTP message of another type,
an unknown OP or a reserved byte that is not zero is answered as such; a request of another known OP is not served here. -/
def mgtServe (s : State) (src : MgtIn) (op : Nat) (f : State → Bytes → State) : State :=
  match mgtRequest s src with
  | none => s
  | some m =>
    let bad := match src with
      | .mailbox => false
      | .i3c t _ => t != 0x7F
    let ctrl := match src with
      | .mailbox => false
      | .i3c t _ => t == 0
    let got := m.fld 0 0 8
    let respond := mgtRespond s (isPortMsg src) got (m.fld 4 0 32)
    if ctrl then s
    else if bad then emits (count s .mgtMbxIgn) [.mctp [5], .ibi]
    else if !mgtOps.contains got || !zeroBytes m 8 15 || (recovering s && !(0x10 ≤ got && got ≤ 0x13)) then respond 1 []
    else if got = op then f s m
    else s

/-- The payload of a request. -/
def reqPayload (m : Bytes) : Bytes := Bytes.slice m 16 (m.fld 2 0 16)

/-- The response to a request that needs LEN `n`: BAD_LEN, or OK with a payload. -/
def mgtRead (s : State) (src : MgtIn) (m : Bytes) (n : Nat) (payload : Bytes) : State :=
  if m.fld 2 0 16 ≠ n then mgtRespond s (isPortMsg src) (m.fld 0 0 8) (m.fld 4 0 32) 2 []
  else mgtRespond s (isPortMsg src) (m.fld 0 0 8) (m.fld 4 0 32) 0 payload

/-- GET_HEALTH. -/
def getHealth (s : State) (src : MgtIn) (m : Bytes) : State :=
  mgtRead s src m 0 (leBytes 4 (healthWord s) ++ leBytes 8 (logStat s)
    ++ (List.range 128).flatMap fun v => leBytes 8 (vaultStat s v))

/-- GET_SENSORS. -/
def getSensors (s : State) (src : MgtIn) (m : Bytes) : State :=
  mgtRead s src m 0 ((List.range 32).flatMap (fun i => leBytes 1 (celsius s i))
    ++ (List.range 16).flatMap (fun k => leBytes 2 (millivolt s k)) ++ leBytes 8 (busWord s) ++ leBytes 8 (pwrStat s))

/-- The 64 bytes of a log record (chapter 14). -/
def logBytes (r : LogRec) : Bytes :=
  let key := if r.type = 3 ∨ r.type = 4 ∨ r.type = 9 then (Config.logKey r.type r.key).toNat else r.key
  let b := leBytes 1 r.type ++ leBytes 1 1 ++ leBytes 2 0 ++ leBytes 4 r.seq ++ leBytes 4 r.boot ++ leBytes 4 0
    ++ leBytes 8 r.ts.toNat ++ leBytes 8 key ++ Bytes.slice (Config.logBody r.type r.key r.body) 0 28
  b ++ leBytes 4 (crc32c b)

/-- READ_LOG: the live records from an index on. -/
def readLog (s : State) (src : MgtIn) (m : Bytes) : State :=
  mgtRead s src m 4 ((((liveLog s).drop ((reqPayload m).fld 0 0 32)).take 63).flatMap logBytes)

/-- DEVICE_RESET (R338, R357). -/
def resetMessage (s : State) (src : MgtIn) (m : Bytes) : State :=
  let t := mgtRead s src m 0 []
  if m.fld 2 0 16 = 0 then requestReset t else t

/-! ### Updates (R362, R363) -/

/-- The Slate address at which an update is staged (R362). -/
def stageBase : Nat := 0xC000000

/-- An update response: LAST_STATUS shows it. -/
def updRespond (s : State) (viaPort : Bool) (op tag status : Nat) (payload : Bytes) : State :=
  mgtRespond { s with mgt.updLast := status } viaPort op tag status payload

/-- Whether an update is in progress. -/
def updBusy (u : UpdState) : Bool := u == .receiving || u == .verifying || u == .committing

/-- The tests that every update request meets first: LEN, the owning port, and the state. -/
def updGuard (s : State) (src : MgtIn) (m : Bytes) (lenOk : Bool) (ok : UpdState → Bool) (f : State → State) : State :=
  let no := fun st => updRespond s (isPortMsg src) (m.fld 0 0 8) (m.fld 4 0 32) st []
  if !lenOk then no 2
  else if updBusy s.mgt.upd && s.mgt.updPort != (isPortMsg src) then no 6
  else if !ok s.mgt.upd then no 3
  else f s

/-- UPD_BEGIN. -/
def updBegin (s : State) (src : MgtIn) (m : Bytes) : State :=
  let len := (reqPayload m).fld 0 0 32
  updGuard s src m (m.fld 2 0 16 == 4) (fun u => !updBusy u) fun s =>
    if len % 256 ≠ 0 ∨ 0x4000000 < len then updRespond s (isPortMsg src) 0x10 (m.fld 4 0 32) 2 []
    else
      let s := { s with mgt.upd := .receiving, mgt.updPort := (isPortMsg src), mgt.updLen := len, mgt.updMap := [],
                        mgt.recov := [] }
      updRespond s (isPortMsg src) 0x10 (m.fld 4 0 32) 0 []

/-- The sections that the recovery loader holds whole. -/
def recovDone (b : Bytes) : List BootSec := (hdrTable b).filter fun x => decide (x.off + x.len ≤ b.length)

/-- The recovery loader's verdict on the bytes it has: the header once it is whole, and each whole section. -/
def recovFail (s : State) (b : Bytes) : Option Nat :=
  if b.length < 0x1000 then none
  else match headerFail s (b.take 0x1000) with
    | some c => some c
    | none => (recovDone b).findSome? fun x => if sha384 (Bytes.slice b x.off x.len) ≠ x.digest then some 0x09 else none

/-- An update ends in IDLE with VERIFY or NOR. -/
def updEnd (s : State) (viaPort : Bool) (op tag status fail : Nat) : State :=
  let s := { s with mgt.upd := .idle, mgt.updWait := false,
                    mgt.updFail := if status = 4 then fail else s.mgt.updFail }
  updRespond s viaPort op tag status (if status = 4 ∧ op = 0x12 then leBytes 1 fail else [])

/-- UPD_DATA. In recovery the bytes go on to the NOR, and `norOk` says that erase and program succeed. -/
def updData (s : State) (src : MgtIn) (norOk : Bool) (m : Bytes) : State :=
  let n := m.fld 2 0 16 - 4
  let off := (reqPayload m).fld 0 0 32
  let data := (reqPayload m).drop 4
  let tag := m.fld 4 0 32
  let lenOk := decide (256 ≤ n ∧ n ≤ 3840) && n % 256 == 0
  updGuard s src m lenOk (· == .receiving) fun s =>
    if off % 256 ≠ 0 ∨ s.mgt.updLen < off + n ∨ (recovering s && off != s.mgt.recov.length) then
      updRespond s (isPortMsg src) 0x11 tag 2 []
    else if recovering s then
      let s := { s with mgt.recov := s.mgt.recov ++ data }
      match recovFail s s.mgt.recov with
      | some c => updEnd s (isPortMsg src) 0x11 tag 4 c
      | none => if !norOk && decide (0x1000 ≤ s.mgt.recov.length) then updEnd s (isPortMsg src) 0x11 tag 5 0
          else updRespond s (isPortMsg src) 0x11 tag 0 []
    else
      let s := memWrite s (stageBase + off) data
      let map := (List.range (n / 256)).foldl (fun (t : Tab Bool) i => t.put (off / 256 + i) true) s.mgt.updMap
      updRespond { s with mgt.updMap := map } (isPortMsg src) 0x11 tag 0 []

/-- UPD_COMMIT: verification starts, and the answer follows it; the recovery loader answers at once. -/
def updCommit (s : State) (src : MgtIn) (norOk : Bool) (m : Bytes) : State :=
  let tag := m.fld 4 0 32
  updGuard s src m (m.fld 2 0 16 == 0) (· == .receiving) fun s =>
    if recovering s then
      if s.mgt.recov.length ≠ s.mgt.updLen ∨ s.mgt.updLen < 0x1000 then updRespond s (isPortMsg src) 0x12 tag 2 []
      else if !norOk then updEnd s (isPortMsg src) 0x12 tag 5 0
      else match recovFail s s.mgt.recov with
      | some c => updEnd s (isPortMsg src) 0x12 tag 4 c
      | none => requestReset (updRespond { s with mgt.upd := .committed } (isPortMsg src) 0x12 tag 0 [])
    else if !(List.range (s.mgt.updLen / 256)).all s.mgt.updMap.look then updRespond s (isPortMsg src) 0x12 tag 2 []
    else { s with mgt.upd := .verifying, mgt.updWait := true, mgt.updTag := tag }

/-- UPD_ABORT: a commit under verification gets no further answer. (DEDUCED, log entry 65). -/
def updAbort (s : State) (src : MgtIn) (m : Bytes) : State :=
  updGuard s src m (m.fld 2 0 16 == 0) (fun u => u == .receiving || u == .verifying) fun s =>
    updRespond { s with mgt.upd := .idle, mgt.updWait := false } (isPortMsg src) 0x13 (m.fld 4 0 32) 0 []

/-- Verification of the staged image ends. -/
def updVerified (s : State) : State :=
  if s.mgt.upd ≠ .verifying then s
  else match imageFail s (memRead s stageBase s.mgt.updLen) with
    | some c => updEnd s s.mgt.updPort 0x12 s.mgt.updTag 4 c
    | none => { s with mgt.upd := .committing }

/-- Programming and read-back end. -/
def updProgrammed (s : State) (ok : Bool) : State :=
  if s.mgt.upd ≠ .committing then s
  else if !ok then updEnd s s.mgt.updPort 0x12 s.mgt.updTag 5 0
  else
    let svn := leNat (memRead s (stageBase + 0xC) 2)
    let s := logRecord (count { s with mgt.upd := .committed, mgt.updWait := false } .mgtUpd) 0x0B svn 0
    updRespond s s.mgt.updPort 0x12 s.mgt.updTag 0 []

/-! ### The management port (R359) -/

/-- Whether the management port answers: after Hot-Join and ENTDAA, with firmware or the recovery loader running. -/
def mctpUp (s : State) : Bool := s.mgt.i3cAddr.isSome && (s.mgt.running || recovering s)

/-- ENTDAA: the target's identities leave, and it takes its address (R359, R399). -/
def entdaa (s : State) (addr : Nat) : State :=
  if clocked s && s.crb.stage != .reset then
    emit { s with mgt.i3cAddr := some (addr % 128) } (.i3cIdent s.mgt.i3cPid 6 0)
  else s

/-- A response of an MCTP control message: message type 0, the request's instance id, the command code and the rest.
(PRESUMED, log entry 6). -/
def mctpCtrl (s : State) (inst code : Nat) (rest : List Nat) : State :=
  if mctpUp s then emits s [.mctp (leBytes 1 0 ++ leBytes 1 (inst % 32) ++ leBytes 1 code ++ rest.flatMap (leBytes 1 ·)), .ibi]
  else s

/-- Set Endpoint ID: operation 0 or 1 sets it; there is no static id to reset to, and no discovery flag. -/
def setEid (s : State) (inst op eid : Nat) : State :=
  if !mctpUp s then s
  else if op % 4 ≤ 1 ∧ 8 ≤ eid % 256 ∧ eid % 256 ≠ 255 then
    mctpCtrl { s with mgt.eid := eid % 256 } inst 1 [0, 0, eid % 256, 0]
  else mctpCtrl s inst 1 [2]

/-- Get Endpoint ID. -/
def getEid (s : State) (inst : Nat) : State := mctpCtrl s inst 2 [0, s.mgt.eid, 0, 0]

/-- Get MCTP Version Support. -/
def getVersions (s : State) (inst type : Nat) : State :=
  if type = 0xFF ∨ type = 0 ∨ type = 0x7F then
    mctpCtrl s inst 4 ([0, 1] ++ (Bytes.slice (Config.mctpVersion type) 0 4).map (·.toNat))
  else mctpCtrl s inst 4 [0x80]

/-- Get Message Type Support. -/
def getTypes (s : State) (inst : Nat) : State := mctpCtrl s inst 5 [0, 1, 0x7F]

/-! ### Sensors (R299, R361) -/

/-- The tolerance of a voltage sensor's rail, in 0.5 mV (R299). -/
def railRange (k : Nat) : Nat × Nat :=
  if k < 8 then (1455, 1545) else if k < 12 then (2037, 2163) else if k < 14 then (3492, 3708) else (3420, 3780)

/-- qc in one millisecond (R14). -/
def msQc : Nat := 1650000

/-- A sample of voltage sensor `k`, raw, in 0.5 mV; an armed MGT_SUPPLY takes it as 0 (R331, R360, R361). -/
def voltSample (s : State) (k raw : Nat) : State :=
  if 16 ≤ k ∨ !s.mgt.running then s
  else
    let inj := injArmed s 0x1201 (· == k)
    let v := if inj then 0 else ((raw : Int) + signedBits 10 (s.crb.trims.look (32 + k))).toNat
    let s := { s with mgt.volt := s.mgt.volt.put k v }
    if (railRange k).1 ≤ v ∧ v ≤ (railRange k).2 then { s with mgt.voltSince := s.mgt.voltSince.put k none }
    else match s.mgt.voltSince.look k with
      | none => { s with mgt.voltSince := s.mgt.voltSince.put k (some s.ts) }
      | some t =>
        if (s.ts - t).toNat < msQc ∨ !isReady s then s
        else
          let s := { s with mgt.voltSince := s.mgt.voltSince.put k none }
          raiseInj (if inj then injFire s else s) 0x1201 .ud 0 k inj

/-- A droop detector fires (R361). (DEDUCED, log entry 62). -/
def droop (s : State) : State :=
  let s := count { s with dis.droop := 32 } .mgtDroop
  { s with mgt.droops := (s.mgt.droops.filter fun t => decide ((s.ts - t).toNat < 1000 * msQc)) ++ [s.ts] }

/-- Whether a sensor differs from every neighbour by more than 15 °C (R361). (DESIGN CHOICE, log entry 63). -/
def lonely (s : State) (i : Nat) : Bool :=
  let near := (neighbours i).map s.mgt.temp.look
  let x := s.mgt.temp.look i
  !near.isEmpty && near.all fun y => decide (120 < max x y - min x y)

/-- The cross-check of the thermal sensors, once a second (R361). -/
def crossCheck (s : State) : State :=
  if !s.mgt.running then s
  else
    let s := (List.range 32).foldl (fun (t : State) i =>
      { t with mgt.cross := t.mgt.cross.put i (if lonely s i then t.mgt.cross.look i + 1 else 0) }) s
    let out := (List.range 32).filter fun i => decide (3 ≤ s.mgt.cross.look i) && !s.mgt.failed.look i
    out.foldl (fun (t : State) i =>
      { t with mgt.failed := t.mgt.failed.put i true,
               mgt.temp := t.mgt.temp.put i (((neighbours i).map s.mgt.temp.look).foldl max 0) }) s

/-! ### Power (R366–R368) -/

/-- The energy of a millisecond's events, as power over that millisecond in units of 5 × 10⁻¹¹ W. -/
def evPower (e : EnergyEv) : Nat :=
  10000 * e.slate + 2000 * e.beam + 9 * e.rte + 80 * e.cmb + 60000 * e.fab + 400 * e.rkn

/-- The hottest tier reading, in 0.125 °C. -/
def hotTier (s : State) : Nat := ((List.range 16).map s.mgt.temp.look).foldl max 0

/-- The hottest Hub reading, in 0.125 °C. -/
def hotHub (s : State) : Nat := ((List.range 16).map fun i => s.mgt.temp.look (16 + i)).foldl max 0

/-- Whether a temperature holds metering: a tier above 95 °C or a Hub sensor above 100 °C (R366). -/
def thermalOver (s : State) : Bool := decide (760 < hotTier s) || decide (800 < hotHub s)

/-- One watt in the units of EST. -/
def watt : Nat := 20000000000

/-- Whether PMBus device `i` is absent (R368). -/
def pmbAbsent (s : State) (i : Nat) : Bool := decide (100 ≤ s.mgt.pmbFail.look i)

/-- Whether the block is over (R366, R368). -/
def powerOver (s : State) : Bool :=
  let cap := regFld s 0xd00020 15 0
  let bus := regFld s 0xd00020 31 16
  let bad := match s.mgt.busSince with
    | none => false
    | some t => decide (10 * msQc ≤ (s.ts - t).toNat)
  (cap != 0 && decide (cap * watt < s.mgt.est))
    || (bus != 0 && !pmbAbsent s 0 && decide (bus * 10000 < s.mgt.vin * s.mgt.iin))
    || thermalOver s || decide (1000 < (s.mgt.droops.filter fun t => decide ((s.ts - t).toNat < 1000 * msQc)).length)
    || (bad && !pmbAbsent s 0)

/-- Whether every measure that has a cap is at or below 95 % of it (R366). -/
def powerLow (s : State) : Bool :=
  let cap := regFld s 0xd00020 15 0
  let bus := regFld s 0xd00020 31 16
  (cap == 0 || decide (100 * s.mgt.est ≤ 95 * cap * watt))
    && (bus == 0 || pmbAbsent s 0 || decide (100 * (s.mgt.vin * s.mgt.iin) ≤ 95 * bus * 10000))

/-- The metering rate after a millisecond (R366). -/
def nextRate (s : State) : Nat :=
  let r := s.mgt.rate
  if powerOver s then max (r - r / 8) 64
  else if powerLow s then min (r + max (r / 32) 64) 8192
  else r

/-- A Hub sensor's raw reading is taken (R360, R361). -/
def hubSample (s : State) (i raw : Nat) : State :=
  { s with mgt.temp := s.mgt.temp.put (16 + i) (reading s (16 + i) raw (neighbours (16 + i))) }

/-- The estimate of a millisecond with its events and its raw Hub readings, and the rate that follows (R366, R367). While the block
is stopped the sensors are sampled, and the metering does not adjust the rate (R369). -/
def powerTick (s : State) (ev : EnergyEv) (hub : List Nat) : State :=
  if !s.mgt.running then s
  else
    let s := if s.mgt.rate < 8192 then count s .mgtCapAct else s
    let s := (List.range (min 16 hub.length)).foldl (fun s i => hubSample s i (hub.getD i 0)) s
    if s.flt.stop ≠ .running then { s with mgt.thermal := thermalOver s }
    else
    let s := { s with mgt.est := 22 * watt + 625000000 * (hotTier s - 480) + evPower ev }
    { s with mgt.rate := nextRate s, mgt.thermal := thermalOver s }

/-- Whether PMBus device `i` is listed. -/
def pmbListed (s : State) (i : Nat) : Bool := decide (i < 8) && regBit s (0xd00180 + 4 * i) 7

/-- The reads of the listed devices: `fails` names a device for each transaction that failed. -/
def pmbReads (s : State) (fails : List Nat) : State :=
  let bad := fails.filter (pmbListed s)
  let s := countN s .mgtPmbErr bad.length
  (List.range 8).foldl (fun (s : State) i =>
    if !pmbListed s i then s
    else { s with mgt.pmbFail := s.mgt.pmbFail.put i (if bad.contains i then s.mgt.pmbFail.look i + 1 else 0) }) s

/-- The 10 ms poll: device 0's READ_VIN in 10 mV and READ_IIN in 10 mA, and the transactions that failed (R368). -/
def pmbPoll (s : State) (vin iin : Nat) (fails : List Nat) : State :=
  if !s.mgt.running then s
  else
    let ok := pmbListed s 0 && !fails.contains 0
    let s := pmbReads s fails
    if !ok then s
    else
      let out := decide (vin < 3600) || decide (4800 < vin)
      { s with mgt.vin := vin % 2 ^ 16, mgt.iin := iin % 2 ^ 16,
               mgt.busSince := if out then (match s.mgt.busSince with
                 | none => some s.ts
                 | some t => some t) else none }

/-- PMB_ALERT_N is asserted: every listed device's STATUS_WORD is read (R344, R368). -/
def pmbAlert (s : State) (fails : List Nat) : State :=
  inputActive s 4 fun s => if s.mgt.running then pmbReads s fails else s

/-! ### The log (R364, R365) -/

/-- The FREE journal sector with the lowest erase count. -/
def freeSector (s : State) : Option Nat :=
  minBy (fun i => (s.mgt.sectors.look i).erases)
    (((List.range 1022).map (· + 2)).filter fun i => (s.mgt.sectors.look i).st == .free)

/-- A sector's erase: it joins the journal, or is RETIRED where the erase fails or the count reaches 100,000. -/
def eraseSector (x : Sector) (ok : Bool) : Sector :=
  let n := x.erases + 1
  if ok && n < 100000 then { st := .journal, erases := n, recs := 0 } else { x with st := .retired, erases := n }

/-- The head moves on to a fresh sector. -/
def moveHead (s : State) (eraseOk : Bool) : State :=
  match freeSector s with
  | none => s
  | some i =>
    let x := eraseSector (s.mgt.sectors.look i) eraseOk
    let s := { s with mgt.sectors := s.mgt.sectors.put i x }
    if x.st = .journal then { s with mgt.head := i, mgt.moved := s.mgt.moved + 1 } else s

/-- Whether the head's sector takes another record: 1,024 of 64 B. -/
def headOpen (s : State) : Bool :=
  let x := s.mgt.sectors.look s.mgt.head
  x.st == .journal && decide (x.recs < 1024)

/-- The oldest waiting record is programmed and read back at the head: `ok` says that it was, `eraseOk` that a fresh
sector's erase succeeded where one was needed (R364, R365). -/
def logAppend (s : State) (ok eraseOk : Bool) : State :=
  match s.mgt.logQ with
  | [] => s
  | r :: rest =>
    if !s.mgt.running then s
    else
      let s := if headOpen s then s else moveHead s eraseOk
      let h := s.mgt.head
      if !headOpen s then s
      else if !ok then
        { s with mgt.sectors := s.mgt.sectors.upd h fun x => { x with st := .retired } }
      else
        let s := count { s with mgt.log := s.mgt.log ++ [r], mgt.logQ := rest } .mgtLogWr
        { s with mgt.sectors := s.mgt.sectors.upd h fun x => { x with recs := x.recs + 1 } }

/-- Live records copied forward, 1,024 to a sector, into fresh sectors: the sectors taken. -/
def copyForward : Nat → State → List Nat → State × List Nat
  | 0, s, l => (s, l)
  | n + 1, s, l =>
    match freeSector s with
    | none => (s, l)
    | some i => copyForward n { s with mgt.sectors := s.mgt.sectors.upd i fun x => eraseSector x true } (l ++ [i])

/-- Compaction: the live set goes to the head, and the sectors behind it become FREE (R365). It waits while the block is stopped
(R369). -/
def logCompact (s : State) : State :=
  if !s.mgt.running ∨ s.mgt.moved < 16 ∨ s.flt.stop ≠ .running then s
  else
    let live := liveLog s
    let k := live.length / 1024 + 1
    let old := ((List.range 1022).map (· + 2)).filter fun i => (s.mgt.sectors.look i).st == .journal
    let (s, taken) := copyForward k s []
    if taken.length < k then s
    else
      let s := old.foldl (fun (s : State) i =>
        { s with mgt.sectors := s.mgt.sectors.upd i fun x => { x with st := .free, recs := 0 } }) s
      let fill := fun (s : State) (e : Nat × Nat) =>
        let n := if e.1 + 1 = k then live.length % 1024 else 1024
        { s with mgt.sectors := s.mgt.sectors.upd e.2 fun x => { x with recs := n } }
      let s := ((List.range k).zip taken).foldl fill s
      { s with mgt.log := live, mgt.head := taken.getLastD s.mgt.head, mgt.moved := 0 }

/-! ### Spares (R370) -/

/-- qc in one hour. -/
def hourQc : Nat := 3600000 * msQc

/-- Whether the vault that serves logical vault `l` calls for a spare-in. (DEDUCED, log entry 64). -/
def vaultWorn (s : State) (l : Nat) : Bool :=
  let x := vault s (s.slt.vmap.look l)
  let n := (x.ceTimes.filter fun t => decide ((s.ts - t).toNat < hourQc)).length
  (0 < n && regFld s 0xd00038 15 0 ≤ n) || x.rowsUsed.any (fun e => decide (32 ≤ e.2)) || x.lanesUsed.any (fun e => decide (2 ≤ e.2))
    || decide (48 ≤ x.bad.length)

/-- MGT starts a spare-in for the lowest worn logical vault, to the lowest SPARE vault, with SHARE 2. -/
def vaultTrigger (s : State) : State :=
  let worn := (List.range 120).find? (vaultWorn s)
  let spare := (List.range 128).find? fun v => (vault s v).role == .spare
  match worn, spare with
  | some l, some t =>
    if !s.mgt.running ∨ !regBit s 0xd00038 16 ∨ s.flt.stop ≠ .running ∨ !isReady s then s
    else
      let (s', ok) := vspareStart s l t
      if ok then count (regSet s' 0xa02000 (BitVec.ofNat 64 (l + t * 2 ^ 8 + 2 * 2 ^ 16))) .mgtSpareReq else s
  | _, _ => s

/-- A corrected error of row `row` of SRAM instance `inst` is reported (R331, R370): at the fourth the row's repair is
logged, for the next start; an instance has one spare row. -/
def sramCorrected (s : State) (inst row : Nat) : State :=
  let k := inst * 2 ^ 32 + row
  let n := s.mgt.sramCe.look k + 1
  let s := { s with mgt.sramCe := s.mgt.sramCe.put k n }
  if n ≠ 4 then s
  else if s.mgt.sramRows.any fun e => e.1 == inst then { s with mgt.sramOut := true }
  else logRepair { s with mgt.sramRows := s.mgt.sramRows ++ [(inst, row)] } 9 k 0

/-- The scrub of an idle Reckoner's memory reads a word (R337): a corrected error is reported with its SRAM instance and row
(R370). -/
def scrubWord (s : State) (a inst row : Nat) (standby ce ue : Bool) : State :=
  let hit := (rkn s a).st == .idle && !agtShut s a && ce && !ue
  let s := imemScrub s a standby ce ue
  if hit then sramCorrected s inst row else s

end Sys2Proof.Machine
end

