-- ==== Sys2Proof/Machine/Kernel.lean ====
section
/-!
DEFINITION. The kernel commands: queues and partitions (R48–R50), and the critical commands with the authenticator that
checks them (R50, R51, R54–R57, R142–R144, R422).
-/

namespace Sys2Proof.Machine

open Sys2Proof

/-! ### QUEUE_CONFIG, QUEUE_RESET, PARTITION_RESET (R48, R49) -/

/-- The four OBS words of a queue are cleared (R378). -/
def clearWords (s : State) (q : Nat) : State :=
  { s with obs.words := (List.range 4).foldl (fun (t : Tab W64) i => t.put (4 * q + i) 0) s.obs.words }

/-- Records of an earlier enablement of a queue leave HIF (R48). (DEDUCED, log entry 75). -/
def forgetRecords (s : State) (q : Nat) : State :=
  { s with hif.spill := s.hif.spill.filter (·.q != q), hif.flight := s.hif.flight.filter (·.q != q),
           hif.waiting := s.hif.waiting.filter (·.q != q) }

/-- The queue that a QUEUE_CONFIG describes (R48). -/
def configured (c : Cmd) (seq : Nat) : Queue :=
  let f := c.fld
  { (default : Queue) with
    st := .idle, phase := true, seq := seq, part := f 0xA 0 4, slice := f 0xB 0 8, sqLog2 := f 0xC 0 5, cqLog2 := f 0xD 0 5,
    intVec := f 0xE 0 6, reloc := f 0xF 0 1 == 1, sqBase := f 0x10 0 64, cqBase := f 0x18 0 64, nodeBase := f 0x20 0 24,
    nodeCount := f 0x24 0 24, chanBase := f 0x28 0 16, chanCount := f 0x2A 0 16 }

/-- QUEUE_CONFIG (R48, R378). -/
def doQueueConfig (s : State) (q : Nat) (c : Cmd) : State :=
  let t := c.fld 8 0 13
  if (queue s t).st ≠ .disabled then refuse s q c 0x16 0
  else complete (clearWords (updQ (forgetRecords s t) t fun u => configured c u.seq) t) q c 0 0

/-- QUEUE_RESET (R49). -/
def doQueueReset (s : State) (q : Nat) (c : Cmd) : State := complete (discardQueue s (c.fld 8 0 13) 0x30) q c 0 0

/-- PARTITION_RESET (R49, R122). (DEDUCED, log entry 29). -/
def doPartitionReset (s : State) (q : Nat) (c : Cmd) : State :=
  let p := c.fld 8 0 4
  complete (btReset (discardPart s p 0x31 fun _ => false) p) q c 0 0

/-! ### What each critical command does once it is authentic -/

/-- The state with partition `p` as a PARTITION_SET gives it; DIS shows its share (R50, R96). -/
def setPartition (s : State) (c : Cmd) : State :=
  let f := c.fld
  let p := f 8 0 4
  let part : Part := { nodeBase := f 0xC 0 24, nodeCount := f 0x10 0 24, chanBase := f 0x14 0 16, chanCount := f 0x16 0 16,
                       cellQuota := f 0x18 0 24, beadShare := f 0x1C 0 8 }
  regSetFld { s with parts := s.parts.put p part } (0x400100 + 8 * p) 7 0 part.beadShare

/-- PARTITION_SET (R50); the partition must be paused and drained (R109). (DEDUCED, log entry 25). -/
def doPartitionSet (s : State) (q : Nat) (c : Cmd) : State :=
  let p := c.fld 8 0 4
  let busy := !(partQueues s p).isEmpty || !regBit s 0x500000 p || issuedOf s p
    || s.grs.nodes.any fun e => e.2.kind != .free && ownsNode s p e.1
  if busy then refuse s q c 0x16 0 else complete (setPartition s c) q c 0 0

/-- AUT refuses a command with AUTH: AUT_FAIL_CNT and HIF_IRQ_STAT.AUTH_FAIL (R54, R57). -/
def authFail (s : State) (q : Nat) (c : Cmd) : State :=
  refuse { count s .autFail with hif.irqStat := s.hif.irqStat ||| 2 } q c 0x12 0

/-- A key slot of AUT. -/
def keySlot (s : State) (i : Nat) : KeySlot := s.aut.slots.look i

/-- AUT holds a command until the log write for slot `i` is confirmed (R56). (DEDUCED, log entry 18). -/
def holdFor (s : State) (q : Nat) (c : Cmd) (i : Nat) (installed : Bool) : State :=
  { s with aut.held := s.aut.held ++ [{ q := q, cmd := c, slot := i, installed := installed }] }

/-- KEY_SET (R57): the key takes effect, and the command completes once its log record is confirmed. The record's content is the
key, and 2¹²⁸ more where the slot is revoked. -/
def doKeySet (s : State) (q : Nat) (c : Cmd) : State :=
  let i := c.fld 8 0 3
  if c.fld 9 0 1 = 1 then
    let s := { s with aut.slots := s.aut.slots.upd i fun k => { k with st := .revoked, key := 0 } }
    holdFor (logRecord s 2 i (2 ^ 128)) q c i true
  else match keyUnwrap (keySlot s 0).key (c.fld 0x10 0 192) with
  | none => authFail s q c
  | some k =>
    let slot : KeySlot := { st := .valid, key := k, last := 0, logged := 0 }
    holdFor (logRecord { s with aut.slots := s.aut.slots.put i slot } 2 i k) q c i true

/-- The code load of a command. -/
def codeLoad (q : Nat) (c : Cmd) (started : Bool) : CodeLoad :=
  { q := q, seq := c.seq, mask := BitVec.ofNat 64 (c.fld 8 0 64), started := started }

/-- Whether the code's host addresses lie below 2⁵² (R396). -/
def codeReachable (c : Cmd) : Bool := decide (c.fld 0x10 0 64 + c.fld 0x1C 0 17 ≤ Config.hostTop)

/-- RKN_LOAD (R142, R144). -/
def doRknLoad (s : State) (q : Nat) (c : Cmd) : State :=
  let agents := maskAgents s (c.fld 8 0 64)
  if agents.any s.dis.rknBusy.look then refuse s q c 0x15 0
  else if !codeReachable c then refuse s q c 0x18 0
  else
    let s := agents.foldl (fun s a => updR s a fun r => { r with st := .loading }) s
    startLoad { s with codeLoads := s.codeLoads ++ [codeLoad q c true] } c

/-- RKN_QUIESCE_LOAD (R143). -/
def doRknQuiesce (s : State) (q : Nat) (c : Cmd) : State :=
  if !codeReachable c then refuse s q c 0x18 0
  else
    let agents := maskAgents s (c.fld 8 0 64)
    let s := agents.foldl (fun s a => enterLoading (updA s a fun x => { x with held := true }) a) s
    { s with codeLoads := s.codeLoads ++ [codeLoad q c false] }

/-- LOCKED_WRITE (R422); a data region moves only while every queue of its partition is DISABLED (R247). -/
def doLockedWrite (s : State) (q : Nat) (c : Cmd) : State :=
  let a := c.fld 8 0 26
  if inRow a 0xa00200 8 16 && !(partQueues s (rowIdx a 0xa00200 8)).isEmpty then complete (count s .sltCfgIgn) q c 0 0
  else complete (maskedWrite s a (c.fld 0x10 0 64) (c.fld 0x18 0 64)) q c 0 0

/-- DEBUG_UNLOCK (R51, R379). -/
def doDebugUnlock (s : State) (q : Nat) (c : Cmd) : State :=
  complete { s with obs.dbgLevel := c.fld 8 0 2, obs.dbgMask := BitVec.ofNat 16 (c.fld 0xA 0 16) } q c 0 0

/-! ### The authenticator (R54–R57) -/

/-- An authentic command runs: the tests of R42 that follow AUT's, and its effect. -/
def runCritical (s : State) (q : Nat) (c : Cmd) : State :=
  match lateFault s q c with
  | some (st, dt) => refuse s q c st dt
  | none =>
    if c.op = 0xC0 then doPartitionSet s q c
    else if c.op = 0xC1 then doKeySet s q c
    else if c.op = 0xC2 then doRknLoad s q c
    else if c.op = 0xC3 then doRknQuiesce s q c
    else if c.op = 0xC4 then doLockedWrite s q c
    else doDebugUnlock s q c

/-- The slot, the counter and the tag of a critical command's extension. -/
def extSlot (c : Cmd) : Nat := c.fld 0x40 0 3
def extCounter (c : Cmd) : Nat := c.fld 0x48 0 64
def extTag (c : Cmd) : Nat := c.fld 0x50 0 128

/-- The tag that a key gives a command: record 0 and the first 16 bytes of the extension (R54). -/
def authTag (key : Nat) (c : Cmd) : Nat := aesCmac key (leBytes 80 c.body)

/-- AUT's check of a critical command (R54), the log of a counter that crosses a multiple of 65,536 (R56), and what
follows. The read of the key slot is where an armed AUT injection fires. -/
def autCheck (s : State) (q : Nat) (c : Cmd) : State :=
  let i := extSlot c
  let k := keySlot s i
  let s := sramInject s (3, some i)
  if k.st ≠ .valid ∨ (c.op = 0xC1 ∧ i ≠ 0) ∨ authTag k.key c ≠ extTag c then authFail s q c
  else if extCounter c ≤ k.last.toNat then
    refuse { count s .autReplay with hif.irqStat := s.hif.irqStat ||| 2 } q c 0x13 0
  else
    let s := { s with aut.slots := s.aut.slots.upd i fun k => { k with last := BitVec.ofNat 64 (extCounter c) } }
    if k.logged / 65536 < extCounter c / 65536 then holdFor (logRecord s 1 i (extCounter c)) q c i false
    else runCritical s q c

/-- A critical command at the front of a queue, as each of their rows starts it. -/
def startCritical (s : State) (q op : Nat) : State := runCmd s q op fun s c => autCheck s q c

/-- The log record that slot `i` waits for: the newest written one that gives it a logged value. -/
def loggedFor (s : State) (i : Nat) : Option LogRec :=
  s.mgt.log.reverse.find? fun r => (r.type == 1 || (r.type == 2 && decide (r.body < 2 ^ 128))) && r.key == i

/-- Management firmware confirms the log writes of slot `i`: what AUT holds for it goes on, in order (R56, R57). A write that
is still waiting cannot be confirmed. -/
def autConfirm (s : State) (i : Nat) : State :=
  if s.mgt.logQ.any (fun r => (r.type == 1 || r.type == 2) && r.key == i) then s
  else
    let logged := match loggedFor s i with
      | some r => if r.type = 1 then r.body else 0
      | none => (keySlot s i).logged
    let mine := s.aut.held.filter (·.slot == i)
    let s := { s with aut.held := s.aut.held.filter (·.slot != i),
                      aut.slots := s.aut.slots.upd i fun k => { k with logged := logged } }
    mine.foldl (fun s h =>
      if h.installed then settleQ (complete s h.q h.cmd 0 0) h.q else settleQ (runCritical s h.q h.cmd) h.q) s

end Sys2Proof.Machine
end

