-- ==== Sys2Proof/Machine/CmdAgent.lean ====
section
/-!
DEFINITION. The commands of the Cluster Agents (chapters 05 and 16).
-/

namespace Sys2Proof.Machine

open Sys2Proof

/-- TASK_LAUNCH: a TASK launch reaches agent `a` (R124). -/
def execTaskLaunch (a : Nat) (l : Launch) (s : State) : Host.Outcome State Fault Refusal :=
  .next (act [(8, none)] (fun s => arrives s (!agtShut s a) (· == .launch a l) fun s => taskLaunch s a l) s)

/-- KERNEL_DESC_CHECK: the kernel descriptor of a launch has been read (R125). -/
def execKernelDescCheck (a n : Nat) (gen : BitVec 16) (s : State) : Host.Outcome State Fault Refusal :=
  .next (act [(8, none)] (fun s => kernelDescCheck s a n gen) s)

/-- LAYER_LAUNCH: a LAYER launch reaches agent `a` (R126, R140). -/
def execLayerLaunch (a : Nat) (l : Launch) (s : State) : Host.Outcome State Fault Refusal :=
  .next (act [(8, none)] (fun s => arrives s (!agtShut s a) (· == .launch a l) fun s => layerLaunch s a l) s)

/-- LAYER_SETUP_DONE: the setup of a layer program ends (R126). -/
def execLayerSetupDone (a : Nat) (s : State) : Host.Outcome State Fault Refusal :=
  .next (act [] (fun s => layerSetup s a) s)

/-- BLOCK_END: a core reports a block ended (R407, R410, R411). -/
def execBlockEnd (a core tag : Nat) (s : State) : Host.Outcome State Fault Refusal :=
  .next (act [] (fun s => blockEnd s a core tag) s)

/-- GROUP_END: a core reports a thread group ended (R407, R197). -/
def execGroupEnd (a core tag group : Nat) (s : State) : Host.Outcome State Fault Refusal :=
  .next (act [] (fun s => groupEnd s a core tag group) s)

/-- ENG_DONE: an engine reports a command complete (R132, R133, R407). -/
def execEngDone (a core tag : Nat) (value : Option W64) (s : State) : Host.Outcome State Fault Refusal :=
  .next (act [] (fun s => engDone s a core tag value) s)

/-- CREDIT: Reckoner-section credits return (R123, R407). -/
def execCredit (a : Nat) (counts : BitVec 256) (s : State) : Host.Outcome State Fault Refusal :=
  .next (act [] (fun s => engCredit s a counts) s)

/-- AGENT_PORT_OP: a core's remote operation (R407, R410). -/
def execAgentPortOp (a : Nat) (m : OpMsg) (s : State) : Host.Outcome State Fault Refusal :=
  .next (act [] (fun s => agentPortOp s a m) s)

/-- DN_CREDIT: the cluster returns a downstream credit (R405). -/
def execDnCredit (a : Nat) (s : State) : Host.Outcome State Fault Refusal :=
  .next (act [] (fun s => dnCredit s a) s)

/-- CAPACITY_RECORD: a core's capacity record (R408). -/
def execCapacityRecord (a core : Nat) (res : Res) (s : State) : Host.Outcome State Fault Refusal :=
  .next (act [] (fun s => capacityRecord s a core res) s)

/-- AP_ACT: a core raises its activity indication (R340, R409). -/
def execApAct (a core : Nat) (s : State) : Host.Outcome State Fault Refusal :=
  .next (act [] (fun s => apAct s a core) s)

/-- ANSWER: an answer to a core's remote operation reaches the agent (R186, R405). -/
def execAnswer (a core tag status : Nat) (v : W64) (data : Bytes) (s : State) : Host.Outcome State Fault Refusal :=
  .next (act [(8, none)] (fun s => coreAnswer s a core tag status v data) s)

end Sys2Proof.Machine
end

