-- ==== Sys2Proof/Machine/CmdBoot.lean ====
section
/-!
DEFINITION. The commands of clocks, resets and boot (chapter 12).
-/

namespace Sys2Proof.Machine

open Sys2Proof

/-- POWER_ON_RESET: PORESET_N at its filtered level (R304, R305). -/
def execPowerOnReset (released : Bool) (s : State) : Host.Outcome State Fault Refusal :=
  .next (act [] (fun s => poReset s released) s)

/-- WARM_RESET: WARM_RESET_N at its filtered level (R304, R305). -/
def execWarmReset (released : Bool) (s : State) : Host.Outcome State Fault Refusal :=
  .next (act [] (fun s => warmReset s released) s)

/-- DEVICE_RESET_SEQUENCE: every agent has stopped: the DEVICE reset (R304, R338). -/
def execDeviceResetSequence (s : State) : Host.Outcome State Fault Refusal :=
  .next (act [] deviceReset s)

/-- PLL_LOCK: the root or the standby PLL locks (R301). -/
def execPllLock (root : Bool) (s : State) : Host.Outcome State Fault Refusal :=
  .next (act [] (fun s => pllLock s root) s)

/-- PLL_LOCK_TIMEOUT: 100 µs have passed without a lock (R302). -/
def execPllLockTimeout (s : State) : Host.Outcome State Fault Refusal :=
  .next (act [] pllTimeout s)

/-- PLL_LOSS_OF_LOCK: the root PLL loses lock (R302). -/
def execPllLossOfLock (s : State) : Host.Outcome State Fault Refusal :=
  .next (act [] pllLoss s)

/-- HEADER_VERIFIED: the SFDP, log and header reads end (R309–R312). -/
def execHeaderVerified (norOk logOk : Bool) (header : Bytes) (s : State) : Host.Outcome State Fault Refusal :=
  .next (act [] (fun s => headerRead s norOk logOk header) s)

/-- SECTION_DIGEST: a section has been read (R313–R321). -/
def execSectionDigest (norOk : Bool) (data : Bytes) (s : State) : Host.Outcome State Fault Refusal :=
  .next (act [] (fun s => sectionRead s norOk data) s)

/-- BUILD: stage BUILD (R322). -/
def execBuild (s : State) : Host.Outcome State Fault Refusal :=
  .next (act [] build s)

/-- READY: the Ready ac (R326). -/
def execReady (s : State) : Host.Outcome State Fault Refusal :=
  .next (act [] ready s)

end Sys2Proof.Machine
end

