-- ==== Sys2Proof/Machine/CmdChannel.lean ====
section
/-!
DEFINITION. The commands of the Channel Engine and of the Barrier and Atomic Unit (chapter 07).
-/

namespace Sys2Proof.Machine

open Sys2Proof

/-- RESERVE: RESERVE with operand `v` (R180, R181). -/
def execReserve (c : Nat) (src : Src) (v : Nat) (s : State) : Host.Outcome State Fault Refusal :=
  .next (act [(8, none), (0xB, some c)] (fun s => if chnShut s then s else opOffer s (.reserve c src v)) s)

/-- SEND_DATA: a write of SEND_DATA at byte `off`; `mask` names the bytes written and `crcOk` the check of R183
(R182). -/
def execSendData (c : Nat) (src : Src) (off : Nat) (data : Bytes) (mask : BitVec 256) (crcOk : Bool) (s : State) :
    Host.Outcome State Fault Refusal :=
  .next (act [(8, none), (0xB, some c)]
    (fun s => if chnShut s then s else chanWrite s c src off data (fun i => mask.getLsbD i) crcOk) s)

/-- COMMIT: COMMIT with operand `v` (R184). -/
def execCommit (c : Nat) (src : Src) (v : Nat) (s : State) : Host.Outcome State Fault Refusal :=
  .next (act [(8, none), (0xB, some c)] (fun s => if chnShut s then s else chanCommit s c src v) s)

/-- CLAIM: CLAIM with operand `v` (R188, R189). -/
def execClaim (c : Nat) (src : Src) (v : Nat) (s : State) : Host.Outcome State Fault Refusal :=
  .next (act [(8, none), (0xB, some c)] (fun s => if chnShut s then s else opOffer s (.claim c src v)) s)

/-- RECV_DATA: a read of `n` bytes of RECV_DATA, or an atomic on a word that takes none (R174, R190). -/
def execRecvData (c : Nat) (src : Src) (off n : Nat) (atomic : Bool) (s : State) : Host.Outcome State Fault Refusal :=
  .next (act [(8, none), (0xB, some c)]
    (fun s => if chnShut s then s else if atomic then chanStray s c src else chanRecv s c src off n) s)

/-- RELEASE: RELEASE with operand `v` (R190). -/
def execRelease (c : Nat) (src : Src) (v : Nat) (s : State) : Host.Outcome State Fault Refusal :=
  .next (act [(8, none), (0xB, some c)] (fun s => if chnShut s then s else chanRelease s c src v) s)

/-- NOTIFY: a write `v` of NOTIFY (R192). -/
def execNotify (c : Nat) (src : Src) (v : Nat) (s : State) : Host.Outcome State Fault Refusal :=
  .next (act [(8, none), (0xB, some c)] (fun s => if chnShut s then s else chanNotify s c src v) s)

/-- BARRIER_ARM: a write `v` of ARM; `full` says that its mask covers all 8 bytes (R195). -/
def execBarrierArm (b : Nat) (src : Src) (v : Nat) (full : Bool) (s : State) : Host.Outcome State Fault Refusal :=
  .next (act [(8, none), (0xC, some b)] (fun s => if s.bau.stopped then s else barArm s b src v full) s)

/-- BARRIER_ARRIVE: ARRIVE; `phase` is what the agent recorded for the participant (R196). -/
def execBarrierArrive (b : Nat) (src : Src) (phase : Option (BitVec 16)) (s : State) :
    Host.Outcome State Fault Refusal :=
  .next (act [(8, none), (0xC, some b)] (fun s => if s.bau.stopped then s else barArrive s b src phase) s)

/-- BARRIER_WAIT: WAIT for `phase` (R196). -/
def execBarrierWait (b : Nat) (src : Src) (phase : BitVec 16) (s : State) : Host.Outcome State Fault Refusal :=
  .next (act [(8, none), (0xC, some b)] (fun s => if s.bau.stopped then s else opOffer s (.wait b src phase)) s)

/-- RETIRE_NOTICE: a participant's retirement notice, with its barriers and phases (R197). -/
def execRetireNotice (n : Nat) (gen : BitVec 16) (pairs : List (Nat × BitVec 16)) (s : State) :
    Host.Outcome State Fault Refusal :=
  .next (act [(8, none)]
    (fun s => if s.bau.stopped then s else arrives s true (isNotice n gen pairs) fun s => retireNotice s n gen pairs) s)

/-- GROUP_ATOMIC: a group atomic of 32 lanes (R199–R201). -/
def execGroupAtomic (src : Src) (tag aop : Nat) (size8 : Bool) (lanes : List Lane) (s : State) :
    Host.Outcome State Fault Refusal :=
  .next (act [(8, none)] (fun s => if bauShut s then s else groupAtomic s src tag aop size8 lanes) s)

end Sys2Proof.Machine
end

