-- ==== Sys2Proof/Machine/CmdDispatch.lean ====
section
/-!
DEFINITION. The commands of the Dispatcher and of the Partition and Deadline Manager (chapter 04).
-/

namespace Sys2Proof.Machine

open Sys2Proof

/-- DISPATCH_CYCLE: one ac of the dispatcher (R96, R101–R107, R112). -/
def execDispatchCycle (s : State) : Host.Outcome State Fault Refusal :=
  .next (act [(6, none)] dispatchCycle s)

/-- HOLD_START: a head of partition `p` holds it (R98, R110). -/
def execHoldStart (p : Nat) (s : State) : Host.Outcome State Fault Refusal :=
  .next (act [(6, none)] (fun s => holdStart s p) s)

/-- OCCUPANCY_RETURN: an occupancy return of agent `a` (R99, R108). -/
def execOccupancyReturn (a : Nat) (k : OccPkt) (s : State) : Host.Outcome State Fault Refusal :=
  .next (act [(6, none), (8, none)] (fun s => arrives s (!s.dis.stopped) (isOcc a k) fun s => occReturn s a k) s)

/-- CAPACITY_REPORT: a capacity report of agent `a` (R99). -/
def execCapacityReport (a : Nat) (k : OccPkt) (s : State) : Host.Outcome State Fault Refusal :=
  .next (act [(6, none), (8, none)] (fun s => arrives s (!s.dis.stopped) (· == .cap a k) fun s => capReport s a k) s)

/-- SLICE_RETIREMENT: a slice retirement reaches DIS (R104). -/
def execSliceRetirement (a n : Nat) (gen : BitVec 16) (res : RetResult) (drops : Nat) (s : State) :
    Host.Outcome State Fault Refusal :=
  .next (act [(6, none), (8, none)]
    (fun s => arrives s (!s.dis.stopped) (· == .retire a true n gen res drops) fun s => sliceRetire s a n gen res drops) s)

/-- DEADLINE_SWITCH_POINT: the switch point of deadline entry `g` is reached (R115). -/
def execDeadlineSwitchPoint (g : Nat) (s : State) : Host.Outcome State Fault Refusal :=
  .next (act [(7, none)] (fun s => switchPoint s g) s)

/-- EXIT_SWITCH: the switch of entry `g` reaches EXIT's lane (R115, R116). -/
def execExitSwitch (g : Nat) (s : State) : Host.Outcome State Fault Refusal :=
  .next (act [(4, none), (5, none), (7, none)] (fun s => exitSwitch s g) s)

/-- STEP_BOUNDARY: a step boundary of batching table `b` (R120). -/
def execStepBoundary (b : Nat) (s : State) : Host.Outcome State Fault Refusal :=
  .next (act [(7, none)] (fun s => stepBoundary s b) s)

/-- BT_POLL: an idle batching table reads JOIN_TAIL (R121). -/
def execBtPoll (b : Nat) (s : State) : Host.Outcome State Fault Refusal :=
  .next (act [(7, none)] (fun s => btPoll s b) s)

end Sys2Proof.Machine
end

