-- ==== Sys2Proof/Machine/Sends.lean ====
section
/-!
DEFINITION. The ends and resends of host requests, and the release of held final writes (R171, R274, R395, R423).
-/

namespace Sys2Proof.Machine

open Sys2Proof

/-- The last CHI request of a command or of an INVAL completes (R171, R423). -/
def hostComplete (s : State) : HostReq → State
  | .command q seq data errs => settleQ (hostDone s q seq data errs) q
  | .inval a id =>
    if (rkn s a).reqs.any fun q => q.id == id && q.kind == .inval then requestAnswer s a id 0 else s

/-- The bytes of host memory that a command's requests cover (R423). -/
def hostRange (c : Cmd) : Nat :=
  if c.op = 0x20 ∨ c.op = 0x21 then c.fld 0x18 0 32
  else if c.op = 0x22 ∨ c.op = 0x10 then c.fld 0x10 0 32
  else if c.op = 0xC2 ∨ c.op = 0xC3 then c.fld 0x1C 0 17
  else 0

/-- Whether the request that a RetryAck turned away is outstanding. -/
def retriedOpen (s : State) : Retried → Bool
  | .record i => decide (i < s.hif.flight.length)
  | .word a req => s.hif.words.any fun w => w.agent == a && w.req == req
  | .line q seq off => (liveCmd s q seq).any fun l => !l.ended && off % 64 == 0 && decide (off < hostRange l.cmd)
  | .ring q => (s.cfe.turn.map (·.q)) == some q

/-- PCrdGrant: the request is sent again, and nothing else changes (R395). (DEDUCED, log entry 69). -/
def resendRequest (s : State) (r : Retried) : State := if retriedOpen s r then emit s (.resend r) else s

/-- A held final write leaves once it may (R274). (DEDUCED, log entry 70). -/
def releaseFinal (s : State) : FinalWrite → State
  | .fab srcAgent srcUnit srcPart dst => finalRelease s srcAgent srcUnit srcPart dst
  | .core a core =>
    if agtShut s a then s
    else coreRelease a core (fun o => isWrite o.hdr) [] ((agt s a).ops.filter (·.core == core)) s
  | .rkn a id => rstRelease s a id

end Sys2Proof.Machine
end

