-- ==== Sys2Proof/Machine/CmdFabric.lean ====
section
/-!
DEFINITION. The commands of the Hall Fabric (chapter 11).
-/

namespace Sys2Proof.Machine

open Sys2Proof

/-- FAB_REQUEST_RECEIVE: the first request buffered at port `k` is taken (R272). -/
def execFabRequestReceive (k : Nat) (s : State) : Host.Outcome State Fault Refusal :=
  .next (act [(8, none)] (fun s => requestReceive s k) s)

/-- FAB_RESPONSE: the first response buffered at port `k` is taken (R268, R296). -/
def execFabResponse (k : Nat) (s : State) : Host.Outcome State Fault Refusal :=
  .next (act [] (fun s => responseReceive s k) s)

/-- FAB_NACK: the first NACK buffered at port `k` is taken (R269). -/
def execFabNack (k : Nat) (s : State) : Host.Outcome State Fault Refusal :=
  .next (act [] (fun s => nackReceive s k) s)

/-- FAB_RETRY: the retry spacing of outstanding entry `t` expires (R270). -/
def execFabRetry (t : Nat) (s : State) : Host.Outcome State Fault Refusal :=
  .next (act [] (fun s => retryNow s t) s)

/-- FINAL_WRITE_RELEASE: a held final write leaves, and the writes behind it (R274). -/
def execFinalWriteRelease (w : FinalWrite) (s : State) : Host.Outcome State Fault Refusal :=
  .next (act [] (fun s => releaseFinal s w) s)

/-- FLIT_RECEIVE: a flit arrives on port `k` (R286–R290). -/
def execFlitReceive (k : Nat) (flit : BitVec 2176) (s : State) : Host.Outcome State Fault Refusal :=
  .next (act [(0x10, some k)] (fun s => flitReceive s k flit) s)

/-- REPLAY_TIMEOUT: the oldest unacknowledged flit of port `k` has waited REPLAY_QC (R289). -/
def execReplayTimeout (k : Nat) (s : State) : Host.Outcome State Fault Refusal :=
  .next (act [(0x10, some k)] (fun s => replayTimeout s k) s)

/-- LANE_FAILURE: lane `j` of port `k` reports `errs` errors within 1 ms (R292). -/
def execLaneFailure (k : Nat) (j : LaneErrs) (s : State) : Host.Outcome State Fault Refusal :=
  .next (act [] (fun s => laneFailure s k j.lane j.errs) s)

/-- LOSS_OF_LOCK: the PHY of port `k` reports loss of lock (R294). -/
def execLossOfLock (k : Nat) (s : State) : Host.Outcome State Fault Refusal :=
  .next (act [] (fun s => linkRetrain s k) s)

/-- TRAIN_RESULT: a training attempt of port `k` ends with these lanes aligned (R292, R294). -/
def execTrainResult (k : Nat) (aligned : BitVec 5) (s : State) : Host.Outcome State Fault Refusal :=
  .next (act [] (fun s => trainResult s k aligned) s)

/-- IDENT_RECEIVE: an IDENT message arrives on port `k` (R294–R296). -/
def execIdentReceive (k : Nat) (ready : Bool) (block port rxNext : Nat) (s : State) :
    Host.Outcome State Fault Refusal :=
  .next (act [(0x10, some k)] (fun s => identReceive s k ready block port rxNext) s)

/-- STOP_RECEIVE: a STOP message arrives on port `k` (R298). -/
def execStopReceive (k : Nat) (s : State) : Host.Outcome State Fault Refusal :=
  .next (act [] (fun s => stopReceive s k) s)

/-- RESUME_RECEIVE: a RESUME message arrives on port `k` (R298). -/
def execResumeReceive (k : Nat) (s : State) : Host.Outcome State Fault Refusal :=
  .next (act [] (fun s => resumeReceive s k) s)

/-- FAB_REEQ: the re-equalisation of port `k` starts (R369). -/
def execFabReeq (k : Nat) (s : State) : Host.Outcome State Fault Refusal :=
  .next (act [] (fun s => reEqualise s k) s)

/-- PHY_EQ_DONE: the PHY of port `k` acknowledges an equalisation (R403). -/
def execPhyEqDone (k : Nat) (s : State) : Host.Outcome State Fault Refusal :=
  .next (act [] (fun s => eqDone s k) s)

end Sys2Proof.Machine
end

