-- ==== Sys2Proof/Machine/CmdFault.lean ====
section
/-!
DEFINITION. The commands of the Fault Controller: discards, hangs, cycles, inputs and Global Stop (chapter 13).
-/

namespace Sys2Proof.Machine

open Sys2Proof

/-- DISCARD_END: every aborted launch of partition `p` is LOADED again (R333). -/
def execDiscardEnd (p : Nat) (s : State) : Host.Outcome State Fault Refusal :=
  .next (act [] (fun s => discardEnd s p) s)

/-- ABORT: an abort flit reaches agent `a` (R334–R336, R411). -/
def execAbort (a n : Nat) (gen : BitVec 16) (s : State) : Host.Outcome State Fault Refusal :=
  .next (act [(8, none)] (fun s => arrives s (!agtShut s a) (isAbort a n gen) fun s => abortFlit s a n gen) s)

/-- PROGRESS_WINDOW_END: a progress window ends (R339–R341). -/
def execProgressWindowEnd (s : State) : Host.Outcome State Fault Refusal :=
  .next (act [] windowEnd s)

/-- CYCLE_WALK_END: a cycle-check walk ends (R342, R343). -/
def execCycleWalkEnd (s : State) : Host.Outcome State Fault Refusal :=
  .next (act [] cycleWalkEnd s)

/-- STOP_N: STOP_N is asserted (R344, R346). -/
def execStopN (s : State) : Host.Outcome State Fault Refusal :=
  .next (act [] (fun s => inputActive s 2 fun s => stopRequest s 0) s)

/-- THERM_TRIP_N: THERM_TRIP_N is asserted (R344). -/
def execThermTripN (s : State) : Host.Outcome State Fault Refusal :=
  .next (act [] thermTrip s)

/-- PMB_ALERT_N: PMB_ALERT_N is asserted; `fails` names the devices whose read fails (R344, R368). -/
def execPmbAlertN (fails : List Nat) (s : State) : Host.Outcome State Fault Refusal :=
  .next (act [] (fun s => pmbAlert s fails) s)

/-- INPUT_GLITCH: an excursion of input `k` shorter than the filter time (R345). -/
def execInputGlitch (k : Nat) (s : State) : Host.Outcome State Fault Refusal :=
  .next (act [] (fun s => inputGlitch s k) s)

/-- STOP_TOKEN_ARRIVE: the stop token reaches unit `u`, or agent `u` − 32 (R349). -/
def execStopTokenArrive (u : Nat) (s : State) : Host.Outcome State Fault Refusal :=
  .next (act [] (fun s => tokenArrive s u) s)

/-- ALL_UNITS_STOPPED: every unit reports stopped (R347). -/
def execAllUnitsStopped (s : State) : Host.Outcome State Fault Refusal :=
  .next (act [] allStopped s)

/-- CUT_WRITTEN: the Cut and its header are written (R352). -/
def execCutWritten (s : State) : Host.Outcome State Fault Refusal :=
  .next (act [] cutWritten s)

/-- ALL_UNITS_RUNNING: every unit reports running (R347). -/
def execAllUnitsRunning (s : State) : Host.Outcome State Fault Refusal :=
  .next (act [] allRunning s)

/-- INPUT_INACTIVE: input `k` returns to its inactive level (R345). -/
def execInputInactive (k : Nat) (s : State) : Host.Outcome State Fault Refusal :=
  .next (act [] (fun s => inputReleased s k) s)

end Sys2Proof.Machine
end

