-- ==== Sys2Proof/Machine/CmdGraph.lean ====
section
/-!
DEFINITION. The commands of the Graph Store and the Tally Engine (chapter 03).
-/

namespace Sys2Proof.Machine

open Sys2Proof

/-- GRAPH_LOAD: GRAPH_LOAD: the range is taken and the image read (R71, R396). -/
def execGraphLoad (q : Nat) (s : State) : Host.Outcome State Fault Refusal :=
  .next (act [(2, none), (4, none)] (fun s => runCmd s q 0x10 fun s c => doGraphLoad s q c) s)

/-- GRAPH_IMAGE_ARRIVES: image bytes of the load of command `seq` of queue `q` arrive (R71). -/
def execGraphImageArrives (q seq : Nat) (data : Bytes) (s : State) : Host.Outcome State Fault Refusal :=
  .next (act [(4, none)] (fun s => graphImage s q seq data) s)

/-- GRAPH_LOAD_COMPLETE: the last record is stored and the image is checked (R70, R71). -/
def execGraphLoadComplete (q seq : Nat) (s : State) : Host.Outcome State Fault Refusal :=
  .next (act [(4, none)] (fun s => graphLoadEnd s q seq) s)

/-- GRAPH_LAUNCH: GRAPH_LAUNCH (R59, R72, R80). -/
def execGraphLaunch (q : Nat) (s : State) : Host.Outcome State Fault Refusal :=
  .next (act [(2, none), (4, none), (7, none)] (fun s => runCmd s q 0x11 fun s c => doGraphLaunch s q c) s)

/-- LAUNCH_SLOTS_FREE: the completion slots that a launch of queue `q` waits for are free (R59). -/
def execLaunchSlotsFree (q : Nat) (s : State) : Host.Outcome State Fault Refusal :=
  .next (act [(1, none), (4, none), (7, none)] (fun s => launchSlots s q) s)

/-- GRAPH_ACTIVATE: the LOADED graph at `h` activates (R73). -/
def execGraphActivate (h : Nat) (arg : W64) (q sqIdx : Nat) (internal : Bool) (s : State) :
    Host.Outcome State Fault Refusal :=
  .next (act [(4, none), (5, none), (7, none)] (fun s => graphActivate s h arg q sqIdx internal) s)

/-- SWEEP_COMPLETE: the sweep of graph `h` ends (R73). -/
def execSweepComplete (h : Nat) (s : State) : Host.Outcome State Fault Refusal :=
  .next (act [(4, none), (5, none)] (fun s => sweepComplete s h) s)

/-- LAUNCH_END: the launch of graph `h` ends (R76, R116). -/
def execLaunchEnd (h : Nat) (s : State) : Host.Outcome State Fault Refusal :=
  .next (act [(4, none), (7, none)] (fun s => launchEnd s h) s)

/-- TASK_SUBMIT: TASK_SUBMIT (R77). -/
def execTaskSubmit (q : Nat) (s : State) : Host.Outcome State Fault Refusal :=
  .next (act [(2, none), (4, none), (5, none)] (fun s => runCmd s q 0x12 fun s c => doTaskSubmit s q c) s)

/-- SIGNAL: SIGNAL (R78). -/
def execSignal (q : Nat) (s : State) : Host.Outcome State Fault Refusal :=
  .next (act [(2, none), (5, none)] (fun s => startSignal s q) s)

/-- GRAPH_RELEASE: GRAPH_RELEASE (R79). -/
def execGraphRelease (q : Nat) (s : State) : Host.Outcome State Fault Refusal :=
  .next (act [(2, none), (4, none)] (fun s => runCmd s q 0x14 fun s c => doGraphRelease s q c) s)

/-- RETIREMENT: a retirement enters TLY's intake (R82, R83, R91). -/
def execRetirement (n : Nat) (gen : BitVec 16) (res : RetResult) (drops : Nat) (s : State) :
    Host.Outcome State Fault Refusal :=
  .next (act [(4, none), (5, none), (8, none)]
    (fun s => arrives s (intakeOpen s (partOr0 s n)) (isRetire n gen res drops) fun s => retirement s n gen res drops) s)

/-- SUCC_LIST_READ: the expander reads the list of expansion entry `k`, or misses the cache (R85). -/
def execSuccListRead (k : Nat) (hit : Bool) (s : State) : Host.Outcome State Fault Refusal :=
  .next (act [(4, none), (5, none)] (fun s => succListRead s k hit) s)

/-- MISS_RETURN: the Slate read of parked operation `k` returns (R85). -/
def execMissReturn (k : Nat) (s : State) : Host.Outcome State Fault Refusal :=
  .next (act [(4, none), (5, none)] (fun s => missReturn s k) s)

/-- TALLY_DECREMENT: the first operation of a lane is performed, or misses the cache (R84, R85). -/
def execTallyDecrement (lane : Nat) (hit : Bool) (s : State) : Host.Outcome State Fault Refusal :=
  .next (act [(4, none), (5, none)] (fun s => tallyDecrement s lane hit) s)

/-- BACKLOG_MOVE: a node of partition `p`'s ready backlog becomes a bead (R86, R107). -/
def execBacklogMove (p : Nat) (s : State) : Host.Outcome State Fault Refusal :=
  .next (act [(5, none)] (fun s => backlogMove s p) s)

/-- REMOTE_DEC: a remote decrement reaches TLY (R88). -/
def execRemoteDec (h : FabHdr) (s : State) : Host.Outcome State Fault Refusal :=
  .next (act [(5, none), (8, none)] (fun s => remoteDec s h) s)

/-- DRAIN_END: the last occupancy of a discarded launch has returned (R90, R108). -/
def execDrainEnd (h : Nat) (s : State) : Host.Outcome State Fault Refusal :=
  .next (act [(4, none), (7, none)] (fun s => drainEnd s h) s)

end Sys2Proof.Machine
end

