-- ==== Sys2Proof/Machine/CmdKernel.lean ====
section
/-!
DEFINITION. The kernel commands and the critical commands (chapter 02, R142–R144).
-/

namespace Sys2Proof.Machine

open Sys2Proof

/-- QUEUE_CONFIG: QUEUE_CONFIG (R48). -/
def execQueueConfig (q : Nat) (s : State) : Host.Outcome State Fault Refusal :=
  .next (act [(1, none), (2, none)] (fun s => runCmd s q 0x80 fun s c => doQueueConfig s q c) s)

/-- QUEUE_RESET: QUEUE_RESET (R49). -/
def execQueueReset (q : Nat) (s : State) : Host.Outcome State Fault Refusal :=
  .next (act [(1, none), (2, none)] (fun s => runCmd s q 0x81 fun s c => doQueueReset s q c) s)

/-- PARTITION_RESET: PARTITION_RESET (R49). -/
def execPartitionReset (q : Nat) (s : State) : Host.Outcome State Fault Refusal :=
  .next (act [(1, none), (2, none)] (fun s => runCmd s q 0x82 fun s c => doPartitionReset s q c) s)

/-- PARTITION_SET: PARTITION_SET (R50, R54). -/
def execPartitionSet (q : Nat) (s : State) : Host.Outcome State Fault Refusal :=
  .next (act [(1, none), (2, none)] (fun s => startCritical s q 0xc0) s)

/-- AUT_LOG_CONFIRM: the log write of key slot `slot` is confirmed (R56, R57). -/
def execAutLogConfirm (slot : Nat) (s : State) : Host.Outcome State Fault Refusal :=
  .next (act [] (fun s => autConfirm s slot) s)

/-- KEY_SET: KEY_SET (R54, R57). -/
def execKeySet (q : Nat) (s : State) : Host.Outcome State Fault Refusal :=
  .next (act [(1, none), (2, none)] (fun s => startCritical s q 0xc1) s)

/-- RKN_LOAD: RKN_LOAD (R54, R142). -/
def execRknLoad (q : Nat) (s : State) : Host.Outcome State Fault Refusal :=
  .next (act [(1, none), (2, none)] (fun s => startCritical s q 0xc2) s)

/-- RKN_QUIESCE_LOAD: RKN_QUIESCE_LOAD (R54, R143). -/
def execRknQuiesceLoad (q : Nat) (s : State) : Host.Outcome State Fault Refusal :=
  .next (act [(1, none), (2, none)] (fun s => startCritical s q 0xc3) s)

/-- QUIESCE_READY: every Reckoner that a quiesced load of queue `q` holds is in LOADING (R143). -/
def execQuiesceReady (q : Nat) (s : State) : Host.Outcome State Fault Refusal :=
  .next (act [] (fun s => quiesceReady s q) s)

/-- RKN_LOAD_END: the read of a code load ends (R144, R423). -/
def execRknLoadEnd (q : Nat) (data : Bytes) (errs : List Nat) (s : State) : Host.Outcome State Fault Refusal :=
  .next (act [(1, none)] (fun s => loadEnd s q data errs) s)

/-- LOCKED_WRITE: LOCKED_WRITE (R54, R422). -/
def execLockedWrite (q : Nat) (s : State) : Host.Outcome State Fault Refusal :=
  .next (act [(1, none), (2, none)] (fun s => startCritical s q 0xc4) s)

/-- DEBUG_UNLOCK: DEBUG_UNLOCK (R51, R54). -/
def execDebugUnlock (q : Nat) (s : State) : Host.Outcome State Fault Refusal :=
  .next (act [(1, none), (2, none)] (fun s => startCritical s q 0xc5) s)

end Sys2Proof.Machine
end

