-- ==== Sys2Proof/Machine/RknIsa.lean ====
section
/-!
DEFINITION. The Reckoner's instructions (chapter 06): the fields of an instruction word, the order of its halt checks
and stalls, loop nests and branches, and the meaning of every instruction (R129–R135, R147–R172).
-/

namespace Sys2Proof.Machine

open Sys2Proof

/-! ### What an instruction does -/

/-- What an instruction that passes its checks does: it completes, jumps, stalls in the read stage in a counter of R130,
halts with an effect on the descriptor table (R163), or ends the fetch. -/
inductive RknAct where
  | next (s : State)
  | jump (s : State) (target : Nat)
  | stall (s : State)
  | halt (s : State) (reason : Nat)
  | last (s : State)
  deriving DecidableEq, Repr, Inhabited

/-- Halt checks that need the values of some scalar registers (R148). -/
structure RknCheck where
  needs : List Nat
  halts : State → List Nat

/-- Checks that need the registers of a list. -/
def check (needs : List Nat) (halts : State → List Nat) : RknCheck := { needs := needs, halts := halts }

/-- An instruction as the read stage takes it (R148): its source registers, its destination, the halt reasons of its word, the
checks that look at the state, and what it does. -/
structure RknIns where
  srcs : List Nat
  dst : Nat
  fixed : List Nat
  found : List RknCheck
  act : State → RknAct

/-- The halt reasons of the checks whose registers are all there: a check is made in the first ac in which no register that it
needs is pending, and every other check at once (R148). -/
def RknIns.made (i : RknIns) (s : State) (a : Nat) : List Nat :=
  i.found.flatMap fun c => if c.needs.any (isPend s a) then [] else c.halts s

/-- Position of a halt reason in the order of R148. -/
def haltRank (r : Nat) : Nat :=
  match r with
  | 0x01 => 1
  | 0x0A => 2
  | 0x09 => 3
  | 0x02 => 4
  | 0x0B => 5
  | 0x07 => 6
  | 0x05 => 7
  | 0x06 => 8
  | 0x03 => 9
  | _ => 10

/-- The reason that is reported (R148). -/
def worstHalt (l : List Nat) : Option Nat := minBy haltRank l

/-- A reason where a condition holds. -/
def ifHalt (b : Bool) (r : Nat) : List Nat := if b then [r] else []

/-- A stalled ac, counted (R130). -/
def stallIn (c : Ctr) (s : State) : RknAct := .stall (count s c)

/-! ### Fetch, loops and branches (R134, R156) -/

/-- The opcodes of R150. -/
def rknOpcode (o : Nat) : Bool :=
  decide (1 ≤ o ∧ o ≤ 5) || decide (8 ≤ o ∧ o ≤ 0xC) || decide (0x10 ≤ o ∧ o ≤ 0x29) || decide (0x30 ≤ o ∧ o ≤ 0x36) ||
  decide (0x38 ≤ o ∧ o ≤ 0x3B) || decide (0x40 ≤ o ∧ o ≤ 0x44) || decide (0x48 ≤ o ∧ o ≤ 0x4B) || o == 0x50 || o == 0x51 ||
  decide (0x58 ≤ o ∧ o ≤ 0x5B) || decide (0x60 ≤ o ∧ o ≤ 0x63) || o == 0x68 || o == 0x69

/-- The instruction word at PC (R147). -/
def rknWordAt (s : State) (a : Nat) : Nat := ((rkn s a).imem.look ((rkn s a).pc.toNat / 8)).toNat

/-- After the instruction at `pc` has executed: the levels whose bodies end there advance or end (R134). The result is the
next PC. -/
def loopBack (pc : Nat) : Nat → Rkn → Rkn
  | 0, r => { r with depth := 0, pc := BitVec.ofNat 16 (pc + 8) }
  | d + 1, r =>
    let l := r.loops.look d
    if l.stop = pc then
      let idx := l.idx + 1
      if idx < l.count then
        { r with depth := d + 1, loops := r.loops.put d { l with idx := idx }, pc := BitVec.ofNat 16 l.start }
      else loopBack pc d { r with loops := r.loops.put d { l with idx := 0 } }
    else { r with depth := d + 1, pc := BitVec.ofNat 16 (pc + 8) }

/-- Levels that a taken branch to `t` leaves in force: the outer ones whose bodies all hold it (R134). -/
def keptLevels (r : Rkn) (t : Nat) : Nat → Nat
  | 0 => 0
  | d + 1 =>
    let k := keptLevels r t d
    if k = d ∧ (r.loops.look d).start ≤ t ∧ t ≤ (r.loops.look d).stop then d + 1 else k

/-- A taken branch: the levels that do not hold the target are popped, their IDX reset (R134, R156). -/
def branchTo (r : Rkn) (t : Nat) : Rkn :=
  let k := keptLevels r t r.depth
  let loops := (List.range' k (r.depth - k)).foldl (fun m d => m.upd d fun l => { l with idx := 0 }) r.loops
  { r with depth := k, loops := loops, pc := BitVec.ofNat 16 t }

/-- An instruction has completed: it is counted, and it is activity of the launch (R140, R340). After a STEP the Reckoner
returns to DEBUG (R138). -/
def rknCompleted (s : State) (a : Nat) : State :=
  let s := count s (.rknInstr a)
  let s := updR s a fun r => if r.stepping ∧ r.st = .running then { r with st := .debug, stepping := false } else r
  activity s a (rknLaunch s a).node (rknLaunch s a).gen

/-- What an act leaves. `pc` is the instruction's address. -/
def settleAct (a pc : Nat) : RknAct → State
  | .next s => rknCompleted (updR s a fun r => loopBack pc r.depth r) a
  | .jump s t => rknCompleted (updR s a fun r => branchTo r t) a
  | .stall s => s
  | .halt s r => rknHaltAt s a r pc false
  | .last s => rknCompleted s a

/-- The read stage takes an instruction (R130, R148). -/
def runIns (s : State) (a : Nat) (i : RknIns) : State :=
  let pc := (rkn s a).pc.toNat
  match worstHalt (i.fixed ++ i.made s a) with
  | some r => rknHaltAt s a r pc false
  | none =>
    if i.srcs.any (isPend s a) ∨ isPend s a i.dst then count s (.rknStallReg a)
    else settleAct a pc (i.act s)

/-- One instruction of opcode `code` at PC, if the Reckoner runs and that is the one; an opcode that R150 does not list
halts (R147). An uncorrectable word or an armed halt takes its place (R331, R337). (DEDUCED, log entry 41). -/
def rknRow (s : State) (a code : Nat) (ins : State → Nat → RknIns) : State :=
  let w := rknWordAt s a
  let o := w % 256
  if agtShut s a ∨ (rkn s a).st ≠ .running then s
  else if injArmed s 0x0902 (· == a) then requestSwap (raiseInj (injFire s) 0x0902 .up (rknPart s a) a true) a
  else if !rknOpcode o then rknHaltAt s a 1 (rkn s a).pc.toNat false
  else if o ≠ code then s
  else if injArmed s 0x0A01 (· == a) then
    rknHaltAt (injFire s) a (regFld s 0xc00100 55 48) (rkn s a).pc.toNat true
  else runIns s a (ins s w)

/-! ### Fields -/

/-- A field of the instruction word. -/
def wf (w hi lo : Nat) : Nat := bitsOf w hi lo

/-- ILLEGAL_OP where a bit outside the mask is set (R147). -/
def resv (w mask : Nat) : List Nat := ifHalt (w - (w &&& mask) ≠ 0) 1

/-- Masks of the layouts (R147): N, R, R with TARGET, I and B. -/
def maskN : Nat := 0xFF
def maskR : Nat := maskBits 22 0
def maskRT : Nat := maskBits 22 0 + maskBits 63 48
def maskI : Nat := maskBits 17 0 + maskBits 63 32
def maskB : Nat := maskBits 22 0 + maskBits 63 32

/-- Sign extension of the low `n` bits. -/
def sext (n x : Nat) : W64 := BitVec.signExtend 64 (BitVec.ofNat n x)

/-- IMM of layout I, sign-extended. -/
def immI (w : Nat) : W64 := sext 32 (wf w 63 32)

/-- RD, RS1 and RS2. -/
def rd (w : Nat) : Nat := wf w 12 8
def rs1 (w : Nat) : Nat := wf w 17 13
def rs2 (w : Nat) : Nat := wf w 22 18

/-! ### Control (R152–R156) -/

/-- NOP. -/
def insNop (_a : Nat) (_s : State) (w : Nat) : RknIns :=
  { srcs := [], dst := 0, fixed := resv w maskN, found := [], act := fun s => .next s }

/-- END (R136). -/
def insEnd (a : Nat) (_s : State) (w : Nat) : RknIns :=
  { srcs := [], dst := 0, fixed := resv w maskN, found := [],
    act := fun s => .last (updR s a fun r => { r with st := .ending }) }

/-- BREAK (R138): the PC stays at the break; it does not count as completed before RESUME. -/
def insBreak (a : Nat) (s : State) (w : Nat) : RknIns :=
  { srcs := [], dst := 0, fixed := resv w maskN ++ ifHalt (!debugFull s (rknPart s a)) 8, found := [],
    act := fun s => .stall (updR s a fun r => { r with st := .debug, atBreak := true, stepping := false }) }

/-- Layer cores of a mask. -/
def maskCores (m : Nat) : List Nat := (List.range 16).filter fun k => bitOf m k

/-- WAIT (R152). -/
def insWait (a : Nat) (s : State) (w : Nat) : RknIns :=
  let e := wf w 11 8
  let req := wf w 12 12 = 1
  let cm := wf w 47 32
  let cores := (if cm = 0 then List.range (rknLaunch s a).blocks else maskCores cm).map (physCore s a)
  { srcs := [], dst := 0,
    fixed := resv w (maskBits 12 0 + maskBits 47 32) ++ ifHalt (e == 0 && !req) 1 ++
      ifHalt ((maskCores cm).any fun k => decide ((rknLaunch s a).blocks ≤ k)) 9,
    found := [],
    act := fun s =>
      let r := rkn s a
      if (r.ops.any fun o => bitOf e o.eng && cores.contains o.core) || (req && !r.reqs.isEmpty) then
        stallIn (.rknStallSb a) s
      else .next s }

/-- FEAT (R153). `feat` is HIF_FEAT. -/
def insFeat (feat : State → W64) (a : Nat) (_s : State) (w : Nat) : RknIns :=
  let i := wf w 63 32
  { srcs := [], dst := rd w, fixed := resv w maskI ++ ifHalt (rs1 w != 0 || decide (4 < i)) 1, found := [],
    act := fun s =>
      let l := rknLaunch s a
      let v : W64 := match i with
        | 0 => rknFeat0
        | 1 => (agt s a).eng
        | 2 => feat s
        | 3 => BitVec.ofNat 64 (a + l.blocks % 32 * 2 ^ 8 + l.part * 2 ^ 16 + blockId s % 4096 * 2 ^ 32)
        | _ => s.ts
      .next (setS s a (rd w) v) }

/-- JMP (R154). -/
def insJmp (_a : Nat) (_s : State) (w : Nat) : RknIns :=
  let t := wf w 63 48
  { srcs := [], dst := 0, fixed := resv w maskRT ++ ifHalt (rd w != 0 || rs1 w != 0 || rs2 w != 0) 1 ++ ifHalt (t % 8 != 0) 7,
    found := [], act := fun s => .jump s t }

/-- JAL (R154). -/
def insJal (a : Nat) (_s : State) (w : Nat) : RknIns :=
  let t := wf w 63 48
  { srcs := [], dst := rd w, fixed := resv w maskRT ++ ifHalt (rs1 w != 0 || rs2 w != 0) 1 ++ ifHalt (t % 8 != 0) 7,
    found := [],
    act := fun s => .jump (setS s a (rd w) (BitVec.ofNat 64 ((rkn s a).pc.toNat + 8))) t }

/-- JR (R154). -/
def insJr (a : Nat) (_s : State) (w : Nat) : RknIns :=
  { srcs := [rs1 w], dst := 0, fixed := resv w maskR ++ ifHalt (rd w != 0 || rs2 w != 0) 1,
    found := [check [rs1 w] fun s =>
      ifHalt ((getS s a (rs1 w)).toNat % 8 != 0 || decide (2 ^ 16 ≤ (getS s a (rs1 w)).toNat)) 7],
    act := fun s => .jump s (getS s a (rs1 w)).toNat }

/-- The value of bits [31:0] as binary32 (R155). -/
def fp32 (x : W64) : FVal := fmtVal 2 (x.toNat % 2 ^ 32)

/-- The comparison that COND selects (R155). -/
def condHolds (c : Nat) (x y : W64) : Bool :=
  match c with
  | 0 => x == y
  | 1 => x != y
  | 2 => x.slt y
  | 3 => !x.slt y
  | 4 => x.ult y
  | 5 => !x.ult y
  | 6 => eqVal (fp32 x) (fp32 y)
  | 7 => ltVal (fp32 x) (fp32 y)
  | 8 => fp32 x != .nan && fp32 y != .nan && !ltVal (fp32 x) (fp32 y)
  | _ => fp32 x == .nan || fp32 y == .nan

/-- BCC (R155). -/
def insBcc (a : Nat) (_s : State) (w : Nat) : RknIns :=
  let t := wf w 63 48
  { srcs := [rs1 w, rs2 w], dst := 0,
    fixed := resv w maskB ++ ifHalt (decide (9 < rd w) || wf w 47 32 != 0) 1 ++ ifHalt (t % 8 != 0) 7,
    found := [],
    act := fun s => if condHolds (rd w) (getS s a (rs1 w)) (getS s a (rs2 w)) then .jump s t else .next s }

/-- BCCI (R155). -/
def insBcci (a : Nat) (_s : State) (w : Nat) : RknIns :=
  let t := wf w 63 48
  { srcs := [rs1 w], dst := 0,
    fixed := resv w maskB ++ ifHalt (decide (5 < rd w) || rs2 w != 0) 1 ++ ifHalt (t % 8 != 0) 7,
    found := [],
    act := fun s => if condHolds (rd w) (getS s a (rs1 w)) (sext 16 (wf w 47 32)) then .jump s t else .next s }

/-! ### Scalar arithmetic (R150, the table of scalar arithmetic) -/

/-- A register form: rd ← f(s[RS1], s[RS2]). -/
def insReg (f : W64 → W64 → W64) (a : Nat) (_s : State) (w : Nat) : RknIns :=
  { srcs := [rs1 w, rs2 w], dst := rd w, fixed := resv w maskR, found := [],
    act := fun s => .next (setS s a (rd w) (f (getS s a (rs1 w)) (getS s a (rs2 w)))) }

/-- An immediate form: rd ← f(s[RS1], sext(IMM)). -/
def insImm (f : W64 → W64 → W64) (a : Nat) (_s : State) (w : Nat) : RknIns :=
  { srcs := [rs1 w], dst := rd w, fixed := resv w maskI, found := [],
    act := fun s => .next (setS s a (rd w) (f (getS s a (rs1 w)) (immI w))) }

/-- An immediate shift: IMM[31:6] must be 0. -/
def insShift (f : W64 → Nat → W64) (a : Nat) (_s : State) (w : Nat) : RknIns :=
  { srcs := [rs1 w], dst := rd w, fixed := resv w maskI ++ ifHalt (wf w 63 38 != 0) 1, found := [],
    act := fun s => .next (setS s a (rd w) (f (getS s a (rs1 w)) (wf w 37 32))) }

/-- Shift amount b[5:0]. -/
def shamt (b : W64) : Nat := b.toNat % 64

/-- The results of the register forms. -/
def aluAdd (x y : W64) : W64 := x + y
def aluSub (x y : W64) : W64 := x - y
def aluMul (x y : W64) : W64 := x * y
def aluMulhu (x y : W64) : W64 := BitVec.ofNat 64 (x.toNat * y.toNat / 2 ^ 64)
def aluAnd (x y : W64) : W64 := x &&& y
def aluOr (x y : W64) : W64 := x ||| y
def aluXor (x y : W64) : W64 := x ^^^ y
def aluShl (x y : W64) : W64 := x <<< shamt y
def aluShr (x y : W64) : W64 := x >>> shamt y
def aluSra (x y : W64) : W64 := x.sshiftRight (shamt y)
def aluSlt (x y : W64) : W64 := if x.slt y then 1 else 0
def aluSltu (x y : W64) : W64 := if x.ult y then 1 else 0
def aluMin (x y : W64) : W64 := if y.slt x then y else x
def aluMax (x y : W64) : W64 := if x.slt y then y else x
def aluMinu (x y : W64) : W64 := if y.ult x then y else x
def aluMaxu (x y : W64) : W64 := if x.ult y then y else x

/-- LI. -/
def insLi (a : Nat) (_s : State) (w : Nat) : RknIns :=
  { srcs := [], dst := rd w, fixed := resv w maskI ++ ifHalt (rs1 w != 0) 1, found := [],
    act := fun s => .next (setS s a (rd w) (immI w)) }

/-- LIH: IMM in the upper half of RD, whose lower half stays. -/
def insLih (a : Nat) (_s : State) (w : Nat) : RknIns :=
  { srcs := [rd w], dst := rd w, fixed := resv w maskI ++ ifHalt (rs1 w != 0) 1, found := [],
    act := fun s => .next (setS s a (rd w)
      (BitVec.ofNat 64 (wf w 63 32 * 2 ^ 32 + (getS s a (rd w)).toNat % 2 ^ 32))) }

/-! ### DMEM (R157) -/

/-- The address of a load or store. -/
def dmemAddr (s : State) (a w : Nat) : Nat := (getS s a (rs1 w) + immI w).toNat

/-- The halts of a DMEM access of `n` bytes. -/
def dmemHalts (addr n : Nat) : List Nat := ifHalt (addr % n != 0) 7 ++ ifHalt (decide (262144 < addr + n)) 5

/-- A load of `n` bytes. -/
def insLoad (n : Nat) (sgn : Bool) (a : Nat) (_s : State) (w : Nat) : RknIns :=
  { srcs := [rs1 w], dst := rd w, fixed := resv w maskI,
    found := [check [rs1 w] fun s => dmemHalts (dmemAddr s a w) n],
    act := fun s =>
      let x := leNat (dmemRead (rkn s a).dmem (dmemAddr s a w) n)
      .next (setS s a (rd w) (if sgn then sext (8 * n) x else BitVec.ofNat 64 x)) }

/-- A store of `n` bytes; the data register stands in bits [22:18]. -/
def insStore (n : Nat) (a : Nat) (_s : State) (w : Nat) : RknIns :=
  { srcs := [rs1 w, rs2 w], dst := 0, fixed := resv w (maskI + maskBits 22 18) ++ ifHalt (rd w != 0) 1,
    found := [check [rs1 w] fun s => dmemHalts (dmemAddr s a w) n],
    act := fun s =>
      let o := dmemAddr s a w
      let b := leBytes n (getS s a (rs2 w)).toNat
      .next (updR s a fun r => { r with dmem := memPut r.dmem o b }) }

/-! ### Loops and increments (R134, R158–R160) -/

/-- The halts of a loop instruction at `pc` with body end `e`, whatever its count (R134, R158). -/
def loopHalts (r : Rkn) (pc e : Nat) : List Nat :=
  let inner := r.loops.look (r.depth - 1)
  ifHalt (e % 8 != 0) 7 ++
    ifHalt (decide (e < pc + 8) || (decide (0 < r.depth) && decide (inner.stop < e))) 6

/-- A push at 8 active levels halts; a count of 0 pushes nothing (R134). -/
def pushHalts (s : State) (a : Nat) (n : W32) : List Nat := ifHalt (n != 0 && decide (8 ≤ (rkn s a).depth)) 6

/-- The push of a level, or with count 0 a branch behind the body (R134, R158). -/
def loopPush (a e : Nat) (n : W32) (s : State) : RknAct :=
  let pc := (rkn s a).pc.toNat
  if n = 0 then .jump s ((e + 8) % 2 ^ 16)
  else .next (updR s a fun r => { r with
    loops := r.loops.put r.depth { count := n, idx := 0, start := pc + 8, stop := e }, depth := r.depth + 1 })

/-- LOOPI. -/
def insLoopi (a : Nat) (s : State) (w : Nat) : RknIns :=
  { srcs := [], dst := 0,
    fixed := resv w (maskBits 7 0 + maskBits 63 32) ++ loopHalts (rkn s a) (rkn s a).pc.toNat (wf w 63 48),
    found := [check [] fun s => pushHalts s a (BitVec.ofNat 32 (wf w 47 32))], act := loopPush a (wf w 63 48) (BitVec.ofNat 32 (wf w 47 32)) }

/-- LOOP. -/
def insLoop (a : Nat) (s : State) (w : Nat) : RknIns :=
  { srcs := [rs1 w], dst := 0,
    fixed := resv w (maskBits 7 0 + maskBits 17 13 + maskBits 63 48) ++
      loopHalts (rkn s a) (rkn s a).pc.toNat (wf w 63 48),
    found := [check [rs1 w] fun s => pushHalts s a (BitVec.ofNat 32 (getS s a (rs1 w)).toNat)],
    act := fun s => loopPush a (wf w 63 48) (BitVec.ofNat 32 (getS s a (rs1 w)).toNat) s }

/-- SETINC (R159). -/
def insSetinc (a : Nat) (_s : State) (w : Nat) : RknIns :=
  { srcs := [], dst := 0, fixed := resv w (maskBits 13 0 + maskBits 63 24), found := [],
    act := fun s => .next (updR s a fun r => { r with
      incs := r.incs.put (wf w 10 8) { stride := BitVec.ofNat 40 (wf w 63 24), level := wf w 13 11 } }) }

/-- SETINCR (R159). -/
def insSetincr (a : Nat) (_s : State) (w : Nat) : RknIns :=
  { srcs := [wf w 18 14], dst := 0, fixed := resv w (maskBits 18 0), found := [],
    act := fun s =>
      let v := BitVec.ofNat 40 (getS s a (wf w 18 14)).toNat
      .next (updR s a fun r => { r with incs := r.incs.put (wf w 10 8) { stride := v, level := wf w 13 11 } }) }

/-- RDIDX (R160). -/
def insRdidx (a : Nat) (_s : State) (w : Nat) : RknIns :=
  { srcs := [], dst := rd w, fixed := resv w (maskBits 15 0), found := [],
    act := fun s => .next (setS s a (rd w) (BitVec.ofNat 64 (loopIdx (rkn s a) (wf w 15 13)))) }

/-! ### Operand slots and descriptors (R161–R163) -/

/-- OPND (R161). -/
def insOpnd (a : Nat) (_s : State) (w : Nat) : RknIns :=
  let sel := wf w 10 10 = 1
  { srcs := if sel then [wf w 15 11] else [], dst := 0,
    fixed := resv w (maskBits 35 0) ++ ifHalt (if sel then wf w 27 16 != 0 else wf w 15 11 != 0) 1,
    found := [],
    act := fun s =>
      let h : W64 := if sel then getS s a (wf w 15 11) else BitVec.ofNat 64 (wf w 27 16)
      .next (updR s a fun r => { r with slots := r.slots.put (wf w 9 8) (some { handle := h, mask := wf w 35 28 }) }) }

/-- The handle of TDLD, TDST and TDSET (R162). -/
def tdHandle (s : State) (a w : Nat) : Nat :=
  if wf w 23 23 = 1 then (getS s a (rs2 w)).toNat else wf w 43 32

/-- Registers that the handle of the shared layout needs. -/
def tdHandleSrcs (w : Nat) : List Nat := if wf w 23 23 = 1 then [rs2 w] else []

/-- Fixed checks of the shared layout (R162): `set` is TDSET. H beside HSEL = 1 is ignored: the layout neither requires 0 of it
nor says more. (DESIGN CHOICE, log entry 94). -/
def tdFixed (w : Nat) (set : Bool) : List Nat :=
  resv w (maskBits 27 0 + maskBits 43 32 + maskBits 63 48) ++
    ifHalt (wf w 23 23 == 0 && rs2 w != 0) 1 ++
    ifHalt (if set then rs1 w != 0 || wf w 63 48 != 0 || decide (11 < wf w 27 24) else rd w != 0 || wf w 27 24 != 0) 1

/-- Registers that the shared layout reads. -/
def tdSrcs (w : Nat) (set : Bool) : List Nat :=
  (if set then [rd w] else [rs1 w]) ++ tdHandleSrcs w

/-- The DMEM address of TDLD and TDST. -/
def tdAddr (s : State) (a w : Nat) : Nat := (getS s a (rs1 w) + BitVec.ofNat 64 (wf w 63 48)).toNat

/-- An entry written, or left invalid with the halt of R128 (R163). -/
def tdWrite (s : State) (a h : Nat) (d : BitVec 512) : RknAct :=
  match tdCheck d (rknLaunch s a).blocks with
  | some r => .halt (updA s a fun x => { x with td := x.td.upd h fun e => { e with valid := false } }) r
  | none =>
    let e : TdEntry := { valid := true, part := rknPart s a, bits := d }
    .next (updA s a fun x => { x with td := x.td.put h e })

/-- TDLD (R163). -/
def insTdld (a : Nat) (_s : State) (w : Nat) : RknIns :=
  { srcs := tdSrcs w false, dst := 0, fixed := tdFixed w false,
    found := [
      check (tdHandleSrcs w) fun s =>
          let h := tdHandle s a w
          let e := (agt s a).td.look h
          ifHalt (decide (4096 ≤ h) || (e.valid && e.part != rknPart s a)) 2,
      check [rs1 w] fun s => dmemHalts (tdAddr s a w) 64],
    act := fun s => tdWrite s a (tdHandle s a w) (BitVec.ofNat 512 (leNat (dmemRead (rkn s a).dmem (tdAddr s a w) 64))) }

/-- TDST (R163). -/
def insTdst (a : Nat) (_s : State) (w : Nat) : RknIns :=
  { srcs := tdSrcs w false, dst := 0, fixed := tdFixed w false,
    found := [
      check (tdHandleSrcs w) fun s => ifHalt (usableTd s a (tdHandle s a w)).isNone 2,
      check [rs1 w] fun s => dmemHalts (tdAddr s a w) 64],
    act := fun s =>
      let d := (usableTd s a (tdHandle s a w)).getD 0
      let o := tdAddr s a w
      .next (updR s a fun r => { r with dmem := memPut r.dmem o (leBytes 64 d.toNat) }) }

/-- Bits of a descriptor that FIELD replaces: the lowest, and how many (R163). -/
def tdField (f : Nat) : Nat × Nat :=
  match f with
  | 0 => (64, 64)
  | 1 => (128, 32)
  | 2 => (160, 32)
  | 3 => (192, 32)
  | 4 => (224, 32)
  | 5 => (16, 16)
  | 6 => (32, 16)
  | 7 => (256, 32)
  | 8 => (288, 32)
  | 9 => (320, 32)
  | 10 => (8, 4)
  | _ => (0, 8)

/-- TDSET (R163). -/
def insTdset (a : Nat) (_s : State) (w : Nat) : RknIns :=
  { srcs := tdSrcs w true, dst := 0, fixed := tdFixed w true,
    found := [check (tdHandleSrcs w) fun s => ifHalt (usableTd s a (tdHandle s a w)).isNone 2],
    act := fun s =>
      let h := tdHandle s a w
      let d := ((usableTd s a h).getD 0).toNat
      let (lo, n) := tdField (wf w 27 24)
      let v := (getS s a (rd w)).toNat % 2 ^ n
      tdWrite s a h (BitVec.ofNat 512 (d - bitsOf d (lo + n - 1) lo * 2 ^ lo + v * 2 ^ lo)) }

/-! ### Operands of starts and requests (R131, R135, R151, R161) -/

/-- An operand as an instruction uses it: its slot, its descriptor and its cursor. -/
structure Opnd where
  slot : Nat
  td : BitVec 512
  cur : W64
  deriving DecidableEq, Repr, Inhabited

/-- The operand of a slot; none where the slot is EMPTY or its handle is not usable (R127, R161). -/
def opndOf (s : State) (a k : Nat) : Option Opnd :=
  match (rkn s a).slots.look k with
  | none => none
  | some o =>
    (usableTd s a o.handle.toNat).map fun d => { slot := k, td := d, cur := cursor s a d o.mask }

/-- Slots of a mask. -/
def slotList (m : Nat) : List Nat := (List.range 4).filter fun k => bitOf m k

/-- The operands of the slots of a mask that are usable. -/
def opnds (s : State) (a m : Nat) : List Opnd := (slotList m).filterMap (opndOf s a)

/-- The operand of slot `k` in a list. -/
def opndAt (l : List Opnd) (k : Nat) : Opnd := (l.find? (·.slot == k)).getD default

/-- Whether the partition of the layer is privileged (R139). -/
def rknPriv (s : State) (a : Nat) : Bool := regBit s (agentBase a + 0x20) (rknPart s a)

/-- The halts that every operand can cause: privilege, handles, alignment of the cursor (R127, R135, R151, R161). -/
def opndHalts (s : State) (a m : Nat) : List Nat :=
  let l := opnds s a m
  ifHalt (!rknPriv s a && l.any fun o => tdSpace o.td == 3) 0x0A ++
    ifHalt (decide (l.length < (slotList m).length)) 2 ++
    ifHalt (l.any fun o => o.cur.toNat % elemSize (tdFmt o.td) != 0) 7

/-- Whether an operand's region is too large or leaves its space, on a physical core (R131). -/
def rangeBad (s : State) (a core : Nat) (o : Opnd) : Bool :=
  decide (2 ^ 32 ≤ tdExtent o.td) || decide (spaceEnd s a core o.td < o.cur.toNat + tdExtent o.td)

/-! ### Engine starts (R164–R166) -/

/-- The functions below 0x80: the engine, the slots, and the written ones (R165). -/
def fnForm (fn : Nat) : Option (Nat × Nat × Nat) :=
  match fn with
  | 0x01 | 0x02 => some (0, 0b0111, 0b0100)
  | 0x10 | 0x11 | 0x12 | 0x13 => some (1, 0b1011, 0b1000)
  | 0x18 => some (1, 0b1100, 0b1000)
  | 0x20 | 0x21 | 0x22 => some (1, 0b0100, 0)
  | 0x30 => some (2, 0b0100, 0b0100)
  | 0x40 => some (3, 0b1100, 0b1000)
  | _ => none

/-- Whether a function is a reduction. -/
def isReduction (fn : Nat) : Bool := decide (0x20 ≤ fn ∧ fn ≤ 0x22)

/-- The illegal forms of ESTART (R165). -/
def startIllegal (eng fn slots wmask rdn : Nat) : Bool :=
  if fn < 0x80 then
    match fnForm fn with
    | none => true
    | some (e, sl, _) => e != eng || sl != slots || wmask != 0 || (rdn != 0 && !isReduction fn)
  else (wmask - (wmask &&& slots)) != 0

/-- Two tiles of one shape. -/
def sameShape (x y : BitVec 512) : Bool := tdRows x == tdRows y && tdCols x == tdCols y

/-- The shape and format checks of R165: true where a start is accepted. -/
def shapesOk (fn : Nat) (l : List Opnd) : Bool :=
  let d := fun k => (opndAt l k).td
  let f := fun k => tdFmt (d k)
  let arith := fun x => x == 0 || x == 1 || x == 2 || x == 4
  match fn with
  | 0x01 | 0x02 => tdRows (d 0) == tdRows (d 2) && tdCols (d 0) == tdRows (d 1) && tdCols (d 1) == tdCols (d 2) &&
      f 0 == f 1 && (f 0 == 0 || f 0 == 1 || f 0 == 3) && f 2 == 2
  | 0x10 | 0x11 | 0x12 | 0x13 => sameShape (d 0) (d 1) && sameShape (d 0) (d 3) && f 0 == f 1 && f 0 == f 3 && arith (f 0)
  | 0x18 => sameShape (d 2) (d 3)
  | 0x40 => sameShape (d 2) (d 3) && f 2 == f 3
  | 0x20 | 0x21 => arith (f 2)
  | _ => true

/-- The layer cores that an ESTART or ECFG names (R164). -/
def startCores (s : State) (a w : Nat) : List Nat :=
  maskCores (if wf w 10 10 = 1 then (getS s a (wf w 15 11)).toNat % 2 ^ 16 else wf w 63 48)

/-- Whether a core set is empty, too high, or lacks the engine kind (R164). -/
def coresAbsent (s : State) (a eng : Nat) (cores : List Nat) : Bool :=
  cores.isEmpty || cores.any fun k => decide ((rknLaunch s a).blocks ≤ k) ||
    !bitOf (agt s a).eng.toNat (4 * physCore s a k + eng)

/-- Whether every named section has a free credit (R123, R164). -/
def creditsFree (s : State) (a eng : Nat) (cores : List Nat) : Bool :=
  cores.all fun k => decide ((agt s a).eqUsed.look (4 * physCore s a k + eng) < 16)

/-- Whether an acquire RLD holds later starts and requests (R170). -/
def acquireHolds (s : State) (a : Nat) : Bool := (rkn s a).reqs.any (·.acquire)

/-- One credit of each named section is taken. -/
def takeSections (s : State) (a eng : Nat) (cores : List Nat) : State :=
  updA s a fun x => { x with eqUsed := cores.foldl (fun t k => t.upd (4 * physCore s a k + eng) (· + 1)) x.eqUsed }

/-- A fresh command tag of a core. -/
def cmdTag (s : State) (a core : Nat) : Nat × State :=
  let (t, s) := pickFresh s (fun t => (rkn s a).ops.any fun o => o.core == core && o.tag == t) (2 ^ 32)
  (t.getD 0, s)

/-- One core's operation of a start: its scoreboard entries, its command and its place among the operations. -/
def startOn (a eng fn slots wm rdn : Nat) (l : List Opnd) (s : State) (k : Nat) : State :=
  let core := physCore s a k
  let (tag, s) := cmdTag s a core
  let ents := l.map fun o =>
    let c := claimOf o.td o.cur core (bitOf wm o.slot)
    ({ id := tag, req := false, eng := eng, engCore := core, space := c.space, core := c.core, lo := c.lo, hi := c.hi,
       write := c.write } : SbEntry)
  let outside := l.any fun o => bitOf wm o.slot && tdSpace o.td != 0
  let op : EngOp := { core := core, eng := eng, tag := tag, rd := rdn, outside := outside, at_ := (rkn s a).nextReq }
  let s := updR s a fun r => { r with sb := r.sb ++ ents, ops := r.ops ++ [op] }
  let descs := (List.range 4).map fun i =>
    match l.find? (·.slot == i) with
    | some o => tdSetBase o.td o.cur
    | none => 0
  dnSend s a (.engCmd core eng tag fn slots wm (rdn != 0 || isReduction fn) descs)

/-- ESTART (R164–R166). -/
def insEstart (a : Nat) (_s : State) (w : Nat) : RknIns :=
  let eng := wf w 9 8
  let fn := wf w 23 16
  let slots := wf w 27 24
  let rdn := wf w 36 32
  let wm := if fn < 0x80 then ((fnForm fn).map (·.2.2)).getD 0 else wf w 31 28
  let sel := wf w 10 10 = 1
  let operands : RknCheck := check [] fun s =>
    let l := opnds s a slots
    opndHalts s a slots ++ ifHalt (!shapesOk fn l) 3 ++ ifHalt (l.any fun o => tdSpace o.td != 0 && rangeBad s a 0 o) 4
  let onCores : RknCheck := check (if sel then [wf w 15 11] else []) fun s =>
    let cores := startCores s a w
    let l := opnds s a slots
    ifHalt (coresAbsent s a eng cores) 9 ++
      ifHalt ((isReduction fn && cores.length != 1) ||
        (decide (1 < cores.length) && l.any fun o => bitOf wm o.slot && tdSpace o.td != 0)) 3 ++
      ifHalt (l.any fun o => tdSpace o.td == 0 && (cores.map (physCore s a)).any fun c => rangeBad s a c o) 4
  { srcs := if sel then [wf w 15 11] else [], dst := rdn,
    fixed := resv w (maskBits 36 0 + maskBits 63 48) ++ ifHalt (if sel then wf w 63 48 != 0 else wf w 15 11 != 0) 1 ++
      ifHalt (startIllegal eng fn slots (wf w 31 28) rdn) 1,
    found := [operands, onCores],
    act := fun s =>
      let cores := startCores s a w
      let l := opnds s a slots
      let claims := cores.flatMap fun k => l.map fun o =>
        (claimOf o.td o.cur (physCore s a k) (bitOf wm o.slot), some (eng, physCore s a k))
      if acquireHolds s a then stallIn (.rknStallReg a) s
      else if !creditsFree s a eng cores then stallIn (.rknStallQ a) s
      else if !sbReady s a claims then stallIn (.rknStallSb a) s
      else
        let s := takeSections s a eng cores
        let s := cores.foldl (startOn a eng fn slots wm rdn l) s
        .next (setPend s a rdn true) }

/-- ECFG (R164): a configuration write goes to each named core's section. -/
def insEcfg (a : Nat) (_s : State) (w : Nat) : RknIns :=
  let eng := wf w 9 8
  let sel := wf w 10 10 = 1
  { srcs := [wf w 28 24] ++ (if sel then [wf w 15 11] else []), dst := 0,
    fixed := resv w (maskBits 28 0 + maskBits 63 48) ++ ifHalt (if sel then wf w 63 48 != 0 else wf w 15 11 != 0) 1,
    found := [check (if sel then [wf w 15 11] else []) fun s => ifHalt (coresAbsent s a eng (startCores s a w)) 9],
    act := fun s =>
      let cores := startCores s a w
      if acquireHolds s a then stallIn (.rknStallReg a) s
      else if !creditsFree s a eng cores then stallIn (.rknStallQ a) s
      else
        let v := getS s a (wf w 28 24)
        .next (cores.foldl (fun s k =>
          let (tag, s) := cmdTag s a (physCore s a k)
          dnSend s a (.engCfg (physCore s a k) eng tag (wf w 23 16) v)) (takeSections s a eng cores)) }

/-! ### Requests (R167–R172) -/

/-- A request takes its place, its claims and its pending mark; `go` sends it. -/
def request (a : Nat) (q : RknReq) (claims : List Claim4) (go : State → RknReq → State) (s : State) : RknAct :=
  if acquireHolds s a then stallIn (.rknStallReg a) s
  else if 32 ≤ (rkn s a).reqs.length then stallIn (.rknStallQ a) s
  else if !sbReady s a (claims.map fun c => (c, none)) then stallIn (.rknStallSb a) s
  else
    let q := { q with id := (rkn s a).nextReq }
    let ents := claims.map fun c => ({ id := q.id, req := true, eng := 0, engCore := 0, space := c.space, core := c.core,
                                       lo := c.lo, hi := c.hi, write := c.write } : SbEntry)
    let s := updR s a fun r => { r with nextReq := r.nextReq + 1, reqs := r.reqs ++ [q], sb := r.sb ++ ents }
    .next (go (setPend (count s (.rknReq a)) a q.rd true) q)

/-- A request with nothing but its kind and its register. -/
def blankReq (k : ReqKind) (rdn : Nat) : RknReq :=
  { (default : RknReq) with kind := k, rd := rdn }

/-- A channel, barrier or other 16-bit number: from the word, or from s[RS1] (R168, R169). -/
def numFrom (s : State) (a w bit : Nat) : Nat := if wf w bit bit = 1 then (getS s a (rs1 w)).toNat else wf w 47 32

/-- Fixed checks of a selectable number. -/
def numFixed (w bit : Nat) : List Nat := ifHalt (if wf w bit bit = 1 then wf w 47 32 != 0 else rs1 w != 0) 1

/-- The claim of a request's operand, in the core that its descriptor names (R167). -/
def reqClaim (s : State) (a : Nat) (o : Opnd) (write : Bool) : Claim4 :=
  claimOf o.td o.cur (physCore s a (tdCore o.td)) write

/-- The halts of a request's operands: those of every operand, a core that the layer does not hold, a region that leaves its
space (R130, R131, R167). -/
def reqHalts (s : State) (a m : Nat) : List Nat :=
  let l := opnds s a m
  opndHalts s a m ++ ifHalt (l.any fun o => tdSpace o.td == 0 && decide ((rknLaunch s a).blocks ≤ tdCore o.td)) 9 ++
    ifHalt (l.any fun o => rangeBad s a (physCore s a (tdCore o.td)) o) 4

/-- Registers that a selectable number needs. -/
def numSrcs (w bit : Nat) : List Nat := if wf w bit bit = 1 then [rs1 w] else []

/-- CSEND and CRECV (R168): `send` is CSEND. -/
def insChan (send : Bool) (a : Nat) (_s : State) (w : Nat) : RknIns :=
  let m := 2 ^ wf w 19 18
  { srcs := numSrcs w 20, dst := rd w,
    fixed := resv w (maskBits 20 0 + maskBits 47 32) ++ numFixed w 20,
    found := [
      check [] fun s => reqHalts s a m,
      check (numSrcs w 20) fun s =>
          let c := numFrom s a w 20
          ifHalt (decide (2 ^ 16 ≤ c) || !ownsChan s (rknPart s a) c) 2],
    act := fun s =>
      let c := numFrom s a w 20
      let o := opndAt (opnds s a m) (wf w 19 18)
      let busy := send && (rkn s a).reqs.any fun q => q.kind == .csend && q.target == c
      let q : RknReq := { blankReq (if send then .csend else .crecv) (rd w) with
                          target := c, held := busy, lo := o.cur.toNat, td := o.td }
      request a q [reqClaim s a o (!send)] (fun s q =>
        if q.held then s
        else if send then csendReserve s a q
        else rknUnit s a q.id 3 (chanLoc c 0xFC0000) (BitVec.ofNat 64 (tdPacked q.td)) 0xFF false []) s }

/-- Local address of an offset in a barrier window. -/
def barLoc (b off : Nat) : Nat := 0xC010000000000 + b * 64 + off

/-- BARA and BARW (R169): `wait` is BARW. -/
def insBar (wait : Bool) (a : Nat) (_s : State) (w : Nat) : RknIns :=
  { srcs := numSrcs w 20, dst := rd w,
    fixed := resv w (maskBits 17 0 + maskBits 20 20 + maskBits 47 32) ++ numFixed w 20 ++ ifHalt (!wait && rd w != 0) 1,
    found := [check (numSrcs w 20) fun s =>
      let b := numFrom s a w 20
      ifHalt (decide (2 ^ 16 ≤ b) || !ownsBar s (rknPart s a) b) 2],
    act := fun s =>
      let b := numFrom s a w 20
      let ph := (pairOf (rkn s a).pairs b).getD (bar s b).phase
      let q : RknReq := { blankReq (if wait then .barw else .bara) (rd w) with target := b, lo := ph.toNat }
      request a q [] (fun s q =>
        if wait then rknUnit s a q.id 3 (barLoc b 16) (BitVec.ofNat 64 ph.toNat) 0xFF false []
        else rknUnit s a q.id 3 (barLoc b 8) 0 0xFF false []) s }

/-- The header of a word operation of a Reckoner on a hall address (R267). -/
def rknHdr (s : State) (a op scope aop : Nat) (ord : Bool) (addr : Nat) (data cmp : W64) : FabHdr :=
  { op := op, final := false, scope := scope, ord := ord, srcPart := rknPart s a, aop := aop, dstBlock := addr / 2 ^ 52,
    hops := 15, srcBlock := blockId s, srcAgent := a, srcUnit := 16, loc := addr % 2 ^ 52, data := data, cmp := cmp,
    hallTag := 0, txn := 0, dcrc := 0, mask := 0xFF, payload := [] }

/-- A word request is sent: to the host, to its hall address, or held while it must wait (R170, R274). -/
def sendWord (a : Nat) (s : State) (q : RknReq) : State :=
  if q.kind = .rst ∧ rstWaits s a q then joinLine (updReq s a q.id fun q => { q with held := true }) a q.id
  else rstSend s a q

/-- RLD and RST (R170): `store` is RST. -/
def insWord (store : Bool) (a : Nat) (s : State) (w : Nat) : RknIns :=
  let host := wf w 26 26 = 1
  let addr := fun (s : State) => (getS s a (rs1 w) + sext 32 (wf w 63 32)).toNat
  { srcs := [rs1 w] ++ (if store then [rs2 w] else []), dst := rd w,
    fixed := resv w (maskBits 26 0 + maskBits 63 32) ++
      ifHalt (wf w 24 23 == 3 || (if store then rd w != 0 else rs2 w != 0)) 1 ++ ifHalt (host && !rknPriv s a) 0x0A,
    found := [check [rs1 w] fun s => ifHalt (addr s % 8 != 0) 7],
    act := fun s =>
      let ord := wf w 25 25 = 1
      let h := rknHdr s a (if store then 2 else 1) (wf w 24 23) 0 ord (addr s)
        (if store then getS s a (rs2 w) else 0) 0
      let q : RknReq := { blankReq (if store then .rst else .rld) (rd w) with
                          acquire := !store && ord, host := host, hdr := h, lo := addr s }
      request a q [] (sendWord a) s }

/-- ATOM (R170). -/
def insAtom (a : Nat) (s : State) (w : Nat) : RknIns :=
  let host := wf w 28 28 = 1
  let aop := wf w 32 29
  let rs3 := wf w 27 23
  { srcs := [rs1 w, rs2 w] ++ (if aop = 9 then [rs3] else []), dst := rd w,
    fixed := resv w (maskBits 32 0) ++ ifHalt (decide (9 < aop) || (aop != 9 && rs3 != 0)) 1 ++
      ifHalt (host && !rknPriv s a) 0x0A,
    found := [check [rs1 w] fun s => ifHalt ((getS s a (rs1 w)).toNat % 8 != 0) 7],
    act := fun s =>
      let addr := (getS s a (rs1 w)).toNat
      let h := rknHdr s a 3 0 aop false addr (getS s a (rs2 w)) (if aop = 9 then getS s a rs3 else 0)
      let q : RknReq := { blankReq .atom (rd w) with host := host, hdr := h, lo := addr }
      request a q [] (sendWord a) s }

/-- INVAL (R171). (DEDUCED, log entry 27). -/
def insInval (a : Nat) (_s : State) (w : Nat) : RknIns :=
  { srcs := [rs1 w, rs2 w], dst := 0, fixed := resv w maskR ++ ifHalt (rd w != 0) 1,
    found := [
      check [rs1 w] fun s => ifHalt ((getS s a (rs1 w)).toNat % 64 != 0) 7,
      check [rs2 w] fun s =>
          let n := (getS s a (rs2 w)).toNat
          ifHalt (n % 64 != 0 || n == 0) 7],
    act := fun s =>
      let x := (getS s a (rs1 w)).toNat
      let n := (getS s a (rs2 w)).toNat
      let below := min n (Config.hostTop - x)
      request a { blankReq .inval 0 with lo := x } [] (fun s _ => if below = 0 then s else emit s (.chiClean x below)) s }

/-- The checks of RTE on a ROUTE that need no register (R222, R225). Dispatch lists never lie in host memory (R25): a slot 1 there
halts with DESCRIPTOR_MISMATCH. (DESIGN CHOICE, log entry 95). -/
def routeHalts (s : State) (a r : Nat) (l : List Opnd) : List Nat :=
  let p := rknPart s a
  let x := (opndAt l 0).td
  let y := (opndAt l 1).td
  let e := rcExperts s r
  let f := tdFmt x
  let shape := match rcMode s r with
    | 0 => f != 4 || tdCols x != 1
    | 1 => f != 2 || tdCols x != e
    | _ => f == 4 || decide (4 < f) || tdCols x == 0 || decide (16384 < tdCols x)
  let gate := tdCols x * e * elemSize f
  ifHalt (!rcUsable s r p) 2 ++ ifHalt (decide (262144 < rcCounts s r + e * 8)) 5 ++
    ifHalt (shape || decide (rcListCap s r < tdRows x) || tdFmt y != 4 || tdSpace y == 3 || tdRank y != 2 || tdCols y != 2 || tdStride y 1 != 8 || tdRows y != e * rcListCap s r) 3 ++
    ifHalt (rcMode s r == 2 && !inData s p (rcGate s r) gate) 4

/-- ROUTE (R172). -/
def insRoute (a : Nat) (_s : State) (w : Nat) : RknIns :=
  let r := wf w 47 32
  { srcs := [rs1 w], dst := rd w,
    fixed := resv w (maskBits 17 0 + maskBits 23 20 + maskBits 47 32) ++ ifHalt (wf w 23 20 != 0b0011) 1,
    found := [
      check [] fun s => reqHalts s a 3 ++ routeHalts s a r (opnds s a 3),
      check [rs1 w] fun s => ifHalt (decide (rcTokens s r <
          (getS s a (rs1 w)).toNat % 2 ^ 32 + tdRows (opndAt (opnds s a 3) 0).td)) 3],
    act := fun s =>
      let l := opnds s a 3
      let first := (getS s a (rs1 w)).toNat % 2 ^ 32
      request a { blankReq .route (rd w) with target := r }
        [reqClaim s a (opndAt l 0) false, reqClaim s a (opndAt l 1) true] (fun s q =>
          emit s (.route { agent := a, req := q.id, part := rknPart s a, node := (rknLaunch s a).node, entry := r,
                           first := first, tile := tileOf s a (opndAt l 0).td (opndAt l 0).cur,
                           list := tileOf s a (opndAt l 1).td (opndAt l 1).cur, data := [] })) s }

/-- The checks of CMB on a CADD (R238). -/
def caddHalts (s : State) (a g : Nat) (l : List Opnd) (three : Bool) : List Nat :=
  let d := fun k => (opndAt l k).td
  let n := tdRows (d 0)
  ifHalt (decide (256 ≤ g) || !grpValid s g || grpPart s g != rknPart s a) 2 ++
    ifHalt (decide (3 < tdFmt (d 0)) || tdCols (d 0) != grpCols s g || tdFmt (d 1) != 4 || tdCols (d 1) != 1 ||
      tdRows (d 1) != n || (three && (tdFmt (d 2) != 2 || tdCols (d 2) != 1 || tdRows (d 2) != n))) 3

/-- CADD (R172). -/
def insCadd (a : Nat) (_s : State) (w : Nat) : RknIns :=
  let g := wf w 47 32
  let m := wf w 23 20
  { srcs := [], dst := rd w,
    fixed := resv w (maskBits 17 0 + maskBits 23 20 + maskBits 47 32) ++
      ifHalt ((m != 0b0011 && m != 0b0111) || rs1 w != 0) 1,
    found := [check [] fun s => reqHalts s a m ++ caddHalts s a g (opnds s a m) (m == 7)],
    act := fun s =>
      let l := opnds s a m
      let t := fun k => tileOf s a (opndAt l k).td (opndAt l k).cur
      request a { blankReq .cadd (rd w) with target := g } (l.map fun o => reqClaim s a o false) (fun s q =>
        emit s (.cadd { agent := a, req := q.id, part := rknPart s a, group := g, tile := t 0, tok := t 1,
                        wt := if m = 7 then some (t 2) else none, data := [], tokData := [], wtData := [] })) s }

/-! ### One instruction by its opcode, and debug (R138) -/

/-- The instruction of an opcode (R150). `feat` is HIF_FEAT. -/
def insOf (feat : State → W64) (code : Nat) : Nat → State → Nat → RknIns :=
  match code with
  | 0x01 => insNop
  | 0x02 => insEnd
  | 0x03 => insBreak
  | 0x04 => insWait
  | 0x05 => insFeat feat
  | 0x08 => insJmp
  | 0x09 => insJal
  | 0x0A => insJr
  | 0x0B => insBcc
  | 0x0C => insBcci
  | 0x10 => insReg aluAdd
  | 0x11 => insReg aluSub
  | 0x12 => insReg aluMul
  | 0x13 => insReg aluMulhu
  | 0x14 => insReg aluAnd
  | 0x15 => insReg aluOr
  | 0x16 => insReg aluXor
  | 0x17 => insReg aluShl
  | 0x18 => insReg aluShr
  | 0x19 => insReg aluSra
  | 0x1A => insReg aluSlt
  | 0x1B => insReg aluSltu
  | 0x1C => insReg aluMin
  | 0x1D => insReg aluMax
  | 0x1E => insReg aluMinu
  | 0x1F => insReg aluMaxu
  | 0x20 => insImm aluAdd
  | 0x21 => insImm aluAnd
  | 0x22 => insImm aluOr
  | 0x23 => insImm aluXor
  | 0x24 => insShift fun x n => x <<< n
  | 0x25 => insShift fun x n => x >>> n
  | 0x26 => insShift fun x n => x.sshiftRight n
  | 0x27 => insImm aluSlt
  | 0x28 => insLi
  | 0x29 => insLih
  | 0x30 => insLoad 1 false
  | 0x31 => insLoad 2 false
  | 0x32 => insLoad 4 false
  | 0x33 => insLoad 8 false
  | 0x34 => insLoad 1 true
  | 0x35 => insLoad 2 true
  | 0x36 => insLoad 4 true
  | 0x38 => insStore 1
  | 0x39 => insStore 2
  | 0x3A => insStore 4
  | 0x3B => insStore 8
  | 0x40 => insLoopi
  | 0x41 => insLoop
  | 0x42 => insSetinc
  | 0x43 => insSetincr
  | 0x44 => insRdidx
  | 0x48 => insOpnd
  | 0x49 => insTdld
  | 0x4A => insTdst
  | 0x4B => insTdset
  | 0x50 => insEstart
  | 0x51 => insEcfg
  | 0x58 => insChan true
  | 0x59 => insChan false
  | 0x5A => insBar false
  | 0x5B => insBar true
  | 0x60 => insWord false
  | 0x61 => insWord true
  | 0x62 => insAtom
  | 0x63 => insInval
  | 0x68 => insRoute
  | 0x69 => insCadd
  | _ => insNop

/-- A write of RKN_DBG outside DEBUG, or without debug access, is ignored and counted (R138, R140). -/
def dbgIgnored (s : State) (a : Nat) : Bool := (rkn s a).st != .debug || !debugFull s (rknPart s a)

/-- The break at PC is behind the Reckoner. -/
def passBreak (s : State) (a : Nat) : State :=
  if (rkn s a).atBreak then
    let pc := (rkn s a).pc.toNat
    updR (count s (.rknInstr a)) a fun r => { loopBack pc r.depth r with atBreak := false }
  else s

/-- RKN_DBG.RESUME (R138). -/
def dbgResume (s : State) (a : Nat) : State :=
  if dbgIgnored s a then count s (.agtBadLaunch a)
  else updR (passBreak s a) a fun r => { r with st := .running }

/-- RKN_DBG.STEP (R138): one instruction executes, and the Reckoner returns to DEBUG once it has. -/
def dbgStep (feat : State → W64) (s : State) (a : Nat) : State :=
  if dbgIgnored s a then count s (.agtBadLaunch a)
  else
    let s := updR (passBreak s a) a fun r => { r with st := .running, stepping := true }
    let code := rknWordAt s a % 256
    rknRow s a code (insOf feat code a)

end Sys2Proof.Machine
end

