-- ==== Sys2Proof/Machine/Bus.lean ====
section
/-!
DEFINITION. Register accesses (R8, R11–R13, R324, R355, R371, R372, R393, R394): which command an access is, how its bytes
reach the registers it touches, and what a write of each register that acts does.
-/

namespace Sys2Proof.Machine

open Sys2Proof

/-! ### Bytes and fields -/

/-- The bits that the byte strobes `strb` of 8 bytes cover. -/
def strobeBits (strb : Nat) : Nat := sumTo 8 fun i => b2n (bitOf strb i) * 0xFF * 2 ^ (8 * i)

/-- RW bits of the registers that have no rule of their own for a write (the register tables of the chapters). -/
def rwMask (s : State) (a : Nat) : Nat :=
  if a = 0x100000 then 0x1F
  else if a = 0x400000 then 0x00FFFFFF0FFFFFFF
  else if a = 0x500000 then 0xFFFF
  else if a = 0x600200 then 0xFFFF
  else if a = 0xa00300 then 0x80FFFFFF
  else if a = 0xa00308 then 0xFFFF
  else if a = 0xb00010 then 0x00FFFFFF00FFFFFF
  else if a = 0xb00018 then 0xFFFFFF
  else if a = 0xb00020 then 0xFFF
  else if inRow a 0xb00100 0x20 8 then 0x0000FFFFFF000000
  else if a = 0xc00040 then maskBits 40 0
  else if a = 0xc00048 then 0x1FFF
  else if a = 0xd00020 then 0xFFFFFFFF
  else if a = 0xd00038 then 0x1FFFF
  else if a = 0xe00030 then 0xFFFF
  else if a = 0xe00050 then 0xFFFF
  else if inRow a 0x1000028 0x10000 (agentCount s) then 0xFFFF
  else 0

/-- RW-L bits that software may still write: none from the Ready ac on (R11). -/
def openLock (s : State) (a : Nat) : Nat := if isReady s then 0 else lockMask s (a - a % 8) / 2 ^ (8 * (a % 8))

/-- A register of the store takes the strobed RW bits of a write. -/
def plainWrite (s : State) (a v m : Nat) : State :=
  let w := m &&& (rwMask s a ||| openLock s a)
  if w = 0 then s else regSet s a (BitVec.ofNat 64 (mergeBits (regGet s a).toNat v w))

/-- A write of ones to the W1C bits of a status register (R394: bytes without strobes act as 0). -/
def w1cWrite (s : State) (a x : Nat) : State :=
  if a = 0x610 then { s with hif.irqStat := s.hif.irqStat &&& ~~~(BitVec.ofNat 4 x) }
  else if a = 0x300000 then { s with tly.zeroSeen := s.tly.zeroSeen && !bitOf x 0 }
  else if a = 0xc00030 then { s with flt.irqStat := s.flt.irqStat &&& ~~~(BitVec.ofNat 5 x) }
  else if a = 0xd00018 then { s with mgt.done := s.mgt.done && !bitOf x 1 }
  else if a = 0xe00020 then { s with obs.wrErr := s.obs.wrErr && !bitOf x 25 }
  else if inRow a 0x1000008 0x10000 (agentCount s) then
    (if bitOf x 0 then regSetFld s a 0 0 0 else s)
  else s

/-- A write to HIF_KQ_SQB or HIF_KQ_CQB of a queue: only while EN is 0. -/
def kqBaseWrite (s : State) (a v m : Nat) : State :=
  let cfg := a / 0x20 * 0x20 + 0x10
  let old := (regGet s a).toNat
  let new := mergeBits old v m
  if new = old then s
  else if regBit s cfg 31 then count s .hifCtrlIgn
  else regSet s a (BitVec.ofNat 64 new)

/-- The fields of HIF_KQ_CFG. -/
def kqCfgMask : Nat := 0xBF0F1F1F

/-- The value that a write gives HIF_KQ_CFG, EN apart: the ring sizes only while EN is 0. -/
def kqCfgNew (s : State) (a v m : Nat) : Nat :=
  let old := (regGet s a).toNat
  let m := m &&& (if bitOf old 31 then 0x3F0F0000 else 0x3F0F1F1F)
  mergeBits old v m

/-- Whether a write would change a ring size while EN is 1. -/
def kqCfgBad (s : State) (a v m : Nat) : Bool :=
  let old := (regGet s a).toNat
  bitOf old 31 && (mergeBits old v (m &&& 0x1F1F) != old)

/-- A write of HIF_KQ_CFG that leaves EN as it is. -/
def kqCfgWrite (s : State) (a v m : Nat) : State :=
  let s := if kqCfgBad s a v m then count s .hifCtrlIgn else s
  regSet s a (BitVec.ofNat 64 (kqCfgNew s a v m))

/-- OBS_TR_BASE and OBS_TR_SIZE: only while EN is 0. -/
def trCfgWrite (s : State) (a v m : Nat) : State :=
  let m := if a = 0xe00010 then m &&& 0x1F else m
  let old := (regGet s a).toNat
  if m = 0 then s
  else if regBit s 0xe00000 0 then count s .obsCfgIgn
  else regSet s a (BitVec.ofNat 64 (mergeBits old v m))

/-- The Tally Roll ring's size in records: LOG2 between 8 and 24. -/
def trSize (s : State) : Nat := 2 ^ max 8 (min 24 (regFld s 0xe00010 4 0))

/-- OBS_TR_HEAD: a value below the ring size. -/
def trHeadWrite (s : State) (v m : Nat) : State :=
  let m := m &&& 0xFFFFFF
  let new := mergeBits (regGet s 0xe00018).toNat v m
  if m = 0 then s
  else if trSize s ≤ new then count s .obsCfgIgn
  else regSet s 0xe00018 (BitVec.ofNat 64 new)

/-- The mailbox buffer: writable while BUSY is 0 (R358). -/
def bufWrite (s : State) (a v strb : Nat) : State :=
  if s.mgt.busy then count s .mgtMbxIgn
  else (List.range 8).foldl (fun (s : State) i =>
    if bitOf strb i then { s with mgt.buf := s.mgt.buf.put (a - 0xd10000 + i) (BitVec.ofNat 8 (v / 2 ^ (8 * i))) } else s) s

/-- SLT_VSPARE_CTRL: management firmware alone writes it (R355); any other write is ignored and counted. -/
def vspareFields (s : State) (port : Port) (v m : Nat) : State :=
  if port = .mgt then
    regSet s 0xa02000 (BitVec.ofNat 64 (mergeBits (regGet s 0xa02000).toNat v (m &&& 0xF7F7F)))
  else if m = 0 then s
  else count s .sltCfgIgn

/-- A write to the register at `a`, 8 or 4 bytes of it: `v` and the strobed bits `m` of it. Registers whose write is a
command of its own are not met here, except with the fields that the command leaves alone. -/
def writeReg (s : State) (port : Port) (a v m : Nat) : State :=
  match counterAt s a with
  | some c => regSet s a (BitVec.ofNat 64 (mergeBits (regGet s a).toNat v m % 2 ^ c.bits))
  | none =>
    let s := w1cWrite s a (v &&& m)
    if inRow a 0x400 0x20 16 ∨ inRow a 0x408 0x20 16 then kqBaseWrite s a v m
    else if inRow a 0x410 0x20 16 then kqCfgWrite s a v m
    else if inRow a 0x502000 32 16 then btCfgWrite s (rowIdx a 0x502000 32) (mergeBits (regGet s a).toNat v m)
    else if inRow a 0x502008 32 16 then btCbWrite s (rowIdx a 0x502008 32) (mergeBits (regGet s a).toNat v m)
    else if inRow a 0x810000 8 4096 then
      rcWrite (plainWrite s a v m) ((a - 0x810000) / 0x20) ((a - 0x810000) % 0x20 / 8) (mergeBits (regGet s a).toNat v m)
    else if inRow a 0x910000 8 1024 then
      grpWrite (plainWrite s a v m) ((a - 0x910000) / 0x20) ((a - 0x910000) % 0x20 / 8) (mergeBits (regGet s a).toNat v m)
    else if a = 0xa02000 then vspareFields s port v m
    else if a = 0xe00008 ∨ a = 0xe00010 then trCfgWrite s a v m
    else if a = 0xe00018 then trHeadWrite s v m
    else if inRow a 0xe40000 8 (4 * 0x1010) then
      let i := rowIdx a 0xe40000 8
      if i % 4 = 3 then s
      else { s with obs.words := s.obs.words.put i (BitVec.ofNat 64 (mergeBits (s.obs.words.look i).toNat v m)) }
    else plainWrite s a v m

/-! ### A beat (R13, R393, R394) -/

/-- A beat after R13: the word's address, data and strobes. -/
structure Beat where
  addr : Nat
  data : Nat
  strb : Nat
  deriving DecidableEq, Repr, Inhabited

/-- The address of the 8 bytes of an access. -/
def Access.word (x : Access) : Nat := x.addr.toNat - x.addr.toNat % 8

/-- Whether the 8 bytes at `a` are the mailbox buffer's, which is bytes and no 64-bit register. -/
def inBuf (a : Nat) : Bool := decide (0xd10000 ≤ a ∧ a < 0xd11000)

/-- The low half of a 64-bit register alone is held, and the high half alone takes the held half with it (R13).
(DEDUCED, log entry 13). -/
def splitHalf (s : State) (x : Access) : Bool :=
  x.write && is64 s (Access.word x) && !inBuf (Access.word x) && x.strb.toNat % 16 != 0 && x.strb.toNat / 16 == 0

/-- The beat that takes effect. -/
def beatOf (s : State) (x : Access) : Beat :=
  let a := Access.word x
  let strb := x.strb.toNat
  match s.hif.half.look a with
  | some (lo, st) =>
    if is64 s a && strb % 16 == 0 && strb / 16 != 0 then
      { addr := a, data := lo.toNat + x.data.toNat / 2 ^ 32 * 2 ^ 32, strb := st.toNat + strb }
    else { addr := a, data := x.data.toNat, strb := strb }
  | none => { addr := a, data := x.data.toNat, strb := strb }

/-- The strobed bits of a beat. -/
def Beat.mask (b : Beat) : Nat := strobeBits b.strb

/-- The registers that a beat touches. -/
def touched (s : State) (b : Beat) : List Nat :=
  if is64 s b.addr then (if b.strb = 0 then [] else [b.addr])
  else (if b.strb % 16 ≠ 0 ∧ (regWidth s b.addr).isSome then [b.addr] else [])
    ++ (if b.strb / 16 ≠ 0 ∧ (regWidth s (b.addr + 4)).isSome then [b.addr + 4] else [])

/-- A write is counted once when its strobed bits would change an RW-L field after Ready (R11). -/
def lockCount (s : State) (b : Beat) : State :=
  let l := lockMask s b.addr
  let cur := (readWord s b.addr).toNat
  if isReady s && (mergeBits cur b.data (b.mask &&& l) != cur) then count s .hifLockedWr else s

/-- The beat reaches every register it touches. -/
def writeBeat (s : State) (port : Port) (b : Beat) : State :=
  let s := lockCount s b
  if inBuf b.addr then bufWrite s b.addr b.data b.strb
  else if is64 s b.addr then writeReg s port b.addr b.data b.mask
  else (touched s b).foldl (fun s a =>
    let sh := 8 * (a - b.addr)
    writeReg s port a (b.data / 2 ^ sh % 2 ^ 32) (b.mask / 2 ^ sh % 2 ^ 32)) s

/-! ### Which command an access is -/

/-- The command that a register access performs. -/
inductive BusOp where
  /-- A read, or the held low half of a write, or a write of a register without a command of its own. -/
  | plain
  | counter
  | unmapped
  | unpriv
  | preReady
  | sqTail (q : Nat)
  | cqHead (q : Nat)
  | qResume
  | kqOn (q : Nat)
  | kqOff (q : Nat)
  | pause
  | btOn (b : Nat)
  | btOff (b : Nat)
  | spareForce (a : Nat)
  | dbgResume (a : Nat)
  | dbgStep (a : Nat)
  | grpValid (g : Nat)
  | vspare
  | portOn (k : Nat)
  | portOff (k : Nat)
  | stopReq
  | stopResume
  | inject
  | logRead
  | mbxGo
  | devReset
  | pageSnap (p : Nat)
  | pageClear (p : Nat)
  | trCtrl
  deriving DecidableEq, Repr, Inhabited

/-- Where unprivileged accesses reach nothing (R372). -/
def privileged (a : Nat) : Bool := decide (a < 0x1400000) && (pageQueue a).isNone && (pagePart a).isNone

/-- The command of a write that has its own. -/
def writeOp (s : State) (b : Beat) : BusOp :=
  let a := b.addr
  let x := b.data &&& b.mask
  let flips := fun (bit : Nat) => bitOf b.mask bit && bitOf b.data bit != regBit s a bit
  match pageQueue a with
  | some q => if a % 0x1000 = 0 then .sqTail q else if a % 0x1000 = 8 then .cqHead q else .plain
  | none =>
    if a = 0x600 then .qResume
    else if inRow a 0x410 0x20 16 ∧ flips 31 then
      (if bitOf b.data 31 then .kqOn (0x1000 + rowIdx a 0x410 0x20) else .kqOff (0x1000 + rowIdx a 0x410 0x20))
    else if a = 0x500000 then .pause
    else if inRow a 0x502000 32 16 ∧ flips 0 then
      (if bitOf b.data 0 then .btOn (rowIdx a 0x502000 32) else .btOff (rowIdx a 0x502000 32))
    else if inRow a 0x1000028 0x10000 (agentCount s) ∧ bitOf x 16 then .spareForce (rowIdx a 0x1000028 0x10000)
    else if inRow a 0x1000030 0x10000 (agentCount s) ∧ bitOf x 0 then .dbgResume (rowIdx a 0x1000030 0x10000)
    else if inRow a 0x1000030 0x10000 (agentCount s) ∧ bitOf x 1 then .dbgStep (rowIdx a 0x1000030 0x10000)
    else if inRow a 0x910000 0x20 256 ∧ bitOf x 63 then .grpValid (rowIdx a 0x910000 0x20)
    else if a = 0xa02000 ∧ bitOf x 31 then .vspare
    else if inRow a 0xb00100 0x20 8 ∧ flips 0 then
      (if bitOf b.data 0 then .portOn (rowIdx a 0xb00100 0x20) else .portOff (rowIdx a 0xb00100 0x20))
    else if a = 0xc00200 ∧ bitOf x 0 then .stopReq
    else if a = 0xc00200 ∧ bitOf x 1 then .stopResume
    else if a = 0xc00100 then .inject
    else if a = 0xd00010 ∧ bitOf x 0 then .mbxGo
    else if a = 0xd00050 ∧ bitOf x 0 then .devReset
    else match pagePart a with
    | some p =>
      if a % 0x1000 = 0xF0 ∧ bitOf x 1 then .pageClear p else if a % 0x1000 = 0xF0 ∧ bitOf x 0 then .pageSnap p else .plain
    | none =>
      if a = 0xe00000 then .trCtrl
      else if (touched s b).any (fun r => (counterAt s r).isSome)
          || (inRow a 0xe40000 8 (4 * 0x1010) && rowIdx a 0xe40000 8 % 4 != 3) then .counter
      else .plain

/-- The command of an access. The debug interface has its own command, and reaches none of these. -/
def busOp (s : State) (x : Access) : BusOp :=
  let a := Access.word x
  let b := beatOf s x
  let pre : Bool := match x.port with
    | .axi _ => !isReady s && !(x.write && (pageQueue a).isSome && (a % 0x1000 == 0 || a % 0x1000 == 8)
        && (b.strb % 16 != 0 || (b.strb == 0 && decide (x.addr.toNat % 8 < 4))))
    | _ => false
  let unpriv : Bool := match x.port with
    | .axi p => isReady s && !p && privileged a
    | _ => false
  if pre then .preReady
  else if unpriv then .unpriv
  else if (touched s { b with strb := if b.strb = 0 then (if x.addr.toNat % 8 < 4 then 1 else 0x10) else b.strb }).isEmpty then
    .unmapped
  else if splitHalf s x then .plain
  else if x.write then writeOp s b
  else if a = 0xc00028 then .logRead
  else .plain

/-- An access is answered: OKAY, and the data of a read (R12, R394). -/
def answerBus (s : State) (x : Access) (data : W64) : State :=
  match x.port with
  | .dbg => s
  | _ => emit s (.axi false (if x.write then 0 else data))

/-! ### Reads and plain writes -/

/-- The words of a channel's state are sampled by the read of CHN_CH_STATE_0. -/
def sampleChan (s : State) : State :=
  (List.range 7).foldl (fun s k =>
    regSet s (0x600248 + 8 * k) (BitVec.ofNat 64 (chanWord s (regFld s 0x600200 15 0) (k + 1)))) s

/-- A read of the 8 bytes at `a`. -/
def busRead (s : State) (a : Nat) : W64 × State :=
  (readWord s a, if a = 0x600240 then sampleChan s else s)

/-- The four registers that AXI5 reads before Ready (R324). -/
def earlyRead (s : State) (a : Nat) : W64 :=
  let half := fun (r : Nat) => if r = 0 ∨ r = 0xf00008 ∨ r = 0xf00010 then readReg s r else 0xB007B007
  if a = 0xf00000 then BitVec.ofNat 64 (readReg s a)
  else BitVec.ofNat 64 (half a + 0xB007B007 * 2 ^ 32)

/-! ### Writes that act -/

/-- HIF_KQ_CFG.EN = 1 on a disabled queue (R30, R48). An enable that is ignored drops the fields beside EN with it.
(DESIGN CHOICE, log entry 81). -/
def kqEnable (s : State) (q : Nat) (b : Beat) : State :=
  let a := b.addr
  let s1 := regSet s a (BitVec.ofNat 64 (kqCfgNew s a b.data b.mask + 2 ^ 31))
  let sq := regFld s1 a 4 0
  let cq := regFld s1 a 12 8
  let ok := decide (4 ≤ sq ∧ sq ≤ 16 ∧ 4 ≤ cq ∧ cq ≤ 16) && regFld s (kqAddr q) 5 0 == 0 && regFld s (kqAddr q + 8) 4 0 == 0
  if !ok then count s .hifCtrlIgn
  else
    let s := { s1 with hif.spill := s1.hif.spill.filter (·.q != q), hif.flight := s1.hif.flight.filter (·.q != q),
                       hif.waiting := s1.hif.waiting.filter (·.q != q) }
    updQ s q fun u => { (default : Queue) with st := .idle, phase := true, seq := u.seq }

/-- HIF_KQ_CFG.EN = 0 (R49). -/
def kqDisable (s : State) (q : Nat) (b : Beat) : State :=
  let a := b.addr
  let s := if kqCfgBad s a b.data b.mask then count s .hifCtrlIgn else s
  let new := kqCfgNew s a b.data b.mask
  let s := discardQueue s q 0x30
  regSet s a (BitVec.ofNat 64 (new - new / 2 ^ 31 % 2 * 2 ^ 31))

/-- Host software may do what a full debug level over every partition opens (R379). -/
def fullDebug (s : State) : Bool := s.obs.dbgLevel == 2 && s.obs.dbgMask == 0xFFFF

/-- Whether an access is management firmware's, or host software's under a full debug level (R346). -/
def mayStop (s : State) (p : Port) : Bool := p == .mgt || fullDebug s

/-- FLT_STOP_CTRL.REQ (R308, R346). (DEDUCED, log entry 14). -/
def stopWrite (s : State) (p : Port) : State :=
  if !isReady s then stopRequest s 2
  else if mayStop s p then stopRequest s (if p = .mgt then 2 else 1)
  else count s .fltStopIgn

/-- FLT_STOP_CTRL.RESUME (R346, R353). -/
def resumeWrite (s : State) (p : Port) : State :=
  if mayStop s p then stopResume s else count s .fltStopIgn

/-- TARGET's range for an injection point, none where the point has no TARGET (R331, R332). -/
def injTargets (s : State) (id : Nat) : Option Nat :=
  if id = 0x0101 ∨ id = 0x0102 ∨ id = 0x1101 then some 0x1010
  else if id = 0x0103 ∨ id = 0x0901 ∨ id = 0x0902 ∨ id = 0x0A01 then some (agentCount s)
  else if id = 0x03F1 then some 8
  else if id = 0x0B01 ∨ id = 0x0B02 ∨ id = 0x0B03 ∨ id = 0x0BF1 ∨ id = 0x0CF1 then some 65536
  else if id = 0x0D01 ∨ id = 0x0DF1 then some 1024
  else if id = 0x0E01 then some 256
  else if id = 0x0F02 ∨ id = 0x0F03 then some 120
  else if id = 0x0F04 then some 16
  else if id = 0x1002 ∨ id = 0x1003 ∨ id = 0x1004 ∨ id = 0x10F1 then some 8
  else if id = 0x1201 then some 16
  else none

/-- The injection points (R331). -/
def injIds : List Nat := List.flatten [
  [0x0101, 0x0102, 0x0103, 0x01F1, 0x02F1, 0x03F1, 0x04F1, 0x05F1, 0x0601, 0x06F1, 0x07F1, 0x08F1, 0x0901, 0x0902],
  [0x0A01, 0x0B01, 0x0B02, 0x0B03, 0x0BF1, 0x0CF1, 0x0D01, 0x0DF1, 0x0E01, 0x0EF1, 0x0F01, 0x0F02, 0x0F03, 0x0F04],
  [0x1001, 0x1002, 0x1003, 0x1004, 0x10F1, 0x1101, 0x1201, 0x1202, 0x12F1, 0x13F1, 0x1401]]

/-- Faults whose class is UP alone (R331): full access to their partition lets host software arm them (R332). -/
def injUp (id : Nat) : Bool :=
  [0x0103, 0x0601, 0x0A01, 0x0B02, 0x0B03, 0x0D01, 0x0E01, 0x0F01, 0x1001, 0x1002].contains id

/-- Whether a port may arm an injection point (R332). -/
def mayInject (s : State) (p : Port) (id part : Nat) : Bool :=
  p == .mgt || (s.obs.dbgLevel == 2 && (if injUp id then s.obs.dbgMask.getLsbD part else s.obs.dbgMask == 0xFFFF))

/-- Points whose next qualifying event is at hand fire at once: an SRAM that always reads, and sampled inputs (R331). -/
def injNow (s : State) (id : Nat) : State :=
  if id = 0x12F1 then
    let (b, s) := freeNat (injFire s)
    raiseInj s id .ud 0 b true
  else if id = 0x1202 then raiseInj (injFire s) id .ud 0 0 true
  else if id = 0x1401 ∧ !s.crb.onStby ∧ s.crb.rootLock ∧ s.crb.stbyLock then pllInject (injFire s)
  else s

/-- A write of FLT_INJ_CTRL (R332). -/
def injWrite (s : State) (p : Port) (b : Beat) : State :=
  let new := mergeBits (regGet s 0xc00100).toNat b.data (b.mask &&& 0x80FFFFFFFF0FFFFF)
  let id := bitsOf new 15 0
  let ok := injIds.contains id && mayInject s p id (bitsOf new 19 16)
    && (injTargets s id).all fun n => decide (bitsOf new 47 24 < n)
  if bitOf new 63 then
    (if ok then injNow (regSet s 0xc00100 (BitVec.ofNat 64 new)) id else count s .fltInjIgn)
  else regSet s 0xc00100 (BitVec.ofNat 64 new)

/-- A read of FLT_LOG removes the record that it returns (R329). -/
def logPop (s : State) : W64 × State :=
  (BitVec.ofNat 64 (readReg s 0xc00028), { s with flt.log := s.flt.log.tail })

/-- MGT_MBX_CTRL.GO (R358). -/
def mbxGo (s : State) : State :=
  if s.mgt.busy then count s .mgtMbxIgn else { s with mgt.busy := true }

/-- OBS_TR_CTRL (R380, R381): host software sets only PARTS that its debug level opens. EN going to 1 starts an empty ring. -/
def trCtrlWrite (s : State) (p : Port) (b : Beat) : State :=
  let old := (regGet s 0xe00000).toNat
  let new := mergeBits old b.data (b.mask &&& 0xFFFF3FF1)
  let parts := bitsOf new 31 16
  let open' := p == .mgt || (1 ≤ s.obs.dbgLevel ∧ (parts &&& s.obs.dbgMask.toNat) = parts) || parts == 0
  if !open' then count s .obsCfgIgn
  else
    let s := regSet s 0xe00000 (BitVec.ofNat 64 new)
    if bitOf new 0 && !bitOf old 0 then { s with obs.tail := regFld s 0xe00018 23 0, obs.phase := true } else s

/-- SNAP: the live values of partition `p`'s page (R375). -/
def pageSnap (s : State) (p : Nat) : State :=
  { s with obs.snap := (List.range 32).foldl (fun t i => t.put (32 * p + i) (s.obs.live.look (32 * p + i))) s.obs.snap,
           obs.snapTs := s.obs.snapTs.put p s.ts }

/-- CLEAR: the live values become zero and a snapshot holds the zeros (R375). -/
def pageClear (s : State) (p : Nat) : State :=
  pageSnap { s with obs.live := (List.range 32).foldl (fun t i => t.put (32 * p + i) 0) s.obs.live } p

/-- FAB_PORT_CFG.EN and the fields beside it. -/
def portWrite (s : State) (port : Port) (k : Nat) (b : Beat) : State :=
  let s := writeBeat s port b
  regSetFld s (0xb00100 + 0x20 * k) 0 0 (b2n (bitOf b.data 0))

/-- A START in SLT_VSPARE_CTRL with its fields: the whole write is ignored and counted where it is not taken (R260, R355). -/
def vspareWrite (s : State) (port : Port) (b : Beat) : State :=
  let s1 := vspareFields s port b.data b.mask
  if port ≠ .mgt then s1
  else
    let (t, ok) := vspareStart s1 (regFld s1 0xa02000 6 0) (regFld s1 0xa02000 14 8)
    if ok then t else count s .sltCfgIgn

/-! ### Each command of an access, with its answer -/

/-- A write takes effect: a held half of its register is used up (R13). -/
def writing (s : State) (x : Access) (f : State → State) : State :=
  answerBus (f { s with hif.half := s.hif.half.put (Access.word x) none }) x 0

/-- REGISTER_WRITE. -/
def onPlain (s : State) (x : Access) : State :=
  let b := beatOf s x
  if !x.write then
    let (d, s) := busRead s b.addr
    answerBus s x d
  else if splitHalf s x then
    let a := Access.word x
    answerBus { s with hif.half := s.hif.half.put a (some (x.data.setWidth 32, x.strb.setWidth 4)) } x 0
  else writing s x fun s => writeBeat s x.port b

/-- COUNTER_WRITE. -/
def onCounter (s : State) (x : Access) : State := writing s x fun t => writeBeat t x.port (beatOf s x)

/-- UNMAPPED_ACCESS (R12). -/
def onUnmapped (s : State) (x : Access) : State := answerBus (count s .hifUnmapped) x 0

/-- UNPRIV_ACCESS (R372). -/
def onUnpriv (s : State) (x : Access) : State := answerBus (count s .obsUnpriv) x 0

/-- PRE_READY_ACCESS (R324). -/
def onPreReady (s : State) (x : Access) : State :=
  if x.write then answerBus (count s .crbBootIgn) x 0 else answerBus s x (earlyRead s (Access.word x))

/-- DB_SQ_TAIL and DB_CQ_HEAD: the low half of the word carries the index. -/
def onSqTail (s : State) (x : Access) (q : Nat) : State :=
  writing s x fun s => dbSqTail s q (x.data.toNat % 2 ^ 32) (x.strb.toNat % 16)
def onCqHead (s : State) (x : Access) (q : Nat) : State :=
  writing s x fun s => dbCqHead s q (x.data.toNat % 2 ^ 32) (x.strb.toNat % 16)

/-- HIF_Q_RESUME. -/
def onQResume (s : State) (x : Access) : State :=
  writing s x fun s => qResume s ((x.data.toNat &&& strobeBits x.strb.toNat) % 2 ^ 13)

/-- KQ_ENABLE and KQ_DISABLE. -/
def onKqOn (s : State) (x : Access) (q : Nat) : State := writing s x fun s => kqEnable s q (beatOf s x)
def onKqOff (s : State) (x : Access) (q : Nat) : State := writing s x fun s => kqDisable s q (beatOf s x)

/-- PDM_PART_CTRL_WRITE (R109). -/
def onPause (s : State) (x : Access) : State := writing s x fun t => writeBeat t x.port (beatOf s x)

/-- BT_ENABLE and BT_DISABLE (R121): the write of PDM_BT_CFG_b. -/
def onBtOn (s : State) (x : Access) (b : Nat) : State :=
  let w := beatOf s x
  writing s x fun s => btCfgWrite s b (mergeBits (regGet s (btAddr b)).toNat w.data w.mask)
def onBtOff (s : State) (x : Access) (b : Nat) : State :=
  let w := beatOf s x
  writing s x fun s => btCfgWrite s b (mergeBits (regGet s (btAddr b)).toNat w.data w.mask)

/-- AGT_SPARE_FORCE: CE_LIMIT takes its bytes too. -/
def onSpareForce (s : State) (x : Access) (a : Nat) : State :=
  writing s x fun t => spareForce (writeBeat t x.port (beatOf s x)) a

/-- RKN_DBG_RESUME and RKN_DBG_STEP. -/
def onDbgResume (s : State) (x : Access) (a : Nat) : State := writing s x fun s => dbgResume s a
def onDbgStep (s : State) (x : Access) (a : Nat) : State := writing s x fun s => dbgStep hifFeat s a

/-- CMB_GROUP_VALID. -/
def onGrpValid (s : State) (x : Access) (_ : Nat) : State := writing s x fun t => writeBeat t x.port (beatOf s x)

/-- VSPARE_START. -/
def onVspare (s : State) (x : Access) : State := writing s x fun t => vspareWrite t x.port (beatOf s x)

/-- FAB_PORT_ENABLE and FAB_PORT_DISABLE. -/
def onPortOn (s : State) (x : Access) (k : Nat) : State :=
  writing s x fun t => portEnable (portWrite t x.port k (beatOf s x)) k
def onPortOff (s : State) (x : Access) (k : Nat) : State :=
  writing s x fun t => portDisable (portWrite t x.port k (beatOf s x)) k

/-- GLOBAL_STOP_REQ: a RESUME bit beside REQ is taken after it. -/
def onStopReq (s : State) (x : Access) : State :=
  writing s x fun s =>
    let s := stopWrite s x.port
    if bitOf x.data.toNat 1 then resumeWrite s x.port else s

/-- GLOBAL_STOP_RESUME. -/
def onStopResume (s : State) (x : Access) : State := writing s x fun s => resumeWrite s x.port

/-- FAULT_INJECT_ARM. -/
def onInject (s : State) (x : Access) : State := writing s x fun t => injWrite t x.port (beatOf s x)

/-- FLT_LOG_READ. -/
def onLogRead (s : State) (x : Access) : State :=
  let (d, s) := logPop s
  answerBus s x d

/-- MBX_GO. -/
def onMbxGo (s : State) (x : Access) : State := writing s x mbxGo

/-- DEV_RESET: only management firmware writes MGT_CTRL (R355). -/
def onDevReset (s : State) (x : Access) : State :=
  writing s x fun s => if x.port = .mgt then requestReset s else s

/-- PAGE_SNAP and PAGE_CLEAR. -/
def onPageSnap (s : State) (x : Access) (p : Nat) : State := writing s x fun s => pageSnap s p
def onPageClear (s : State) (x : Access) (p : Nat) : State := writing s x fun s => pageClear s p

/-- TR_CTRL_WRITE. -/
def onTrCtrl (s : State) (x : Access) : State := writing s x fun t => trCtrlWrite t x.port (beatOf s x)

/-- Whatever command an access performs: the debug interface reaches registers through it (R401). -/
def onAny (s : State) (x : Access) : State :=
  match busOp s x with
  | .plain => onPlain s x
  | .counter => onCounter s x
  | .unmapped => onUnmapped s x
  | .unpriv => onUnpriv s x
  | .preReady => onPreReady s x
  | .sqTail q => onSqTail s x q
  | .cqHead q => onCqHead s x q
  | .qResume => onQResume s x
  | .kqOn q => onKqOn s x q
  | .kqOff q => onKqOff s x q
  | .pause => onPause s x
  | .btOn b => onBtOn s x b
  | .btOff b => onBtOff s x b
  | .spareForce a => onSpareForce s x a
  | .dbgResume a => onDbgResume s x a
  | .dbgStep a => onDbgStep s x a
  | .grpValid g => onGrpValid s x g
  | .vspare => onVspare s x
  | .portOn k => onPortOn s x k
  | .portOff k => onPortOff s x k
  | .stopReq => onStopReq s x
  | .stopResume => onStopResume s x
  | .inject => onInject s x
  | .logRead => onLogRead s x
  | .mbxGo => onMbxGo s x
  | .devReset => onDevReset s x
  | .pageSnap p => onPageSnap s x p
  | .pageClear p => onPageClear s x p
  | .trCtrl => onTrCtrl s x

/-- A write with AWATOP not zero performs no access (R394); only the AXI5 target receives one. -/
def atomicWrite (s : State) (x : Access) : State :=
  match x.port with
  | .axi _ => emit (count s .hifUnmapped) (.axi true 0)
  | _ => s

/-- An access of the AXI5 target or of management firmware that performs the command `pick` names; another access
does nothing here. -/
def onPort (s : State) (x : Access) (pick : BusOp → Option State) : State :=
  if x.port = .dbg then s else (pick (busOp s x)).getD s

end Sys2Proof.Machine
end

