-- ==== Sys2Proof/Machine/Obs.lean ====
section
/-!
DEFINITION. Observability: the millisecond integrals, the Tally Roll's ring, and what passes with time when no command
waits (R374, R377, R381, R385).
-/

namespace Sys2Proof.Machine

open Sys2Proof

/-! ### The millisecond (R374, R376, R377) -/

/-- Energy of a partition's events of the millisecond, with the fraction kept (R376). -/
def partEnergy (s : State) (p : Nat) (e : EnergyEv) : State :=
  let x := s.obs.partFrac.look p + evPower e
  pageCount { s with obs.partFrac := s.obs.partFrac.put p (x % 20000000) } p 17 (x / 20000000)

/-- OBS_TEMP_PEAK takes the highest readings, in whole °C. -/
def peak (s : State) : State :=
  let s := regSetFld s 0xe00050 7 0 (max (regFld s 0xe00050 7 0) (min 255 (hotTier s / 8)))
  regSetFld s 0xe00050 15 8 (max (regFld s 0xe00050 15 8) (min 255 (hotHub s / 8)))

/-- The end of a millisecond: EST is integrated, hot milliseconds count, and `evs` lists the energy events of each
partition (R376, R377). -/
def msTick (s : State) (evs : List EnergyEv) : State :=
  if !isReady s then s
  else
    let x := s.obs.energyFrac + s.mgt.est
    let s := countN { s with obs.energyFrac := x % 20000000 } .obsEnergyUj (x / 20000000)
    let s := if 680 < hotTier s then count s .obsHot85Ms else s
    let s := if thermalOver s then count s .obsHot95Ms else s
    let s := peak s
    (List.range (min 16 evs.length)).foldl (fun s p => partEnergy s p (evs.getD p default)) s

/-! ### The Tally Roll's ring (R381, R384, R385) -/

/-- A Tally Roll record as its 32 bytes. -/
def trBytes (r : TrRec) (phase : Bool) : Bytes :=
  leBytes 32 (r.type % 256 + r.part % 16 * 2 ^ 8 + r.cls % 8 * 2 ^ 12 + r.gen % 2 ^ 16 * 2 ^ 16 + r.node % 2 ^ 24 * 2 ^ 32
    + r.sub % 256 * 2 ^ 56 + r.ts.toNat * 2 ^ 64 + r.arg1.toNat * 2 ^ 128 + r.arg2 % 2 ^ 32 * 2 ^ 192
    + b2n phase * 2 ^ 224)

/-- The oldest buffered record is written to the ring when it has room (R381); at a stop OBS writes nothing (R385). -/
def trWrite (s : State) : State :=
  match s.obs.buf with
  | [] => s
  | r :: rest =>
    let next := (s.obs.tail + 1) % trSize s
    if s.obs.stopped || !regBit s 0xe00000 0 || next == regFld s 0xe00018 23 0 then s
    else
      let base := (regGet s 0xe00008).toNat / 4096 * 4096
      let s := emit s (.chiWrite (base + 32 * s.obs.tail) (trBytes r s.obs.phase))
      let s := { s with obs.buf := rest, obs.tail := next, obs.phase := if next = 0 then !s.obs.phase else s.obs.phase,
                        obs.writing := true }
      count s .obsTrRec

/-- A ring write receives an error response (R385). -/
def trError (s : State) : State :=
  if !s.obs.writing then s
  else
    { regSetFld (dropTrace s) 0xe00000 0 0 0 with obs.wrErr := true, obs.writing := false }

/-! ### A tick of the clock -/

/-- Cores that hold a block or a layer core of partition `p` (R374, CORE_OCC_AC). -/
def busyCores (s : State) (p : Nat) : Nat :=
  ((List.range (agentCount s)).map fun a =>
    let x := agt s a
    ((List.range 16).filter fun k => x.blocks.any (fun b => b.core == k && b.part == p)
      || (x.rkn.launch.any (·.part == p) && x.rkn.cores.contains k)).length).foldl (· + ·) 0

/-- Reckoners that run a layer program of partition `p` (R374, RKN_BUSY_AC). -/
def busyRkns (s : State) (p : Nat) : Nat :=
  ((List.range (agentCount s)).filter fun a => (rkn s a).launch.any (·.part == p)).length

/-- One qc without a command: the timestamp advances by one, and the sums over each ac, of which a qc holds two, advance
(R374); the list that TLY read last is not of this ac. Before a PLL has locked nothing moves. (DESIGN CHOICE, log entry 2). -/
def tick (s : State) : State :=
  if !clocked s then s
  else
    let s := { s with ts := s.ts + 1, tly.last := none }
    if !isReady s then s
    else (List.range 16).foldl (fun s p => pageCount (pageCount s p 4 (2 * busyCores s p)) p 5 (2 * busyRkns s p)) s

end Sys2Proof.Machine
end

