-- ==== Sys2Proof/Machine/CmdMgt.lean ====
section
/-!
DEFINITION. The commands of management and of observability (chapters 14 and 15).
-/

namespace Sys2Proof.Machine

open Sys2Proof

/-- GET_HEALTH: GET_HEALTH is served (R357). -/
def execGetHealth (src : MgtIn) (s : State) : Host.Outcome State Fault Refusal :=
  .next (act [] (fun s => mgtServe s src 0x01 fun s m => getHealth s src m) s)

/-- GET_SENSORS: GET_SENSORS is served (R357). -/
def execGetSensors (src : MgtIn) (s : State) : Host.Outcome State Fault Refusal :=
  .next (act [] (fun s => mgtServe s src 0x02 fun s m => getSensors s src m) s)

/-- READ_LOG: READ_LOG is served (R357). -/
def execReadLog (src : MgtIn) (s : State) : Host.Outcome State Fault Refusal :=
  .next (act [] (fun s => mgtServe s src 0x03 fun s m => readLog s src m) s)

/-- UPD_BEGIN: UPD_BEGIN is served (R362, R363). -/
def execUpdBegin (src : MgtIn) (s : State) : Host.Outcome State Fault Refusal :=
  .next (act [] (fun s => mgtServe s src 0x10 fun s m => updBegin s src m) s)

/-- UPD_DATA: UPD_DATA is served; `norOk` is the outcome of the recovery loader's NOR operations (R362, R363). -/
def execUpdData (src : MgtIn) (norOk : Bool) (s : State) : Host.Outcome State Fault Refusal :=
  .next (act [] (fun s => mgtServe s src 0x11 fun s m => updData s src norOk m) s)

/-- UPD_COMMIT: UPD_COMMIT is served (R362, R363). -/
def execUpdCommit (src : MgtIn) (norOk : Bool) (s : State) : Host.Outcome State Fault Refusal :=
  .next (act [] (fun s => mgtServe s src 0x12 fun s m => updCommit s src norOk m) s)

/-- UPD_ABORT: UPD_ABORT is served (R362). -/
def execUpdAbort (src : MgtIn) (s : State) : Host.Outcome State Fault Refusal :=
  .next (act [] (fun s => mgtServe s src 0x13 fun s m => updAbort s src m) s)

/-- UPD_VERIFY_DONE: verification of the staged image ends (R362). -/
def execUpdVerifyDone (s : State) : Host.Outcome State Fault Refusal :=
  .next (act [] updVerified s)

/-- UPD_PROGRAM_DONE: programming and read-back of the NOR end (R362). -/
def execUpdProgramDone (ok : Bool) (s : State) : Host.Outcome State Fault Refusal :=
  .next (act [] (fun s => updProgrammed s ok) s)

/-- DEVICE_RESET: the DEVICE_RESET message is served (R357, R338). -/
def execDeviceReset (src : MgtIn) (s : State) : Host.Outcome State Fault Refusal :=
  .next (act [] (fun s => mgtServe s src 0x20 fun s m => resetMessage s src m) s)

/-- ENTDAA: the management port takes its dynamic address (R359). -/
def execEntdaa (addr : Nat) (s : State) : Host.Outcome State Fault Refusal :=
  .next (act [] (fun s => entdaa s addr) s)

/-- SET_ENDPOINT_ID: Set Endpoint ID is answered (R359). -/
def execSetEndpointId (inst op eid : Nat) (s : State) : Host.Outcome State Fault Refusal :=
  .next (act [] (fun s => setEid s inst op eid) s)

/-- GET_ENDPOINT_ID: Get Endpoint ID is answered (R359). -/
def execGetEndpointId (inst : Nat) (s : State) : Host.Outcome State Fault Refusal :=
  .next (act [] (fun s => getEid s inst) s)

/-- GET_MCTP_VERSION_SUPPORT: Get MCTP Version Support is answered (R359). -/
def execGetMctpVersionSupport (inst type : Nat) (s : State) : Host.Outcome State Fault Refusal :=
  .next (act [] (fun s => getVersions s inst type) s)

/-- GET_MESSAGE_TYPE_SUPPORT: Get Message Type Support is answered (R359). -/
def execGetMessageTypeSupport (inst : Nat) (s : State) : Host.Outcome State Fault Refusal :=
  .next (act [] (fun s => getTypes s inst) s)

/-- VOLTAGE_SAMPLE: voltage sensor `k` reads `raw` (R361). -/
def execVoltageSample (k raw : Nat) (s : State) : Host.Outcome State Fault Refusal :=
  .next (act [] (fun s => voltSample s k raw) s)

/-- DROOP: a droop detector fires (R361). -/
def execDroop (s : State) : Host.Outcome State Fault Refusal :=
  .next (act [] droop s)

/-- SENSOR_CROSS_CHECK: the thermal sensors are compared with their neighbours (R361). -/
def execSensorCrossCheck (s : State) : Host.Outcome State Fault Refusal :=
  .next (act [] crossCheck s)

/-- POWER_METER_TICK: the millisecond of the metering, with its events and the Hub sensors' raw readings (R366,
R367). -/
def execPowerMeterTick (ev : EnergyEv) (hub : List Nat) (s : State) : Host.Outcome State Fault Refusal :=
  .next (act [] (fun s => powerTick s ev hub) s)

/-- PMBUS_POLL: the 10 ms poll of the PMBus devices (R368). -/
def execPmbusPoll (vin iin : Nat) (fails : List Nat) (s : State) : Host.Outcome State Fault Refusal :=
  .next (act [] (fun s => pmbPoll s vin iin fails) s)

/-- LOG_APPEND: the oldest waiting log record is programmed and read back (R364, R365). -/
def execLogAppend (ok eraseOk : Bool) (s : State) : Host.Outcome State Fault Refusal :=
  .next (act [] (fun s => logAppend s ok eraseOk) s)

/-- LOG_COMPACT: the journal is compacted (R365). -/
def execLogCompact (s : State) : Host.Outcome State Fault Refusal :=
  .next (act [] logCompact s)

/-- VAULT_SPARE_TRIGGER: a worn vault makes MGT start a spare-in (R370). -/
def execVaultSpareTrigger (s : State) : Host.Outcome State Fault Refusal :=
  .next (act [] vaultTrigger s)

/-- OBS_MS_TICK: the end of a millisecond, with the energy events of each partition (R376, R377). -/
def execObsMsTick (evs : List EnergyEv) (s : State) : Host.Outcome State Fault Refusal :=
  .next (act [] (fun s => msTick s evs) s)

/-- TR_RECORD_WRITE: a buffered Tally Roll record is written to the ring (R381). -/
def execTrRecordWrite (s : State) : Host.Outcome State Fault Refusal :=
  .next (act [(0x13, none)] trWrite s)

/-- TR_WRITE_ERROR: a ring write of the Tally Roll fails (R385). -/
def execTrWriteError (s : State) : Host.Outcome State Fault Refusal :=
  .next (act [] trError s)

end Sys2Proof.Machine
end

