-- ==== Sys2Proof/Machine/CmdQueue.lean ====
section
/-!
DEFINITION. The commands of queues, host requests and completions (chapters 02 and 16).
-/

namespace Sys2Proof.Machine

open Sys2Proof

/-- FETCH_TURN: CFE grants a turn (R37–R39). -/
def execFetchTurn (s : State) : Host.Outcome State Fault Refusal :=
  .next (act [(1, none), (2, none)] fetchTurn s)

/-- RING_RECORD_ARRIVES: the records from the head of queue `q` reach CFE (R31, R33, R36, R42, R59). -/
def execRingRecordArrives (q : Nat) (recs : List Rec64) (s : State) : Host.Outcome State Fault Refusal :=
  .next (act [(1, none), (2, none)] (fun s => recordArrives s q recs) s)

/-- RING_READ_ERROR: a ring read of queue `q` receives an error response (R44). -/
def execRingReadError (q : Nat) (s : State) : Host.Outcome State Fault Refusal :=
  .next (act [(1, none)] (fun s => ringReadError s q) s)

/-- FETCHER_IDLE: the fetcher finds no further command covered (R36). -/
def execFetcherIdle (q : Nat) (s : State) : Host.Outcome State Fault Refusal :=
  .next (act [(1, none)] (fun s => fetcherIdle s q) s)

/-- FETCHER_RESUME: PEND is found set in IDLE (R36). -/
def execFetcherResume (q : Nat) (s : State) : Host.Outcome State Fault Refusal :=
  .next (act [(1, none)] (fun s => fetcherResume s q) s)

/-- PAD: a PAD record `r` at the head of queue `q` (R32). -/
def execPad (q : Nat) (r : Rec64) (s : State) : Host.Outcome State Fault Refusal :=
  .next (act [(1, none), (2, none)] (fun s => if r.toNat % 256 = 0 then recordArrives s q [r] else s) s)

/-- NOP: the NOP at the front of queue `q` completes (R41, R42). -/
def execNop (q : Nat) (s : State) : Host.Outcome State Fault Refusal :=
  .next (act [(1, none), (2, none)] (fun s => runCmd s q 0x01 fun s c => complete s q c 0 0) s)

/-- FENCE: the FENCE at the front of queue `q` (R61). -/
def execFence (q : Nat) (s : State) : Host.Outcome State Fault Refusal :=
  .next (act [(1, none), (2, none)] (fun s => runCmd s q 0x02 fun s c => doFence s q c) s)

/-- FENCE_CLEAR: the waiting FENCE of queue `q` is satisfied (R61). -/
def execFenceClear (q : Nat) (s : State) : Host.Outcome State Fault Refusal :=
  .next (act [(1, none), (2, none)] (fun s => fenceDone s q) s)

/-- COPY_IN: COPY_IN: the reads of its range are issued (R423). -/
def execCopyIn (q : Nat) (s : State) : Host.Outcome State Fault Refusal :=
  .next (act [(1, none), (2, none)] (fun s => runCmd s q 0x20 fun s c => doCopyIn s q c) s)

/-- COPY_OUT: COPY_OUT: the writes of its range are issued (R423). -/
def execCopyOut (q : Nat) (s : State) : Host.Outcome State Fault Refusal :=
  .next (act [(1, none), (2, none)] (fun s => runCmd s q 0x21 fun s c => doCopyOut s q c) s)

/-- INVALIDATE: INVALIDATE: a CleanInvalid for each line (R45). -/
def execInvalidate (q : Nat) (s : State) : Host.Outcome State Fault Refusal :=
  .next (act [(1, none), (2, none)] (fun s => runCmd s q 0x22 fun s c => doInvalidate s q c) s)

/-- HOST_REQUEST_COMPLETE: the last CHI request of a command, or of an INVAL, completes (R171, R423). -/
def execHostRequestComplete (r : HostReq) (s : State) : Host.Outcome State Fault Refusal :=
  .next (act [(1, none)] (fun s => hostComplete s r) s)

/-- CHAN_OPEN: CHAN_OPEN (R177, R178). -/
def execChanOpen (q : Nat) (s : State) : Host.Outcome State Fault Refusal :=
  .next (act [(1, none), (2, none)] (fun s => runCmd s q 0x30 fun s c => doChanOpen s q c) s)

/-- CHAN_CLOSE: CHAN_CLOSE (R47, R177). -/
def execChanClose (q : Nat) (s : State) : Host.Outcome State Fault Refusal :=
  .next (act [(1, none), (2, none)] (fun s => runCmd s q 0x31 fun s c => doChanClose s q c) s)

/-- FLAG_SET: FLAG_SET (R277, R424). -/
def execFlagSet (q : Nat) (s : State) : Host.Outcome State Fault Refusal :=
  .next (act [(1, none), (2, none)] (fun s => runCmd s q 0x32 fun s c => doFlagSet s q c) s)

/-- FLAG_SET_RELEASE: the earlier copies of a waiting FLAG_SET are complete (R424). -/
def execFlagSetRelease (q : Nat) (s : State) : Host.Outcome State Fault Refusal :=
  .next (act [(1, none)] (fun s => flagSetRelease s q) s)

/-- FLAG_WAIT: FLAG_WAIT (R46, R424). -/
def execFlagWait (q : Nat) (s : State) : Host.Outcome State Fault Refusal :=
  .next (act [(1, none), (2, none)] (fun s => runCmd s q 0x33 fun s c => doFlagWait s q c) s)

/-- FLAG_WAIT_SATISFIED: the flag word meets CMP (R46, R61). -/
def execFlagWaitSatisfied (q : Nat) (s : State) : Host.Outcome State Fault Refusal :=
  .next (act [(1, none)] (fun s => flagSatisfied s q) s)

/-- COMPLETION_WRITE_DONE: the `k`-th completion write in flight ends (R58, R60). -/
def execCompletionWriteDone (k : Nat) (err : Bool) (s : State) : Host.Outcome State Fault Refusal :=
  .next (act [(1, none)] (fun s => completionWriteDone s k err) s)

/-- PCRDGRANT: a PCrdGrant arrives for a retried CHI request (R395). -/
def execPcrdGrant (r : Retried) (s : State) : Host.Outcome State Fault Refusal :=
  .next (act [] (fun s => resendRequest s r) s)

end Sys2Proof.Machine
end

