-- ==== Sys2Proof/Machine/CmdReckoner.lean ====
section
/-!
DEFINITION. The commands of the Reckoner: its instructions, its answers, its standby (chapters 05 and 06).
-/

namespace Sys2Proof.Machine

open Sys2Proof

/-- RKN_NOP: NOP (R150). -/
def execRknNop (a : Nat) (s : State) : Host.Outcome State Fault Refusal :=
  .next (act [] (fun s => rknRow s a 0x01 (insNop a)) s)

/-- END: END (R136). -/
def execRknEnd (a : Nat) (s : State) : Host.Outcome State Fault Refusal :=
  .next (act [] (fun s => rknRow s a 0x02 (insEnd a)) s)

/-- RECKONER_DRAINED: every operation of an ending, halting or aborting Reckoner is answered (R136, R137, R336). -/
def execReckonerDrained (a : Nat) (s : State) : Host.Outcome State Fault Refusal :=
  .next (act [] (fun s => rknDrained s a) s)

/-- BREAK: BREAK (R138). -/
def execRknBreak (a : Nat) (s : State) : Host.Outcome State Fault Refusal :=
  .next (act [] (fun s => rknRow s a 0x03 (insBreak a)) s)

/-- WAIT: WAIT (R152). -/
def execRknWait (a : Nat) (s : State) : Host.Outcome State Fault Refusal :=
  .next (act [] (fun s => rknRow s a 0x04 (insWait a)) s)

/-- FEAT: FEAT (R153). -/
def execRknFeat (a : Nat) (s : State) : Host.Outcome State Fault Refusal :=
  .next (act [] (fun s => rknRow s a 0x05 (insFeat hifFeat a)) s)

/-- JMP: JMP (R154). -/
def execRknJmp (a : Nat) (s : State) : Host.Outcome State Fault Refusal :=
  .next (act [] (fun s => rknRow s a 0x08 (insJmp a)) s)

/-- JAL: JAL (R154). -/
def execRknJal (a : Nat) (s : State) : Host.Outcome State Fault Refusal :=
  .next (act [] (fun s => rknRow s a 0x09 (insJal a)) s)

/-- JR: JR (R154). -/
def execRknJr (a : Nat) (s : State) : Host.Outcome State Fault Refusal :=
  .next (act [] (fun s => rknRow s a 0x0a (insJr a)) s)

/-- BCC: BCC (R155). -/
def execRknBcc (a : Nat) (s : State) : Host.Outcome State Fault Refusal :=
  .next (act [] (fun s => rknRow s a 0x0b (insBcc a)) s)

/-- BCCI: BCCI (R155). -/
def execRknBcci (a : Nat) (s : State) : Host.Outcome State Fault Refusal :=
  .next (act [] (fun s => rknRow s a 0x0c (insBcci a)) s)

/-- ADD: ADD (R150, R151). -/
def execRknAdd (a : Nat) (s : State) : Host.Outcome State Fault Refusal :=
  .next (act [] (fun s => rknRow s a 0x10 (insReg aluAdd a)) s)

/-- SUB: SUB (R150, R151). -/
def execRknSub (a : Nat) (s : State) : Host.Outcome State Fault Refusal :=
  .next (act [] (fun s => rknRow s a 0x11 (insReg aluSub a)) s)

/-- MUL: MUL (R150, R151). -/
def execRknMul (a : Nat) (s : State) : Host.Outcome State Fault Refusal :=
  .next (act [] (fun s => rknRow s a 0x12 (insReg aluMul a)) s)

/-- MULHU: MULHU (R150, R151). -/
def execRknMulhu (a : Nat) (s : State) : Host.Outcome State Fault Refusal :=
  .next (act [] (fun s => rknRow s a 0x13 (insReg aluMulhu a)) s)

/-- AND: AND (R150, R151). -/
def execRknAnd (a : Nat) (s : State) : Host.Outcome State Fault Refusal :=
  .next (act [] (fun s => rknRow s a 0x14 (insReg aluAnd a)) s)

/-- OR: OR (R150, R151). -/
def execRknOr (a : Nat) (s : State) : Host.Outcome State Fault Refusal :=
  .next (act [] (fun s => rknRow s a 0x15 (insReg aluOr a)) s)

/-- XOR: XOR (R150, R151). -/
def execRknXor (a : Nat) (s : State) : Host.Outcome State Fault Refusal :=
  .next (act [] (fun s => rknRow s a 0x16 (insReg aluXor a)) s)

/-- SHL: SHL (R150, R151). -/
def execRknShl (a : Nat) (s : State) : Host.Outcome State Fault Refusal :=
  .next (act [] (fun s => rknRow s a 0x17 (insReg aluShl a)) s)

/-- SHR: SHR (R150, R151). -/
def execRknShr (a : Nat) (s : State) : Host.Outcome State Fault Refusal :=
  .next (act [] (fun s => rknRow s a 0x18 (insReg aluShr a)) s)

/-- SRA: SRA (R150, R151). -/
def execRknSra (a : Nat) (s : State) : Host.Outcome State Fault Refusal :=
  .next (act [] (fun s => rknRow s a 0x19 (insReg aluSra a)) s)

/-- SLT: SLT (R150, R151). -/
def execRknSlt (a : Nat) (s : State) : Host.Outcome State Fault Refusal :=
  .next (act [] (fun s => rknRow s a 0x1a (insReg aluSlt a)) s)

/-- SLTU: SLTU (R150, R151). -/
def execRknSltu (a : Nat) (s : State) : Host.Outcome State Fault Refusal :=
  .next (act [] (fun s => rknRow s a 0x1b (insReg aluSltu a)) s)

/-- MIN: MIN (R150, R151). -/
def execRknMin (a : Nat) (s : State) : Host.Outcome State Fault Refusal :=
  .next (act [] (fun s => rknRow s a 0x1c (insReg aluMin a)) s)

/-- MAX: MAX (R150, R151). -/
def execRknMax (a : Nat) (s : State) : Host.Outcome State Fault Refusal :=
  .next (act [] (fun s => rknRow s a 0x1d (insReg aluMax a)) s)

/-- MINU: MINU (R150, R151). -/
def execRknMinu (a : Nat) (s : State) : Host.Outcome State Fault Refusal :=
  .next (act [] (fun s => rknRow s a 0x1e (insReg aluMinu a)) s)

/-- MAXU: MAXU (R150, R151). -/
def execRknMaxu (a : Nat) (s : State) : Host.Outcome State Fault Refusal :=
  .next (act [] (fun s => rknRow s a 0x1f (insReg aluMaxu a)) s)

/-- ADDI: ADDI (R150, R151). -/
def execRknAddi (a : Nat) (s : State) : Host.Outcome State Fault Refusal :=
  .next (act [] (fun s => rknRow s a 0x20 (insImm aluAdd a)) s)

/-- ANDI: ANDI (R150, R151). -/
def execRknAndi (a : Nat) (s : State) : Host.Outcome State Fault Refusal :=
  .next (act [] (fun s => rknRow s a 0x21 (insImm aluAnd a)) s)

/-- ORI: ORI (R150, R151). -/
def execRknOri (a : Nat) (s : State) : Host.Outcome State Fault Refusal :=
  .next (act [] (fun s => rknRow s a 0x22 (insImm aluOr a)) s)

/-- XORI: XORI (R150, R151). -/
def execRknXori (a : Nat) (s : State) : Host.Outcome State Fault Refusal :=
  .next (act [] (fun s => rknRow s a 0x23 (insImm aluXor a)) s)

/-- SHLI: SHLI (R150, R151). -/
def execRknShli (a : Nat) (s : State) : Host.Outcome State Fault Refusal :=
  .next (act [] (fun s => rknRow s a 0x24 (insShift (fun x n => x <<< n) a)) s)

/-- SHRI: SHRI (R150, R151). -/
def execRknShri (a : Nat) (s : State) : Host.Outcome State Fault Refusal :=
  .next (act [] (fun s => rknRow s a 0x25 (insShift (fun x n => x >>> n) a)) s)

/-- SRAI: SRAI (R150, R151). -/
def execRknSrai (a : Nat) (s : State) : Host.Outcome State Fault Refusal :=
  .next (act [] (fun s => rknRow s a 0x26 (insShift (fun x n => x.sshiftRight n) a)) s)

/-- SLTI: SLTI (R150, R151). -/
def execRknSlti (a : Nat) (s : State) : Host.Outcome State Fault Refusal :=
  .next (act [] (fun s => rknRow s a 0x27 (insImm aluSlt a)) s)

/-- LI: LI (R150, R151). -/
def execRknLi (a : Nat) (s : State) : Host.Outcome State Fault Refusal :=
  .next (act [] (fun s => rknRow s a 0x28 (insLi a)) s)

/-- LIH: LIH (R150, R151). -/
def execRknLih (a : Nat) (s : State) : Host.Outcome State Fault Refusal :=
  .next (act [] (fun s => rknRow s a 0x29 (insLih a)) s)

/-- LD_U8: LD.U8 (R157). -/
def execRknLdU8 (a : Nat) (s : State) : Host.Outcome State Fault Refusal :=
  .next (act [] (fun s => rknRow s a 0x30 (insLoad 1 false a)) s)

/-- LD_U16: LD.U16 (R157). -/
def execRknLdU16 (a : Nat) (s : State) : Host.Outcome State Fault Refusal :=
  .next (act [] (fun s => rknRow s a 0x31 (insLoad 2 false a)) s)

/-- LD_U32: LD.U32 (R157). -/
def execRknLdU32 (a : Nat) (s : State) : Host.Outcome State Fault Refusal :=
  .next (act [] (fun s => rknRow s a 0x32 (insLoad 4 false a)) s)

/-- LD_64: LD.64 (R157). -/
def execRknLd64 (a : Nat) (s : State) : Host.Outcome State Fault Refusal :=
  .next (act [] (fun s => rknRow s a 0x33 (insLoad 8 false a)) s)

/-- LD_S8: LD.S8 (R157). -/
def execRknLdS8 (a : Nat) (s : State) : Host.Outcome State Fault Refusal :=
  .next (act [] (fun s => rknRow s a 0x34 (insLoad 1 true a)) s)

/-- LD_S16: LD.S16 (R157). -/
def execRknLdS16 (a : Nat) (s : State) : Host.Outcome State Fault Refusal :=
  .next (act [] (fun s => rknRow s a 0x35 (insLoad 2 true a)) s)

/-- LD_S32: LD.S32 (R157). -/
def execRknLdS32 (a : Nat) (s : State) : Host.Outcome State Fault Refusal :=
  .next (act [] (fun s => rknRow s a 0x36 (insLoad 4 true a)) s)

/-- ST_8: ST.8 (R157). -/
def execRknSt8 (a : Nat) (s : State) : Host.Outcome State Fault Refusal :=
  .next (act [] (fun s => rknRow s a 0x38 (insStore 1 a)) s)

/-- ST_16: ST.16 (R157). -/
def execRknSt16 (a : Nat) (s : State) : Host.Outcome State Fault Refusal :=
  .next (act [] (fun s => rknRow s a 0x39 (insStore 2 a)) s)

/-- ST_32: ST.32 (R157). -/
def execRknSt32 (a : Nat) (s : State) : Host.Outcome State Fault Refusal :=
  .next (act [] (fun s => rknRow s a 0x3a (insStore 4 a)) s)

/-- ST_64: ST.64 (R157). -/
def execRknSt64 (a : Nat) (s : State) : Host.Outcome State Fault Refusal :=
  .next (act [] (fun s => rknRow s a 0x3b (insStore 8 a)) s)

/-- LOOPI: LOOPI (R158). -/
def execRknLoopi (a : Nat) (s : State) : Host.Outcome State Fault Refusal :=
  .next (act [] (fun s => rknRow s a 0x40 (insLoopi a)) s)

/-- LOOP: LOOP (R158). -/
def execRknLoop (a : Nat) (s : State) : Host.Outcome State Fault Refusal :=
  .next (act [] (fun s => rknRow s a 0x41 (insLoop a)) s)

/-- SETINC: SETINC (R159). -/
def execRknSetinc (a : Nat) (s : State) : Host.Outcome State Fault Refusal :=
  .next (act [] (fun s => rknRow s a 0x42 (insSetinc a)) s)

/-- SETINCR: SETINCR (R159). -/
def execRknSetincr (a : Nat) (s : State) : Host.Outcome State Fault Refusal :=
  .next (act [] (fun s => rknRow s a 0x43 (insSetincr a)) s)

/-- RDIDX: RDIDX (R160). -/
def execRknRdidx (a : Nat) (s : State) : Host.Outcome State Fault Refusal :=
  .next (act [] (fun s => rknRow s a 0x44 (insRdidx a)) s)

/-- OPND: OPND (R161). -/
def execRknOpnd (a : Nat) (s : State) : Host.Outcome State Fault Refusal :=
  .next (act [] (fun s => rknRow s a 0x48 (insOpnd a)) s)

/-- TDLD: TDLD (R163). -/
def execRknTdld (a : Nat) (s : State) : Host.Outcome State Fault Refusal :=
  .next (act [] (fun s => rknRow s a 0x49 (insTdld a)) s)

/-- TDST: TDST (R163). -/
def execRknTdst (a : Nat) (s : State) : Host.Outcome State Fault Refusal :=
  .next (act [] (fun s => rknRow s a 0x4a (insTdst a)) s)

/-- TDSET: TDSET (R163). -/
def execRknTdset (a : Nat) (s : State) : Host.Outcome State Fault Refusal :=
  .next (act [] (fun s => rknRow s a 0x4b (insTdset a)) s)

/-- ESTART: ESTART (R164). -/
def execRknEstart (a : Nat) (s : State) : Host.Outcome State Fault Refusal :=
  .next (act [] (fun s => rknRow s a 0x50 (insEstart a)) s)

/-- ECFG: ECFG (R164). -/
def execRknEcfg (a : Nat) (s : State) : Host.Outcome State Fault Refusal :=
  .next (act [] (fun s => rknRow s a 0x51 (insEcfg a)) s)

/-- CSEND: CSEND (R187). -/
def execRknCsend (a : Nat) (s : State) : Host.Outcome State Fault Refusal :=
  .next (act [] (fun s => rknRow s a 0x58 (insChan true a)) s)

/-- CSEND_ANSWER: the answer `v` to the RESERVE or COMMIT of a CSEND; `data` are the tile's bytes where it lies
outside the Slate (R187). -/
def execCsendAnswer (a id : Nat) (v : W64) (data : Bytes) (s : State) : Host.Outcome State Fault Refusal :=
  .next (act [(8, none)] (fun s => csendAnswer s a id v data) s)

/-- CRECV: CRECV (R191). -/
def execRknCrecv (a : Nat) (s : State) : Host.Outcome State Fault Refusal :=
  .next (act [] (fun s => rknRow s a 0x59 (insChan false a)) s)

/-- CRECV_ANSWER: the answer `v` to the CLAIM of a CRECV (R191). -/
def execCrecvAnswer (a id : Nat) (v : W64) (s : State) : Host.Outcome State Fault Refusal :=
  .next (act [(8, none)] (fun s => crecvAnswer s a id v) s)

/-- BARA: BARA (R169). -/
def execRknBara (a : Nat) (s : State) : Host.Outcome State Fault Refusal :=
  .next (act [] (fun s => rknRow s a 0x5a (insBar false a)) s)

/-- BARW: BARW (R169). -/
def execRknBarw (a : Nat) (s : State) : Host.Outcome State Fault Refusal :=
  .next (act [] (fun s => rknRow s a 0x5b (insBar true a)) s)

/-- RLD: RLD (R170). -/
def execRknRld (a : Nat) (s : State) : Host.Outcome State Fault Refusal :=
  .next (act [] (fun s => rknRow s a 0x60 (insWord false a)) s)

/-- RST: RST (R170). -/
def execRknRst (a : Nat) (s : State) : Host.Outcome State Fault Refusal :=
  .next (act [] (fun s => rknRow s a 0x61 (insWord true a)) s)

/-- ATOM: ATOM (R170). -/
def execRknAtom (a : Nat) (s : State) : Host.Outcome State Fault Refusal :=
  .next (act [] (fun s => rknRow s a 0x62 (insAtom a)) s)

/-- INVAL: INVAL (R171). -/
def execRknInval (a : Nat) (s : State) : Host.Outcome State Fault Refusal :=
  .next (act [] (fun s => rknRow s a 0x63 (insInval a)) s)

/-- ROUTE: ROUTE (R172). -/
def execRknRoute (a : Nat) (s : State) : Host.Outcome State Fault Refusal :=
  .next (act [] (fun s => rknRow s a 0x68 (insRoute a)) s)

/-- CADD: CADD (R172). -/
def execRknCadd (a : Nat) (s : State) : Host.Outcome State Fault Refusal :=
  .next (act [] (fun s => rknRow s a 0x69 (insCadd a)) s)

/-- REQUEST_ANSWER: the answer `v` to request `id` of agent `a`'s Reckoner (R167). -/
def execRequestAnswer (a id : Nat) (v : W64) (s : State) : Host.Outcome State Fault Refusal :=
  .next (act [(8, none)] (fun s => requestAnswer s a id v) s)

/-- HOST_WORD_RESPONSE: the CHI transaction of a host-word request ends (R397). -/
def execHostWordResponse (a id : Nat) (v : W64) (err : Bool) (s : State) : Host.Outcome State Fault Refusal :=
  .next (act [] (fun s => hostWordResponse s a id v err) s)

/-- STANDBY_SWAP: a pending swap finds the Reckoner IDLE (R145). -/
def execStandbySwap (a : Nat) (s : State) : Host.Outcome State Fault Refusal :=
  .next (act [] (fun s => standbySwap s a) s)

/-- IMEM_SCRUB: the agent's scrub reads a memory word of an idle Reckoner (R337, R370). -/
def execImemScrub (a inst row : Nat) (standby ce ue : Bool) (s : State) : Host.Outcome State Fault Refusal :=
  .next (act [] (fun s => scrubWord s a inst row standby ce ue) s)

end Sys2Proof.Machine
end

