-- ==== Sys2Proof/Machine/CmdRegister.lean ====
section
/-!
DEFINITION. The commands that are register accesses, of every unit (chapters 00–17): each one performs the accesses that its row
names, and another access changes nothing.
-/

namespace Sys2Proof.Machine

open Sys2Proof

/-- REGISTER_WRITE: a register access that no other command names: a read, or a write under the fields' access rules
(R11, R13, R394). -/
def execRegisterWrite (x : Access) (s : State) : Host.Outcome State Fault Refusal :=
  .next (act [] (fun s => onPort s x fun
      | .plain => some (onPlain s x)
      | _ => none) s)

/-- COUNTER_WRITE: a write of a counter: the strobed bytes take the written value (R371). -/
def execCounterWrite (x : Access) (s : State) : Host.Outcome State Fault Refusal :=
  .next (act [] (fun s => onPort s x fun
      | .counter => some (onCounter s x)
      | _ => none) s)

/-- UNMAPPED_ACCESS: an access to no register: OKAY, zero, counted (R12). -/
def execUnmappedAccess (x : Access) (s : State) : Host.Outcome State Fault Refusal :=
  .next (act [] (fun s => onPort s x fun
      | .unmapped => some (onUnmapped s x)
      | _ => none) s)

/-- UNPRIV_ACCESS: an unprivileged access to a unit or agent window (R372). -/
def execUnprivAccess (x : Access) (s : State) : Host.Outcome State Fault Refusal :=
  .next (act [] (fun s => onPort s x fun
      | .unpriv => some (onUnpriv s x)
      | _ => none) s)

/-- AXI_ATOMIC_WRITE: a write with AWATOP not zero: SLVERR, counted, and nothing performed (R394). -/
def execAxiAtomicWrite (x : Access) (s : State) : Host.Outcome State Fault Refusal :=
  .next (act [] (fun s => atomicWrite s x) s)

/-- PRE_READY_ACCESS: an access before Ready (R324). -/
def execPreReadyAccess (x : Access) (s : State) : Host.Outcome State Fault Refusal :=
  .next (act [] (fun s => onPort s x fun
      | .preReady => some (onPreReady s x)
      | _ => none) s)

/-- DB_SQ_TAIL: a write of DB_SQ_TAIL: the tail latch and PEND (R34, R35, R325). -/
def execDbSqTail (x : Access) (s : State) : Host.Outcome State Fault Refusal :=
  .next (act [(1, none)] (fun s => onPort s x fun
      | .sqTail q => some (onSqTail s x q)
      | _ => none) s)

/-- DB_CQ_HEAD: a write of DB_CQ_HEAD (R34, R325). -/
def execDbCqHead (x : Access) (s : State) : Host.Outcome State Fault Refusal :=
  .next (act [(1, none)] (fun s => onPort s x fun
      | .cqHead q => some (onCqHead s x q)
      | _ => none) s)

/-- HIF_Q_RESUME: a write of HIF_Q_RESUME (R60, R61). -/
def execHifQResume (x : Access) (s : State) : Host.Outcome State Fault Refusal :=
  .next (act [(1, none)] (fun s => onPort s x fun
      | .qResume => some (onQResume s x)
      | _ => none) s)

/-- KQ_ENABLE: EN of a DISABLED kernel queue written 1 (R30, R48). -/
def execKqEnable (x : Access) (s : State) : Host.Outcome State Fault Refusal :=
  .next (act [(1, none)] (fun s => onPort s x fun
      | .kqOn q => some (onKqOn s x q)
      | _ => none) s)

/-- KQ_DISABLE: EN of a kernel queue written 0 (R49). -/
def execKqDisable (x : Access) (s : State) : Host.Outcome State Fault Refusal :=
  .next (act [(1, none)] (fun s => onPort s x fun
      | .kqOff q => some (onKqOff s x q)
      | _ => none) s)

/-- PDM_PART_CTRL_WRITE: a write of PDM_PART_CTRL (R109). -/
def execPdmPartCtrlWrite (x : Access) (s : State) : Host.Outcome State Fault Refusal :=
  .next (act [] (fun s => onPort s x fun
      | .pause => some (onPause s x)
      | _ => none) s)

/-- BT_ENABLE: EN of a batching table written 1 (R119, R121). -/
def execBtEnable (x : Access) (s : State) : Host.Outcome State Fault Refusal :=
  .next (act [(7, none)] (fun s => onPort s x fun
      | .btOn b => some (onBtOn s x b)
      | _ => none) s)

/-- BT_DISABLE: EN of a batching table written 0 (R121). -/
def execBtDisable (x : Access) (s : State) : Host.Outcome State Fault Refusal :=
  .next (act [(7, none)] (fun s => onPort s x fun
      | .btOff b => some (onBtOff s x b)
      | _ => none) s)

/-- RKN_DBG_RESUME: RKN_DBG.RESUME written 1 (R138). -/
def execRknDbgResume (x : Access) (s : State) : Host.Outcome State Fault Refusal :=
  .next (act [] (fun s => onPort s x fun
      | .dbgResume a => some (onDbgResume s x a)
      | _ => none) s)

/-- RKN_DBG_STEP: RKN_DBG.STEP written 1 (R138). -/
def execRknDbgStep (x : Access) (s : State) : Host.Outcome State Fault Refusal :=
  .next (act [] (fun s => onPort s x fun
      | .dbgStep a => some (onDbgStep s x a)
      | _ => none) s)

/-- AGT_SPARE_FORCE: AGT_SPARE_CFG.FORCE written 1 (R145). -/
def execAgtSpareForce (x : Access) (s : State) : Host.Outcome State Fault Refusal :=
  .next (act [] (fun s => onPort s x fun
      | .spareForce a => some (onSpareForce s x a)
      | _ => none) s)

/-- CMB_GROUP_VALID: VALID of a combine group written 1 (R235). -/
def execCmbGroupValid (x : Access) (s : State) : Host.Outcome State Fault Refusal :=
  .next (act [] (fun s => onPort s x fun
      | .grpValid g => some (onGrpValid s x g)
      | _ => none) s)

/-- VSPARE_START: SLT_VSPARE_CTRL.START written 1 (R260). -/
def execVspareStart (x : Access) (s : State) : Host.Outcome State Fault Refusal :=
  .next (act [] (fun s => onPort s x fun
      | .vspare => some (onVspare s x)
      | _ => none) s)

/-- FAB_PORT_ENABLE: EN of a DOWN port written 1 (R294). -/
def execFabPortEnable (x : Access) (s : State) : Host.Outcome State Fault Refusal :=
  .next (act [] (fun s => onPort s x fun
      | .portOn k => some (onPortOn s x k)
      | _ => none) s)

/-- FAB_PORT_DISABLE: EN of a port written 0 (R294). -/
def execFabPortDisable (x : Access) (s : State) : Host.Outcome State Fault Refusal :=
  .next (act [] (fun s => onPort s x fun
      | .portOff k => some (onPortOff s x k)
      | _ => none) s)

/-- GLOBAL_STOP_REQ: FLT_STOP_CTRL.REQ written 1 (R346). -/
def execGlobalStopReq (x : Access) (s : State) : Host.Outcome State Fault Refusal :=
  .next (act [] (fun s => onPort s x fun
      | .stopReq => some (onStopReq s x)
      | _ => none) s)

/-- GLOBAL_STOP_RESUME: FLT_STOP_CTRL.RESUME written 1 (R353). -/
def execGlobalStopResume (x : Access) (s : State) : Host.Outcome State Fault Refusal :=
  .next (act [] (fun s => onPort s x fun
      | .stopResume => some (onStopResume s x)
      | _ => none) s)

/-- FAULT_INJECT_ARM: a write of FLT_INJ_CTRL (R332). -/
def execFaultInjectArm (x : Access) (s : State) : Host.Outcome State Fault Refusal :=
  .next (act [] (fun s => onPort s x fun
      | .inject => some (onInject s x)
      | _ => none) s)

/-- FLT_LOG_READ: a read of FLT_LOG (R329). -/
def execFltLogRead (x : Access) (s : State) : Host.Outcome State Fault Refusal :=
  .next (act [] (fun s => onPort s x fun
      | .logRead => some (onLogRead s x)
      | _ => none) s)

/-- MBX_GO: MGT_MBX_CTRL.GO written 1 (R358). -/
def execMbxGo (x : Access) (s : State) : Host.Outcome State Fault Refusal :=
  .next (act [] (fun s => onPort s x fun
      | .mbxGo => some (onMbxGo s x)
      | _ => none) s)

/-- DEV_RESET: MGT_CTRL.DEV_RESET written 1 (R338, R355). -/
def execDevReset (x : Access) (s : State) : Host.Outcome State Fault Refusal :=
  .next (act [] (fun s => onPort s x fun
      | .devReset => some (onDevReset s x)
      | _ => none) s)

/-- PAGE_SNAP: SNAP of a partition page written 1 (R375). -/
def execPageSnap (x : Access) (s : State) : Host.Outcome State Fault Refusal :=
  .next (act [] (fun s => onPort s x fun
      | .pageSnap p => some (onPageSnap s x p)
      | _ => none) s)

/-- PAGE_CLEAR: CLEAR of a partition page written 1 (R375). -/
def execPageClear (x : Access) (s : State) : Host.Outcome State Fault Refusal :=
  .next (act [] (fun s => onPort s x fun
      | .pageClear p => some (onPageClear s x p)
      | _ => none) s)

/-- TR_CTRL_WRITE: a write of OBS_TR_CTRL (R380, R381). -/
def execTrCtrlWrite (x : Access) (s : State) : Host.Outcome State Fault Refusal :=
  .next (act [] (fun s => onPort s x fun
      | .trCtrl => some (onTrCtrl s x)
      | _ => none) s)

end Sys2Proof.Machine
end

