-- ==== Sys2Proof/Machine/CmdRouting.lean ====
section
/-!
DEFINITION. The commands of the Router Engine and of the Combine Unit (chapters 08 and 09).
-/

namespace Sys2Proof.Machine

open Sys2Proof

/-- ROUTE_REQUEST: a ROUTE reaches RTE (R223). -/
def execRouteRequest (q : RouteReq) (s : State) : Host.Outcome State Fault Refusal :=
  .next (act [(8, none), (0xD, some q.entry)]
    (fun s => arrives s (!s.rte.stopped) (isRoute q) fun s => opOffer s (.route q)) s)

/-- ROUTING_DONE: the `k`-th routing in progress is done (R233). -/
def execRoutingDone (k : Nat) (s : State) : Host.Outcome State Fault Refusal :=
  .next (act [(0xD, none)] (fun s => if s.rte.stopped then s else routingDone s k) s)

/-- CADD_REQUEST: a CADD reaches CMB; `misses` of its Long Sums are read from the Slate (R238, R223). -/
def execCaddRequest (c : CaddReq) (misses : Nat) (s : State) : Host.Outcome State Fault Refusal :=
  .next (act [(8, none), (0xE, none)]
    (fun s => arrives s (!cmbShut s) (isCadd c) fun s => retestGroup (caddRequest s c misses) c.group) s)

/-- TALLY_WORD_WRITE: partition `p` writes `v` to the TALLY word of token `t` of group `g` (R239, R223). -/
def execTallyWordWrite (g t p v : Nat) (s : State) : Host.Outcome State Fault Refusal :=
  .next (act [(8, none), (0xE, none)] (fun s => retestGroup (tallyWrite s g t p v) g) s)

/-- ZEROING_DONE: the zeroing of group `g` ends (R235, R223). -/
def execZeroingDone (g : Nat) (s : State) : Host.Outcome State Fault Refusal :=
  .next (act [(0xE, none)] (fun s => retestGroup (zeroingDone s g) g) s)

end Sys2Proof.Machine
end

