-- ==== Sys2Proof/Machine/Vault.lean ====
section
/-!
DEFINITION. Reads and writes of a block at a vault controller (R248–R253), and the 256 B of a node record in the GRAPH region
(R63, R65, R67, R69, R246).
-/

namespace Sys2Proof.Machine

open Sys2Proof

/-! ### Node records as bytes (R62–R69) -/

/-- KIND of R62. -/
def kindCode : Kind → Nat
  | .free => 0
  | .task => 1
  | .layer => 2
  | .join => 3
  | .succ => 4
  | .graph => 5

/-- STATE of R81. -/
def stateCode : NState → Nat
  | .free => 0
  | .idle => 1
  | .waiting => 2
  | .ready => 3
  | .issued => 4
  | .retired => 5
  | .loading => 7

/-- STATE from its code. -/
def stateOf (n : Nat) : NState :=
  ([NState.idle, .waiting, .ready, .issued, .retired, .loading].find? fun x => stateCode x == n).getD .free

/-- LSTATE of R69. -/
def lstateCode : LState → Nat
  | .loading => 0
  | .loaded => 1
  | .active => 2
  | .draining => 3

/-- LSTATE from its code. -/
def lstateOf (n : Nat) : LState := ([LState.loaded, .active, .draining].find? fun x => lstateCode x == n).getD .loading

/-- A successor entry (R66). -/
def succBytes (e : Succ) : Bytes :=
  leBytes 8 (e.node % 2 ^ 24 + e.block % 2 ^ 12 * 2 ^ 24 + b2n e.remote * 2 ^ 36 + e.weight % 2 ^ 8 * 2 ^ 40)

/-- The node behind `n` in its partition's ready backlog: NEXT_READY of R65. -/
def nextReady (s : State) (n : Nat) : Nat :=
  match ((s.tly.backlog.look (partOr0 s n)).map (·.node)).dropWhile (· != n) with
  | _ :: x :: _ => x
  | _ => Config.noNode

/-- A graph header (R69) and its node-layout fields. -/
def headerImage (s : State) (n : Nat) (r : NodeRec) : Bytes :=
  let h := r.hdr
  let src := fun (x : LaunchSrc) => leBytes 2 (x.q % 2 ^ 13) ++ leBytes 2 x.sqIdx ++ leBytes 4 (b2n x.internal)
  leBytes 1 5 ++ leBytes 1 (lstateCode h.lstate) ++ leBytes 2 (partOr0 s n) ++ leBytes 2 r.gen.toNat ++ leBytes 5 0 ++
    leBytes 1 r.succs.length ++ leBytes 8 0 ++ leBytes 4 r.succNext ++ leBytes 8 r.arg.toNat ++ leBytes 4 h.nodeCount ++
    leBytes 4 h.workCount ++ leBytes 4 h.cplCount ++ leBytes 4 h.retired ++ leBytes 8 (h.pend.length + b2n h.sweep * 8) ++
    leBytes 2 (h.src.q % 2 ^ 13 + b2n h.src.internal * 2 ^ 13) ++ leBytes 2 h.src.sqIdx ++ leBytes 4 0 ++
    Bytes.slice (r.succs.flatMap succBytes) 0 96 ++ leBytes 4 h.drops ++ leBytes 28 0 ++
    Bytes.slice (h.pend.flatMap fun p => leBytes 8 p.arg.toNat) 0 32 ++ Bytes.slice (h.pend.flatMap fun p => src p.src) 0 32

/-- A work node (R65). -/
def workImage (s : State) (n : Nat) (r : NodeRec) : Bytes :=
  leBytes 1 (kindCode r.kind) ++ leBytes 1 (stateCode r.st + b2n r.cpl * 8 + b2n r.irq * 16) ++
    leBytes 1 (partOr0 s n + r.prio * 16) ++ leBytes 1 r.cls ++ leBytes 4 r.gen.toNat ++ leBytes 3 r.tally ++
    leBytes 1 r.succs.length ++ leBytes 4 r.initTally ++ leBytes 3 r.graph ++ leBytes 1 r.dlGroup ++ leBytes 4 r.succNext ++
    leBytes 8 r.arg.toNat ++ leBytes 8 r.kdesc ++ leBytes 2 r.regs ++ leBytes 2 r.groups ++ leBytes 4 r.lmem ++
    leBytes 4 r.blocks ++ leBytes 4 r.tag ++ leBytes 8 (r.src.q % 2 ^ 13) ++ Bytes.slice (r.succs.flatMap succBytes) 0 96 ++
    leBytes 4 r.drops ++ leBytes 4 (nextReady s n) ++ leBytes 8 r.readyTs.toNat ++ leBytes 16 0 ++ leBytes 64 r.params.toNat

/-- The 256 B of node handle `n` (R63): the record stands in State as its fields. -/
def nodeBytes (s : State) (n : Nat) : Bytes :=
  let r := nd s n
  match r.kind with
  | .free => leBytes 256 0
  | .succ => leBytes 4 4 ++ leBytes 4 r.succs.length ++ leBytes 8 r.succNext ++ Bytes.slice (r.succs.flatMap succBytes) 0 240
  | .graph => headerImage s n r
  | _ => workImage s n r

/-- The record that 256 B stand for; what the model keeps beside the record's fields stays as in `old`. -/
def nodeOf (old : NodeRec) (b : Nat) : NodeRec :=
  let r := parseNode 0 b (nfld b 0x10 0 24) (stateOf (nfld b 1 0 3))
  let gen := BitVec.ofNat 16 (nfld b 4 0 16)
  let src := fun (x : LaunchSrc) (q i f : Nat) => { x with q := q, sqIdx := i, internal := f == 1 }
  match r.kind with
  | .free => default
  | .succ => { r with graph := old.graph }
  | .graph =>
    { r with
      graph := old.graph, gen := gen, arg := BitVec.ofNat 64 (nfld b 0x18 0 64),
      hdr := { old.hdr with
        lstate := lstateOf (nfld b 1 0 3), nodeCount := nfld b 0x20 0 24, workCount := nfld b 0x24 0 24,
        cplCount := nfld b 0x28 0 24, retired := nfld b 0x2C 0 24, sweep := nfld b 0x30 3 1 == 1,
        src := src old.hdr.src (nfld b 0x38 0 13) (nfld b 0x3A 0 16) (nfld b 0x38 13 1), drops := nfld b 0xA0 0 32,
        pend := (List.range (min 4 (nfld b 0x30 0 3))).map fun i =>
          { arg := BitVec.ofNat 64 (nfld b (0xC0 + 8 * i) 0 64),
            src := src (old.hdr.pend.getD i default).src (nfld b (0xE0 + 8 * i) 0 13) (nfld b (0xE0 + 8 * i) 16 16)
              (nfld b (0xE0 + 8 * i) 32 1) } } }
  | _ =>
    { r with gen := gen, tally := nfld b 8 0 24, drops := nfld b 0xA0 0 32, readyTs := BitVec.ofNat 64 (nfld b 0xA8 0 64),
             src := { old.src with q := nfld b 0x38 0 13 } }

/-! ### Blocks at a vault controller (R248–R253) -/

/-- The 256 B of the block that holds location `l` at Slate address `a`. -/
def blockBytes (s : State) (l : SlateLoc) (a : Nat) : Bytes :=
  match l with
  | .node n => nodeBytes s n
  | _ => memRead s (a / 256 * 256) 256

/-- Bytes stored from address `a` on in the block of location `l`. -/
def storeBlock (s : State) (l : SlateLoc) (a : Nat) (b : Bytes) : State :=
  match l with
  | .node n =>
    let old := nodeBytes s n
    let new := old.take (a % 256) ++ b ++ old.drop (a % 256 + b.length)
    updN s n fun r => nodeOf r (leNat (new.take 256))
  | _ => memWrite s a b

/-- What the Slate stores beside the 256 B of a block (R250): their CRC-32C, as the writer computed it, which a stored block
always matches. The controller's metadata and the check bits have no stated form. (DEDUCED, log entry 102). -/
def storedCrc (s : State) (l : SlateLoc) (a : Nat) : Nat := crc32c (blockBytes s l a)

/-- The metadata word of a block counts as activity of a requester's partition (R374). -/
def locTouch (s : State) (l : SlateLoc) (a : Nat) : State :=
  match ownerOf s l with
  | some p => touch s p a 1
  | none => s

/-- A block read at a vault controller (R248, R252, R253). (DEDUCED, log entry 59). (DEDUCED, log entry 111). -/
def slateRead (s : State) (l : SlateLoc) (e : ReadErrs) : State :=
  match slateAddr s l with
  | none => rangeResponse s (locPart s l) 0 false
  | some a =>
    if injPart s 0x0F01 (locPart s l) then rangeResponse s (locPart s l) a true
    else
      let inj := ueArmed s a
      let s := if inj then injFire s else s
      let v := physOf s (vaultOf a) (vaultBlock a)
      let (s, ok) := readBlock s v (vaultBlock a) (if inj then { e with fails := 3 } else e)
      if ok then emit (locTouch s l a) (.slate (slateStop v) true (blockBytes s l a))
      else emit (slateUe s l a inj) (.slate (slateStop v) false [])

/-- A block write at a vault controller (R251): `o` is the offset of the bytes in the block; `crcOk` is the CRC of a whole
block, `e` what the read of a part of a block meets. -/
def slateWrite (s : State) (l : SlateLoc) (o : Nat) (b : Bytes) (crcOk : Bool) (e : ReadErrs) : State :=
  match slateAddr s l with
  | none => rangeResponse s (locPart s l) 0 false
  | some a =>
    if injPart s 0x0F01 (locPart s l) then rangeResponse s (locPart s l) a true
    else
      let base := a / 256 * 256
      let v := physOf s (vaultOf a) (vaultBlock a)
      if b.length = 256 ∧ o = 0 then
        if !crcOk then emit (count s .sltWrCrc) (.slate (slateStop v) false [])
        else
          let s := updV s v fun x => { x with bad := x.bad.filter (· != vaultBlock a) }
          emit (locTouch (storeBlock s l base b) l a) (.slate (slateStop v) true [])
      else
        let (s, ok) := readBlock s v (vaultBlock a) e
        if ok then emit (locTouch (storeBlock s l (base + o) (b.take (256 - o))) l a) (.slate (slateStop v) true [])
        else emit s (.slate (slateStop v) false [])

end Sys2Proof.Machine
end

