-- ==== Sys2Proof/Machine/CmdSlate.lean ====
section
/-!
DEFINITION. The commands of the Slate (chapter 10).
-/

namespace Sys2Proof.Machine

open Sys2Proof

/-- SLATE_READ: a block read at a vault controller (R248, R252, R253). -/
def execSlateRead (l : SlateLoc) (e : ReadErrs) (s : State) : Host.Outcome State Fault Refusal :=
  .next (act [(8, none)] (fun s => if s.slt.stopped then s else slateRead s l e) s)

/-- SLATE_WRITE: a block write; `e` is what the read of a block that is written in part meets (R251). -/
def execSlateWrite (l : SlateLoc) (off : Nat) (data : Bytes) (crcOk : Bool) (e : ReadErrs) (s : State) :
    Host.Outcome State Fault Refusal :=
  .next (act [(8, none)] (fun s => if s.slt.stopped then s else slateWrite s l off data crcOk e) s)

/-- SCRUB_READ: scrub reads the next block of vault `v`; `raced` says that a foreground write came before its
write-back (R255). -/
def execScrubRead (v : Nat) (e : ReadErrs) (raced : Bool) (s : State) : Host.Outcome State Fault Refusal :=
  .next (act [] (fun s => scrubRead s v e raced) s)

/-- REFRESH: refresh visits the next row of tier `t` (R256). -/
def execRefresh (t : Nat) (s : State) : Host.Outcome State Fault Refusal :=
  .next (act [] (fun s => refreshRow s t) s)

/-- TIER_TEMP_SAMPLE: the sensor of tier `t` reads `raw`, in 0.125 °C (R256, R361). -/
def execTierTempSample (t raw : Nat) (s : State) : Host.Outcome State Fault Refusal :=
  .next (act [] (fun s => tierSample s t raw) s)

/-- ROW_REPAIR: a worn row of vault `v` is copied to a spare row (R257). -/
def execRowRepair (v : Nat) (s : State) : Host.Outcome State Fault Refusal :=
  .next (act [] (fun s => rowRepair s v) s)

/-- LANE_REPAIR: a lane group of vault `v` is steered around a failed lane (R258). -/
def execLaneRepair (v : Nat) (s : State) : Host.Outcome State Fault Refusal :=
  .next (act [] (fun s => laneRepair s v) s)

/-- VAULT_CALIBRATION: the timing calibration of vault `v`, with the lanes it finds failed (R258, R369). -/
def execVaultCalibration (v : Nat) (lanes : List (Nat × Nat)) (s : State) : Host.Outcome State Fault Refusal :=
  .next (act [] (fun s => vaultCalibration s v lanes) s)

/-- VSPARE_TEST_DONE: the target vault's test ends (R260). -/
def execVspareTestDone (ok : Bool) (s : State) : Host.Outcome State Fault Refusal :=
  .next (act [] (fun s => vspareTestDone s ok) s)

/-- VSPARE_CHUNK_COPY: the copy moves one chunk of 8 blocks (R259). -/
def execVspareChunkCopy (errs : List ReadErrs) (s : State) : Host.Outcome State Fault Refusal :=
  .next (act [] (fun s => vspareChunk s errs) s)

/-- VSPARE_SWITCH: the map switches to the target vault (R260). -/
def execVspareSwitch (s : State) : Host.Outcome State Fault Refusal :=
  .next (act [] vspareSwitch s)

/-- SLATE_FILL_DONE: the power-on fill ends: blocks that failed, and spare vaults that failed their test (R254). -/
def execSlateFillDone (bad : List (Nat × Nat)) (failed : List Nat) (s : State) : Host.Outcome State Fault Refusal :=
  .next (act [] (fun s => fillDone s bad failed) s)

end Sys2Proof.Machine
end

