-- ==== Sys2Proof/Machine/TestAccess.lean ====
section
/-!
DEFINITION. Test access: the TAP and its debug interface, and the IEEE 1500 wrapper (R400–R402).
-/

namespace Sys2Proof.Machine

open Sys2Proof

/-! ### The TAP (R400, R401) -/

/-- IDCODE: version, part number, JTAG_MFR and 1. -/
def idcode (s : State) : Nat := 3 * 2 ^ 28 + 0x5674 * 2 ^ 12 + s.test.mfr % 2 ^ 11 * 2 + 1

/-- An instruction of the TAP is selected, and its data register is scanned. (PRESUMED, log entry 68). -/
def tapScan (s : State) (ir bits value : Nat) : State := emit { s with test.ir := ir } (.dr bits value)

/-- Whether the debug level lets an access reach an address: reads and, at full, writes (R379, R401). -/
def dbgAllowed (s : State) (a : Nat) (write : Bool) : Bool :=
  isReady s && decide (1 ≤ s.obs.dbgLevel) && (!write || s.obs.dbgLevel == 2) &&
    (s.obs.dbgMask == 0xFFFF || (match pagePart a with
      | some p => s.obs.dbgMask.getLsbD p
      | none => false))

/-- What the next Capture-DR loads: STATUS, and DATA of a read. -/
def dbgCapture (w : BitVec 96) (status : Nat) (data : Option W64) : BitVec 96 :=
  let n := w.toNat
  let d := match data with
    | some d => d.toNat
    | none => n / 2 ^ 32
  BitVec.ofNat 96 (n % 2 ^ 28 + status * 2 ^ 28 + d * 2 ^ 32)

/-- The register access that a DBG_ACCESS word asks for: one of 64 bits, or of the 32 bits at ADDR. -/
def dbgBeat (w : BitVec 96) : Access :=
  let n := w.toNat
  { port := .dbg, addr := BitVec.ofNat 26 (n % 2 ^ 26 / 8 * 8), write := bitOf n 26, data := BitVec.ofNat 64 (n / 2 ^ 32),
    strb := if bitOf n 27 then 0xFF else 0x0F }

/-- The data that an access would read. -/
def dbgRead (s : State) (x : Access) : W64 :=
  let d := match busOp s x with
    | .unmapped => 0
    | _ => readWord s (Access.word x)
  if x.strb = 0xFF then d else BitVec.ofNat 64 (d.toNat % 2 ^ 32)

/-- The Reckoner in DEBUG of a partition at level full, and its register or DMEM word, that an access reaches where no register stands
(R138). Where they stand in the agent's window is free. (DESIGN CHOICE, log entry 108). -/
def dbgPlace (s : State) (x : Access) : Option (Nat × Config.RknPlace) :=
  let a := rowIdx x.addr.toNat 0x1000000 0x10000
  if decide (0x1000000 ≤ x.addr.toNat) && decide (a < agentCount s) && (rkn s a).st == .debug && debugFull s (rknPart s a)
      && busOp s x == .unmapped then
    (Config.rknPlace (x.addr.toNat % 0x10000 / 8 * 8)).map fun p => (a, p)
  else none

/-- The 64 bits at a place of a Reckoner in DEBUG. -/
def rknPeek (s : State) (a : Nat) : Config.RknPlace → W64
  | .sreg i => getS s a (i % 32)
  | .loop l 0 => BitVec.setWidth 64 ((rkn s a).loops.look (l % 8)).count
  | .loop l 1 => BitVec.setWidth 64 ((rkn s a).loops.look (l % 8)).idx
  | .loop l _ =>
    let x := (rkn s a).loops.look (l % 8)
    BitVec.ofNat 64 (x.start % 2 ^ 16 + x.stop % 2 ^ 16 * 2 ^ 16)
  | .inc i =>
    let x := (rkn s a).incs.look (i % 8)
    BitVec.ofNat 64 (x.stride.toNat + x.level % 8 * 2 ^ 40)
  | .dmem w => BitVec.ofNat 64 (leNat (dmemRead (rkn s a).dmem (8 * w % 262144) 8))

/-- The 64 bits at a place of a Reckoner in DEBUG written. -/
def rknPoke (s : State) (a : Nat) (v : W64) : Config.RknPlace → State
  | .sreg i => setS s a (i % 32) v
  | .loop l 0 => updR s a fun r => { r with loops := r.loops.upd (l % 8) fun x => { x with count := v.setWidth 32 } }
  | .loop l 1 => updR s a fun r => { r with loops := r.loops.upd (l % 8) fun x => { x with idx := v.setWidth 32 } }
  | .loop l _ => updR s a fun r => { r with loops := r.loops.upd (l % 8) fun x =>
      { x with start := v.toNat % 2 ^ 16, stop := v.toNat / 2 ^ 16 % 2 ^ 16 } }
  | .inc i => updR s a fun r => { r with incs := r.incs.upd (i % 8) fun x =>
      { x with stride := v.setWidth 40, level := v.toNat / 2 ^ 40 % 8 } }
  | .dmem w => updR s a fun r => { r with dmem := memPut r.dmem (8 * w % 262144) (leBytes 8 v.toNat) }

/-- A debug access to a Reckoner in DEBUG (R138); one of 32 bits reaches the lower half. -/
def dbgRkn (s : State) (w : BitVec 96) (x : Access) (a : Nat) (p : Config.RknPlace) : State :=
  let old := rknPeek s a p
  let v := if x.strb = 0xFF then x.data else BitVec.ofNat 64 (old.toNat / 2 ^ 32 * 2 ^ 32 + x.data.toNat % 2 ^ 32)
  let seen := if x.strb = 0xFF then old else BitVec.ofNat 64 (old.toNat % 2 ^ 32)
  if x.write then { rknPoke s a v p with test.dbg := dbgCapture w 0 none }
  else { s with test.dbg := dbgCapture w 0 (some seen) }

/-- A scan of DBG_ACCESS: the captured register leaves, and Update-DR starts the access, which is done at once (R401).
(DEDUCED, log entry 5). -/
def dbgAccess (s : State) (w : BitVec 96) : State :=
  let s := tapScan s 0x10 96 s.test.dbg.toNat
  let x := dbgBeat w
  match dbgPlace s x with
  | some (a, p) => dbgRkn s w x a p
  | none =>
  if !dbgAllowed s x.addr.toNat x.write then { count s .obsUnpriv with test.dbg := dbgCapture w 1 none }
  else
    let data := if x.write then none else some (dbgRead s x)
    { onAny s x with test.dbg := dbgCapture w 0 data }

/-! ### The wrapper (R402) -/

/-- TEST_MODE is a static input: the block takes its value while it is in stage RESET (R391).
(DESIGN CHOICE, log entry 67). -/
def sampleTest (s : State) (tm : Bool) : State := if s.crb.stage = .reset then { s with test.testMode := tm } else s

/-- WS_BYPASS, and every instruction that acts as it. -/
def wsBypass (s : State) (wir : Nat) : State := emit { s with test.wir := wir } (.dr 1 0)

/-- WS_PRELOAD. -/
def wsPreload (s : State) (data : Nat) : State := { s with test.wir := 1, test.boundary := data }

/-- A wrapper instruction that acts only in TEST_MODE. -/
def wsTest (s : State) (tm : Bool) (wir : Nat) (f : State → State) : State :=
  let s := sampleTest s tm
  if s.test.testMode then f { s with test.wir := wir } else wsBypass s wir

/-- WS_EXTEST: the boundary register drives the Hub ports. -/
def wsExtest (s : State) (tm : Bool) : State := wsTest s tm 2 fun s => emit s (.boundary s.test.boundary)

/-- WS_INTEST_SCAN of `n` bits: what the internal chains return is not stated. -/
def wsIntest (s : State) (tm : Bool) (n : Nat) : State :=
  wsTest s tm 3 fun s =>
    let (x, s) := freeNat s
    emit s (.dr n (x % 2 ^ n))

/-- MBIST_RUN: `rows` are the failing rows, each as SRAM instance and row. -/
def mbistRun (s : State) (tm : Bool) (rows : List (Nat × Nat)) : State :=
  wsTest s tm 4 fun s => { s with test.mbist := rows }

/-- The 2,048 bits of SLATE_BIST's result register. -/
def bistWord (t : Tab BistRes) : Nat :=
  ((List.range 128).map fun v =>
    let r := t.look v
    (b2n r.pass + min 127 r.lanes * 2 + min 255 r.rows * 2 ^ 8) * 2 ^ (16 * v)).foldl (· + ·) 0

/-- SLATE_BIST with its result for each physical vault. -/
def slateBist (s : State) (tm : Bool) (res : List BistRes) : State :=
  wsTest s tm 5 fun s =>
    let t : Tab BistRes := (List.range 128).foldl (fun t v => t.put v (res.getD v default)) []
    emit { s with test.bist := t } (.dr 2048 (bistWord t))

end Sys2Proof.Machine
end

