-- ==== Sys2Proof/Machine/CmdTest.lean ====
section
/-!
DEFINITION. The commands of test access (chapter 16).
-/

namespace Sys2Proof.Machine

open Sys2Proof

/-- IDCODE: IDCODE is selected and scanned (R400). -/
def execIdcode (s : State) : Host.Outcome State Fault Refusal :=
  .next (act [] (fun s => tapScan s 0x01 32 (idcode s)) s)

/-- DBG_ACCESS: a scan of DBG_ACCESS with the word `w` (R401). -/
def execDbgAccess (w : BitVec 96) (s : State) : Host.Outcome State Fault Refusal :=
  .next (act [] (fun s => dbgAccess s w) s)

/-- BYPASS: BYPASS is selected and scanned (R400). -/
def execBypass (s : State) : Host.Outcome State Fault Refusal :=
  .next (act [] (fun s => tapScan s 0xFF 1 0) s)

/-- WS_BYPASS: WS_BYPASS; `tm` is TEST_MODE (R402). -/
def execWsBypass (tm : Bool) (s : State) : Host.Outcome State Fault Refusal :=
  .next (act [] (fun s => wsBypass (sampleTest s tm) 0) s)

/-- WS_PRELOAD: WS_PRELOAD (R402). -/
def execWsPreload (tm : Bool) (data : Nat) (s : State) : Host.Outcome State Fault Refusal :=
  .next (act [] (fun s => wsPreload (sampleTest s tm) data) s)

/-- WS_EXTEST: WS_EXTEST (R402). -/
def execWsExtest (tm : Bool) (s : State) : Host.Outcome State Fault Refusal :=
  .next (act [] (fun s => wsExtest s tm) s)

/-- WS_INTEST_SCAN: WS_INTEST_SCAN of `n` bits (R402). -/
def execWsIntestScan (tm : Bool) (n : Nat) (s : State) : Host.Outcome State Fault Refusal :=
  .next (act [] (fun s => wsIntest s tm n) s)

/-- MBIST_RUN: MBIST_RUN with the failing rows (R402). -/
def execMbistRun (tm : Bool) (rows : List (Nat × Nat)) (s : State) : Host.Outcome State Fault Refusal :=
  .next (act [] (fun s => mbistRun s tm rows) s)

/-- SLATE_BIST: SLATE_BIST with the result of each physical vault (R402, R416). -/
def execSlateBist (tm : Bool) (res : List BistRes) (s : State) : Host.Outcome State Fault Refusal :=
  .next (act [] (fun s => slateBist s tm res) s)

end Sys2Proof.Machine
end

