-- ==== Sys2Proof/Machine/Dispatch.lean ====
section
/-!
DEFINITION. The effect of each command on everything but the queue of waiting commands: one arm for each row of
spec/opcode_table.json, in the table's order.
-/

namespace Sys2Proof.Machine

open Sys2Proof

/-- What a command does (the rule is that of its meaning). -/
def exec (i : Instr) (s : State) : Host.Outcome State Fault Refusal :=
  match i with
  | .registerWrite x => Sys2Proof.Machine.execRegisterWrite x s
  | .counterWrite x => Sys2Proof.Machine.execCounterWrite x s
  | .unmappedAccess x => Sys2Proof.Machine.execUnmappedAccess x s
  | .unprivAccess x => Sys2Proof.Machine.execUnprivAccess x s
  | .axiAtomicWrite x => Sys2Proof.Machine.execAxiAtomicWrite x s
  | .preReadyAccess x => Sys2Proof.Machine.execPreReadyAccess x s
  | .dbSqTail x => Sys2Proof.Machine.execDbSqTail x s
  | .dbCqHead x => Sys2Proof.Machine.execDbCqHead x s
  | .fetchTurn => Sys2Proof.Machine.execFetchTurn s
  | .ringRecordArrives q recs => Sys2Proof.Machine.execRingRecordArrives q recs s
  | .ringReadError q => Sys2Proof.Machine.execRingReadError q s
  | .fetcherIdle q => Sys2Proof.Machine.execFetcherIdle q s
  | .fetcherResume q => Sys2Proof.Machine.execFetcherResume q s
  | .pad q r => Sys2Proof.Machine.execPad q r s
  | .nop q => Sys2Proof.Machine.execNop q s
  | .fence q => Sys2Proof.Machine.execFence q s
  | .fenceClear q => Sys2Proof.Machine.execFenceClear q s
  | .graphLoad q => Sys2Proof.Machine.execGraphLoad q s
  | .graphImageArrives q seq data => Sys2Proof.Machine.execGraphImageArrives q seq data s
  | .graphLoadComplete q seq => Sys2Proof.Machine.execGraphLoadComplete q seq s
  | .graphLaunch q => Sys2Proof.Machine.execGraphLaunch q s
  | .launchSlotsFree q => Sys2Proof.Machine.execLaunchSlotsFree q s
  | .graphActivate h arg q sqIdx internal => Sys2Proof.Machine.execGraphActivate h arg q sqIdx internal s
  | .sweepComplete h => Sys2Proof.Machine.execSweepComplete h s
  | .launchEnd h => Sys2Proof.Machine.execLaunchEnd h s
  | .taskSubmit q => Sys2Proof.Machine.execTaskSubmit q s
  | .signal q => Sys2Proof.Machine.execSignal q s
  | .graphRelease q => Sys2Proof.Machine.execGraphRelease q s
  | .copyIn q => Sys2Proof.Machine.execCopyIn q s
  | .copyOut q => Sys2Proof.Machine.execCopyOut q s
  | .invalidate q => Sys2Proof.Machine.execInvalidate q s
  | .hostRequestComplete r => Sys2Proof.Machine.execHostRequestComplete r s
  | .chanOpen q => Sys2Proof.Machine.execChanOpen q s
  | .chanClose q => Sys2Proof.Machine.execChanClose q s
  | .flagSet q => Sys2Proof.Machine.execFlagSet q s
  | .flagSetRelease q => Sys2Proof.Machine.execFlagSetRelease q s
  | .flagWait q => Sys2Proof.Machine.execFlagWait q s
  | .flagWaitSatisfied q => Sys2Proof.Machine.execFlagWaitSatisfied q s
  | .queueConfig q => Sys2Proof.Machine.execQueueConfig q s
  | .queueReset q => Sys2Proof.Machine.execQueueReset q s
  | .partitionReset q => Sys2Proof.Machine.execPartitionReset q s
  | .partitionSet q => Sys2Proof.Machine.execPartitionSet q s
  | .autLogConfirm slot => Sys2Proof.Machine.execAutLogConfirm slot s
  | .keySet q => Sys2Proof.Machine.execKeySet q s
  | .rknLoad q => Sys2Proof.Machine.execRknLoad q s
  | .rknQuiesceLoad q => Sys2Proof.Machine.execRknQuiesceLoad q s
  | .quiesceReady q => Sys2Proof.Machine.execQuiesceReady q s
  | .rknLoadEnd q data errs => Sys2Proof.Machine.execRknLoadEnd q data errs s
  | .lockedWrite q => Sys2Proof.Machine.execLockedWrite q s
  | .debugUnlock q => Sys2Proof.Machine.execDebugUnlock q s
  | .completionWriteDone k err => Sys2Proof.Machine.execCompletionWriteDone k err s
  | .hifQResume x => Sys2Proof.Machine.execHifQResume x s
  | .kqEnable x => Sys2Proof.Machine.execKqEnable x s
  | .kqDisable x => Sys2Proof.Machine.execKqDisable x s
  | .retirement n gen res drops => Sys2Proof.Machine.execRetirement n gen res drops s
  | .succListRead k hit => Sys2Proof.Machine.execSuccListRead k hit s
  | .missReturn k => Sys2Proof.Machine.execMissReturn k s
  | .tallyDecrement lane hit => Sys2Proof.Machine.execTallyDecrement lane hit s
  | .backlogMove p => Sys2Proof.Machine.execBacklogMove p s
  | .remoteDec h => Sys2Proof.Machine.execRemoteDec h s
  | .drainEnd h => Sys2Proof.Machine.execDrainEnd h s
  | .dispatchCycle => Sys2Proof.Machine.execDispatchCycle s
  | .holdStart p => Sys2Proof.Machine.execHoldStart p s
  | .occupancyReturn a k => Sys2Proof.Machine.execOccupancyReturn a k s
  | .capacityReport a k => Sys2Proof.Machine.execCapacityReport a k s
  | .sliceRetirement a n gen res drops => Sys2Proof.Machine.execSliceRetirement a n gen res drops s
  | .pdmPartCtrlWrite x => Sys2Proof.Machine.execPdmPartCtrlWrite x s
  | .deadlineSwitchPoint g => Sys2Proof.Machine.execDeadlineSwitchPoint g s
  | .exitSwitch g => Sys2Proof.Machine.execExitSwitch g s
  | .stepBoundary b => Sys2Proof.Machine.execStepBoundary b s
  | .btPoll b => Sys2Proof.Machine.execBtPoll b s
  | .btEnable x => Sys2Proof.Machine.execBtEnable x s
  | .btDisable x => Sys2Proof.Machine.execBtDisable x s
  | .taskLaunch a l => Sys2Proof.Machine.execTaskLaunch a l s
  | .kernelDescCheck a n gen => Sys2Proof.Machine.execKernelDescCheck a n gen s
  | .layerLaunch a l => Sys2Proof.Machine.execLayerLaunch a l s
  | .layerSetupDone a => Sys2Proof.Machine.execLayerSetupDone a s
  | .rknNop a => Sys2Proof.Machine.execRknNop a s
  | .rknEnd a => Sys2Proof.Machine.execRknEnd a s
  | .reckonerDrained a => Sys2Proof.Machine.execReckonerDrained a s
  | .rknBreak a => Sys2Proof.Machine.execRknBreak a s
  | .rknWait a => Sys2Proof.Machine.execRknWait a s
  | .rknFeat a => Sys2Proof.Machine.execRknFeat a s
  | .rknJmp a => Sys2Proof.Machine.execRknJmp a s
  | .rknJal a => Sys2Proof.Machine.execRknJal a s
  | .rknJr a => Sys2Proof.Machine.execRknJr a s
  | .rknBcc a => Sys2Proof.Machine.execRknBcc a s
  | .rknBcci a => Sys2Proof.Machine.execRknBcci a s
  | .rknAdd a => Sys2Proof.Machine.execRknAdd a s
  | .rknSub a => Sys2Proof.Machine.execRknSub a s
  | .rknMul a => Sys2Proof.Machine.execRknMul a s
  | .rknMulhu a => Sys2Proof.Machine.execRknMulhu a s
  | .rknAnd a => Sys2Proof.Machine.execRknAnd a s
  | .rknOr a => Sys2Proof.Machine.execRknOr a s
  | .rknXor a => Sys2Proof.Machine.execRknXor a s
  | .rknShl a => Sys2Proof.Machine.execRknShl a s
  | .rknShr a => Sys2Proof.Machine.execRknShr a s
  | .rknSra a => Sys2Proof.Machine.execRknSra a s
  | .rknSlt a => Sys2Proof.Machine.execRknSlt a s
  | .rknSltu a => Sys2Proof.Machine.execRknSltu a s
  | .rknMin a => Sys2Proof.Machine.execRknMin a s
  | .rknMax a => Sys2Proof.Machine.execRknMax a s
  | .rknMinu a => Sys2Proof.Machine.execRknMinu a s
  | .rknMaxu a => Sys2Proof.Machine.execRknMaxu a s
  | .rknAddi a => Sys2Proof.Machine.execRknAddi a s
  | .rknAndi a => Sys2Proof.Machine.execRknAndi a s
  | .rknOri a => Sys2Proof.Machine.execRknOri a s
  | .rknXori a => Sys2Proof.Machine.execRknXori a s
  | .rknShli a => Sys2Proof.Machine.execRknShli a s
  | .rknShri a => Sys2Proof.Machine.execRknShri a s
  | .rknSrai a => Sys2Proof.Machine.execRknSrai a s
  | .rknSlti a => Sys2Proof.Machine.execRknSlti a s
  | .rknLi a => Sys2Proof.Machine.execRknLi a s
  | .rknLih a => Sys2Proof.Machine.execRknLih a s
  | .rknLdU8 a => Sys2Proof.Machine.execRknLdU8 a s
  | .rknLdU16 a => Sys2Proof.Machine.execRknLdU16 a s
  | .rknLdU32 a => Sys2Proof.Machine.execRknLdU32 a s
  | .rknLd64 a => Sys2Proof.Machine.execRknLd64 a s
  | .rknLdS8 a => Sys2Proof.Machine.execRknLdS8 a s
  | .rknLdS16 a => Sys2Proof.Machine.execRknLdS16 a s
  | .rknLdS32 a => Sys2Proof.Machine.execRknLdS32 a s
  | .rknSt8 a => Sys2Proof.Machine.execRknSt8 a s
  | .rknSt16 a => Sys2Proof.Machine.execRknSt16 a s
  | .rknSt32 a => Sys2Proof.Machine.execRknSt32 a s
  | .rknSt64 a => Sys2Proof.Machine.execRknSt64 a s
  | .rknLoopi a => Sys2Proof.Machine.execRknLoopi a s
  | .rknLoop a => Sys2Proof.Machine.execRknLoop a s
  | .rknSetinc a => Sys2Proof.Machine.execRknSetinc a s
  | .rknSetincr a => Sys2Proof.Machine.execRknSetincr a s
  | .rknRdidx a => Sys2Proof.Machine.execRknRdidx a s
  | .rknOpnd a => Sys2Proof.Machine.execRknOpnd a s
  | .rknTdld a => Sys2Proof.Machine.execRknTdld a s
  | .rknTdst a => Sys2Proof.Machine.execRknTdst a s
  | .rknTdset a => Sys2Proof.Machine.execRknTdset a s
  | .rknEstart a => Sys2Proof.Machine.execRknEstart a s
  | .rknEcfg a => Sys2Proof.Machine.execRknEcfg a s
  | .rknCsend a => Sys2Proof.Machine.execRknCsend a s
  | .csendAnswer a id v data => Sys2Proof.Machine.execCsendAnswer a id v data s
  | .rknCrecv a => Sys2Proof.Machine.execRknCrecv a s
  | .crecvAnswer a id v => Sys2Proof.Machine.execCrecvAnswer a id v s
  | .rknBara a => Sys2Proof.Machine.execRknBara a s
  | .rknBarw a => Sys2Proof.Machine.execRknBarw a s
  | .rknRld a => Sys2Proof.Machine.execRknRld a s
  | .rknRst a => Sys2Proof.Machine.execRknRst a s
  | .rknAtom a => Sys2Proof.Machine.execRknAtom a s
  | .rknInval a => Sys2Proof.Machine.execRknInval a s
  | .rknRoute a => Sys2Proof.Machine.execRknRoute a s
  | .rknCadd a => Sys2Proof.Machine.execRknCadd a s
  | .requestAnswer a id v => Sys2Proof.Machine.execRequestAnswer a id v s
  | .hostWordResponse a id v err => Sys2Proof.Machine.execHostWordResponse a id v err s
  | .rknDbgResume x => Sys2Proof.Machine.execRknDbgResume x s
  | .rknDbgStep x => Sys2Proof.Machine.execRknDbgStep x s
  | .agtSpareForce x => Sys2Proof.Machine.execAgtSpareForce x s
  | .standbySwap a => Sys2Proof.Machine.execStandbySwap a s
  | .reserve c src v => Sys2Proof.Machine.execReserve c src v s
  | .sendData c src off data mask crcOk => Sys2Proof.Machine.execSendData c src off data mask crcOk s
  | .commit c src v => Sys2Proof.Machine.execCommit c src v s
  | .claim c src v => Sys2Proof.Machine.execClaim c src v s
  | .recvData c src off n atomic => Sys2Proof.Machine.execRecvData c src off n atomic s
  | .release c src v => Sys2Proof.Machine.execRelease c src v s
  | .notify c src v => Sys2Proof.Machine.execNotify c src v s
  | .barrierArm b src v full => Sys2Proof.Machine.execBarrierArm b src v full s
  | .barrierArrive b src phase => Sys2Proof.Machine.execBarrierArrive b src phase s
  | .barrierWait b src phase => Sys2Proof.Machine.execBarrierWait b src phase s
  | .retireNotice n gen pairs => Sys2Proof.Machine.execRetireNotice n gen pairs s
  | .groupAtomic src tag aop size8 lanes => Sys2Proof.Machine.execGroupAtomic src tag aop size8 lanes s
  | .routeRequest q => Sys2Proof.Machine.execRouteRequest q s
  | .routingDone k => Sys2Proof.Machine.execRoutingDone k s
  | .caddRequest c misses => Sys2Proof.Machine.execCaddRequest c misses s
  | .tallyWordWrite g t p v => Sys2Proof.Machine.execTallyWordWrite g t p v s
  | .cmbGroupValid x => Sys2Proof.Machine.execCmbGroupValid x s
  | .zeroingDone g => Sys2Proof.Machine.execZeroingDone g s
  | .slateRead l e => Sys2Proof.Machine.execSlateRead l e s
  | .slateWrite l off data crcOk e => Sys2Proof.Machine.execSlateWrite l off data crcOk e s
  | .scrubRead v e raced => Sys2Proof.Machine.execScrubRead v e raced s
  | .refresh t => Sys2Proof.Machine.execRefresh t s
  | .tierTempSample t raw => Sys2Proof.Machine.execTierTempSample t raw s
  | .rowRepair v => Sys2Proof.Machine.execRowRepair v s
  | .laneRepair v => Sys2Proof.Machine.execLaneRepair v s
  | .vaultCalibration v lanes => Sys2Proof.Machine.execVaultCalibration v lanes s
  | .vspareStart x => Sys2Proof.Machine.execVspareStart x s
  | .vspareTestDone ok => Sys2Proof.Machine.execVspareTestDone ok s
  | .vspareChunkCopy errs => Sys2Proof.Machine.execVspareChunkCopy errs s
  | .vspareSwitch => Sys2Proof.Machine.execVspareSwitch s
  | .slateFillDone bad failed => Sys2Proof.Machine.execSlateFillDone bad failed s
  | .fabRequestReceive k => Sys2Proof.Machine.execFabRequestReceive k s
  | .fabResponse k => Sys2Proof.Machine.execFabResponse k s
  | .fabNack k => Sys2Proof.Machine.execFabNack k s
  | .fabRetry t => Sys2Proof.Machine.execFabRetry t s
  | .finalWriteRelease w => Sys2Proof.Machine.execFinalWriteRelease w s
  | .flitReceive k flit => Sys2Proof.Machine.execFlitReceive k flit s
  | .replayTimeout k => Sys2Proof.Machine.execReplayTimeout k s
  | .laneFailure k j => Sys2Proof.Machine.execLaneFailure k j s
  | .lossOfLock k => Sys2Proof.Machine.execLossOfLock k s
  | .fabPortEnable x => Sys2Proof.Machine.execFabPortEnable x s
  | .fabPortDisable x => Sys2Proof.Machine.execFabPortDisable x s
  | .trainResult k aligned => Sys2Proof.Machine.execTrainResult k aligned s
  | .identReceive k ready block port rxNext => Sys2Proof.Machine.execIdentReceive k ready block port rxNext s
  | .stopReceive k => Sys2Proof.Machine.execStopReceive k s
  | .resumeReceive k => Sys2Proof.Machine.execResumeReceive k s
  | .fabReeq k => Sys2Proof.Machine.execFabReeq k s
  | .phyEqDone k => Sys2Proof.Machine.execPhyEqDone k s
  | .powerOnReset released => Sys2Proof.Machine.execPowerOnReset released s
  | .warmReset released => Sys2Proof.Machine.execWarmReset released s
  | .deviceResetSequence => Sys2Proof.Machine.execDeviceResetSequence s
  | .pllLock root => Sys2Proof.Machine.execPllLock root s
  | .pllLockTimeout => Sys2Proof.Machine.execPllLockTimeout s
  | .pllLossOfLock => Sys2Proof.Machine.execPllLossOfLock s
  | .headerVerified norOk logOk header => Sys2Proof.Machine.execHeaderVerified norOk logOk header s
  | .sectionDigest norOk data => Sys2Proof.Machine.execSectionDigest norOk data s
  | .build => Sys2Proof.Machine.execBuild s
  | .ready => Sys2Proof.Machine.execReady s
  | .discardEnd p => Sys2Proof.Machine.execDiscardEnd p s
  | .abort a n gen => Sys2Proof.Machine.execAbort a n gen s
  | .progressWindowEnd => Sys2Proof.Machine.execProgressWindowEnd s
  | .cycleWalkEnd => Sys2Proof.Machine.execCycleWalkEnd s
  | .stopN => Sys2Proof.Machine.execStopN s
  | .thermTripN => Sys2Proof.Machine.execThermTripN s
  | .pmbAlertN fails => Sys2Proof.Machine.execPmbAlertN fails s
  | .inputGlitch k => Sys2Proof.Machine.execInputGlitch k s
  | .globalStopReq x => Sys2Proof.Machine.execGlobalStopReq x s
  | .stopTokenArrive u => Sys2Proof.Machine.execStopTokenArrive u s
  | .allUnitsStopped => Sys2Proof.Machine.execAllUnitsStopped s
  | .cutWritten => Sys2Proof.Machine.execCutWritten s
  | .globalStopResume x => Sys2Proof.Machine.execGlobalStopResume x s
  | .allUnitsRunning => Sys2Proof.Machine.execAllUnitsRunning s
  | .faultInjectArm x => Sys2Proof.Machine.execFaultInjectArm x s
  | .fltLogRead x => Sys2Proof.Machine.execFltLogRead x s
  | .mbxGo x => Sys2Proof.Machine.execMbxGo x s
  | .getHealth src => Sys2Proof.Machine.execGetHealth src s
  | .getSensors src => Sys2Proof.Machine.execGetSensors src s
  | .readLog src => Sys2Proof.Machine.execReadLog src s
  | .updBegin src => Sys2Proof.Machine.execUpdBegin src s
  | .updData src norOk => Sys2Proof.Machine.execUpdData src norOk s
  | .updCommit src norOk => Sys2Proof.Machine.execUpdCommit src norOk s
  | .updAbort src => Sys2Proof.Machine.execUpdAbort src s
  | .updVerifyDone => Sys2Proof.Machine.execUpdVerifyDone s
  | .updProgramDone ok => Sys2Proof.Machine.execUpdProgramDone ok s
  | .deviceReset src => Sys2Proof.Machine.execDeviceReset src s
  | .devReset x => Sys2Proof.Machine.execDevReset x s
  | .entdaa addr => Sys2Proof.Machine.execEntdaa addr s
  | .setEndpointId inst op eid => Sys2Proof.Machine.execSetEndpointId inst op eid s
  | .getEndpointId inst => Sys2Proof.Machine.execGetEndpointId inst s
  | .getMctpVersionSupport inst type => Sys2Proof.Machine.execGetMctpVersionSupport inst type s
  | .getMessageTypeSupport inst => Sys2Proof.Machine.execGetMessageTypeSupport inst s
  | .voltageSample k raw => Sys2Proof.Machine.execVoltageSample k raw s
  | .droop => Sys2Proof.Machine.execDroop s
  | .sensorCrossCheck => Sys2Proof.Machine.execSensorCrossCheck s
  | .powerMeterTick ev hub => Sys2Proof.Machine.execPowerMeterTick ev hub s
  | .pmbusPoll vin iin fails => Sys2Proof.Machine.execPmbusPoll vin iin fails s
  | .logAppend ok eraseOk => Sys2Proof.Machine.execLogAppend ok eraseOk s
  | .logCompact => Sys2Proof.Machine.execLogCompact s
  | .vaultSpareTrigger => Sys2Proof.Machine.execVaultSpareTrigger s
  | .pageSnap x => Sys2Proof.Machine.execPageSnap x s
  | .pageClear x => Sys2Proof.Machine.execPageClear x s
  | .obsMsTick evs => Sys2Proof.Machine.execObsMsTick evs s
  | .trCtrlWrite x => Sys2Proof.Machine.execTrCtrlWrite x s
  | .trRecordWrite => Sys2Proof.Machine.execTrRecordWrite s
  | .trWriteError => Sys2Proof.Machine.execTrWriteError s
  | .blockEnd a core tag => Sys2Proof.Machine.execBlockEnd a core tag s
  | .groupEnd a core tag group => Sys2Proof.Machine.execGroupEnd a core tag group s
  | .engDone a core tag value => Sys2Proof.Machine.execEngDone a core tag value s
  | .credit a counts => Sys2Proof.Machine.execCredit a counts s
  | .agentPortOp a m => Sys2Proof.Machine.execAgentPortOp a m s
  | .dnCredit a => Sys2Proof.Machine.execDnCredit a s
  | .capacityRecord a core res => Sys2Proof.Machine.execCapacityRecord a core res s
  | .idcode => Sys2Proof.Machine.execIdcode s
  | .dbgAccess w => Sys2Proof.Machine.execDbgAccess w s
  | .bypass => Sys2Proof.Machine.execBypass s
  | .wsBypass tm => Sys2Proof.Machine.execWsBypass tm s
  | .wsPreload tm data => Sys2Proof.Machine.execWsPreload tm data s
  | .wsExtest tm => Sys2Proof.Machine.execWsExtest tm s
  | .wsIntestScan tm n => Sys2Proof.Machine.execWsIntestScan tm n s
  | .mbistRun tm rows => Sys2Proof.Machine.execMbistRun tm rows s
  | .slateBist tm res => Sys2Proof.Machine.execSlateBist tm res s
  | .apAct a core => Sys2Proof.Machine.execApAct a core s
  | .answer a core tag status v data => Sys2Proof.Machine.execAnswer a core tag status v data s
  | .imemScrub a inst row standby ce ue => Sys2Proof.Machine.execImemScrub a inst row standby ce ue s
  | .inputInactive k => Sys2Proof.Machine.execInputInactive k s
  | .pcrdGrant r => Sys2Proof.Machine.execPcrdGrant r s

end Sys2Proof.Machine
end

