-- ==== Sys2Proof/Safety.lean ====
section
/-!
DEFINITION. What counts as a safe run, the canonical form of memory, and the calm states in which nothing but a command's
own effect happens.
-/

namespace Sys2Proof.Machine

open Sys2Proof

/-- Memory stands in canonical form: addresses rise strictly, and no entry equals what an unlisted address reads as. -/
def Memory.wf (m : Tab Byte) : Bool := m.canon

/-- A run of `n` steps ends in a next state, without a fault or a refusal. -/
def Safe (n : Nat) (s : State) : Prop := ∃ t, Sys2Proof.core.run n s = .next t

/-- No fault waits for FLT, no operation for a credit, no partner's request for its answer, and nothing for TLY's intake or its
expansion table. -/
def Settled (v : State) : Prop :=
  v.flt.raised = [] ∧ v.held = [] ∧ v.fab.served = [] ∧ v.tly.wait = [] ∧ v.tly.intake = []

/-- No injection point is armed and nothing waits: a command that raises no fault then leaves its own effect and nothing
else. -/
def Calm (s : State) : Prop := regBit s 0xc00100 63 = false ∧ Settled s

/-- In every calm state that is `u` once the list of what the last command sent is emptied, command `i` ends in the next
state `v`, with the Beam packets that `v` has sent under way. -/
def Becomes (i : Instr) (u v : State) : Prop := ∀ s, Calm s → s.quiet = u → exec i s = .next (underWay v)

/-- In every calm state that is `u` once the list of what the last command sent is emptied, command `i` ends in the next
state that `finish` makes of `v`: what waits is taken, the waiting commands and N are as they were. -/
def Ends (i : Instr) (u v : State) : Prop :=
  ∀ s, Calm s → s.quiet = u → exec i s = .next { finish v with pending := u.pending, agents := u.agents }

/-- Command `c` of opcode `op` is at the front of queue `q`, has passed its checks and may start; no command is fetched
behind it, and none of the queue's records is spilled. -/
def Alone (u : State) (q op : Nat) (c : Cmd) : Prop :=
  frontCmd u q op = some c ∧ (queue u q).fetched = [c] ∧ u.hif.spill.any (·.q == q) = false

/-- The word of flag command `c` of queue `q` stands in this block, at Slate address `a` within its partition's data region; the
Slate takes requests, and none of its blocks is bad (R46, R248, R251). -/
def FlagWord (u : State) (q : Nat) (c : Cmd) (a : Nat) : Prop :=
  c.fld 8 52 12 = blockId u ∧ a = hallSlate u (flagPart u q c) (c.fld 8 0 52) ∧
    inData u (flagPart u q c) (flagOff u q c) 8 = true ∧ u.slt.stopped = false ∧
    (u.slt.vaults.any fun e => !e.2.bad.isEmpty) = false

/-- Queue `q` has no work: no command unfinished, no turn, no load, wait or held command, no launch or node of its own, and no
channel open in its name. -/
def Workless (u : State) (q : Nat) : Prop :=
  (queue u q).fetched = [] ∧ (∀ l ∈ (queue u q).live, l.ended = true) ∧ (u.cfe.turn.map (·.q)) ≠ some q ∧
    (∀ x ∈ u.grs.loads, x.q ≠ q) ∧ (∀ x ∈ u.grs.waits, x.src.q ≠ q) ∧ (∀ x ∈ u.codeLoads, x.q ≠ q) ∧
    (∀ x ∈ u.flt.wait, x.q ≠ q) ∧ (∀ x ∈ u.flt.walks, x ≠ q) ∧ (∀ x ∈ u.aut.held, x.q ≠ q) ∧
    (∀ e ∈ u.grs.nodes, e.2.src.q ≠ q ∧ e.2.hdr.src.q ≠ q ∧ ∀ p ∈ e.2.hdr.pend, p.src.q ≠ q) ∧
    (∀ e ∈ u.chn.chans, e.2.queue ≠ q)

/-- A packet that `is` names may arrive in `u`, where `w` is `u` with it off the Beam: none older of its class, source and
destination stands before it there, or no unit of the model has sent it (R18). -/
def Lands (is : Out → Bool) (u w : State) : Prop :=
  match takeFirst is u.beam with
  | none => w = u
  | some (o, rest) =>
    ((u.beam.takeWhile fun x => !is x).any fun x => x.beam == o.beam) = false ∧ w = { u with beam := rest }

/-- Expansion entry `e` has taken its place: the intake keeps nothing before it (R83, R87). -/
def carried (u : State) (e : ExpEntry) : State := { u with tly.exp := u.tly.exp ++ [e] }

/-- The graph at `h` after an activation without a sweep, of a template that no deadline watches: its launch has a new
generation, an entry of the launch table and no retired node, and its carry waits for the expander (R73, R115). -/
def activated (u : State) (h : Nat) (arg : W64) (src : LaunchSrc) : State :=
  { u with
    grs.nodes := u.grs.nodes.upd h fun r => { r with
      gen := r.gen + 1, arg := arg,
      hdr := { r.hdr with lstate := .active, src := src, retired := 0, drops := 0, cplOut := 0, peerClosed := false,
                          switched := false, sweep := false } },
    grs.table := if u.grs.table.contains h then u.grs.table else u.grs.table ++ [h],
    pdm.dl := u.pdm.dl.foldUpd fun _ d => if d.main = h then default else d,
    tly.exp := u.tly.exp ++ [{ node := h, gen := (nd u h).gen + 1, header := true, next := none, parked := false }] }

/-- The graph at `h` may activate in one ac: no sweep, no template, and a place for its carry (R73, R87). -/
def Activates (u : State) (h : Nat) : Prop :=
  (nd u h).hdr.sweep = false ∧ (nd u h).hdr.template = none ∧ u.tly.stopped = false ∧ expCredit u (partOr0 u h) = true

/-- Node `n` is standalone and WAITING with a tally above `w`. -/
def WaitsFor (u : State) (n w : Nat) : Prop :=
  isWork (nd u n).kind = true ∧ (nd u n).st = .waiting ∧ (nd u n).graph = Config.noNode ∧ w < (nd u n).tally

/-- A weight `w` of `k` decrements is subtracted from the tally of `n`, and each is counted (R84). -/
def subtracted (u : State) (n w k : Nat) : State :=
  updN (pageCount (countN (updN u n fun _ => nd u n) .tlyDec k) (partOr0 u n) 3 k) n fun r => { r with tally := r.tally - w }

/-- The authenticator lets command `c` through in `w`, and `v` is what its check leaves: slot and tag are right, the counter
is newer than the slot's last and crosses no multiple of 65,536 beyond the logged one, and the later tests find no fault
(R42, R54, R56). -/
def Passed (w : State) (q : Nat) (c : Cmd) (v : State) : Prop :=
  (keySlot w (extSlot c)).st = .valid ∧ (c.op = 0xC1 → extSlot c = 0) ∧
    authTag (keySlot w (extSlot c)).key c = extTag c ∧ (keySlot w (extSlot c)).last.toNat < extCounter c ∧
    extCounter c / 65536 ≤ (keySlot w (extSlot c)).logged / 65536 ∧
    v = { w with aut.slots := w.aut.slots.upd (extSlot c) fun k => { k with last := BitVec.ofNat 64 (extCounter c) } } ∧
    lateFault v q c = none

/-- The Reckoner of agent `a` runs, and the word `w` at its PC holds opcode `code` (R147). -/
def AtIns (u : State) (a code w : Nat) : Prop :=
  agtShut u a = false ∧ (rkn u a).st = .running ∧ rknWordAt u a = w ∧ w % 256 = code

/-- No register that instruction `i` reads or writes awaits a result, and none of its halt checks fails (R148). -/
def Clear (u : State) (a : Nat) (i : RknIns) : Prop :=
  (i.srcs.any (isPend u a)) = false ∧ isPend u a i.dst = false ∧ i.fixed = [] ∧ i.made u a = []

/-- `v` once the instruction at the PC of `u` is behind the Reckoner: the PC moves on or loops back, and the instruction
counts (R134, R140). -/
def stepped (u : State) (a : Nat) (v : State) : State :=
  rknCompleted (updR v a fun r => loopBack (rkn u a).pc.toNat r.depth r) a

/-- `v` once a jump to `t` is taken, which leaves the levels that do not hold the target, and counts (R134, R140). -/
def jumped (a t : Nat) (v : State) : State := rknCompleted (updR v a fun r => branchTo r t) a

/-- A request with claims `l` may be taken now: no acquire holds it, a place is free, and its claims can be entered
(R167, R170). -/
def Accepts (u : State) (a : Nat) (l : List Claim4) : Prop :=
  acquireHolds u a = false ∧ (rkn u a).reqs.length < 32 ∧ sbReady u a (l.map fun c => (c, none)) = true

/-- Request `q` has taken its place, its claims `l` and its pending mark (R149, R167). -/
def queued (u : State) (a : Nat) (q : RknReq) (l : List Claim4) : State :=
  setPend (count (updR u a fun r =>
    { r with nextReq := r.nextReq + 1, reqs := r.reqs ++ [q],
             sb := r.sb ++ l.map fun c => { id := q.id, req := true, eng := 0, engCore := 0, space := c.space, core := c.core,
                                            lo := c.lo, hi := c.hi, write := c.write } }) (.rknReq a)) a q.rd true

/-- No control message, header or write waits in FAB to leave, and no port holds a header for another block (R283, R284,
R297). -/
def FabIdle (u : State) : Prop :=
  (∀ k, k < 8 → (port u k).ctlQ = [] ∧ ((port u k).inBuf.all fun h => h.dstBlock == blockId u) = true) ∧
    u.fab.sendQ = [] ∧ u.fab.noEntry = [] ∧ u.fab.seqWait = []

/-- No link is up, and nothing waits in FAB to leave (R297). -/
def Unlinked (u : State) : Prop := (∀ k, k < 8 → (port u k).st ≠ .up) ∧ FabIdle u

/-- What beat `b` gives the register at `a`: its value, and the bits that its strobes cover. -/
def beatVal (u : State) (b : Beat) (a : Nat) : Nat :=
  if is64 u b.addr then b.data else b.data / 2 ^ (8 * (a - b.addr)) % 2 ^ 32
def beatMask (u : State) (b : Beat) (a : Nat) : Nat :=
  if is64 u b.addr then b.mask else b.mask / 2 ^ (8 * (a - b.addr)) % 2 ^ 32

/-- Beat `b` reaches the register at `a` alone, outside the mailbox buffer; it changes no field that Ready has locked, and none
that is still open stands there (R11). -/
def OneReg (u : State) (b : Beat) (a : Nat) : Prop :=
  inBuf b.addr = false ∧
    (isReady u = true → mergeBits (readWord u b.addr).toNat b.data (b.mask &&& lockMask u b.addr) = (readWord u b.addr).toNat) ∧
    openLock u a = 0 ∧ touched u b = [a]

/-- The register at `a` with the RW bits of beat `b` written (R11, R394). -/
def rwWritten (u : State) (b : Beat) (a : Nat) : W64 :=
  BitVec.ofNat 64 (mergeBits (regGet u a).toNat (beatVal u b a) (beatMask u b a &&& rwMask u a))

/-- A register write uses up the held half of its register (R13). -/
def halfUsed (u : State) (x : Access) : State := { u with hif.half := u.hif.half.put (Access.word x) none }

/-- What every register write leaves beside its own effect: no half of the register is held any more (R13), and the port
has its answer, OKAY (R394). -/
def wrote (u : State) (x : Access) : State := { halfUsed u x with out := [.axi false 0] }

/-- What every register read leaves: the port has its answer, OKAY with the data (R394). -/
def answered (u : State) (data : W64) : State := { u with out := [.axi false data] }

end Sys2Proof.Machine
end

