-- ==== Sys2Proof/Certificates/Slice0/Obligations.lean ====
section
/-!
DEFINITION. The statements about the block: what each command does to its state, and what every step keeps.
`Becomes i u v` and `Ends i u v` (Sys2Proof.Safety) say that command `i` ENDS IN A NEXT STATE in every calm state, and which:
everything that `v` does not name is as it was in `u`.
-/

open Sys2Proof Sys2Proof.Machine

/-! ### The block as a whole -/

/-- A step takes the command at the front of the queue and runs it with the queue's rest; with no command waiting, one
qc passes once a PLL has locked (the model's choice, log entry 2): the timestamp and the sums over each ac advance. -/
def Obligations.StepRunsTheFrontCommand : Prop :=
  ∀ (s : State) (c : Instr) (rest : List Instr),
    step { s with pending := c :: rest } = exec c { s with pending := rest } ∧
    step { s with pending := [] } = .next (tick { s with pending := [] }) ∧
    (clocked s = false → tick s = s) ∧
    (clocked s = true → (tick s).ts = s.ts + 1) ∧
    (clocked s = true → isReady s = false → tick s = { s with ts := s.ts + 1, tly := { s.tly with last := none } }) ∧
    (tick s).pending = s.pending ∧ (tick s).mem = s.mem ∧ (tick s).queues = s.queues ∧ (tick s).regs = s.regs

/-- Every command ends in a next state, which leaves the queue and N as they were, and does not depend on what the
command before it sent. What `Ends` and `Becomes` say of a command: with nothing left waiting, a command that ends so
has its own effect and nothing else; with one fault raised, FLT takes that fault. What a command sends on the Beam is
under way behind what is there; a packet does not arrive before an older one of its class, source and destination, and
no other packet hinders it (R18). -/
def Obligations.EveryCommandCompletes : Prop :=
  (∀ (i : Instr) (s : State), ∃ t, exec i s = .next t ∧ t.pending = s.pending ∧ t.agents = s.agents ∧
     exec i s.quiet = .next t) ∧
  ((∀ v, Settled v → finish v = underWay v) ∧
   (∀ i u v, Ends i u v → Settled v → v.pending = u.pending → v.agents = u.agents → Becomes i u v) ∧
   (∀ i u v, Becomes i u v → ∀ s, Calm s → s.quiet = u → exec i s = .next (underWay v)) ∧
   (∀ v w f, v.flt.raised = [f] → w = bootFault (takeFault { v with flt := { v.flt with raised := [] } } f) f → Settled w →
     finish v = underWay w) ∧
   (∀ v, (underWay v).beam = v.beam ++ v.out.filter (·.beam.isSome)) ∧
   (∀ (u : State) (is : Out → Bool) (o : Out) (rest : List Out), takeFirst is u.beam = some (o, rest) →
     ((∀ x ∈ u.beam.takeWhile (fun y => !is y), x.beam ≠ o.beam) → Lands is u { u with beam := rest }) ∧
     ((∃ x ∈ u.beam.takeWhile (fun y => !is y), x.beam = o.beam) →
       (∀ n gen res drops, is = isRetire n gen res drops → Becomes (.retirement n gen res drops) u u) ∧
       (∀ a k, is = isOcc a k → Becomes (.occupancyReturn a k) u u) ∧
       (∀ a n gen, is = isAbort a n gen → Becomes (.abort a n gen) u u))))

/-- No fault waits from one command to the next: every step hands each fault raised to FLT in its own ac (R329), and
takes exactly one command off the queue, whatever N is. -/
def Obligations.NoFaultWaits : Prop :=
  ∀ s t : State, step s = .next t → s.flt.raised = [] →
    t.flt.raised = [] ∧ t.agents = s.agents ∧ t.pending = s.pending.tail

/-- The state after reset meets that invariant: no fault waits, no command waits, no injection point is armed and no
partner's request is held; memory is in canonical form, and no unit is stopped. -/
def Obligations.ResetHolds : Prop :=
  State.reset.flt.raised = [] ∧ State.reset.pending = [] ∧ Calm State.reset ∧ Settled State.reset ∧
    Memory.wf State.reset.mem = true ∧ State.reset.flt.stop = .running ∧ isReady State.reset = false ∧
    State.reset.crb.stage = .reset ∧ State.reset.slt.stopped = false ∧ State.reset.fab.stopped = false

/-- What a byte of the Slate reads as: zero where nothing is written (R254), what was written last where something is,
and every write keeps the memory's one canonical form and the bytes outside it. Where a Slate address lies (R245):
each of the 120 logical vaults holds 1,835,008 blocks of 256 B, consecutive blocks lie in consecutive vaults, its
vault block gives row, tier, bank and column, and no two addresses share a place. -/
def Obligations.SlateBytesAndPlaces : Prop :=
  ((∀ a, memByte State.reset a = 0) ∧
   (∀ s a b, Memory.wf s.mem = true → Memory.wf (memWrite s a b).mem = true) ∧
   (∀ s a b, Memory.wf s.mem = true → memRead (memWrite s a b) a b.length = b) ∧
   (∀ s a b j, Memory.wf s.mem = true → (j < a ∨ a + b.length ≤ j) → memByte (memWrite s a b) j = memByte s j) ∧
   (∀ s a n, Memory.wf s.mem = true → Memory.wf (zeroMem s a n).mem = true) ∧
   (∀ x n, leNat (leBytes n x) = x % 256 ^ n)) ∧
  ((∀ a, a < 56371445760 → vaultOf a < 120 ∧ vaultBlock a < 1835008 ∧
     a = (vaultBlock a * 120 + vaultOf a) * 256 + a % 256) ∧
   (∀ a, vaultOf a < 119 → vaultOf (a + 256) = vaultOf a + 1 ∧ vaultBlock (a + 256) = vaultBlock a) ∧
   (∀ a, vaultOf a = 119 → vaultOf (a + 256) = 0 ∧ vaultBlock (a + 256) = vaultBlock a + 1) ∧
   (∀ a vb, a < 56371445760 → vb = vaultBlock a → vb / 1024 < 1792 ∧
     rowKey vb = (vb / 1024 * 16 + vb / 64 % 16) * 8 + vb / 8 % 8 ∧
     a = ((((vb / 1024 * 16 + vb / 64 % 16) * 8 + vb / 8 % 8) * 8 + vb % 8) * 120 + vaultOf a) * 256 + a % 256) ∧
   (vaultOf 0x140000100 = 81 ∧ vaultBlock 0x140000100 = 170 * 1024 + 10 * 64 + 5 * 8 + 2))

/-- Counters (R5): a counter rises by what it counts and stays at all ones once there. -/
def Obligations.CountersSaturate : Prop :=
  ∀ (s : State) (c : Ctr) (n : Nat), c.bits ≤ 64 →
    (regGet (countN s c n) c.addr).toNat =
        min ((regGet s c.addr).toNat + n) (2 ^ c.bits - 1) ∧
    ((regGet s c.addr).toNat = 2 ^ c.bits - 1 → (regGet (count s c) c.addr).toNat = 2 ^ c.bits - 1) ∧
    (countN s c n).mem = s.mem ∧ (countN s c n).queues = s.queues ∧ (countN s c n).flt = s.flt

/-! ### Register accesses -/

/-- DB_SQ_TAIL latches the index and sets PEND, or is ignored and counted (R34, R35, R325). DB_CQ_HEAD takes an index
between the head and the completion tail, or is ignored and counted (R34, R325). -/
def Obligations.DoorbellWrites : Prop :=
  (∀ (u : State) (x : Access) (q : Nat), x.port ≠ .dbg → busOp u x = .sqTail q →
     Becomes (.dbSqTail x) u
       (if x.strb.toNat % 4 = 3 ∧ (isReady u = false ∨
           ((queue u q).st ≠ .disabled ∧ x.data.toNat % 2 ^ 16 < sqSize u q)) then
         { wrote u x with queues := u.queues.upd q fun k => { k with tail := x.data.toNat % 2 ^ 16, pend := true } }
       else count (wrote u x) .hifDbIgn)) ∧
  (∀ (u : State) (x : Access) (q : Nat), x.port ≠ .dbg → busOp u x = .cqHead q →
     Becomes (.dbCqHead x) u
       (if x.strb.toNat % 4 = 3 ∧ isReady u = true ∧ (queue u q).st ≠ .disabled ∧ x.data.toNat % 2 ^ 16 < cqSize u q ∧
           (x.data.toNat % 2 ^ 16 + cqSize u q - (queue u q).cplHead) % cqSize u q ≤ cqUsed u q then
         { wrote u x with queues := u.queues.upd q fun k => { k with cplHead := x.data.toNat % 2 ^ 16 } }
       else count (wrote u x) .hifDbIgn))

/-- Accesses that reach no register: each is answered, counted where the rules count it, and changes nothing else
(R12, R324, R372, R394). Which accesses reach no register: before Ready every AXI5 access but a doorbell's, from Ready
on an unprivileged access outside the pages that are open to it, and otherwise an access whose bytes touch no register
(R12, R324, R372). -/
def Obligations.AccessesTurnedAway : Prop :=
  (∀ (u : State) (x : Access), x.port ≠ .dbg →
     (busOp u x = .unmapped → Becomes (.unmappedAccess x) u (answered (count u .hifUnmapped) 0)) ∧
     (busOp u x = .unpriv → Becomes (.unprivAccess x) u (answered (count u .obsUnpriv) 0)) ∧
     (busOp u x = .preReady → x.write = true → Becomes (.preReadyAccess x) u (answered (count u .crbBootIgn) 0)) ∧
     (busOp u x = .preReady → x.write = false →
       Becomes (.preReadyAccess x) u (answered u (earlyRead u (Access.word x)))) ∧
     (∀ p, x.port = .axi p →
       Becomes (.axiAtomicWrite x) u { count u .hifUnmapped with out := [.axi true 0] })) ∧
  (∀ (u : State) (x : Access) (p : Bool), x.port = .axi p →
     (isReady u = false → pageQueue (Access.word x) = none → busOp u x = .preReady) ∧
     (isReady u = true → p = false → privileged (Access.word x) = true → busOp u x = .unpriv) ∧
     (isReady u = true → (p = true ∨ privileged (Access.word x) = false) → is64 u (Access.word x) = false → regWidth u (Access.word x) = none →
       regWidth u (Access.word x + 4) = none → busOp u x = .unmapped))

/-- A read gives the register's value and changes nothing but what the read of FLT_LOG removes (R11, R329, R394). A
write of a 64-bit register in two halves: the low half alone is held, the high half alone brings it along, and a write
of all 8 bytes is taken whole (R13). A write reaches the registers of its beat: of a register with plain RW fields the
strobed RW bits take the written ones, and a counter takes its strobed bytes (R11, R371). -/
def Obligations.RegistersReadAndWritten : Prop :=
  (∀ (u : State) (x : Access), x.port ≠ .dbg → x.write = false →
     (busOp u x = .plain → (beatOf u x).addr ≠ 0x600240 →
       Becomes (.registerWrite x) u (answered u (readWord u (Access.word x)))) ∧
     (busOp u x = .logRead →
       Becomes (.fltLogRead x) u
         { answered u (BitVec.ofNat 64 (readReg u 0xc00028)) with flt.log := u.flt.log.tail })) ∧
  (∀ (u : State) (x : Access), x.port ≠ .dbg →
     (busOp u x = .plain → splitHalf u x = true →
       Becomes (.registerWrite x) u
         { answered u 0 with hif.half := u.hif.half.put (Access.word x) (some (x.data.setWidth 32, x.strb.setWidth 4)) }) ∧
     (∀ lo st, u.hif.half.look (Access.word x) = some (lo, st) → is64 u (Access.word x) = true →
       x.strb.toNat % 16 = 0 → x.strb.toNat / 16 ≠ 0 →
       beatOf u x = { addr := Access.word x, data := lo.toNat + x.data.toNat / 2 ^ 32 * 2 ^ 32,
                      strb := st.toNat + x.strb.toNat }) ∧
     (x.strb = 0xFF → splitHalf u x = false ∧
       beatOf u x = { addr := Access.word x, data := x.data.toNat, strb := 0xFF })) ∧
  (∀ (u : State) (x : Access), x.port ≠ .dbg → x.write = true →
     (busOp u x = .plain → splitHalf u x = false →
       Ends (.registerWrite x) u (emit (writeBeat (halfUsed u x) x.port (beatOf u x)) (.axi false 0))) ∧
     (busOp u x = .counter →
       Ends (.counterWrite x) u (emit (writeBeat (halfUsed u x) x.port (beatOf u x)) (.axi false 0))) ∧
     (∀ (a v m : Nat) (c : Ctr), counterAt u a = some c →
       writeReg u x.port a v m = regSet u a (BitVec.ofNat 64 (mergeBits (regGet u a).toNat v m % 2 ^ c.bits))) ∧
     (∀ (a v m : Nat), regGet (plainWrite u a v m) a =
       BitVec.ofNat 64 (mergeBits (regGet u a).toNat v (m &&& (rwMask u a ||| openLock u a)))) ∧
     (∀ (a v m : Nat), isReady u = true → rwMask u a = 0 → plainWrite u a v m = u) ∧
     (∀ (b : Beat) (a : Nat), b = beatOf u x → OneReg u b a →
       (busOp u x = .plain → splitHalf u x = false → counterAt u a = none → beatMask u b a &&& rwMask u a ≠ 0 →
         Becomes (.registerWrite x) u { wrote u x with regs := u.regs.put a (rwWritten u b a) }) ∧
       (∀ c, busOp u x = .counter → counterAt u a = some c →
         Becomes (.counterWrite x) u
           { wrote u x with
               regs := u.regs.put a
                 (BitVec.ofNat 64 (mergeBits (regGet u a).toNat (beatVal u b a) (beatMask u b a) % 2 ^ c.bits)) })))

/-- HIF_Q_RESUME: ignored and counted where the queue is not STOPPED or its records are on their way; its spilled
records are sent again, oldest first; with none left the queue runs again (R60, R61). HIF_KQ_CFG.EN: 1 with legal ring
sizes and aligned bases enables a kernel queue, empty and IDLE, without records of its earlier life; with others the
write is ignored and counted; 0 disables it (R30, R48, R49). -/
def Obligations.QueueSwitches : Prop :=
  (∀ (u : State) (x : Access) (q : Nat), x.port ≠ .dbg → busOp u x = .qResume →
     q = (x.data.toNat &&& strobeBits x.strb.toNat) % 2 ^ 13 →
     ((isQueue q = false ∨ (queue u q).st ≠ .stopped ∨ u.hif.flight.any (fun i => i.q == q && i.resumed) = true) →
       Becomes (.hifQResume x) u (count (wrote u x) .hifCtrlIgn)) ∧
     (isQueue q = true → (queue u q).st = .stopped → u.hif.flight.any (fun i => i.q == q && i.resumed) = false →
       (u.hif.spill.any (·.q == q) = true →
         let again := (u.hif.spill.filter (·.q == q)).map fun i => { i with resumed := true }
         Becomes (.hifQResume x) u
           { wrote u x with hif.flight := u.hif.flight ++ again,
                            out := again.map (fun i => .cplWrite (cqBase u q + 32 * i.slot) (cplBytes i.record)) ++ [.axi false 0] }) ∧
       (u.hif.spill.any (·.q == q) = false → (queue u q).fetched = [] → (u.cfe.turn.map (·.q)) ≠ some q →
         Becomes (.hifQResume x) u
           { wrote u x with queues := u.queues.upd q fun k => { k with st := runState u q, reason := .none } }))) ∧
  (∀ (u : State) (x : Access) (q : Nat), x.port ≠ .dbg →
     (busOp u x = .kqOn q → ∀ b cfg, b = beatOf (halfUsed u x) x →
       cfg = BitVec.ofNat 64 (kqCfgNew u b.addr b.data b.mask + 2 ^ 31) →
       ((4 ≤ bitsOf cfg.toNat 4 0 ∧ bitsOf cfg.toNat 4 0 ≤ 16 ∧ 4 ≤ bitsOf cfg.toNat 12 8 ∧ bitsOf cfg.toNat 12 8 ≤ 16 ∧
           regFld u (kqAddr q) 5 0 = 0 ∧ regFld u (kqAddr q + 8) 4 0 = 0) →
         Becomes (.kqEnable x) u
           { wrote u x with
               regs := u.regs.put b.addr cfg,
               queues := u.queues.upd q fun k => { (default : Queue) with st := .idle, phase := true, seq := k.seq },
               hif := { (wrote u x).hif with spill := u.hif.spill.filter (·.q != q),
                                             flight := u.hif.flight.filter (·.q != q),
                                             waiting := u.hif.waiting.filter (·.q != q) } }) ∧
       (¬(4 ≤ bitsOf cfg.toNat 4 0 ∧ bitsOf cfg.toNat 4 0 ≤ 16 ∧ 4 ≤ bitsOf cfg.toNat 12 8 ∧ bitsOf cfg.toNat 12 8 ≤ 16 ∧
           regFld u (kqAddr q) 5 0 = 0 ∧ regFld u (kqAddr q + 8) 4 0 = 0) →
         Becomes (.kqEnable x) u (count (wrote u x) .hifCtrlIgn))) ∧
     (busOp u x = .kqOff q →
       Ends (.kqDisable x) u (emit (kqDisable (halfUsed u x) q (beatOf (halfUsed u x) x)) (.axi false 0)) ∧
       (∀ b, (queue (kqDisable u q b) q).st = .disabled ∧ regBit (kqDisable u q b) b.addr 31 = false) ∧
       ∀ b n, b = beatOf (halfUsed u x) x → kqCfgBad u b.addr b.data b.mask = false → Workless u q →
         n = kqCfgNew u b.addr b.data b.mask → Becomes (.kqDisable x) u
           { wrote u x with
               regs := u.regs.put b.addr (BitVec.ofNat 64 (n - n / 2 ^ 31 % 2 * 2 ^ 31)),
               queues := u.queues.upd q fun k => { k with st := .disabled, reason := .none, pend := false, want := 0,
                                                          found := false } }))

/-- Controls of DIS, PDM and the agents: PAUSE takes its strobed bits; a batching table is enabled where its checks
hold, counted where they do not, and disabled at once or after its step; DEBUG ends or steps; FORCE asks for the
standby (R109, R121, R122, R138, R145). CMB_GRP_A.VALID and SLT_VSPARE_CTRL.START: a group whose checks hold is
zeroed, a spare-in whose vaults fit starts, and either is ignored and counted otherwise; only management firmware
starts a spare-in (R235, R260, R355). FAB_PORT_CFG.EN: 1 starts training of a DOWN port, 0 takes the port DOWN with
what it held lost (R291, R294). -/
def Obligations.UnitSwitches : Prop :=
  (∀ (u : State) (x : Access), x.port ≠ .dbg →
     (busOp u x = .pause →
       Ends (.pdmPartCtrlWrite x) u (emit (writeBeat (halfUsed u x) x.port (beatOf u x)) (.axi false 0)) ∧
       (∀ v m, writeReg u x.port 0x500000 v m = plainWrite u 0x500000 v m ∧ rwMask u 0x500000 = 0xFFFF) ∧
       (∀ b, b = beatOf u x → OneReg u b 0x500000 → beatMask u b 0x500000 &&& 0xFFFF ≠ 0 →
         Becomes (.pdmPartCtrlWrite x) u { wrote u x with regs := u.regs.put 0x500000 (rwWritten u b 0x500000) })) ∧
     (∀ b, busOp u x = .btOn b → (bt u b).st = .off → (bt u b).interrupted = false →
       ∀ v, v = mergeBits (regGet u (btAddr b)).toNat (beatOf u x).data (beatOf u x).mask → bitOf v 0 = true →
       (btChecks (regSet u (btAddr b) (BitVec.ofNat 64 ((v &&& btCfgMask) + 1))) b = true →
         Becomes (.btEnable x) u
           { wrote u x with regs := u.regs.put (btAddr b) (BitVec.ofNat 64 ((v &&& btCfgMask) + 1)),
                            pdm.bt := u.pdm.bt.upd b fun t => { t with st := .idle, stopping := false } }) ∧
       (btChecks (regSet u (btAddr b) (BitVec.ofNat 64 ((v &&& btCfgMask) + 1))) b = false →
         Becomes (.btEnable x) u (count (wrote u x) .pdmBtErr))) ∧
     (∀ b, busOp u x = .btOff b → (bt u b).st ≠ .off →
       ∀ v, v = mergeBits (regGet u (btAddr b)).toNat (beatOf u x).data (beatOf u x).mask → bitOf v 0 = false →
       v &&& btCfgMask = (regGet u (btAddr b)).toNat &&& btCfgMask →
         Becomes (.btDisable x) u
           { wrote u x with regs := u.regs.put (btAddr b) (BitVec.ofNat 64 (v &&& btCfgMask)),
                            pdm.bt := u.pdm.bt.upd b fun t =>
                              if t.st = .stepping then { t with stopping := true } else { t with st := .off } }) ∧
     (∀ a, busOp u x = .dbgResume a →
       (dbgIgnored u a = true → Becomes (.rknDbgResume x) u (count (wrote u x) (.agtBadLaunch a))) ∧
       (dbgIgnored u a = false → (rkn u a).atBreak = false →
         Becomes (.rknDbgResume x) u
           { wrote u x with agt := u.agt.upd a fun g => { g with rkn := { g.rkn with st := .running } } })) ∧
     (∀ a, busOp u x = .dbgStep a →
       (dbgIgnored u a = true → Becomes (.rknDbgStep x) u (count (wrote u x) (.agtBadLaunch a))) ∧
       (dbgIgnored u a = false →
         let w := updR (passBreak (halfUsed u x) a) a fun r => { r with st := .running, stepping := true }
         Ends (.rknDbgStep x) u
           (emit (rknRow w a (rknWordAt w a % 256) (insOf hifFeat (rknWordAt w a % 256) a)) (.axi false 0))) ∧
       (dbgIgnored u a = false → (rkn u a).atBreak = false → agtShut u a = false → rknWordAt u a = 1 →
         ∀ w, w = updR (halfUsed u x) a (fun r => { r with st := .running, stepping := true }) →
         Becomes (.rknDbgStep x) u (emit (stepped w a w) (.axi false 0)))) ∧
     (∀ a, busOp u x = .spareForce a →
       Ends (.agtSpareForce x) u (emit (requestSwap (writeBeat (halfUsed u x) x.port (beatOf u x)) a) (.axi false 0)) ∧
       ((agt u a).spareUsed = false → (agt (requestSwap u a) a).swapReq = true) ∧
       ((agt u a).spareUsed = true → requestSwap u a = logRecord u 7 a 1) ∧
       ∀ b r, b = beatOf u x → r = agentBase a + 0x28 → OneReg u b r → counterAt u r = none →
         beatMask u b r &&& rwMask u r ≠ 0 → (agt u a).spareUsed = false →
         Becomes (.agtSpareForce x) u
           { wrote u x with regs := u.regs.put r (rwWritten u b r), agt := u.agt.upd a fun g => { g with swapReq := true } })) ∧
  (∀ (u : State) (x : Access), x.port ≠ .dbg →
     (∀ g, busOp u x = .grpValid g →
       Ends (.cmbGroupValid x) u (emit (writeBeat (halfUsed u x) x.port (beatOf u x)) (.axi false 0))) ∧
     (∀ g v, grpValid u g = false → bitOf v 63 = true → ∀ s1, s1 = regSet u (grpAddr g)
         (BitVec.ofNat 64 ((regGet u (grpAddr g)).toNat - ((regGet u (grpAddr g)).toNat &&& grpMask 0) + (v &&& grpMask 0))) →
       (grpChecks s1 g = true → (grp u g).st = .idle →
         (grp (grpWrite u g 0 v) g).st = .zeroing ∧ (grp (grpWrite u g 0 v) g).done = 0 ∧
           grpWrite u g 0 v = updG (regSetFld s1 (grpAddr g) 63 63 1) g fun y => { y with st := .zeroing, done := 0 }) ∧
       ((grpChecks s1 g = false ∨ (grp u g).st ≠ .idle) → grpWrite u g 0 v = count u .cmbCfgIgn)) ∧
     (∀ g b v s1, busOp u x = .grpValid g → b = beatOf u x → OneReg u b (grpAddr g) → g < 256 →
       v = mergeBits (regGet u (grpAddr g)).toNat (beatVal u b (grpAddr g)) (beatMask u b (grpAddr g)) → bitOf v 63 = true →
       s1 = regSet u (grpAddr g)
         (BitVec.ofNat 64 ((regGet u (grpAddr g)).toNat - ((regGet u (grpAddr g)).toNat &&& grpMask 0) + (v &&& grpMask 0))) →
       grpValid u g = false → grpChecks s1 g = true → (grp u g).st = .idle →
       Becomes (.cmbGroupValid x) u
         { wrote u x with regs := (regSetFld s1 (grpAddr g) 63 63 1).regs,
                          cmb := { u.cmb with grps := u.cmb.grps.upd g fun y => { y with st := .zeroing, done := 0 } } }) ∧
     (busOp u x = .vspare → ∀ b w l t, b = beatOf u x →
       w = mergeBits (regGet u 0xa02000).toNat b.data (b.mask &&& 0xF7F7F) →
       l = bitsOf (BitVec.ofNat 64 w).toNat 6 0 → t = bitsOf (BitVec.ofNat 64 w).toNat 14 8 →
       (x.port = .mgt → ((u.slt.vs = .idle ∨ u.slt.vs = .failed) ∧ l ≤ 119 ∧ t < 128 ∧ (vault u t).role = .spare) →
         Becomes (.vspareStart x) u
           { wrote u x with
               regs := u.regs.put 0xa02000 (BitVec.ofNat 64 w),
               slt := { u.slt with vaults := u.slt.vaults.upd t fun y => { y with role := .target },
                                   vs := .test, vsLogical := l, vsTarget := t, cursor := 0 } }) ∧
       (x.port = .mgt → ¬((u.slt.vs = .idle ∨ u.slt.vs = .failed) ∧ l ≤ 119 ∧ t < 128 ∧ (vault u t).role = .spare) →
         Becomes (.vspareStart x) u (count (wrote u x) .sltCfgIgn)) ∧
       (x.port ≠ .mgt → b.mask ≠ 0 → Becomes (.vspareStart x) u (count (wrote u x) .sltCfgIgn)))) ∧
  (∀ (u : State) (x : Access) (k : Nat), x.port ≠ .dbg →
     (busOp u x = .portOn k →
       Ends (.fabPortEnable x) u (emit (portEnable (portWrite (halfUsed u x) x.port k (beatOf u x)) k) (.axi false 0))) ∧
     (busOp u x = .portOff k →
       Ends (.fabPortDisable x) u (emit (portDisable (portWrite (halfUsed u x) x.port k (beatOf u x)) k) (.axi false 0))) ∧
     (∀ p b, regFld (portWrite u p k b) (portCfg k) 0 0 = b2n (bitOf b.data 0)) ∧
     (∀ b r, b = beatOf u x → k < 8 → OneReg u b (portCfg k) →
       r = (regSetFld (regSet u (portCfg k) (rwWritten u b (portCfg k))) (portCfg k) 0 0 (b2n (bitOf b.data 0))).regs →
       (busOp u x = .portOn k → (port u k).st = .down →
         Becomes (.fabPortEnable x) u
           { wrote u x with regs := r,
                            fab := { u.fab with ports := u.fab.ports.upd k fun y => { y with st := .train, trainFails := 0 } } }) ∧
       (busOp u x = .portOff k → (port u k).st ≠ .down → (port u k).replay = [] → (port u k).partials = [] →
           (port u k).inBuf = [] →
         Becomes (.fabPortDisable x) u
           { wrote u x with regs := r,
                            fab := { u.fab with ports := u.fab.ports.upd k fun y =>
                              { y with st := .down, failedLanes := 0, lanes := 0, degraded := false, replay := [], inBuf := [],
                                       partials := [], tx := [], rx := [], nakSent := false, replays := [],
                                       peerReady := false, peerStopped := false, trained := false, eqReq := false, ctlQ := [],
                                       stopSent := false } } })) ∧
     ((port u k).st = .down →
       portEnable u k = { u with fab.ports := u.fab.ports.upd k fun y => { y with st := .train, trainFails := 0 } }) ∧
     ((port u k).st ≠ .down →
       portEnable u k = u ∧
       portDisable u k =
         linkLost (updPort u k fun y => { y with st := .down, failedLanes := 0, lanes := 0, degraded := false }) k))

/-- Global Stop is requested and resumed by management firmware, or by host software under a full debug level, and by
nobody else; a request outside RUNNING and a RESUME outside STOPPED are ignored and counted (R346, R347, R353).
FLT_INJ_CTRL, MGT_MBX_CTRL.GO and MGT_CTRL.DEV_RESET (R331, R332, R338, R355, R358). SNAP and CLEAR of a partition
page, and OBS_TR_CTRL (R375, R379, R380, R381). -/
def Obligations.StopInjectAndObserve : Prop :=
  (∀ (u : State) (x : Access), x.port ≠ .dbg →
     (busOp u x = .stopReq → bitOf x.data.toNat 1 = false →
       (isReady u = false → Becomes (.globalStopReq x) u (count (wrote u x) .crbBootIgn)) ∧
       (isReady u = true → (mayStop u x.port = false ∨ u.flt.stop ≠ .running) →
         Becomes (.globalStopReq x) u (count (wrote u x) .fltStopIgn)) ∧
       (isReady u = true → mayStop u x.port = true → u.flt.stop = .running → regBit u 0xe00000 0 = false →
         Becomes (.globalStopReq x) u
           { wrote u x with flt := { u.flt with stop := .stopping, stopSource := if x.port = .mgt then 2 else 1,
                                                stopTs := u.ts, stoppedUnits := [] } })) ∧
     (busOp u x = .stopResume →
       ((mayStop u x.port = false ∨ u.flt.stop ≠ .stopped) →
         Becomes (.globalStopResume x) u (count (wrote u x) .fltStopIgn)) ∧
       (mayStop u x.port = true → u.flt.stop = .stopped →
         Ends (.globalStopResume x) u (emit (stopResume (halfUsed u x)) (.axi false 0))) ∧
       (mayStop u x.port = true → u.flt.stop = .stopped → u.flt.heldUp = [] → regBit u 0xe00000 0 = false → Unlinked u →
           u.fab.stopped = true → u.hif.waiting = [] → u.pdm.stopped = true → u.chn.chans = [] → u.rte.ready = [] → ∀ v : State,
           v = { wrote u x with
                   fab := { u.fab with stopped := false,
                                       outst := u.fab.outst.foldUpd fun _ e => e.map fun e => { e with due := e.due.map (u.ts + ·) } },
                   hif := { (halfUsed u x).hif with stopped := false },
                   pdm := { u.pdm with stopped := false,
                                       dl := u.pdm.dl.foldUpd fun _ d => if d.armed then { d with at_ := u.ts + d.at_ } else d },
                   tly := { u.tly with stopped := false }, dis := { u.dis with stopped := false },
                   chn := { u.chn with stopped := false }, bau := { u.bau with stopped := false },
                   rte := { u.rte with stopped := false }, cmb := { u.cmb with stopped := false },
                   slt := { u.slt with stopped := false }, obs := { u.obs with stopped := false },
                   flt := { u.flt with stop := .resuming, stoppedUnits := [] } } →
           u.agt.canon = true → (∀ a, (agt u a).inbox = [] ∧ (agt u a).dnQ = []) →
           Becomes (.globalStopResume x) u
             { v with agt := (List.range (agentCount u)).foldl (fun t a => t.upd a fun y =>
                 { y with stopped := false, rkn := { y.rkn with st := if y.rkn.st = .stopped then y.rkn.prior else y.rkn.st } }) u.agt }))) ∧
  (∀ (u : State) (x : Access), x.port ≠ .dbg →
     (busOp u x = .inject → ∀ b w, b = beatOf u x →
       w = mergeBits (regGet u 0xc00100).toNat b.data (b.mask &&& 0x80FFFFFFFF0FFFFF) →
       (bitOf w 63 = false → Becomes (.faultInjectArm x) u { wrote u x with regs := u.regs.put 0xc00100 (BitVec.ofNat 64 w) }) ∧
       (bitOf w 63 = true → bitsOf w 15 0 ≠ 0x12F1 → bitsOf w 15 0 ≠ 0x1202 → bitsOf w 15 0 ≠ 0x1401 →
         (injIds.contains (bitsOf w 15 0) = true → mayInject u x.port (bitsOf w 15 0) (bitsOf w 19 16) = true →
           (injTargets u (bitsOf w 15 0)).all (fun n => decide (bitsOf w 47 24 < n)) = true →
           Becomes (.faultInjectArm x) u { wrote u x with regs := u.regs.put 0xc00100 (BitVec.ofNat 64 w) }) ∧
         ((injIds.contains (bitsOf w 15 0) = false ∨ mayInject u x.port (bitsOf w 15 0) (bitsOf w 19 16) = false ∨
             (injTargets u (bitsOf w 15 0)).all (fun n => decide (bitsOf w 47 24 < n)) = false) →
           Becomes (.faultInjectArm x) u (count (wrote u x) .fltInjIgn)))) ∧
     (busOp u x = .mbxGo →
       (u.mgt.busy = false → Becomes (.mbxGo x) u { wrote u x with mgt.busy := true }) ∧
       (u.mgt.busy = true → Becomes (.mbxGo x) u (count (wrote u x) .mgtMbxIgn))) ∧
     (busOp u x = .devReset →
       ((x.port ≠ .mgt ∨ u.flt.devReset = true) → Becomes (.devReset x) u (wrote u x)) ∧
       (x.port = .mgt → u.flt.devReset = false → isReady u = false →
         Becomes (.devReset x) u
           { wrote u x with flt := { u.flt with devReset := true, resetSource := 2 } }) ∧
       (x.port = .mgt → u.flt.devReset = false → isReady u = true →
         Ends (.devReset x) u (emit (startDeviceReset (halfUsed u x) (fun _ => false) 2) (.axi false 0))))) ∧
  (∀ (u : State) (x : Access), x.port ≠ .dbg →
     (∀ p, busOp u x = .pageSnap p →
       Becomes (.pageSnap x) u
         { wrote u x with obs.snap := (List.range 32).foldl (fun t i => t.put (32 * p + i) (u.obs.live.look (32 * p + i))) u.obs.snap,
                          obs.snapTs := u.obs.snapTs.put p u.ts }) ∧
     (∀ p, busOp u x = .pageClear p → ∀ live, live = (List.range 32).foldl (fun t i => t.put (32 * p + i) 0) u.obs.live →
       Becomes (.pageClear x) u
         { wrote u x with obs.live := live,
                          obs.snap := (List.range 32).foldl (fun t i => t.put (32 * p + i) (live.look (32 * p + i))) u.obs.snap,
                          obs.snapTs := u.obs.snapTs.put p u.ts }) ∧
     (busOp u x = .trCtrl → ∀ b w, b = beatOf u x →
       w = mergeBits (regGet u 0xe00000).toNat b.data (b.mask &&& 0xFFFF3FF1) →
       ((x.port = .mgt ∨ bitsOf w 31 16 = 0 ∨
           (1 ≤ u.obs.dbgLevel ∧ (bitsOf w 31 16 &&& u.obs.dbgMask.toNat) = bitsOf w 31 16)) →
         Becomes (.trCtrlWrite x) u
           { wrote u x with
               regs := u.regs.put 0xe00000 (BitVec.ofNat 64 w),
               obs.tail := if bitOf w 0 && !bitOf (regGet u 0xe00000).toNat 0 then
                 regFld (regSet u 0xe00000 (BitVec.ofNat 64 w)) 0xe00018 23 0 else u.obs.tail,
               obs.phase := (bitOf w 0 && !bitOf (regGet u 0xe00000).toNat 0) || u.obs.phase }) ∧
       (x.port ≠ .mgt → bitsOf w 31 16 ≠ 0 →
         ¬(1 ≤ u.obs.dbgLevel ∧ (bitsOf w 31 16 &&& u.obs.dbgMask.toNat) = bitsOf w 31 16) →
         Becomes (.trCtrlWrite x) u (count (wrote u x) .obsCfgIgn))))

/-! ### Queues and commands -/

/-- A fetch turn goes to a kernel queue with work, unless too few of the 15 turns before went to user queues while one
has work; otherwise to the next user queue; and CHI reads the record at that queue's head (R25, R37, R38). The fetcher
of a queue: IDLE with nothing more covered, FETCHING again once PEND is found set, and a failed ring read that raises
HIF_HOST_READ (R36, R44). A command's records arrive, those behind its header by one more CHI read: they are counted,
take their slots and their place behind the commands already fetched, and the head moves past them; a header that the
ring cannot hold stops the queue for RESYNC; a PAD moves the head to 0 (R31, R32, R33, R36, R59). -/
def Obligations.QueueFetch : Prop :=
  (∀ (u : State) (users : Nat), u.cfe.turn = none → isReady u = true → u.flt.stop = .running →
     users = (u.cfe.window.filter id).length →
     (∀ k, kernelTurn u = some k → isKernel k = true →
         (userTurn u = none ∨ min 16 (regFld u 0x100000 4 0) ≤ users) →
       Becomes .fetchTurn u
         { u with
             cfe := { turn := some { q := k, recs := 0 },
                      window := (false :: u.cfe.window).take 15, rrNext := u.cfe.rrNext },
             out := [.chiRead (sqBase u k + 64 * (queue u k).head) 64] }) ∧
     (∀ w, userTurn u = some w → isKernel w = false →
         (kernelTurn u = none ∨ users < min 16 (regFld u 0x100000 4 0)) →
       Becomes .fetchTurn u
         { u with
             cfe := { turn := some { q := w, recs := 0 },
                      window := (true :: u.cfe.window).take 15, rrNext := (w + 1) % 0x1000 },
             out := [.chiRead (sqBase u w + 64 * (queue u w).head) 64] }) ∧
     (kernelTurn u = none → userTurn u = none → Becomes .fetchTurn u u)) ∧
  (∀ (u : State) (q : Nat),
     ((queue u q).st = .fetching → ((queue u q).head = (queue u q).tail ∨ (queue u q).found = true) →
       Becomes (.fetcherIdle q) u { u with queues := u.queues.upd q fun k => { k with st := .idle, found := false } }) ∧
     ((queue u q).st = .idle → (queue u q).pend = true → isReady u = true →
         (isKernel q = true ∨ u.flt.discarding.look (queue u q).part = false) →
       Becomes (.fetcherResume q) u
         { u with queues := u.queues.upd q fun k => { k with st := .fetching, pend := false } }) ∧
     ((queue u q).st = .fetching → u.cfe.turn.map (·.q) = some q →
       Ends (.ringReadError q) u (raise u 0x0101 .ud 0 q))) ∧
  (∀ (u : State) (q n size : Nat) (hdr : Rec64) (recs : List Rec64),
     u.cfe.turn.map (·.q) = some q → hasWork u q = true → size = sqSize u q → n = hdr.toNat / 256 % 16 + 1 →
     (hdr.toNat % 256 ≠ 0 → n ≤ size → (queue u q).head + n ≤ size →
         n ≤ ((queue u q).tail + size - (queue u q).head) % size → n ≤ (hdr :: recs).length →
       ∀ c : Cmd, c = { seq := (queue u q).seq, idx := (queue u q).head, n := n, body := recsNat ((hdr :: recs).take n),
                        checked := false } → 1 + extraSlot c ≤ freeSlots u q →
       Ends (.ringRecordArrives q (hdr :: recs)) u
         (afterRecords (settleQ (progress (wordCount
           { u with
               queues := u.queues.upd q fun k => { k with
                 head := ((queue u q).head + n) % size, seq := (queue u q).seq + 1,
                 resv := k.resv + (1 + extraSlot c), fetched := k.fetched ++ [c] },
               out := if n = 1 then u.out else u.out ++ [.chiRead (sqBase u q + 64 * ((queue u q).head + 1)) (64 * (n - 1))] }
             q 0) q) q) q n)) ∧
     (hdr.toNat % 256 ≠ 0 → (size < n ∨ size < (queue u q).head + n) →
       Ends (.ringRecordArrives q (hdr :: recs)) u
         (endTurn (stopQueue (refuse (wordCount
           { u with queues := u.queues.upd q fun k => { k with seq := (queue u q).seq + 1, resv := k.resv + 1 } } q 0) q
             { seq := (queue u q).seq, idx := (queue u q).head, n := 1, body := hdr.toNat, checked := false } 0x10 1)
           q .resync))) ∧
     (hdr.toNat % 256 = 0 → lowestReserved hdr.toNat 0xFF 64 = none →
       Ends (.pad q hdr) u
         (afterRecords (settleQ (updQ (progress (wordCount
           { u with queues := u.queues.upd q fun k => { k with
               head := 0, seq := (queue u q).seq + 1, resv := k.resv + 1 } } q 0) q) q
           fun k => { k with resv := k.resv - 1 }) q) q 1)))

/-- What a completion leaves (R42, R43, R58, R59, R60): a record with the next place of the ring and the phase of its
pass, on its way to the host, and the slot reserved for it free again; a command that is DONE and asks for no record
only gives its slot back. -/
def Obligations.CompletionRecord : Prop :=
  ∀ (u : State) (q st d : Nat) (c : Cmd) (k : Queue), u.hif.spill.any (·.q == q) = false →
    k = mapLive (queue u q) c.seq (fun l => { l with ended := true }) →
    (st = 0 → c.fld 2 0 1 = 0 →
      complete u q c st d = { u with queues := (u.queues.put q k).upd q fun k => { k with resv := k.resv - 1 } }) ∧
    (u.hif.stopped = false → st ≠ 0x30 → st ≠ 0x31 → (st ≠ 0 ∨ c.fld 2 0 1 = 1) →
      ∀ r : CplRec, r = { status := st, opcode := c.op, queue := q, tag := c.fld 4 0 32, sqIndex := c.idx,
                          detail := d % 2 ^ 32, ts := u.ts, node := 0, phase := k.phase, spilled := false } →
      let s1 : State := { u with queues := u.queues.put q k }
      let next := (k.cplTail + 1) % cqSize s1 q
      complete u q c st d =
        { wordCount u q 1 with
            queues := s1.queues.upd q fun k => { k with
              cplTail := next, phase := if next = 0 then !(k.phase) else k.phase, resv := k.resv - 1 },
            hif.flight := u.hif.flight ++ [{ q := q, slot := k.cplTail, record := r, irq := c.fld 2 1 1 = 1, node := false, gen := 0,
                                             seq := c.seq, resumed := false }],
            out := u.out ++ [.cplWrite (cqBase s1 q + 32 * k.cplTail) (cplBytes r)] })

/-- A completion write that ends in success interrupts where its record asks for it and is progress of its queue; one
that ends in an error goes to the spill and stops its queue; a PCrdGrant sends an outstanding request again and
nothing else (R58, R60, R340, R392, R395). The last transaction of a copy or an invalidation ends the command: a
COPY_IN has its lines in the Slate, a failed line is reported by its offset with HOST_MEMORY; an INVAL's last answer
answers its request (R171, R396, R423). -/
def Obligations.CompletionWriteEnds : Prop :=
  (∀ (u : State) (k : Nat) (x : CplItem) (rest : List CplItem), takeAt u.hif.flight k = some (x, rest) →
     (x.resumed = false → x.node = false → x.irq = true → (queue u x.q).fetched = [] →
       Becomes (.completionWriteDone k false) u
         (leaveTurn (progress { u with hif.flight := rest, out := [.irqQ (intVec u x.q)] } x.q) x.q)) ∧
     (x.resumed = false → x.node = false → x.irq = false → (queue u x.q).fetched = [] →
       Becomes (.completionWriteDone k false) u (leaveTurn (progress { u with hif.flight := rest } x.q) x.q)) ∧
     (x.resumed = false → x.node = false → u.flt.devReset = false → (queue u x.q).st ≠ .disabled →
         u.hif.spill.length < 4096 →
       Ends (.completionWriteDone k true) u
         (settleQ (stopQueue (count { u with hif := { u.hif with
           flight := rest, spill := u.hif.spill ++ [{ x with record := { x.record with spilled := true } }] } } .hifSpill)
           x.q .cplFault) x.q)) ∧
     (∀ r, retriedOpen u r = true → Becomes (.pcrdGrant r) u { u with out := [.resend r] }) ∧
     (∀ r, retriedOpen u r = false → Becomes (.pcrdGrant r) u u)) ∧
  (∀ (u : State) (q seq : Nat) (data : Bytes) (l : Live), liveCmd u q seq = some l → l.ended = false →
     (l.cmd.op = 0x20 → (u.slt.vaults.any fun e => !e.2.bad.isEmpty) = false → ∀ a n,
         a = copySlate u q l.cmd → n = l.cmd.fld 0x18 0 32 / 64 → u.slt.stopped = false →
         (isKernel q = true ∨ inData u (queue u q).part (l.cmd.fld 0x10 0 40) (64 * n) = true) →
       Ends (.hostRequestComplete (.command q seq data [])) u
         (settleQ (complete (slateBlocks (storeLines u a [] n 0 (Bytes.slice data 0 (64 * n))) q a (64 * n)) q l.cmd 0 0) q)) ∧
     ((l.cmd.op = 0x21 ∨ l.cmd.op = 0x22) →
       Ends (.hostRequestComplete (.command q seq data [])) u (settleQ (complete u q l.cmd 0 0) q) ∧
       (∀ errs o, minBy id errs = some o →
         Ends (.hostRequestComplete (.command q seq data errs)) u
           (settleQ (complete (count u .cfeRefuse) q l.cmd 0x18 o) q))) ∧
     (∀ a i, ((rkn u a).reqs.any fun k => k.id == i && k.kind == .inval) = true →
       Ends (.hostRequestComplete (.inval a i)) u (requestAnswer u a i 0)))

/-- NOP completes; a FENCE completes once every earlier command has, and otherwise its queue waits for that;
INVALIDATE, COPY_IN and COPY_OUT issue the transactions of their range (R41, R42, R45, R61, R423). -/
def Obligations.PlainCommands : Prop :=
  ∀ (u : State) (q : Nat) (c : Cmd) (w : State), w = startFront u q c →
    (Alone u q 0x01 c → Becomes (.nop q) u (leaveTurn (complete w q c 0 0) q)) ∧
    (Alone u q 0x02 c → fenceClear w q c.seq = true → Becomes (.fence q) u (leaveTurn (complete w q c 0 0) q)) ∧
    (Alone u q 0x02 c → fenceClear w q c.seq = false →
      Becomes (.fence q) u (leaveTurn { w with queues := w.queues.upd q fun k => { k with st := .waiting } } q)) ∧
    (Alone u q 0x22 c → c.fld 8 0 64 + c.fld 0x10 0 32 ≤ Config.hostTop →
      Becomes (.invalidate q) u (leaveTurn (emit w (.chiClean (c.fld 8 0 64) (c.fld 0x10 0 32))) q)) ∧
    (Alone u q 0x20 c → c.fld 8 0 64 + c.fld 0x18 0 32 ≤ Config.hostTop →
      Becomes (.copyIn q) u (leaveTurn (emit w (.chiRead (c.fld 8 0 64) (c.fld 0x18 0 32))) q)) ∧
    (Alone u q 0x21 c → c.fld 8 0 64 + c.fld 0x18 0 32 ≤ Config.hostTop →
        badRange w (copySlate w q c) (c.fld 0x18 0 32) = none →
      Becomes (.copyOut q) u (leaveTurn (emit (slateBlocks w q (copySlate w q c) (c.fld 0x18 0 32))
        (.chiWrite (c.fld 8 0 64) (memRead w (copySlate w q c) (c.fld 0x18 0 32)))) q)) ∧
    (∀ l, (queue u q).fetched = [] → u.hif.spill.any (·.q == q) = false →
        (queue u q).live.find? (fun l => l.cmd.op == 0x02 && !l.ended) = some l → fenceClear u q l.cmd.seq = true →
      Becomes (.fenceClear q) u
        (leaveTurn (complete { u with queues := u.queues.upd q fun k =>
          { k with st := if k.st = .waiting then .fetching else k.st } } q l.cmd 0 0) q))

/-- CHAN_OPEN of a closed channel clears its fields, advances its epoch and sets those the command names, and is
refused on an open one or beyond the cell quota; CHAN_CLOSE closes an open channel and reports a closed one (R47,
R177, R178). What a close leaves of its channel: CLOSED, a new epoch, no list, no gap and no notice, and nobody waits
for it any more; the claimed packets stay, and memory changes in the link entries of the freed cells only (R177,
R182). -/
def Obligations.ChannelCommands : Prop :=
  (∀ (u : State) (q : Nat) (c : Cmd) (w : State) (ch p : Nat), w = startFront u q c →
     relocChan w q (c.fld 8 0 16) = some ch →
     p = (if isKernel q then (partOfChan w ch).getD 0 else (queue w q).part) →
     (Alone u q 0x30 c → (chan w ch).open_ = false → (chan w ch).claims.isEmpty = true →
       (cellsHeld w p + c.fld 0xC 0 24 ≤ (w.parts.look p).cellQuota →
         Becomes (.chanOpen q) u (leaveTurn (complete
           { w with chn.chans := w.chn.chans.upd ch fun h => { (default : Chan) with
               open_ := true, dropNewest := c.fld 0xA 0 2 = 1, part := p, epoch := h.epoch + 1, queue := q,
               quota := c.fld 0xC 0 24, depth := c.fld 0x10 0 16 } } q c 0 0) q)) ∧
       ((w.parts.look p).cellQuota < cellsHeld w p + c.fld 0xC 0 24 →
         Becomes (.chanOpen q) u (leaveTurn (refuse w q c 0x17 0) q))) ∧
     (Alone u q 0x30 c → (chan w ch).open_ = true → Becomes (.chanOpen q) u (leaveTurn (refuse w q c 0x16 0) q)) ∧
     (Alone u q 0x31 c → (chan w ch).open_ = false → Becomes (.chanClose q) u (leaveTurn (complete w q c 0 1) q)) ∧
     (Alone u q 0x31 c → (chan w ch).open_ = true →
       Ends (.chanClose q) u (settleQ (complete (closeChan w ch) q c 0 0) q))) ∧
  (∀ (u : State) (ch : Nat),
     (chan (closeChan u ch) ch).open_ = false ∧ (chan (closeChan u ch) ch).epoch = (chan u ch).epoch + 1 ∧
     (chan (closeChan u ch) ch).list = [] ∧ (chan (closeChan u ch) ch).tailGap = 0 ∧
     (chan (closeChan u ch) ch).notifyEn = false ∧ (chan (closeChan u ch) ch).claims = (chan u ch).claims ∧
     (closeChan u ch).chn.sends = u.chn.sends.filter (·.chan != ch) ∧
     (closeChan u ch).chn.claims = u.chn.claims.filter (·.chan != ch) ∧
     (Memory.wf u.mem = true → ∀ a, (∀ k ∈ (chan u ch).list.flatMap (·.cells) ++
         ((u.chn.sends.filter (·.chan == ch)).filter (·.granted)).flatMap (·.cells),
         a < linkBase u + 4 * k ∨ linkBase u + 4 * k + 4 ≤ a) → memByte (closeChan u ch) a = memByte u a))

/-- FLAG_SET writes its word with the release of its scope once the queue's earlier copies are complete, and waits for
them otherwise; FLAG_WAIT completes on a word that satisfies CMP, and otherwise registers and holds its queue until
the word does (R46, R277, R280, R342, R424). -/
def Obligations.FlagCommands : Prop :=
  ∀ (u : State) (q : Nat) (c : Cmd) (w : State) (a : Nat), w = startFront u q c → u.hif.spill.any (·.q == q) = false →
    (Alone u q 0x32 c → copiesDone w q c.seq = true → FlagWord w q c a →
      Becomes (.flagSet q) u (leaveTurn (complete
        (setTag (memWrite w a (leBytes 8 (c.fld 0x10 0 64))) a (c.fld 0x18 0 2) (blockId w) 0 31) q c 0 0) q)) ∧
    (Alone u q 0x32 c → copiesDone w q c.seq = false → Becomes (.flagSet q) u (leaveTurn w q)) ∧
    (∀ l, (queue u q).live.find? (fun l => l.cmd.op == 0x32 && !l.ended && !flagSetSent u q l.cmd.seq) = some l →
        copiesDone u q l.cmd.seq = true → FlagWord u q l.cmd a →
      Becomes (.flagSetRelease q) u
        (complete (setTag (memWrite u a (leBytes 8 (l.cmd.fld 0x10 0 64))) a (l.cmd.fld 0x18 0 2) (blockId u) 0 31)
          q l.cmd 0 0)) ∧
    (Alone u q 0x33 c → FlagWord w q c a → flagMeets c (memWord w a).toNat = true →
      Ends (.flagWait q) u (settleQ (endFlag (acquireCheck w (tagWord w a) (c.fld 0x18 0 2) 0 31) q c.seq 0 0) q)) ∧
    (Alone u q 0x33 c → FlagWord w q c a → flagMeets c (memWord w a).toNat = false → ∀ v : State,
        v = acquireCheck w (tagWord w a) (c.fld 0x18 0 2) 0 31 →
      Becomes (.flagWait q) u
        (leaveTurn { v with
          flt.wait := v.flt.wait ++ [{ q := q, seq := c.seq, setter := c.fld 0x1A 0 13 }],
          flt.walks := v.flt.walks ++ [q],
          queues := v.queues.upd q fun k => { k with st := .waiting } } q)) ∧
    (∀ e l, u.flt.wait.find? (·.q == q) = some e → liveCmd u q e.seq = some l → FlagWord u q l.cmd a →
        flagMeets l.cmd (memWord u a).toNat = true →
      Ends (.flagWaitSatisfied q) u
        (settleQ (endFlag (acquireCheck u (tagWord u a) (l.cmd.fld 0x18 0 2) 0 31) q e.seq 0 0) q))

/-- QUEUE_CONFIG makes a DISABLED queue IDLE with the command's fields, index 0 and phase 1, and clears its
observation words; QUEUE_RESET discards what its queue holds and leaves it DISABLED, PARTITION_RESET discards what its
partition has in flight, and each completes; where a queue has no work, or a partition no queue, node, open channel or
batch table at work, no more than that changes (R48, R49, R378). What the critical commands do once they are
authentic: PARTITION_SET gives a partition without queues, tasks and nodes its resources, LOCKED_WRITE writes a
register under a mask, DEBUG_UNLOCK sets the debug level, and each completes (R50, R51, R109, R247, R422). -/
def Obligations.QueueConfiguration : Prop :=
  (∀ (u : State) (q : Nat) (c : Cmd) (w : State) (t : Nat), w = startFront u q c →
     (frontCmd u q 0x80 = some c → t = c.fld 8 0 13 →
       ((queue w t).st = .disabled → ∀ k : Queue,
         k = { (default : Queue) with
           st := .idle, phase := true, seq := (queue w t).seq, part := c.fld 0xA 0 4, slice := c.fld 0xB 0 8,
           sqLog2 := c.fld 0xC 0 5, cqLog2 := c.fld 0xD 0 5, intVec := c.fld 0xE 0 6, reloc := c.fld 0xF 0 1 == 1,
           sqBase := c.fld 0x10 0 64, cqBase := c.fld 0x18 0 64, nodeBase := c.fld 0x20 0 24,
           nodeCount := c.fld 0x24 0 24, chanBase := c.fld 0x28 0 16, chanCount := c.fld 0x2A 0 16 } →
         Ends (.queueConfig q) u
           (settleQ (complete (clearWords { forgetRecords w t with queues := w.queues.put t k } t) q c 0 0) q)) ∧
       ((queue w t).st ≠ .disabled → Ends (.queueConfig q) u (settleQ (refuse w q c 0x16 0) q))) ∧
     (frontCmd u q 0x81 = some c → t = c.fld 8 0 13 →
       Ends (.queueReset q) u (settleQ (complete (discardQueue w t 0x30) q c 0 0) q) ∧
       (queue (discardQueue w t 0x30) t).st = .disabled ∧ (queue (discardQueue w t 0x30) t).pend = false) ∧
     (Alone u q 0x81 c → t = c.fld 8 0 13 → Workless w t → w.queues.canon = true →
       Becomes (.queueReset q) u (leaveTurn (complete (updQ w t fun k =>
         { k with st := .disabled, reason := .none, pend := false, want := 0, found := false }) q c 0 0) q)) ∧
     (Alone u q 0x82 c → t = c.fld 8 0 4 → partQueues w t = [] → (∀ e ∈ w.grs.nodes, partOr0 w e.1 ≠ t) →
         (∀ e ∈ w.chn.chans, e.2.part ≠ t) →
         (∀ b, b < 16 → btPart w b = t → (bt w b).st = .off ∧ (bt w b).interrupted = false ∧ (bt w b).slots = []) →
       Becomes (.partitionReset q) u
         (leaveTurn (complete (fabDiscard (cmbDiscard (rteDiscard w t) t) t) q c 0 0) q)) ∧
     (frontCmd u q 0x82 = some c → t = c.fld 8 0 4 →
       Ends (.partitionReset q) u
         (settleQ (complete (btReset (discardPart w t 0x31 fun _ => false) t) q c 0 0) q))) ∧
  (∀ (u : State) (q : Nat) (c : Cmd) (w v : State), w = startFront u q c → Passed w q c v →
     (∀ p, p = c.fld 8 0 4 → frontCmd u q 0xC0 = some c → partQueues v p = [] → regBit v 0x500000 p = true →
         issuedOf v p = false → (v.grs.nodes.any fun e => e.2.kind != .free && ownsNode v p e.1) = false →
       ∀ r : Part, r = { nodeBase := c.fld 0xC 0 24, nodeCount := c.fld 0x10 0 24, chanBase := c.fld 0x14 0 16,
                         chanCount := c.fld 0x16 0 16, cellQuota := c.fld 0x18 0 24, beadShare := c.fld 0x1C 0 8 } →
       Ends (.partitionSet q) u (settleQ (complete (regSetFld { v with parts := v.parts.put p r }
         (0x400100 + 8 * p) 7 0 (c.fld 0x1C 0 8)) q c 0 0) q)) ∧
     (∀ p, p = c.fld 8 0 4 → frontCmd u q 0xC0 = some c → (partQueues v p ≠ [] ∨ regBit v 0x500000 p = false) →
       Ends (.partitionSet q) u (settleQ (refuse v q c 0x16 0) q)) ∧
     (∀ a, a = c.fld 8 0 26 → frontCmd u q 0xC4 = some c → inRow a 0xa00200 8 16 = false →
       Ends (.lockedWrite q) u
         (settleQ (complete (maskedWrite v a (c.fld 0x10 0 64) (c.fld 0x18 0 64)) q c 0 0) q)) ∧
     (frontCmd u q 0xC5 = some c →
       Ends (.debugUnlock q) u (settleQ (complete
         { v with obs.dbgLevel := c.fld 8 0 2, obs.dbgMask := BitVec.ofNat 16 (c.fld 0xA 0 16) } q c 0 0) q)))

/-- The authenticator's check, the same for every critical command (R54, R56): a slot that is not valid, a KEY_SET
outside slot 0 or a wrong tag gives AUTH, a counter not above the slot's last gives REPLAY, and one that crosses a
multiple of 65,536 waits for its log record. -/
def Obligations.CriticalCheck : Prop :=
  ∀ (u : State) (q : Nat) (c : Cmd) (w : State) (k : KeySlot) (i : Instr) (op : Nat),
    (i, op) ∈ [(Instr.partitionSet q, 0xC0), (.keySet q, 0xC1), (.rknLoad q, 0xC2), (.rknQuiesceLoad q, 0xC3),
               (.lockedWrite q, 0xC4), (.debugUnlock q, 0xC5)] →
    Alone u q op c → w = startFront u q c → k = keySlot w (extSlot c) →
    ((k.st ≠ .valid ∨ (op = 0xC1 ∧ extSlot c ≠ 0) ∨ authTag k.key c ≠ extTag c) →
      Becomes i u (leaveTurn (refuse { count w .autFail with hif.irqStat := u.hif.irqStat ||| 2 } q c 0x12 0) q)) ∧
    (k.st = .valid → (op = 0xC1 → extSlot c = 0) → authTag k.key c = extTag c →
      (extCounter c ≤ k.last.toNat →
        Becomes i u (leaveTurn (refuse { count w .autReplay with hif.irqStat := u.hif.irqStat ||| 2 } q c 0x13 0) q)) ∧
      (k.last.toNat < extCounter c → k.logged / 65536 < extCounter c / 65536 →
        ∀ v, v = { w with aut.slots := w.aut.slots.upd (extSlot c) fun k => { k with last := .ofNat 64 (extCounter c) } } →
        Becomes i u (leaveTurn { logRecord v 1 (extSlot c) (extCounter c) with
          aut.held := u.aut.held ++ [{ q := q, cmd := c, slot := extSlot c, installed := false }] } q)))

/-- KEY_SET installs or revokes a key at once and completes once its log record is confirmed; a confirmation gives the
slot its logged counter and lets what AUT holds for the slot go on (R56, R57). Code loads: RKN_LOAD takes Reckoners
that DIS counts idle into LOADING and reads the code, RKN_QUIESCE_LOAD holds them and waits until each is in LOADING,
and the end of the read writes the code and completes (R142, R143, R144, R396). -/
def Obligations.KeysAndCodeLoads : Prop :=
  (∀ (u : State) (q : Nat) (c : Cmd) (w v : State) (i : Nat), w = startFront u q c →
     (Passed w q c v → frontCmd u q 0xC1 = some c → i = c.fld 8 0 3 →
       (c.fld 9 0 1 = 1 → ∀ v', v' = logRecord
           { v with aut.slots := v.aut.slots.upd i fun k => { k with st := .revoked, key := 0 } } 2 i (2 ^ 128) →
         Ends (.keySet q) u (settleQ
           { v' with aut.held := v.aut.held ++ [{ q := q, cmd := c, slot := i, installed := true }] } q)) ∧
       (∀ k, c.fld 9 0 1 ≠ 1 → keyUnwrap (keySlot v 0).key (c.fld 0x10 0 192) = some k →
         ∀ v', v' = logRecord
           { v with aut.slots := v.aut.slots.put i { st := .valid, key := k, last := 0, logged := 0 } } 2 i k →
         Ends (.keySet q) u (settleQ
           { v' with aut.held := v.aut.held ++ [{ q := q, cmd := c, slot := i, installed := true }] } q)) ∧
       (c.fld 9 0 1 ≠ 1 → keyUnwrap (keySlot v 0).key (c.fld 0x10 0 192) = none →
         Ends (.keySet q) u (settleQ (refuse { count v .autFail with hif.irqStat := v.hif.irqStat ||| 2 } q c 0x12 0) q))) ∧
     ((u.mgt.logQ.any fun r => (r.type == 1 || r.type == 2) && r.key == i) = false → ∀ n s',
         n = (match loggedFor u i with
           | some r => if r.type = 1 then r.body else 0
           | none => (keySlot u i).logged) →
         s' = { u with aut := { held := u.aut.held.filter (·.slot != i),
                                slots := u.aut.slots.upd i fun k => { k with logged := n } } } →
       ((u.aut.held.filter (·.slot == i)) = [] → Becomes (.autLogConfirm i) u s') ∧
       (∀ h, (u.aut.held.filter (·.slot == i)) = [h] → h.installed = true →
         Ends (.autLogConfirm i) u (settleQ (complete s' h.q h.cmd 0 0) h.q)) ∧
       (∀ h, (u.aut.held.filter (·.slot == i)) = [h] → h.installed = false →
         Ends (.autLogConfirm i) u (settleQ (runCritical s' h.q h.cmd) h.q)))) ∧
  (∀ (u : State) (q : Nat) (c : Cmd) (w v : State) (agents : List Nat), w = startFront u q c →
     (Passed w q c v → agents = maskAgents v (c.fld 8 0 64) → c.fld 0x10 0 64 + c.fld 0x1C 0 17 ≤ Config.hostTop →
       (frontCmd u q 0xC2 = some c → (∀ a ∈ agents, v.dis.rknBusy.look a = false) →
         Ends (.rknLoad q) u (settleQ (emit
           { agents.foldl (fun s a => updR s a fun r => { r with st := .loading }) v with
             codeLoads := v.codeLoads ++
               [{ q := q, seq := c.seq, mask := BitVec.ofNat 64 (c.fld 8 0 64), started := true }] }
           (.chiRead (c.fld 0x10 0 64) (c.fld 0x1C 0 17))) q)) ∧
       (frontCmd u q 0xC2 = some c → (∃ a ∈ agents, v.dis.rknBusy.look a = true) →
         Ends (.rknLoad q) u (settleQ (refuse v q c 0x15 0) q)) ∧
       (frontCmd u q 0xC3 = some c →
         Ends (.rknQuiesceLoad q) u (settleQ
           { agents.foldl (fun s a => enterLoading (updA s a fun x => { x with held := true }) a) v with
             codeLoads := v.codeLoads ++
               [{ q := q, seq := c.seq, mask := BitVec.ofNat 64 (c.fld 8 0 64), started := false }] } q))) ∧
     (∀ l x, (u.codeLoads.find? fun l => l.q == q && !l.started) = some l → liveCmd u q l.seq = some x →
         (∀ a ∈ maskAgents u l.mask.toNat, (rkn u a).st = .loading) →
       Becomes (.quiesceReady q) u (emit
         { u with codeLoads := updFirst (fun l => l.q == q && !l.started) (fun l => { l with started := true }) u.codeLoads }
         (.chiRead (x.cmd.fld 0x10 0 64) (x.cmd.fld 0x1C 0 17)))) ∧
     (∀ l rest x data a, takeFirst (fun l => l.q == q && l.started) u.codeLoads = some (l, rest) →
         liveCmd u q l.seq = some x → maskAgents u l.mask.toNat = [a] → (rest.any fun y => y.mask.getLsbD a) = false →
         (rkn u a).st = .loading →
       Ends (.rknLoadEnd q data []) u (complete
         { u with
           codeLoads := rest,
           agt := (u.agt.upd a fun y => { y with held := false }).upd a fun y => { y with rkn := { y.rkn with
             st := .idle,
             imem := putWords (x.cmd.fld 0x1C 0 17 / 8) (x.cmd.fld 0x18 0 16 / 8)
               (Bytes.slice data 0 (x.cmd.fld 0x1C 0 17)) y.rkn.imem,
             imemS := putWords (x.cmd.fld 0x1C 0 17 / 8) (x.cmd.fld 0x18 0 16 / 8)
               (Bytes.slice data 0 (x.cmd.fld 0x1C 0 17)) y.rkn.imemS } } } q x.cmd 0 0)))

/-! ### Graphs and TLY -/

/-- GRAPH_LOAD takes its range and reads the image, or is refused where the range is in use; image bytes are stored
record by record, behind a header; a complete image without a fault is LOADED, and the first fault ends the load (R70,
R71). -/
def Obligations.GraphLoading : Prop :=
  ∀ (u : State) (q : Nat) (c : Cmd) (w : State) (base n : Nat), w = startFront u q c →
    base = relocBase w q + c.fld 0x14 0 24 → n = c.fld 0x18 0 24 →
    (Alone u q 0x10 c → (w.grs.loads.any fun j => overlaps base n j.base j.count) = false →
        ((List.range n).any fun i => (nd w (base + i)).kind != .free) = false →
        c.fld 8 0 64 + c.fld 0x10 0 32 ≤ Config.hostTop →
      Becomes (.graphLoad q) u (leaveTurn (emit
        { w with grs.loads := w.grs.loads ++ [{ q := q, seq := c.seq, base := base, count := n, relocBase := relocBase w q,
                                                started := false, image := [] }] }
        (.chiRead (c.fld 8 0 64) (c.fld 0x10 0 32))) q)) ∧
    (Alone u q 0x10 c → ((List.range n).any fun i => (nd w (base + i)).kind != .free) = true →
      Becomes (.graphLoad q) u (leaveTurn (refuse w q c 0x16 0) q)) ∧
    (∀ seq data j img, (u.grs.loads.find? fun j => j.q == q && j.seq == seq) = some j →
        img = (j.image ++ data).take (256 * j.count) → imageRecs (img.length / 256) img ≠ [] →
        (j.started = true ∨ nfld ((imageRecs (img.length / 256) img).headD 0) 0 0 8 = 5) →
      let recs := imageRecs (img.length / 256) img
      let j' := { j with image := img, started := true }
      Ends (.graphImageArrives q seq data) u
        (settleQ (((List.range recs.length).drop (j.image.length / 256)).foldl
          (fun s i => storeRecord s j' i (recs.getD i 0))
          { u with grs.loads := updFirst (fun x => x.q == q && x.seq == seq) (fun _ => j') u.grs.loads }) q)) ∧
    (∀ seq j, (u.grs.loads.find? fun j => j.q == q && j.seq == seq) = some j → j.started = true →
        j.image.length = 256 * j.count →
      (imageFault (blockId u) (j.base - j.relocBase) (imageRecs j.count j.image) = none →
        imageHandle u q (imageRecs j.count j.image) = none → Ends (.graphLoadComplete q seq) u (endLoad u j 0 0)) ∧
      (∀ o, imageFault (blockId u) (j.base - j.relocBase) (imageRecs j.count j.image) = some o →
        Ends (.graphLoadComplete q seq) u (endLoad u j 0x10 (2 ^ 31 + o))))

/-- A launch of a LOADED graph activates it under a new generation; one whose node records need more slots than are
free waits for them; the launch ends once every node has retired and its records are written, and its graph is LOADED
again or its next pending launch activates (R59, R72, R73, R76, R90). What activation leaves of a header (R73): ACTIVE
under the next generation, with the launch's argument and source, and nothing counted yet; without a sweep its carry
takes an expansion entry, or waits while TLY's intake is closed to it. -/
def Obligations.GraphLaunching : Prop :=
  (∀ (u : State) (q : Nat) (c : Cmd) (w : State) (h k : Nat), w = startFront u q c →
     (Alone u q 0x11 c → launchHeader w q c = some h → k = (nd w h).hdr.cplCount → 1 + k ≤ cqSize w q - 1 →
       (freeSlots w q < k →
         Becomes (.graphLaunch q) u (leaveTurn (updQ w q fun x => { x with want := k }) q)) ∧
       (k ≤ freeSlots w q → (nd w h).hdr.lstate = .loaded → launchRoom w h = true → ∀ (v : State) (src : LaunchSrc),
           v = updQ w q (fun x => { (mapLive x c.seq fun l => { l with nodes := k }) with resv := x.resv + k }) →
           src = { q := q, sqIdx := c.idx, internal := false, seq := c.seq, main := none, table := none } →
         Ends (.graphLaunch q) u (settleQ (activate v h (BitVec.ofNat 64 (c.fld 0x10 0 64)) src) q) ∧
         (Activates w h →
           Becomes (.graphLaunch q) u (leaveTurn (activated v h (BitVec.ofNat 64 (c.fld 0x10 0 64)) src) q)))) ∧
     (∀ l, (queue u q).want ≠ 0 → (queue u q).want ≤ freeSlots u q →
         ((queue u q).live.reverse.find? fun l => l.cmd.op == 0x11 && !l.ended) = some l →
         launchHeader (updQ u q fun x => { x with want := 0 }) q l.cmd = some h →
       Ends (.launchSlotsFree q) u (settleQ (launchNow (updQ u q fun x => { x with want := 0 }) q l.cmd h) q) ∧
       ((queue u q).fetched = [] → (nd u h).hdr.lstate = .loaded → launchRoom u h = true → Activates u h →
         k = (nd u h).hdr.cplCount →
         Becomes (.launchSlotsFree q) u
           (leaveTurn (activated (updQ u q fun x => { (mapLive x l.cmd.seq fun l => { l with nodes := k }) with
               want := 0, resv := x.resv + k }) h (BitVec.ofNat 64 (l.cmd.fld 0x10 0 64))
             { q := q, sqIdx := l.cmd.idx, internal := false, seq := l.cmd.seq, main := none, table := none }) q))) ∧
     (∀ arg i b (src : LaunchSrc), (nd u h).kind = .graph → (nd u h).hdr.lstate = .loaded → launchRoom u h = true →
         src = { q := q, sqIdx := i, internal := b, main := none, table := none,
                 seq := ((queue u q).live.find? fun l => l.cmd.idx == i && !l.ended).elim 0 (·.cmd.seq) } →
       Ends (.graphActivate h arg q i b) u (activate u h arg src) ∧
       (Activates u h → Becomes (.graphActivate h arg q i b) u (activated u h arg src))) ∧
     (u.grs.sweeping.contains h = true → u.tly.stopped = false → expCredit u (partOr0 u h) = true →
       Becomes (.sweepComplete h) u
         { u with grs.sweeping := u.grs.sweeping.filter (· != h),
                  tly.exp := u.tly.exp ++ [{ node := h, gen := (nd u h).gen, header := true, next := none, parked := false }] }) ∧
     ((nd u h).kind = .graph → (nd u h).hdr.lstate = .active → (nd u h).hdr.retired = (nd u h).hdr.workCount →
         (nd u h).hdr.cplOut = 0 → u.grs.sweeping.contains h = false → (nd u h).hdr.src.table = none →
       Ends (.launchEnd h) u (nextLaunch (dlDisarm (completeLaunch u (nd u h).hdr.src
         (launchStatus (nd u h).hdr).1 (launchStatus (nd u h).hdr).2) h) h) ∧
       ((nd u h).hdr.src.internal = true → (nd u h).hdr.pend = [] →
         Becomes (.launchEnd h) u
           { u with pdm.dl := u.pdm.dl.foldUpd fun _ d => if d.main = h then { d with armed := false } else d,
                    grs.nodes := u.grs.nodes.upd h fun r => { r with hdr := { r.hdr with lstate := .loaded } },
                    grs.table := u.grs.table.filter (· != h) })) ∧
     ((nd u h).kind = .graph → (nd u h).hdr.lstate = .draining →
         (u.dis.running.any fun x => x.graph == h && x.aborted && !sliceOver u x) = false →
         ∀ v : State, v = { u with dis.running := u.dis.running.filter fun x => !(x.graph == h && x.aborted) } →
       Ends (.drainEnd h) u (nextLaunch v h) ∧
       ((nd u h).hdr.pend = [] →
         Becomes (.drainEnd h) u
           { v with grs.nodes := u.grs.nodes.upd h fun r => { r with hdr := { r.hdr with lstate := .loaded } },
                    grs.table := u.grs.table.filter (· != h) })) ∧
     ((nd u h).hdr.pend = [] →
       nextLaunch u h =
         { updH u h (fun x => { x with lstate := .loaded }) with grs.table := u.grs.table.filter (· != h) })) ∧
  (∀ (u : State) (h : Nat) (arg : W64) (src : LaunchSrc), (nd u h).hdr.sweep = false → (nd u h).hdr.template = none →
     (nd (activate u h arg src) h).gen = (nd u h).gen + 1 ∧ (nd (activate u h arg src) h).arg = arg ∧
     (nd (activate u h arg src) h).hdr.lstate = .active ∧ (nd (activate u h arg src) h).hdr.src = src ∧
     (nd (activate u h arg src) h).hdr.retired = 0 ∧ (nd (activate u h arg src) h).hdr.drops = 0 ∧
     (nd (activate u h arg src) h).hdr.cplOut = 0 ∧ (activate u h arg src).grs.table.contains h = true ∧
     (∀ e : ExpEntry, e = { node := h, gen := (nd u h).gen + 1, header := true, next := none, parked := false } →
       (u.tly.wait = [] → u.tly.intake = [] → u.tly.stopped = false → expCredit u (partOr0 u h) = true →
         (activate u h arg src).tly.exp = u.tly.exp ++ [e]) ∧
       (intakeOpen u (partOr0 u h) = false →
         (activate u h arg src).tly.exp = u.tly.exp ∧ (activate u h arg src).tly.wait = u.tly.wait ++ [.carry e])) ∧
     (activate u h arg src).mem = u.mem ∧ (activate u h arg src).queues = u.queues)

/-- TASK_SUBMIT stores its node, completes, and lets the node run at once where it waits for nothing; SIGNAL sends one
decrement through TLY's intake; GRAPH_RELEASE frees a range of graphs that are LOADED and of nodes not in flight (R77,
R78, R79). -/
def Obligations.NodeCommands : Prop :=
  ∀ (u : State) (q : Nat) (c : Cmd) (w : State) (n : Nat), w = startFront u q c → n = relocBase w q + c.fld 8 0 24 →
    (∀ r src, (nd w n).kind = .free →
        r = parseNode (relocBase w q) (c.body / 2 ^ 512 % 2 ^ 2048) Config.noNode .waiting →
        src = { q := q, sqIdx := c.idx, internal := false, seq := c.seq, main := none, table := none } →
      let w' := updQ (updN w n fun _ => { r with src := src }) q fun x =>
        mapLive x c.seq fun l => { l with nodes := extraSlot c }
      Alone u q 0x12 c →
      (r.initTally ≠ 0 → Becomes (.taskSubmit q) u (leaveTurn (complete w' q c 0 0) q)) ∧
      (r.initTally = 0 → Ends (.taskSubmit q) u (settleQ (zeroReached (complete w' q c 0 0) n) q))) ∧
    (Alone u q 0x13 c → u.tly.stopped = false →
      Becomes (.signal q) u (leaveTurn
        { w with tly.ops := u.tly.ops ++ [{ node := n, w := c.fld 0xC 0 24, n := 1, src := .signal q c.seq, also := [] }] } q)) ∧
    (∀ m, m = c.fld 0xC 0 24 → Alone u q 0x14 c →
        (∀ i, i < m → (nd w (n + i)).kind = .free ∨ ((nd w (n + i)).graph = Config.noNode ∧ nodeInFlight (nd w (n + i)) = false)) →
        (∀ i, i < m → (nd w (n + i)).kind = .free → nodeInFlight (nd w (n + i)) = false) →
      Ends (.graphRelease q) u (settleQ (complete
        (((List.range m).map (n + ·)).foldl (fun s h => updN s h fun _ => default) w) q c 0 0) q))

/-- TLY at work: a retirement counts its node and enters the expansion table; a list read on a hit emits its
decrements and on a miss parks; a lane's first operation is applied on a hit and parks on a miss; a returning miss is
applied; a backlog node becomes a bead once there is a credit; a remote decrement waits behind its lane; a miss that
finds the miss buffer full waits (R82–R88, R91). A lane's arithmetic on a WAITING node (R75, R81, R84): a weight below
the tally is subtracted; a weight that reaches it lets the node run, and one above it is counted as an underflow. -/
def Obligations.TallyEngine : Prop :=
  (∀ (u : State), u.tly.stopped = false →
     (∀ n gen drops v, Lands (isRetire n gen .done drops) u v → intakeOpen u (partOr0 u n) = true →
       let s := { v with dis.running := u.dis.running.filter fun x => !(x.node == n && x.gen == gen && !x.aborted) }
       (isWork (nd u n).kind = true → currentGen s (nd u n) gen = false →
         Becomes (.retirement n gen .done drops) u (count s .tlyStaleRet)) ∧
       (isWork (nd u n).kind = true → currentGen s (nd u n) gen = true → (armed u (nd u n)).st ≠ .issued →
         Becomes (.retirement n gen .done drops) u (count s .tlyBadRet)) ∧
       (isWork (nd u n).kind = true → currentGen s (nd u n) gen = true → (armed u (nd u n)).st = .issued →
         Ends (.retirement n gen .done drops) u (pushCarry (noteRetired s n .done drops false) n)) ∧
       (∀ q, isWork (nd u n).kind = true → (nd u n).graph = Config.noNode → (nd u n).gen = gen → (nd u n).st = .issued →
           (nd u n).cpl = false → q = (nd u n).src.q → isQueue q = true → regBit u 0xe00000 0 = false →
           u.tly.wait = [] → u.tly.intake = [] → expCredit u (partOr0 u n) = true →
         Becomes (.retirement n gen .done drops) u
           (carried (progress (wordCount (pageCount (updN s n fun r => { r with st := .retired, drops := drops })
             (partOr0 u n) 2 1) q 2) q) { node := n, gen := gen, header := false, next := none, parked := false }))) ∧
     (∀ k e rest, takeAt u.tly.exp k = some (e, rest) → e.parked = false →
       Ends (.succListRead k true) u (expandList (count { u with tly.exp := rest } .grsHit) k e fun e' s =>
         { s with tly.exp := s.tly.exp.take k ++ e' :: s.tly.exp.drop k }) ∧
       (∀ x (op : LaneOp), e.next = none → (nd u e.node).succs = [x] → x.remote = false → (nd u e.node).succNext = Config.noNode →
           u.tly.last = none →
           op = { node := x.node, w := min x.weight 0xFFFFFF, n := 1, src := expSrc u e, also := [] } →
         Becomes (.succListRead k true) u
           { countN (count u .grsHit) .tlyLaneStall 0 with
               tly := { u.tly with exp := rest, ops := u.tly.ops ++ [op], last := some (k, [op]) } }) ∧
       (missCredit u (partOr0 u e.node) = true → Becomes (.succListRead k false) u
         (count { u with tly := { u.tly with
           exp := u.tly.exp.take k ++ { e with parked := true } :: u.tly.exp.drop (k + 1),
           miss := u.tly.miss ++ [.list e] } } .grsMiss)) ∧
       (missCredit u (partOr0 u e.node) = false → Becomes (.succListRead k false) u u)) ∧
     (∀ lane op rest, takeFirst (inLane lane) u.tly.ops = some (op, rest) → isSwitch op = false →
       Ends (.tallyDecrement lane true) u (applyDec (count { u with tly.ops := rest } .grsHit) op) ∧
       (∀ n w k, op = { node := n, w := w, n := k, src := .notice, also := [] } → w ≤ 0xFFFFFF → WaitsFor u n w →
         Becomes (.tallyDecrement lane true) u (subtracted (count { u with tly.ops := rest } .grsHit) n w k)) ∧
       (missCredit u (partOr0 u op.node) = true → Becomes (.tallyDecrement lane false) u
         (count { u with tly := { u.tly with ops := rest, miss := u.tly.miss ++ [.lane op] } } .grsMiss)) ∧
       (missCredit u (partOr0 u op.node) = false → Becomes (.tallyDecrement lane false) u u)) ∧
     (∀ k op rest, takeAt u.tly.miss k = some (.lane op, rest) →
       Ends (.missReturn k) u (applyDec { u with tly.miss := rest } op) ∧
       (∀ n w i, op = { node := n, w := w, n := i, src := .notice, also := [] } → w ≤ 0xFFFFFF → WaitsFor u n w →
         Becomes (.missReturn k) u (subtracted { u with tly.miss := rest } n w i))) ∧
     (∀ p x rest, u.tly.backlog.look p = x :: rest → beadCredit u p = true →
       let s : State := { u with tly.backlog := u.tly.backlog.put p rest }
       Becomes (.backlogMove p) u
         (if (nd u x.node).st = .ready ∧ (nd u x.node).gen = x.gen then
           { s with dis.beads := u.dis.beads ++ [beadOf s x.node] } else s)) ∧
     (∀ h, intakeOpen u (partOr0 u (h.loc % 2 ^ 24)) = true →
       let op : LaneOp := { node := h.loc % 2 ^ 24, w := h.data.toNat % 256, n := 1, src := .remote h, also := [] }
       (u.tly.ops.any (inLane (h.loc % 2 ^ 24 % 32)) = true →
         Becomes (.remoteDec h) u { u with tly.ops := u.tly.ops ++ [op] }) ∧
       (u.tly.ops.any (inLane (h.loc % 2 ^ 24 % 32)) = false → Ends (.remoteDec h) u (applyDec u op)))) ∧
  (∀ (u : State) (n w k : Nat), w ≤ 0xFFFFFF → isWork (nd u n).kind = true → (nd u n).st = .waiting → (nd u n).graph = Config.noNode →
     let op : LaneOp := { node := n, w := w, n := k, src := .notice, also := [] }
     let s := pageCount (countN (updN u n fun _ => nd u n) .tlyDec k) (partOr0 u n) 3 k
     (w < (nd u n).tally → applyDec u op = updN s n fun r => { r with tally := r.tally - w }) ∧
     (w = (nd u n).tally → applyDec u op = zeroReached s n) ∧
     ((nd u n).tally < w → applyDec u op = zeroReached (count s .tlyUnderflow) n))

/-! ### Dispatch, deadlines and agents -/

/-- One ac of the dispatcher (R96, R107, R361, R367): the credits and the metering rise and the pointer moves on; a
droop ac and an ac without beads dispatch nothing; the only bead, where a slice holds the rest of it, is issued in its
partition's share phase for 32 credits, else in the spare phase. What issuing a slice leaves (R102, R103, R104, R105):
one more slice runs, the rotating pointer stands after the chosen agent outside pinned mode, the bead has left its rod
or starts at its next block, and the node is ISSUED; the last thing sent is the launch. -/
def Obligations.DispatcherCycle : Prop :=
  (∀ (u : State),
     ((u.dis.stopped = true ∨ isReady u = false) → Becomes .dispatchCycle u u) ∧
     (u.dis.stopped = false → isReady u = true → ∀ s, s = { u with dis := { u.dis with
         credit := (List.range 16).foldl (fun t p => t.upd p fun c => min 256 (c + creditRise u p)) u.dis.credit,
         meter := min 8192 (u.dis.meter + u.mgt.rate), ptr := (u.dis.ptr + 1) % 16 } } →
       (0 < u.dis.droop → Becomes .dispatchCycle u { s with dis := { s.dis with droop := u.dis.droop - 1 } }) ∧
       (u.dis.droop = 0 → u.dis.beads = [] → Becomes .dispatchCycle u s) ∧
       (∀ b a cores v, u.dis.droop = 0 → u.dis.beads = [b] → b.part < 16 → b.prio < 16 → b.cls < 5 → b.held = false →
           partOpen u b.part = true → 1024 ≤ s.dis.meter → staleBead s b = false → skipBead s b = false →
           unplaceable s b = false → choose s b (fun _ => false) = .slice a cores →
           (isLayer b = true ∨ (b.next + sliceBlocks cores = b.blocks ∧ (b.split = true ∨ b.next = 0))) →
           v = issueSlice s b a cores →
         Ends .dispatchCycle u { v with dis := { v.dis with
           clsPtr := v.dis.clsPtr.put (16 * b.part + b.prio) ((b.cls + 1) % 5),
           credit := if 32 ≤ s.dis.credit.look b.part then v.dis.credit.upd b.part (· - 32) else v.dis.credit,
           meter := v.dis.meter - 1024 } }))) ∧
  (∀ (s : State) (b : Bead) (a : Nat) (cores : List (Nat × Nat)) (n : Nat) (t : State), isLayer b = false →
     n = sliceBlocks cores → t = issueSlice s b a cores →
     t.dis.running = s.dis.running ++ [{ node := b.node, gen := b.gen, graph := b.graph, part := b.part, cls := b.cls,
                                         agent := a, aborted := false }] ∧
     (isPinned s b.part = false →
       t.dis.agentPtr = s.dis.agentPtr.put (8 * b.part + b.cls) ((a + 1) % agentCount s)) ∧
     (b.next + n = b.blocks → t.dis.beads = s.dis.beads.filter fun x => !sameBead x b) ∧
     (b.next + n ≠ b.blocks → t.dis.beads = s.dis.beads.map fun x => if sameBead x b then
       { b with next := b.next + n, fails := 0, held := false, drain := none, split := true } else x) ∧
     ((nd s b.node).st = .ready → (nd t b.node).st = .issued) ∧ t.mem = s.mem ∧ t.queues = s.queues ∧
     ∃ l, t.out.getLast? = some (.launch a l) ∧ l.node = b.node ∧ l.gen = b.gen ∧ l.firstBlock = b.next ∧ l.arg = b.arg ∧
       l.kdesc = b.kdesc ∧ l.params = b.params)

/-- A head that has failed HOLD_AC examined ac holds its partition, from PRE_PRIO on with a drain; what agents report
is credited, kept and merged (R98, R99, R104, R108, R110). -/
def Obligations.DispatcherReports : Prop :=
  ∀ (u : State), u.dis.stopped = false →
    (∀ p b, (u.dis.beads.find? fun b => b.part == p && !b.held && decide (holdAc u ≤ b.fails) &&
          rodHead u p b.cls b.prio == some b) = some b →
      (∀ s, s = count u .disHold → b.prio < regFld s 0x400000 27 24 →
        Becomes (.holdStart p) u { s with dis := { s.dis with
          beads := u.dis.beads.map fun x => if sameBead x b then { x with held := true, drain := none } else x } }) ∧
      (∀ s d, s = count (count u .disHold) .disDrain → regFld (count u .disHold) 0x400000 27 24 ≤ b.prio →
          drainTarget (count u .disHold) b = some d →
        Becomes (.holdStart p) u { s with dis := { s.dis with
          beads := u.dis.beads.map fun x => if sameBead x b then { x with held := true, drain := some d } else x } })) ∧
    (∀ a k v, Lands (isOcc a k) u v → (agt u a).held = false → Becomes (.occupancyReturn a k) u { v with dis := { u.dis with
      used := u.dis.used.upd ((16 * a + k.core) * 16 + k.part) fun r =>
        { regs := r.regs - k.res.regs, lmem := r.lmem - k.res.lmem, groups := r.groups - k.res.groups,
          blocks := r.blocks - k.res.blocks },
      rknBusy := if k.rknFree then u.dis.rknBusy.put a false else u.dis.rknBusy,
      running := u.dis.running.filter fun r => !(sliceOver v r) } }) ∧
    (∀ a k v, Lands (· == .cap a k) u v → Becomes (.capacityReport a k) u
      { v with dis := { u.dis with cap := u.dis.cap.put (16 * a + k.core) k.res } }) ∧
    (∀ a n gen res drops e e' run w v, Lands (· == .retire a true n gen res drops) u w → (u.dis.slices.find? fun e => e.node == n && e.gen == gen) = some e →
        e' = { e with outstanding := e.outstanding - 1, halted := e.halted || res == .halted,
                      peerClosed := e.peerClosed || res == .peerClosed, drops := min (e.drops + drops) (2 ^ 32 - 1) } →
        run = (takeFirst (fun (r : Running) => r.node == n && r.gen == gen && r.agent == a && !r.aborted)
          u.dis.running).elim u.dis.running (·.2) →
        v = progress { w with dis := { u.dis with running := run } } (queueOfNode u n) →
      (e.allIssued = true → e.outstanding = 1 → Becomes (.sliceRetirement a n gen res drops) u (emit
        { v with dis := { v.dis with slices := u.dis.slices.filter fun e => !(e.node == n && e.gen == gen) } }
        (.merged n gen (if e'.halted then .halted else if e'.peerClosed then .peerClosed else .done) e'.drops))) ∧
      ((e.allIssued = false ∨ 1 < e.outstanding) → Becomes (.sliceRetirement a n gen res drops) u
        { v with dis := { v.dis with
          slices := u.dis.slices.map fun x => if x.node == n && x.gen == gen then e' else x } }))

/-- Deadline switches and step boundaries: at its switch point an armed entry reserves its fall-back and sends the
switch to EXIT, or is abandoned; the switch at the front of EXIT's lane is applied; an idle table whose JOIN_TAIL has
moved comes to a boundary, which a table then performs in order (R115, R120, R121). -/
def Obligations.DeadlinesAndTables : Prop :=
  ∀ (u : State),
    (∀ g d fb, u.pdm.stopped = false → d = u.pdm.dl.look g → d.armed = true → d.at_ ≤ u.ts →
        (u.tly.ops.any fun op => op.src == .switch g) = false → fb = (tpl u d.fallback).header →
      (fallbackFree u fb = true → u.tly.stopped = false → Becomes (.deadlineSwitchPoint g) u
        { u with grs := { u.grs with reserved := u.grs.reserved ++ [fb] },
                 tly := { u.tly with ops := u.tly.ops ++ [{ node := d.exit_, w := 0, n := 0, src := .switch g, also := [] }] } }) ∧
      (fallbackFree u fb = false → ∀ s,
          s = count { u with pdm := { u.pdm with dl := u.pdm.dl.upd g fun d => { d with armed := false } } } .pdmFbBusy →
        Becomes (.deadlineSwitchPoint g) u (trRecord s
          { type := 4, part := partOr0 s d.exit_, cls := 0, gen := (nd s d.exit_).gen.toNat, node := d.exit_, sub := g,
            ts := s.ts, arg1 := BitVec.ofNat 64 d.fallback, arg2 := 1 }))) ∧
    (∀ g op rest, (u.tly.ops.find? fun op => op.src == .switch g) = some op →
        takeFirst (inLane (op.node % 32)) u.tly.ops = some (op, rest) →
      Ends (.exitSwitch g) u (applySwitch { u with tly := { u.tly with ops := rest } } op.node g) ∧
      (∀ d fb r main t s, d = u.pdm.dl.look g → fb = (tpl u d.fallback).header → r = armed u (nd u op.node) →
          main = nd u d.main → main.hdr.lstate = .active → r.st = .waiting →
          t = detReport (count (updH { updN { u with tly.ops := rest } op.node (fun _ => { r with tally := 1 }) with
              pdm.dl := (u.pdm.dl.upd g fun d => { d with armed := false }).upd g fun d => { d with switched := true } }
            d.main fun h => { h with switched := true }) .pdmFb) (partOr0 u op.node) 6 op.node op.node 0 →
          s = trRecord t { type := 4, part := partOr0 t op.node, cls := 0, gen := r.gen.toNat, node := op.node, sub := g, ts := t.ts,
                           arg1 := BitVec.ofNat 64 d.fallback, arg2 := 0 } →
          (nd s fb).hdr.lstate = .loaded → Activates s fb →
        Becomes (.exitSwitch g) u (unreserve (activated s fb main.arg
          { main.hdr.src with internal := true, main := some (d.main, main.gen), table := none }) fb)) ∧
      (∀ d r t, d = u.pdm.dl.look g → r = armed u (nd u op.node) → ((nd u d.main).hdr.lstate ≠ .active ∨ r.st ≠ .waiting) →
          t = count (unreserve { u with
            tly.ops := rest, pdm.dl := u.pdm.dl.upd g fun d => { d with armed := false } } (tpl u d.fallback).header)
            .pdmLateSwitch →
        Becomes (.exitSwitch g) u (trRecord t
          { type := 4, part := partOr0 t op.node, cls := 0, gen := r.gen.toNat, node := op.node, sub := g, ts := t.ts,
            arg1 := BitVec.ofNat 64 d.fallback, arg2 := 2 }))) ∧
    (∀ b, u.pdm.stopped = false → u.slt.stopped = false → btFault u b = none → (bt u b).st = .idle → btWord u b 0 ≠ btWord u b 8 → Becomes (.btPoll b) u
      { u with pdm := { u.pdm with bt := u.pdm.bt.upd b fun t => { t with st := .boundary } } }) ∧
    (∀ b s1 n j s3 s4 act s5, u.pdm.stopped = false → u.slt.stopped = false → btFault u b = none → (bt u b).st = .boundary → stepRoom u b = true →
        s1 = btStep1 u b →
        n = min (btJoin s1 b) ((btWord s1 b 0 + 2 ^ 64 - btWord s1 b 8) % 2 ^ 64) → j = btStep2 b n s1 (btWord s1 b 8) →
        s3 = (freeNat (btSet j.1 b 8 j.2)).2 →
        s4 = setTag s3 (btAt s3 b 0x10) ((freeNat (btSet j.1 b 8 j.2)).1 % 3) (blockId s3) 0 31 →
        act = activeSlots s4 b →
        s5 = ((List.range act.length).zip act).foldl (fun s e => btPut s b (0x1000 + 16 * e.1)
          (btEntry 1 e.2 ((bt s b).slots.look e.2).seqId ((bt s b).slots.look e.2).arg)) s4 →
      ∀ s6, s6 = btPut s5 b 0x48 (leBytes 2 act.length) →
      ∀ s7, s7 = updBt (btSet s6 b 0x40 ((btWord s6 b 0x40 + 1) % 2 ^ 64)) b
          (fun t => { t with listed := act.length, step := t.step + 1 }) →
      (act = [] → Ends (.stepBoundary b) u (updBt s7 b fun t => { t with st := .idle })) ∧
      (act ≠ [] → Ends (.stepBoundary b) u (launchStep s7 b)))

/-- A TASK launch waits at its agent for its kernel descriptor; a descriptor of TYPE 1 starts its blocks, any other
retires the launch HALTED with its charge returned (R124, R125, R137). A block starts (R407, R411): with a credit and
nothing waiting, its BLOCK_START leaves at once and it is live. The ends of blocks and groups (R124, R197, R407, R410,
R411): an ended block returns its charge and its outstanding operations are forgotten, the launch's last block retires
it, and an ended group's pairs go to BAU; one that is not live is counted. -/
def Obligations.LaunchesAndBlocks : Prop :=
  (∀ (u : State) (a : Nat), agtShut u a = false →
     (∀ l v, Lands (· == .launch a l) u v → Becomes (.taskLaunch a l) u { v with agt := u.agt.upd a fun x =>
       { x with tasks := x.tasks ++ [{ l := l, checked := false, peerClosed := false, drops := 0 }] } }) ∧
     (∀ n gen t b s, ((agt u a).tasks.find? fun t => sameLaunch t.l n gen && !t.checked) = some t →
         (b, s) = readPart u t.l.part t.l.kdesc 16 →
       (Bytes.fld b 0 0 8 = 1 → ∀ s', s' = { s with agt := s.agt.upd a fun x => { x with
             tasks := updFirst (fun t => sameLaunch t.l n gen && !t.checked) (fun t => { t with checked := true }) x.tasks } } →
         Ends (.kernelDescCheck a n gen) u ((blockCores s' a t.l).foldl
           (fun s e => startBlock s a t.l (BitVec.ofNat 64 (Bytes.fld b 8 0 64)) e.1 e.2) s')) ∧
       (Bytes.fld b 0 0 8 ≠ 1 → Ends (.kernelDescCheck a n gen) u
         (haltRecord (emit (returnCharge
           { s with agt := s.agt.upd a fun x => { x with
             tasks := (takeFirst (fun t => sameLaunch t.l n gen && !t.checked) x.tasks).elim x.tasks (·.2) } } a t.l)
           (.retire a t.l.retTo n gen .halted 0)) a 3 0xFFFF n t.l.part false)))) ∧
  (∀ (s : State) (a : Nat) (l : Launch) (entry : W64) (b core : Nat), (agt s a).stopped = false →
     (agt s a).portRdy = true → (agt s a).dnQ = [] → 1 ≤ (agt s a).dnCred → (agt s a).blocks = [] →
     ∃ tag, (startBlock s a l entry b core).out =
         s.out ++ [.dn a (.blockStart core tag l.node l.part l.gen l.groups entry l.arg b l.regs l.lmem l.params)] ∧
       (agt (startBlock s a l entry b core) a).dnCred = (agt s a).dnCred - 1 ∧
       (agt (startBlock s a l entry b core) a).blocks =
         [{ core := core, tag := tag, node := l.node, gen := l.gen, first := l.firstBlock, part := l.part,
            groups := l.groups, index := b, res := launchNeed l, started := true, aborted := false }] ∧
       (startBlock s a l entry b core).mem = s.mem) ∧
  (∀ (u : State) (a core tag : Nat), agtShut u a = false → isReady u = true →
     (liveBlock u a core tag = none → Becomes (.blockEnd a core tag) u (count u (.agtPortErr a))) ∧
     (∀ b tags, liveBlock u a core tag = some b →
         tags = ((agt u a).ops.filter fun o => o.core == core && o.btag == tag).map (·.tag) →
       Ends (.blockEnd a core tag) u (taskEnd (emit (orphan
         { u with agt := u.agt.upd a fun x => { x with
           blocks := (takeFirst (fun b => b.core == core && b.tag == tag) x.blocks).elim x.blocks (·.2),
           ops := x.ops.filter fun o => !(o.core == core && o.btag == tag),
           groupPairs := x.groupPairs.filter fun g => !(g.core == core && g.tag == tag) } }
         fun w => match w with
           | .core a' c t => a' == a && c == core && tags.contains t
           | .bau a' c t _ => a' == a && c == core && tags.contains t
           | _ => false)
         (.occ a { core := core, rknFree := false, part := b.part, res := b.res } b.node b.gen)) a b.node b.first b.gen)) ∧
     (∀ n first gen t rest,
         takeFirst (fun t => sameLaunch t.l n gen && t.l.firstBlock == first && t.checked) (agt u a).tasks = some (t, rest) →
         hasBlocks (agt u a) t = false →
       taskEnd u a n first gen = emit { u with agt := u.agt.upd a fun x => { x with tasks := rest } }
         (.retire a t.l.retTo n gen (if t.peerClosed then .peerClosed else .done) t.drops)) ∧
     (∀ group b, liveBlock u a core tag = some b →
       (group < b.groups → Becomes (.groupEnd a core tag group) u (emit
         { u with agt := u.agt.upd a fun x => { x with
           groupPairs := x.groupPairs.filter fun g => !(g.core == core && g.tag == tag && g.group == group) } }
         (.notice a b.node b.gen
           (((agt u a).groupPairs.filter fun g => g.core == core && g.tag == tag && g.group == group).flatMap (·.pairs))))) ∧
       (b.groups ≤ group → Becomes (.groupEnd a core tag group) u (count u (.agtPortErr a)))))

/-- A LAYER launch starts setup at an idle Reckoner and is a bad launch at any other; setup reads and checks the
kernel descriptor, loads memory and tensor descriptors, and the program runs from ENTRY, or it halts (R126, R128,
R137, R140). -/
def Obligations.LayerLaunches : Prop :=
  ∀ (u : State) (a : Nat), agtShut u a = false →
    (∀ l v, Lands (· == .launch a l) u v → (rkn u a).st = .idle → Becomes (.layerLaunch a l) u { v with agt := u.agt.upd a fun x => { x with rkn := { x.rkn with
      st := .setup, launch := some l,
      cores := ((List.range 16).zip l.coreBlocks).filterMap fun e => if e.2 = 0 then none else some e.1,
      drops := 0, peerClosed := false, halted := false, halt := none, writes := [], line := [], atBreak := false, stepping := false, sb := [], ops := [], reqs := [],
      pairs := [] } } }) ∧
    (∀ l v, Lands (· == .launch a l) u v → (rkn u a).st ≠ .idle →
      Ends (.layerLaunch a l) u (raise (count v (.agtBadLaunch a)) 0x0901 .ud 0 a)) ∧
    (∀ l b s, (rkn u a).st = .setup → (rkn u a).launch = some l → (b, s) = readPart u l.part l.kdesc 256 →
      (∀ r, kdCheck b = some r → Ends (.layerSetupDone a) u (rknHaltAt s a r 0xFFFF false)) ∧
      (∀ off len first n s1 d s2 s3 t s4 s5, kdCheck b = none → off = Bytes.fld b 0x28 0 18 → len = Bytes.fld b 0x2C 0 19 →
          first = Bytes.fld b 0x18 0 12 → n = Bytes.fld b 0x1A 0 13 →
          s1 = updR s a (fun r => { r with
            dmem := if Bytes.fld b 0x30 0 1 = 1 || (rkn s a).swappedIn || ((rkn s a).prevPart.any (· != l.part)) then []
                    else r.dmem,
            prevPart := some l.part, swappedIn := false }) →
          off + len ≤ 262144 → (d, s2) = readPart s1 l.part (Bytes.fld b 0x20 0 40) len →
          s3 = updR s2 a (fun r => { r with dmem := memPut r.dmem off d }) → first + n ≤ 4096 →
          (t, s4) = readPart s3 l.part (Bytes.fld b 0x10 0 40) (64 * n) →
        (loadTds a l.part l.blocks n first t s4 = (s5, none) → Ends (.layerSetupDone a) u
          (updR (updR s5 a fun r => { r with dmem := memPut r.dmem 0 (leBytes 64 l.params.toNat) }) a fun r =>
            { r with st := .running,
                     sreg := ((Tab.put [] 1 l.arg).put 2 (BitVec.ofNat 64 l.node)).put 3 (BitVec.ofNat 64 l.blocks),
                     pend := 0, loops := [], depth := 0, incs := [], slots := [],
                     pc := BitVec.ofNat 16 (Bytes.fld b 8 0 16) })) ∧
        (∀ r, loadTds a l.part l.blocks n first t s4 = (s5, some r) →
          Ends (.layerSetupDone a) u (rknHaltAt s5 a r 0xFFFF false))))

/-- What the cluster reports of its engines and cores (R99, R132, R133, R340, R405, R407–R409): a completion frees the
operation's entries and brings its value, credits come back and let waiting messages leave, capacity is kept and
passed to DIS, and activity is progress. What reaches a stopped agent waits at its input, up to the 16 credits of a
channel (R141, R350). -/
def Obligations.ClusterReports : Prop :=
  ∀ (u : State) (a : Nat),
    (∀ core tag v o rest, agtShut u a = false →
        takeFirst (fun o => o.core == core && o.tag == tag) (rkn u a).ops = some (o, rest) → (rkn u a).st ≠ .aborting →
        ∀ s, s = updR u a (fun r => { r with
          ops := rest, sb := r.sb.filter fun e => e.req || !(e.id == tag && e.engCore == core) }) →
      Becomes (.engDone a core tag v) u (activity
        (setPend (setS s a o.rd (v.getD 0)) a o.rd (rest.any fun x => x.rd == o.rd)) a
        (rknLaunch u a).node (rknLaunch u a).gen)) ∧
    (∀ core tag v, agtShut u a = false →
        takeFirst (fun o => o.core == core && o.tag == tag) (rkn u a).ops = none →
      Becomes (.engDone a core tag v) u (count u (.agtPortErr a))) ∧
    (∀ i m c t g v st data counts o,
        (i, m) ∈ [(Instr.blockEnd a c t, AgtIn.blockEnd c t), (.groupEnd a c t g, .groupEnd c t g), (.engDone a c t v, .engDone c t v),
          (.credit a counts, .credit counts), (.agentPortOp a o, .op o), (.answer a c t st (v.getD 0) data, .answer c t st (v.getD 0) data)] →
        agtShut u a = true → (agt u a).inbox = [] → (∀ n, AgtIn.flits m = some n → n.2 ≤ 16) →
      Becomes i u { u with agt := u.agt.upd a fun x => { x with inbox := x.inbox ++ [m] } }) ∧
    (∀ counts, agtShut u a = false → Becomes (.credit a counts) u { u with agt := u.agt.upd a fun x => { x with
      eqUsed := (List.range 64).foldl (fun t i => t.upd i fun n => n - bitsOf counts.toNat (4 * i + 3) (4 * i)) x.eqUsed } }) ∧
    ((agt u a).portRdy = true → ∀ s,
        s = { u with agt := u.agt.upd a fun x => { x with dnCred := min 16 (x.dnCred + 1) } } →
      Becomes (.dnCredit a) u (dnPump a (agt u a).dnQ s)) ∧
    ((agt u a).portRdy = false → Becomes (.dnCredit a) u u) ∧
    (∀ m r, dnFlits m ≤ (agt u a).dnCred → (agt u a).stopped = false → (agt u a).portRdy = true →
      dnPump a (m :: r) u = dnPump a r (emit (dnLeft
        { u with agt := u.agt.upd a fun x => { x with dnCred := x.dnCred - dnFlits m } } a m) (.dn a m))) ∧
    (∀ core res, (agt u a).portRdy = true → core < 16 → ∀ s,
        s = { u with agt := u.agt.upd a fun x => { x with capRec := x.capRec.put core res } } →
      (isReady u = true → Becomes (.capacityRecord a core res) u
        (emit s (.cap a { core := core, rknFree := false, part := 0, res := res }))) ∧
      (isReady u = false → Becomes (.capacityRecord a core res) u s)) ∧
    (∀ core, Becomes (.apAct a core) u
      (((agt u a).blocks.filter fun b => b.core == core && b.started).foldl (fun s b => activity s a b.node b.gen) u)) ∧
    (∀ n gen, (agt u a).acts.contains (n, gen) = false →
      activity u a n gen = progress { u with agt := u.agt.upd a fun x => { x with acts := x.acts ++ [(n, gen)] } }
        (queueOfNode u n))

/-- A core's remote operation (R186, R265, R274, R277, R278, R405, R407, R410): a malformed one is counted, one
without a live block or a free place is also answered 0xFF, any other is recorded and leaves unless it must wait; its
answer goes to the core and frees its place. -/
def Obligations.CoreOperations : Prop :=
  ∀ (u : State) (a : Nat), agtShut u a = false →
    (∀ m, (m.credit = false ∨ m.reserved = true ∨ m.op = 0 ∨ 6 < m.op ∨ m.flits ≠ opFlits m.op m.aop) →
      Becomes (.agentPortOp a m) u (count u (.agtPortErr a))) ∧
    (∀ m, isReady u = false → m.credit = true → m.reserved = false → 1 ≤ m.op → m.op ≤ 6 → m.flits = opFlits m.op m.aop →
      Becomes (.agentPortOp a m) u { u with agt := u.agt.upd a fun x => { x with inbox := x.inbox ++ [.op m] } }) ∧
    (∀ m b w h o, w = (if m.scope = 3 then count u .fabScopeBad else u) → m.credit = true → isReady u = true → m.reserved = false → 1 ≤ m.op → m.op ≤ 6 →
        m.flits = opFlits m.op m.aop →
      (liveBlock u a m.core m.btag = none →
        Becomes (.agentPortOp a m) u (emit (count u (.agtPortErr a)) (.ans a m.core m.tag 0xFF 0 []))) ∧
      (64 ≤ ((agt u a).ops.filter (·.core == m.core)).length →
        Becomes (.agentPortOp a m) u (emit (count u (.agtPortErr a)) (.ans a m.core m.tag 0xFF 0 []))) ∧
      (liveBlock u a m.core m.btag = some b → ((agt u a).ops.filter (·.core == m.core)).length < 64 →
        h = { op := m.op, final := m.final, scope := if m.scope = 3 then 2 else m.scope, ord := m.ord, srcPart := b.part, aop := m.aop,
              dstBlock := if m.op = 6 then blockId w else m.addr.toNat / 2 ^ 52, hops := 15, srcBlock := blockId w,
              srcAgent := a, srcUnit := m.core, loc := m.addr.toNat % 2 ^ 52, data := m.data, cmp := m.cmp, hallTag := 0,
              txn := 0, dcrc := BitVec.ofNat 32 (crc32c m.payload), mask := m.mask, payload := m.payload } →
        o = { core := m.core, tag := m.tag, btag := m.btag, group := m.group, src := coreSrc w a b m.group, hdr := h,
              size8 := m.size8, lanes := m.lanes,
              held := coreMustWait (blockId w) ((agt u a).ops.filter (·.core == m.core)) h ||
                (isWrite h && h.dstBlock == blockId w && agtSeqFull w a m.core b.part), got := none } →
        ∀ s, s = { w with agt := u.agt.upd a fun x => { x with ops := x.ops ++ [o] } } →
        (o.held = true → Becomes (.agentPortOp a m) u s) ∧
        (o.held = false → Ends (.agentPortOp a m) u (corePerform s a o)) ∧
        (o.held = false → (h.op = 6 ∨ (h.dstBlock = blockId w ∧ ∃ c off, targetOf w h.loc = .chan c off)) →
          Becomes (.agentPortOp a m) u (emit s (.unitOp o.src o.tag h o.size8 o.lanes))))) ∧
    (∀ core tag st v data,
      (takeFirst (fun o => o.core == core && o.tag == tag && !o.held) (agt u a).ops = none →
        Becomes (.answer a core tag st v data) u (count u .fabOrphanRsp)) ∧
      (∀ o rest got s, takeFirst (fun o => o.core == core && o.tag == tag && !o.held) (agt u a).ops = some (o, rest) →
          got = o.got.getD (st, v, data) →
          s = { u with agt := u.agt.upd a fun x => { x with ops := rest } } →
        ∀ w, w = emit (if got.1 = 0 then answerNote s a o got.2.1 else s) (.ans a core tag got.1 got.2.1 got.2.2) →
        (¬ (o.hdr.ord = true ∧ o.hdr.op = 1) → Ends (.answer a core tag st v data) u w) ∧
        (o.hdr.ord = true ∧ o.hdr.op = 1 → Ends (.answer a core tag st v data) u
          (coreRelease a core (fun x => x.hdr.op == 1 || x.hdr.op == 4) []
            ((agt w a).ops.filter (·.core == core)) w)) ∧
        (¬ (o.hdr.ord = true ∧ o.hdr.op = 1) → chanOff o.hdr.loc = none → barOff o.hdr.loc = none →
          Becomes (.answer a core tag st v data) u (emit s (.ans a core tag got.1 got.2.1 got.2.2)))))

/-! ### The Reckoner -/

/-- The register forms of scalar arithmetic: RD takes the result of s[RS1] and s[RS2], and the PC moves on (R149, R150
and the table of scalar arithmetic). Each row names its instruction, its opcode and its result. The immediate forms:
the 32-bit immediate is sign-extended, a shift takes its low 6 bits and the others must be 0, LI loads it and LIH
replaces the upper half of RD (R150 and the table of scalar arithmetic). -/
def Obligations.ScalarArithmetic : Prop :=
  (∀ (u : State) (a w : Nat) (x y : W64) (i : Instr) (code : Nat) (v : W64),
     (i, code, v) ∈ ([(.rknAdd a, 0x10, x + y), (.rknSub a, 0x11, x - y), (.rknMul a, 0x12, x * y),
       (.rknMulhu a, 0x13, BitVec.ofNat 64 (x.toNat * y.toNat / 2 ^ 64)), (.rknAnd a, 0x14, x &&& y),
       (.rknOr a, 0x15, x ||| y), (.rknXor a, 0x16, x ^^^ y), (.rknShl a, 0x17, x <<< (y.toNat % 64)),
       (.rknShr a, 0x18, x >>> (y.toNat % 64)), (.rknSra a, 0x19, x.sshiftRight (y.toNat % 64)),
       (.rknSlt a, 0x1A, if x.slt y then 1 else 0), (.rknSltu a, 0x1B, if x.ult y then 1 else 0),
       (.rknMin a, 0x1C, if y.slt x then y else x), (.rknMax a, 0x1D, if x.slt y then y else x),
       (.rknMinu a, 0x1E, if y.ult x then y else x), (.rknMaxu a, 0x1F, if x.ult y then y else x)] :
         List (Instr × Nat × W64)) →
     AtIns u a code w → w &&& maskR = w → isPend u a (rs1 w) = false → isPend u a (rs2 w) = false →
     isPend u a (rd w) = false → x = getS u a (rs1 w) → y = getS u a (rs2 w) →
     Becomes i u (stepped u a (setS u a (rd w) v))) ∧
  (∀ (u : State) (a w : Nat) (x m : W64) (n : Nat), w &&& maskI = w → m = BitVec.signExtend 64 (BitVec.ofNat 32 (bitsOf w 63 32)) →
     n = bitsOf w 37 32 → isPend u a (rd w) = false →
     (x = getS u a (rs1 w) → isPend u a (rs1 w) = false →
       (∀ (i : Instr) (code : Nat) (v : W64),
         (i, code, v) ∈ ([(.rknAddi a, 0x20, x + m), (.rknAndi a, 0x21, x &&& m), (.rknOri a, 0x22, x ||| m),
           (.rknXori a, 0x23, x ^^^ m), (.rknSlti a, 0x27, if x.slt m then 1 else 0)] : List (Instr × Nat × W64)) →
         AtIns u a code w → Becomes i u (stepped u a (setS u a (rd w) v))) ∧
       (∀ (i : Instr) (code : Nat) (v : W64),
         (i, code, v) ∈ ([(.rknShli a, 0x24, x <<< n), (.rknShri a, 0x25, x >>> n), (.rknSrai a, 0x26, x.sshiftRight n)] :
           List (Instr × Nat × W64)) →
         AtIns u a code w → bitsOf w 63 38 = 0 → Becomes i u (stepped u a (setS u a (rd w) v)))) ∧
     (AtIns u a 0x28 w → rs1 w = 0 → Becomes (.rknLi a) u (stepped u a (setS u a (rd w) m))) ∧
     (AtIns u a 0x29 w → rs1 w = 0 → Becomes (.rknLih a) u (stepped u a (setS u a (rd w)
       (BitVec.ofNat 64 (bitsOf w 63 32 * 2 ^ 32 + (getS u a (rd w)).toNat % 2 ^ 32))))))

/-- Loads and stores of DMEM at s[RS1] plus the immediate: a load brings its bytes, zero- or sign-extended, to RD, a
store writes the low bytes of its register; a misaligned address halts with ALIGN and one past the end with DMEM_RANGE
(R157). Halts and stalls come before any effect (R130, R147, R148): an unlisted opcode and a reserved bit halt with
ILLEGAL_OP, and an instruction without a failing check whose source or destination awaits a result stalls, counted. -/
def Obligations.LoadsStoresAndHalts : Prop :=
  (∀ (u : State) (a w n addr : Nat), isPend u a (rs1 w) = false →
     addr = (getS u a (rs1 w) + BitVec.signExtend 64 (BitVec.ofNat 32 (bitsOf w 63 32))).toNat →
     (∀ (i : Instr) (code : Nat) (sg : Bool),
       (i, code, n, sg) ∈ ([(.rknLdU8 a, 0x30, 1, false), (.rknLdU16 a, 0x31, 2, false), (.rknLdU32 a, 0x32, 4, false),
         (.rknLd64 a, 0x33, 8, false), (.rknLdS8 a, 0x34, 1, true), (.rknLdS16 a, 0x35, 2, true),
         (.rknLdS32 a, 0x36, 4, true)] : List (Instr × Nat × Nat × Bool)) →
       AtIns u a code w → w &&& maskI = w → isPend u a (rd w) = false →
       (addr % n = 0 → addr + n ≤ 262144 → Becomes i u (stepped u a (setS u a (rd w)
         (if sg then BitVec.signExtend 64 (BitVec.ofNat (8 * n) (leNat (dmemRead (rkn u a).dmem addr n)))
          else BitVec.ofNat 64 (leNat (dmemRead (rkn u a).dmem addr n)))))) ∧
       (addr % n ≠ 0 → Ends i u (rknHaltAt u a 7 (rkn u a).pc.toNat false)) ∧
       (addr % n = 0 → 262144 < addr + n → Ends i u (rknHaltAt u a 5 (rkn u a).pc.toNat false))) ∧
     (∀ (i : Instr) (code : Nat),
       (i, code, n) ∈ ([(.rknSt8 a, 0x38, 1), (.rknSt16 a, 0x39, 2), (.rknSt32 a, 0x3A, 4), (.rknSt64 a, 0x3B, 8)] :
         List (Instr × Nat × Nat)) →
       AtIns u a code w → w &&& (maskI + maskBits 22 18) = w → rd w = 0 → isPend u a (rs2 w) = false →
       (addr % n = 0 → addr + n ≤ 262144 → Becomes i u (stepped u a (updR u a fun r => { r with
         dmem := memPut r.dmem addr (leBytes n (getS u a (rs2 w)).toNat) }))) ∧
       (addr % n ≠ 0 → Ends i u (rknHaltAt u a 7 (rkn u a).pc.toNat false)) ∧
       (addr % n = 0 → 262144 < addr + n → Ends i u (rknHaltAt u a 5 (rkn u a).pc.toNat false)))) ∧
  (∀ (u : State) (a w : Nat), agtShut u a = false → (rkn u a).st = .running → rknWordAt u a = w →
     (rknOpcode (w % 256) = false → ∀ i ∈ [Instr.rknNop a, .rknAdd a, .rknEstart a, .rknRld a],
       Ends i u (rknHaltAt u a 1 (rkn u a).pc.toNat false)) ∧
     (w % 256 = 0x10 → w &&& maskR ≠ w → Ends (.rknAdd a) u (rknHaltAt u a 1 (rkn u a).pc.toNat false)) ∧
     (w % 256 = 0x10 → w &&& maskR = w →
         (isPend u a (rs1 w) = true ∨ isPend u a (rs2 w) = true ∨ isPend u a (rd w) = true) →
       Becomes (.rknAdd a) u (count u (.rknStallReg a))) ∧
     (∀ i v, getS u a 0 = 0 ∧ setS u a 0 v = u ∧ isPend u a 0 = false ∧ setPend u a 0 true = u ∧
       (i ≠ 0 → getS (setS u a i v) a i = v)))

/-- Control instructions (R136, R138, R152, R153, R154, R155): NOP does nothing, END stops the fetch, BREAK stops in
DEBUG where the partition's debug is open and halts elsewhere, WAIT stalls while what it names is open, FEAT reads a
word, and jumps and branches that are taken set the PC. -/
def Obligations.ControlInstructions : Prop :=
  ∀ (u : State) (a w t pc : Nat), t = bitsOf w 63 48 → pc = (rkn u a).pc.toNat →
    (AtIns u a 1 w → w &&& maskN = w → Becomes (.rknNop a) u (stepped u a u)) ∧
    (AtIns u a 2 w → w &&& maskN = w →
      Becomes (.rknEnd a) u (rknCompleted (updR u a fun r => { r with st := .ending }) a)) ∧
    (AtIns u a 3 w → w &&& maskN = w →
      (debugFull u (rknPart u a) = true →
        Becomes (.rknBreak a) u (updR u a fun r => { r with st := .debug, atBreak := true, stepping := false })) ∧
      (debugFull u (rknPart u a) = false → Ends (.rknBreak a) u (rknHaltAt u a 8 pc false))) ∧
    (∀ cores, AtIns u a 4 w → Clear u a (insWait a u w) →
        cores = (if bitsOf w 47 32 = 0 then List.range (rknLaunch u a).blocks
                 else (List.range 16).filter fun k => bitOf (bitsOf w 47 32) k).map (physCore u a) →
      (((rkn u a).ops.any fun o => bitOf (bitsOf w 11 8) o.eng && cores.contains o.core) = true ∨
          (bitsOf w 12 12 = 1 ∧ (rkn u a).reqs ≠ []) → Becomes (.rknWait a) u (count u (.rknStallSb a))) ∧
      (((rkn u a).ops.any fun o => bitOf (bitsOf w 11 8) o.eng && cores.contains o.core) = false →
        (bitsOf w 12 12 ≠ 1 ∨ (rkn u a).reqs = []) → Becomes (.rknWait a) u (stepped u a u))) ∧
    (∀ (k : Nat) (v : W64), (k, v) ∈ [(0, rknFeat0), (1, (agt u a).eng), (2, hifFeat u),
          (3, BitVec.ofNat 64 (a + (rknLaunch u a).blocks % 32 * 2 ^ 8 + (rknLaunch u a).part * 2 ^ 16 +
            blockId u % 4096 * 2 ^ 32)), (4, u.ts)] →
        AtIns u a 5 w → w &&& maskI = w → bitsOf w 63 32 = k → rs1 w = 0 → isPend u a (rd w) = false →
      Becomes (.rknFeat a) u (stepped u a (setS u a (rd w) v))) ∧
    (AtIns u a 8 w → w &&& maskRT = w → rd w = 0 → rs1 w = 0 → rs2 w = 0 → t % 8 = 0 →
      Becomes (.rknJmp a) u (jumped a t u)) ∧
    (AtIns u a 9 w → w &&& maskRT = w → isPend u a (rd w) = false → rs1 w = 0 → rs2 w = 0 → t % 8 = 0 →
      Becomes (.rknJal a) u (jumped a t (setS u a (rd w) (BitVec.ofNat 64 (pc + 8))))) ∧
    (∀ d, AtIns u a 0xA w → w &&& maskR = w → rd w = 0 → rs2 w = 0 → isPend u a (rs1 w) = false →
        d = (getS u a (rs1 w)).toNat → d % 8 = 0 → d < 2 ^ 16 → Becomes (.rknJr a) u (jumped a d u)) ∧
    (AtIns u a 0xB w → w &&& maskB = w → rd w ≤ 9 → bitsOf w 47 32 = 0 → t % 8 = 0 → isPend u a (rs1 w) = false →
        isPend u a (rs2 w) = false →
      Becomes (.rknBcc a) u (if condHolds (rd w) (getS u a (rs1 w)) (getS u a (rs2 w)) then jumped a t u
        else stepped u a u)) ∧
    (AtIns u a 0xC w → w &&& maskB = w → rd w ≤ 5 → rs2 w = 0 → t % 8 = 0 → isPend u a (rs1 w) = false →
      Becomes (.rknBcci a) u (if condHolds (rd w) (getS u a (rs1 w))
          (BitVec.signExtend 64 (BitVec.ofNat 16 (bitsOf w 47 32))) then jumped a t u else stepped u a u)) ∧
    (∀ x y : W64, condHolds 0 x y = (x == y) ∧ condHolds 1 x y = (x != y) ∧ condHolds 2 x y = x.slt y ∧
      condHolds 3 x y = !x.slt y ∧ condHolds 4 x y = x.ult y ∧ condHolds 5 x y = !x.ult y)

/-- Loops and increments (R134, R158, R159, R160): a push or, at count 0, a branch behind the body; the back-edge and
the end of levels; the increment registers, and the index that RDIDX reads. Operand slots and tensor descriptors
(R161, R162, R163): OPND fills a slot, TDLD and TDSET write an entry that passes the checks and leave one that fails
invalid with its halt, TDST stores a usable entry. -/
def Obligations.LoopsAndDescriptors : Prop :=
  (∀ (u : State) (a w pc e : Nat), pc = (rkn u a).pc.toNat → e = bitsOf w 63 48 →
     (∀ (i : Instr) (code : Nat) (ins : State → Nat → RknIns) (n : W32),
         (i, code, n) ∈ ([(.rknLoopi a, 0x40, BitVec.ofNat 32 (bitsOf w 47 32)),
           (.rknLoop a, 0x41, BitVec.ofNat 32 (getS u a (rs1 w)).toNat)] : List (Instr × Nat × W32)) →
         ins = (if code = 0x40 then insLoopi a else insLoop a) → AtIns u a code w → Clear u a (ins u w) →
       (n = 0 → Becomes i u (jumped a ((e + 8) % 2 ^ 16) u)) ∧
       (n ≠ 0 → Becomes i u (stepped u a (updR u a fun r => { r with
         loops := r.loops.put r.depth { count := n, idx := 0, start := pc + 8, stop := e }, depth := r.depth + 1 })))) ∧
     (AtIns u a 0x42 w → w &&& (maskBits 13 0 + maskBits 63 24) = w →
       Becomes (.rknSetinc a) u (stepped u a (updR u a fun r => { r with
         incs := r.incs.put (bitsOf w 10 8) { stride := BitVec.ofNat 40 (bitsOf w 63 24), level := bitsOf w 13 11 } }))) ∧
     (AtIns u a 0x43 w → w &&& maskBits 18 0 = w → isPend u a (bitsOf w 18 14) = false →
       Becomes (.rknSetincr a) u (stepped u a (updR u a fun r => { r with
         incs := r.incs.put (bitsOf w 10 8)
           { stride := BitVec.ofNat 40 (getS u a (bitsOf w 18 14)).toNat, level := bitsOf w 13 11 } }))) ∧
     (AtIns u a 0x44 w → w &&& maskBits 15 0 = w → isPend u a (rd w) = false →
       Becomes (.rknRdidx a) u (stepped u a (setS u a (rd w) (BitVec.ofNat 64
         (if bitsOf w 15 13 < (rkn u a).depth then ((rkn u a).loops.look (bitsOf w 15 13)).idx.toNat else 0))))) ∧
     (∀ v : State, (rkn v a).depth = 0 → (rkn (stepped u a v) a).pc = BitVec.ofNat 16 (pc + 8)) ∧
     (∀ (r : Rkn) (d : Nat), (r.loops.look d).stop = pc →
       ((r.loops.look d).idx + 1 < (r.loops.look d).count →
         loopBack pc (d + 1) r = { r with depth := d + 1, pc := BitVec.ofNat 16 (r.loops.look d).start,
                                          loops := r.loops.put d { r.loops.look d with idx := (r.loops.look d).idx + 1 } }) ∧
       (¬ (r.loops.look d).idx + 1 < (r.loops.look d).count →
         loopBack pc (d + 1) r = loopBack pc d { r with loops := r.loops.put d { r.loops.look d with idx := 0 } }))) ∧
  (∀ (u : State) (a w h d : Nat) (e : BitVec 512), h = tdHandle u a w →
     d = (getS u a (rs1 w) + BitVec.ofNat 64 (bitsOf w 63 48)).toNat →
     (AtIns u a 0x48 w → w &&& maskBits 35 0 = w →
       (bitsOf w 10 10 = 1 → bitsOf w 27 16 = 0 → isPend u a (bitsOf w 15 11) = false →
         Becomes (.rknOpnd a) u (stepped u a (updR u a fun r => { r with
           slots := r.slots.put (bitsOf w 9 8)
             (some { handle := getS u a (bitsOf w 15 11), mask := bitsOf w 35 28 }) }))) ∧
       (bitsOf w 10 10 = 0 → bitsOf w 15 11 = 0 →
         Becomes (.rknOpnd a) u (stepped u a (updR u a fun r => { r with
           slots := r.slots.put (bitsOf w 9 8)
             (some { handle := BitVec.ofNat 64 (bitsOf w 27 16), mask := bitsOf w 35 28 }) })))) ∧
     (∀ (i : Instr) (code : Nat) (ins : State → Nat → RknIns),
         (i = .rknTdld a ∧ code = 0x49 ∧ ins = insTdld a ∧ e = BitVec.ofNat 512 (leNat (dmemRead (rkn u a).dmem d 64))) ∨
           (i = .rknTdset a ∧ code = 0x4B ∧ ins = insTdset a ∧ ∃ o lo n, usableTd u a h = some o ∧
             (lo, n) = tdField (bitsOf w 27 24) ∧
             e = BitVec.ofNat 512 (o.toNat - bitsOf o.toNat (lo + n - 1) lo * 2 ^ lo +
               (getS u a (rd w)).toNat % 2 ^ n * 2 ^ lo)) →
         AtIns u a code w → Clear u a (ins u w) →
       (tdCheck e (rknLaunch u a).blocks = none → Becomes i u (stepped u a (updA u a fun x => { x with
         td := x.td.put h { valid := true, part := rknPart u a, bits := e } }))) ∧
       (∀ r, tdCheck e (rknLaunch u a).blocks = some r → Ends i u (rknHaltAt
         (updA u a fun x => { x with td := x.td.upd h fun y => { y with valid := false } }) a r (rkn u a).pc.toNat false))) ∧
     (AtIns u a 0x4A w → Clear u a (insTdst a u w) → usableTd u a h = some e →
       Becomes (.rknTdst a) u (stepped u a (updR u a fun r => { r with dmem := memPut r.dmem d (leBytes 64 e.toNat) }))))

/-- Engine starts (R123, R130, R149, R164, R166, R170): behind an acquire, without credits or with a conflicting claim
they stall, each counted in its counter; else they take one credit of every named section, and each core has its
command. -/
def Obligations.EngineStarts : Prop :=
  ∀ (u : State) (a w eng : Nat) (cores : List Nat), eng = bitsOf w 9 8 → cores = startCores u a w →
    (∀ fn slots rdn wm l claims, AtIns u a 0x50 w → Clear u a (insEstart a u w) → fn = bitsOf w 23 16 →
        slots = bitsOf w 27 24 → rdn = bitsOf w 36 32 → l = opnds u a slots →
        wm = (if fn < 0x80 then ((fnForm fn).map (·.2.2)).getD 0 else bitsOf w 31 28) →
        claims = (cores.flatMap fun k => l.map fun o =>
          (claimOf o.td o.cur (physCore u a k) (bitOf wm o.slot), some (eng, physCore u a k))) →
      (acquireHolds u a = true → Becomes (.rknEstart a) u (count u (.rknStallReg a))) ∧
      (acquireHolds u a = false → creditsFree u a eng cores = false → Becomes (.rknEstart a) u (count u (.rknStallQ a))) ∧
      (acquireHolds u a = false → creditsFree u a eng cores = true → sbReady u a claims = false →
        Becomes (.rknEstart a) u (count u (.rknStallSb a))) ∧
      (acquireHolds u a = false → creditsFree u a eng cores = true → sbReady u a claims = true →
        Ends (.rknEstart a) u (stepped u a
          (setPend (cores.foldl (startOn a eng fn slots wm rdn l) (takeSections u a eng cores)) a rdn true)))) ∧
    (AtIns u a 0x51 w → Clear u a (insEcfg a u w) →
      (acquireHolds u a = true → Becomes (.rknEcfg a) u (count u (.rknStallReg a))) ∧
      (acquireHolds u a = false → creditsFree u a eng cores = false → Becomes (.rknEcfg a) u (count u (.rknStallQ a))) ∧
      (acquireHolds u a = false → creditsFree u a eng cores = true →
        Ends (.rknEcfg a) u (stepped u a (cores.foldl
          (fun s k =>
            let p := cmdTag s a (physCore s a k)
            dnSend p.2 a (.engCfg (physCore p.2 a k) eng p.1 (bitsOf w 23 16) (getS u a (bitsOf w 28 24))))
          (takeSections u a eng cores))))) ∧
    (∀ (fn slots rdn wm : Nat) (l : List Opnd) (s : State) (k : Nat), (agt s a).stopped = false → (agt s a).portRdy = true →
        (agt s a).dnQ = [] → 2 ≤ (agt s a).dnCred →
      ∃ tag, (startOn a eng fn slots wm rdn l s k).out = s.out ++ [.dn a (.engCmd (physCore s a k) eng tag fn slots wm
          (rdn != 0 || isReduction fn) ((List.range 4).map fun i =>
            match l.find? (·.slot == i) with
            | some o => tdSetBase o.td o.cur
            | none => 0))] ∧
        (rkn (startOn a eng fn slots wm rdn l s k) a).ops = (rkn s a).ops ++
          [{ core := physCore s a k, eng := eng, tag := tag, rd := rdn,
             outside := l.any fun o => bitOf wm o.slot && tdSpace o.td != 0, at_ := (rkn s a).nextReq }])

/-- The requests of a Reckoner (R149, R167, R168, R169, R170, R171, R172, R187): each takes its place and its claims,
marks its register and leaves; behind an acquire, without a free place or with a conflicting claim it stalls, counted.
-/
def Obligations.ReckonerRequests : Prop :=
  ∀ (u : State) (a w : Nat) (q : RknReq), q.id = (rkn u a).nextReq →
    (∀ c o, c = numFrom u a w 20 → o = opndAt (opnds u a (2 ^ bitsOf w 19 18)) (bitsOf w 19 18) →
      (AtIns u a 0x58 w → Clear u a (insChan true a u w) → Accepts u a [reqClaim u a o false] →
          q = { blankReq .csend (rd w) with
                id := q.id, target := c, lo := o.cur.toNat, td := o.td,
                held := (rkn u a).reqs.any fun q => q.kind == .csend && q.target == c } →
        Ends (.rknCsend a) u (stepped u a (if q.held then queued u a q [reqClaim u a o false]
          else csendReserve (queued u a q [reqClaim u a o false]) a q))) ∧
      (AtIns u a 0x59 w → Clear u a (insChan false a u w) → Accepts u a [reqClaim u a o true] →
          q = { blankReq .crecv (rd w) with id := q.id, target := c, lo := o.cur.toNat, td := o.td } →
        Ends (.rknCrecv a) u (stepped u a (rknUnit (queued u a q [reqClaim u a o true]) a q.id 3 (chanLoc c 0xFC0000)
          (BitVec.ofNat 64 (tdPacked q.td)) 0xFF false [])))) ∧
    (∀ b ph, b = numFrom u a w 20 → ph = (pairOf (rkn u a).pairs b).getD (bar u b).phase → Accepts u a [] →
      (AtIns u a 0x5A w → Clear u a (insBar false a u w) →
          q = { blankReq .bara (rd w) with id := q.id, target := b, lo := ph.toNat } →
        Ends (.rknBara a) u (stepped u a (rknUnit (queued u a q []) a q.id 3 (barLoc b 8) 0 0xFF false []))) ∧
      (AtIns u a 0x5B w → Clear u a (insBar true a u w) →
          q = { blankReq .barw (rd w) with id := q.id, target := b, lo := ph.toNat } →
        Ends (.rknBarw a) u (stepped u a (rknUnit (queued u a q []) a q.id 3 (barLoc b 16) (BitVec.ofNat 64 ph.toNat) 0xFF
          false [])))) ∧
    (∀ addr, Accepts u a [] → addr = (getS u a (rs1 w) + BitVec.signExtend 64 (BitVec.ofNat 32 (bitsOf w 63 32))).toNat →
      (AtIns u a 0x60 w → Clear u a (insWord false a u w) →
          q = { blankReq .rld (rd w) with
                id := q.id, acquire := bitsOf w 25 25 = 1, host := bitsOf w 26 26 = 1, lo := addr,
                hdr := rknHdr u a 1 (bitsOf w 24 23) 0 (bitsOf w 25 25 = 1) addr 0 0 } →
        Ends (.rknRld a) u (stepped u a (sendWord a (queued u a q []) q))) ∧
      (AtIns u a 0x61 w → Clear u a (insWord true a u w) →
          q = { blankReq .rst (rd w) with
                id := q.id, host := bitsOf w 26 26 = 1, lo := addr,
                hdr := rknHdr u a 2 (bitsOf w 24 23) 0 (bitsOf w 25 25 = 1) addr (getS u a (rs2 w)) 0 } →
        Ends (.rknRst a) u (stepped u a (sendWord a (queued u a q []) q)))) ∧
    (∀ s : State, q.host = true → q.lo < Config.hostTop → (q.kind = .rst → rstWaits s a q = false) →
      sendWord a s q = emit { updReq s a q.id (fun q => { q with held := false }) with
        hif.words := s.hif.words ++ [{ agent := a, req := q.id, op := if q.hdr.op = 3 then 2 + q.hdr.aop else q.hdr.op - 1,
                                       part := rknPart s a, addr := q.lo, data := q.hdr.data, cmp := q.hdr.cmp }] }
        (.chiWord { agent := a, req := q.id, op := if q.hdr.op = 3 then 2 + q.hdr.aop else q.hdr.op - 1,
                    part := rknPart s a, addr := q.lo, data := q.hdr.data, cmp := q.hdr.cmp })) ∧
    (AtIns u a 0x62 w → Clear u a (insAtom a u w) → Accepts u a [] →
        q = { blankReq .atom (rd w) with
              id := q.id, host := bitsOf w 28 28 = 1, lo := (getS u a (rs1 w)).toNat,
              hdr := rknHdr u a 3 0 (bitsOf w 32 29) false (getS u a (rs1 w)).toNat (getS u a (rs2 w))
                (if bitsOf w 32 29 = 9 then getS u a (bitsOf w 27 23) else 0) } →
      Ends (.rknAtom a) u (stepped u a (sendWord a (queued u a q []) q))) ∧
    (∀ x n, x = (getS u a (rs1 w)).toNat → n = min (getS u a (rs2 w)).toNat (Config.hostTop - x) →
        AtIns u a 0x63 w → Clear u a (insInval a u w) → Accepts u a [] →
        q = { blankReq .inval 0 with id := q.id, lo := x } →
      Ends (.rknInval a) u (stepped u a (if n = 0 then queued u a q [] else emit (queued u a q []) (.chiClean x n)))) ∧
    (∀ x y c, x = opndAt (opnds u a 3) 0 → y = opndAt (opnds u a 3) 1 →
        c = [reqClaim u a x false, reqClaim u a y true] → AtIns u a 0x68 w → Clear u a (insRoute a u w) →
        Accepts u a c → q = { blankReq .route (rd w) with id := q.id, target := bitsOf w 47 32 } →
      ∀ s, s = queued u a q c →
      Ends (.rknRoute a) u (stepped u a (emit s (.route {
        agent := a, req := q.id, part := rknPart s a, node := (rknLaunch s a).node, entry := bitsOf w 47 32,
        first := (getS u a (rs1 w)).toNat % 2 ^ 32, tile := tileOf s a x.td x.cur, list := tileOf s a y.td y.cur,
        data := [] })))) ∧
    (∀ l c, l = opnds u a (bitsOf w 23 20) → c = (l.map fun o => reqClaim u a o false) → AtIns u a 0x69 w →
        Clear u a (insCadd a u w) → Accepts u a c →
        q = { blankReq .cadd (rd w) with id := q.id, target := bitsOf w 47 32 } →
      ∀ s, s = queued u a q c →
      Ends (.rknCadd a) u (stepped u a (emit s (.cadd {
        agent := a, req := q.id, part := rknPart s a, group := bitsOf w 47 32,
        tile := tileOf u a (opndAt l 0).td (opndAt l 0).cur, tok := tileOf u a (opndAt l 1).td (opndAt l 1).cur,
        wt := if bitsOf w 23 20 = 7 then some (tileOf u a (opndAt l 2).td (opndAt l 2).cur) else none,
        data := [], tokData := [], wtData := [] })))) ∧
    (∀ (i : Instr) (code : Nat) (ins : State → Nat → RknIns),
        (i = .rknAtom a ∧ code = 0x62 ∧ ins = insAtom a) ∨ (i = .rknInval a ∧ code = 0x63 ∧ ins = insInval a) →
        AtIns u a code w → Clear u a (ins u w) →
      (acquireHolds u a = true → Becomes i u (count u (.rknStallReg a))) ∧
      (acquireHolds u a = false → 32 ≤ (rkn u a).reqs.length → Becomes i u (count u (.rknStallQ a))))

/-- What comes back to a Reckoner (R136, R137, R149, R167, R186, R187, R191, R196, R397): answers write RD and free
the request, those of barriers keep the phases; a granted send writes its data, and its commit leaves once they are
performed; a claim's packet is written and released; an error of a host word is a fault; a drained Reckoner returns
its charge and retires, and a halt's fault follows. The standby and memory errors (R145, R337): an idle Reckoner with
a swap requested changes places with its standby once, with a log record; a scrub that finds an uncorrectable word is
a fault and asks for the swap, and so is such a word that the layer program meets, as a fault of its partition. -/
def Obligations.ReckonerAnswers : Prop :=
  (∀ (u : State) (a : Nat), agtShut u a = false →
     (∀ id v, ((rkn u a).reqs.find? fun q => q.id == id && !q.held && !q.host && q.kind != .csend && q.kind != .crecv) = none →
       Becomes (.requestAnswer a id v) u (count u .fltLateAns)) ∧
     (∀ id v q, ((rkn u a).reqs.find? fun q => q.id == id && !q.held && !q.host && q.kind != .csend && q.kind != .crecv) = some q →
       (q.kind = .rld ∨ q.kind = .rst ∨ q.kind = .atom ∨ q.kind = .inval ∨ q.kind = .cadd →
         Ends (.requestAnswer a id v) u (reqDone u a q (q.got.getD v))) ∧
       (q.kind = .route → Ends (.requestAnswer a id v) u (reqDone (updR u a fun r =>
         { r with drops := min (r.drops + (q.got.getD v).toNat / 2 ^ 32) (2 ^ 32 - 1) }) a q (q.got.getD v))) ∧
       (q.kind = .bara → bitOf (q.got.getD v).toNat 63 = false → Ends (.requestAnswer a id v) u (reqDone (updR u a fun r =>
         { r with pairs := recordPair r.pairs q.target (BitVec.ofNat 16 (q.got.getD v).toNat) }) a q (q.got.getD v))) ∧
       (q.kind = .barw → bitOf (q.got.getD v).toNat 63 = false → Ends (.requestAnswer a id v) u (reqDone (updR u a fun r =>
         { r with pairs := r.pairs.filter fun x => !(x.bar == q.target && x.phase.toNat == q.lo) }) a q (q.got.getD v)))) ∧
     (∀ id v data q, ((rkn u a).reqs.find? fun q => q.id == id && q.kind == .csend && !q.held) = some q →
       (q.sent = 0 → v.toNat % 4 = 1 → Ends (.csendAnswer a id v data) u
         (reqDone (updR u a fun r => { r with drops := min (r.drops + 1) (2 ^ 32 - 1) }) a q 1)) ∧
       (2 ≤ q.sent → Becomes (.csendAnswer a id v data) u (count u .fltLateAns)) ∧
       (q.sent < 2 → v.toNat % 4 = 2 → Ends (.csendAnswer a id v data) u (reqDone (updR u a fun r => { r with peerClosed := true }) a q 2)) ∧
       (q.sent = 1 → v.toNat % 4 = 0 → Ends (.csendAnswer a id v data) u (reqDone u a q 0)) ∧
       (q.sent = 1 → v.toNat % 4 = 1 → q.resends < 3 → Ends (.csendAnswer a id v data) u
         (csendReserve (updReq u a id fun q => { q with resends := q.resends + 1 }) a { q with resends := q.resends + 1 })) ∧
       (∀ b s q' w, q.sent = 0 → v.toNat % 4 = 0 → (b, s) = tileBytes u (rknPart u a) (reqTile u a q) data →
           q' = { q with sent := 2, grant := v, data := b } → w = joinLine (updReq s a id fun _ => q') a id →
         (lineBlocks w a q.id (blockId w) = true ∨ agtSeqFull w a 16 (rknPart w a) = true →
           Ends (.csendAnswer a id v data) u w) ∧
         (lineBlocks w a q.id (blockId w) = false → agtSeqFull w a 16 (rknPart w a) = false →
           Ends (.csendAnswer a id v data) u
             (sendData a q' (b.length / 256 + 1) 0 b (updReq w a q.id fun q => { q with sent := 3, data := [] }))))) ∧
     (∀ id q, ((rkn u a).reqs.find? fun q => q.id == id) = some q → q.kind = .csend → q.sent = 3 →
       ((lineBlocks u a q.id (blockId u) = true ∨ ownWritesOpen u a = true) →
         Becomes (.finalWriteRelease (.rkn a id)) u u) ∧
       (lineBlocks u a q.id (blockId u) = false → ownWritesOpen u a = false →
         Becomes (.finalWriteRelease (.rkn a id)) u
           (rknUnit (leaveLine (updReq u a q.id fun q => { q with sent := 1 }) a q.id) a q.id 2 (chanLoc q.target 0x7FFFF8)
             (BitVec.ofNat 64 (bitsOf q.grant.toNat 31 16)) 0xFF true []))) ∧
     (∀ id v q, ((rkn u a).reqs.find? fun q => q.id == id && q.kind == .crecv && q.sent == 0) = some q →
       (∀ k n p b s w, bitsOf v.toNat 35 32 = 0 → k = bitsOf v.toNat 40 36 → n = bitsOf v.toNat 31 0 →
           (chan u q.target).claims.look k = some p → (b, s) = pktRead u p 0 n →
           w = writeTile a (rknPart s a) (reqTile s a q) (tileRows (reqTile s a q)).1 (tileRows (reqTile s a q)).2 b s →
           lineBlocks w a q.id (blockId w) = false → agtSeqFull w a 16 (rknPart w a) = false →
         Ends (.crecvAnswer a id v) u (reqDone (rknWrite w a q.id 2 q.target 0xFC0008 (BitVec.ofNat 64 k) 0xFF []) a
           { q with grant := v } (BitVec.ofNat 64 n))) ∧
       (bitsOf v.toNat 35 32 ≠ 0 → Ends (.crecvAnswer a id v) u
         (reqDone (if bitOf v.toNat 33 then count u (.rknRecvShort a) else u) a q (BitVec.ofNat 64 (v.toNat % 2 ^ 35))))) ∧
     (∀ id v w rest q, takeFirst (fun w => w.agent == a && w.req == id) u.hif.words = some (w, rest) →
         ((rkn u a).reqs.find? fun q => q.id == id && q.host) = some q →
       Ends (.hostWordResponse a id v false) u (reqDone { u with hif := { u.hif with words := rest } } a q v) ∧
       Ends (.hostWordResponse a id v true) u
         (raise (count { u with hif := { u.hif with words := rest } } .hifUnmapped) 0x0103 .up w.part a)) ∧
     (∀ l r x, r = rkn u a → l = rknLaunch u a → (r.st = .ending ∨ r.st = .halting) → r.ops = [] → r.reqs = [] →
         x = rknIdle (emit (emit (returnLayer (rknHaltNote u a) a) (.notice a l.node l.gen r.pairs))
           (.retire a l.retTo l.node l.gen (if r.halted then .halted else if r.peerClosed then .peerClosed else .done) r.drops)) a →
       (r.halt = none → rknHaltNote u a = u ∧ Ends (.reckonerDrained a) u x) ∧
       (∀ h, r.halt = some h → rknHaltNote u a = haltNote u a h.reason h.addr l.node l.part ∧
         Ends (.reckonerDrained a) u (haltFault x a h.reason l.part h.inj))) ∧
     ((rkn u a).st = .aborting → (rkn u a).ops = [] → Ends (.reckonerDrained a) u (rknIdle (returnLayer u a) a)) ∧
     (∀ (q : RknReq) (v : W64), (q.kind = .csend → ∀ x ∈ (rkn u a).reqs, x.held = false) →
       reqDone u a q v = updR (setPend (setS u a q.rd v) a q.rd false) a fun r =>
         { r with reqs := r.reqs.filter (·.id != q.id), line := r.line.erase q.id,
                  sb := r.sb.filter fun e => !(e.req && e.id == q.id) })) ∧
  (∀ (u : State) (a : Nat),
     ((agt u a).swapReq = true → (rkn u a).st = .idle → (agt u a).spareUsed = false → ∀ s,
         s = updR (updA u a fun x => { x with swapReq := false, spareUsed := true }) a (fun r =>
           { r with imem := r.imemS, imemS := r.imem, dmem := r.dmemS, dmemS := r.dmem, swappedIn := true }) →
       Becomes (.standbySwap a) u (logRecord (count s (.agtSpare a)) 7 a 0)) ∧
     (((agt u a).swapReq = false ∨ (rkn u a).st ≠ .idle ∨ (agt u a).spareUsed = true) → Becomes (.standbySwap a) u u) ∧
     (∀ inst row ce, (rkn u a).st = .running → agtShut u a = false →
       Ends (.imemScrub a inst row false ce true) u (requestSwap (raise u 0x0902 .up (rknPart u a) a) a)) ∧
     (∀ inst row ce, (rkn u a).st = .idle → agtShut u a = false →
       Ends (.imemScrub a inst row true ce true) u (raise u 0x0902 .c 0 a) ∧
       Ends (.imemScrub a inst row false ce true) u (requestSwap (raise u 0x0902 .c 0 a) a) ∧
       Ends (.imemScrub a inst row false true false) u (sramCorrected (memCorrected u a) inst row) ∧
       Becomes (.imemScrub a inst row false false false) u u))

/-! ### Channels, barriers and routing -/

/-- Sending (R174, R175, R177, R180, R181, R182, R183, R184): a reservation is granted, waits or is refused; data that
passes its check is stored in the granted packet, and data that fails it marks the packet; a commit hands the packet
to the channel's list or frees a failed one. What a grant leaves (R180, R182): the channel counts one packet and its
cells more, the answer carries the epoch, and memory changes in the link entries of the packet's cells only. -/
def Obligations.ChannelSend : Prop :=
  (∀ (u : State) (c : Nat) (src : Src) (v : Nat) (h : Chan), chnShut u = false → h = chan u c →
     (chanAllowed u c src = false → opCredit u (.reserve c src v) = true →
       Becomes (.reserve c src v) u (answer (count u .chnXpart) src (ansReserve c) 3)) ∧
     (∀ n, chanAllowed u c src = true → opCredit u (.reserve c src v) = true → 1 ≤ v → v ≤ 262144 →
         n = (v + 64 + 2047) / 2048 →
       (h.open_ = false → Becomes (.reserve c src v) u (answer (countClosed u c 1) src (ansReserve c) 2)) ∧
       (h.open_ = true → (h.quota < n ∨ (u.chn.sends.any fun e => e.chan == c && sameSrc e.src src) = true) →
         Becomes (.reserve c src v) u (answer (count u .chnRefuse) src (ansReserve c) 3)) ∧
       (∀ e : OpenSend, h.open_ = true → n ≤ h.quota → (u.chn.sends.any fun e => e.chan == c && sameSrc e.src src) = false →
           e = { chan := c, src := src, len := v, need := n, granted := false, epoch := 0, cells := [], bad := false,
                 blocks := [] } →
         ((u.chn.sends.any fun e => e.chan == c && !e.granted) = false → fitsChan h n = true →
           Ends (.reserve c src v) u (grantSend { u with chn := { u.chn with sends := u.chn.sends ++ [e] } } c e)) ∧
         (((u.chn.sends.any fun e => e.chan == c && !e.granted) = true ∨ fitsChan h n = false) → h.dropNewest = false →
           ∀ s, s = count (updC u c fun h => { h with stall := sat32 h.stall 1 }) .chnStall →
           Becomes (.reserve c src v) u { s with chn := { s.chn with sends := u.chn.sends ++ [e] } }) ∧
         (((u.chn.sends.any fun e => e.chan == c && !e.granted) = true ∨ fitsChan h n = false) → h.dropNewest = true →
           ∀ s, s = detReport (pageCount (count (updC u c fun h =>
             { h with tailGap := sat32 h.tailGap 1, drops := sat32 h.drops 1 }) .chnDrop) h.part 9 1) h.part 5 c Config.noNode
             (srcIdent src) →
           Ends (.reserve c src v) u (retestClaims (answer (trRecord s
             { type := 5, part := h.part, cls := 0, gen := 0, node := Config.noNode, sub := 0, ts := s.ts,
               arg1 := BitVec.ofNat 64 c, arg2 := srcIdent src })
             src (ansReserve c) 1) c)))) ∧
     (∀ off data mask e w b ok t, off < 262144 → chanAllowed u c src = true → u.chn.inverted.look c = none →
         (u.chn.sends.find? fun e => e.chan == c && sameSrc e.src src && e.granted) = some e → off < e.len → e.bad = false →
         w = writeDone u src c off →
         b = mergeSel (fun i => mask.getLsbD i) 0 (payloadBytes u e.cells e.blocks e.len off data.length) data →
         (t, ok) = storePayload w e off (b.take (e.len - off)) →
       (ok = true → Ends (.sendData c src off data mask true) u { t with chn := { t.chn with
         sends := updFirst (fun e => e.chan == c && sameSrc e.src src && e.granted) (fun _ => { e with
           bad := false, blocks := blocksWith e.blocks off b.length }) t.chn.sends } }) ∧
       ∀ s, s = raise (count w .chnRewind) 0x0B01 .c h.part c → Ends (.sendData c src off data mask false) u
         { s with chn := { s.chn with
           sends := updFirst (fun e => e.chan == c && sameSrc e.src src && e.granted) (fun e => { e with bad := true })
             s.chn.sends } }) ∧
     (∀ e rest s, chanAllowed u c src = true →
         takeFirst (fun e => e.chan == c && sameSrc e.src src && e.granted) u.chn.sends = some (e, rest) →
         s = { u with chn := { u.chn with sends := rest } } →
       (e.bad = true → Ends (.commit c src v) u (retestSends (answer (updC (freeCells s e.cells) c fun h =>
         { h with packets := h.packets - 1, used := h.used - e.need }) src (ansCommit c) 1) c)) ∧
       (e.bad = false → ∀ (p : Pkt) x y z,
           p = { len := e.len, gap := h.tailGap, epoch := e.epoch, cells := e.cells, seq := h.seq, ts := u.ts, src := src,
                 blocks := e.blocks } →
           x = pageCount (count (updC (writeHeader s h.list p) c fun h =>
             { h with list := h.list ++ [p], tailGap := 0, seq := h.seq + 1, msg := sat32 h.msg 1, lastSrc := some src })
             .chnMsg) h.part 8 1 →
           y = (if (h.lastSrc.any fun x => !sameSrc x src) then detReport x h.part 3 c Config.noNode (srcIdent src) else x) →
           z = progress (answer y src (ansCommit c) 0) h.queue →
         Ends (.commit c src v) u (retestClaims (if h.notifyEn then pushNotice z h.notifyNode else z) c)))) ∧
  (∀ (s : State) (c : Nat) (e : OpenSend),
     (chan (grantSend s c e) c).packets = (chan s c).packets + 1 ∧
     (chan (grantSend s c e) c).used = (chan s c).used + e.need ∧
     (chan (grantSend s c e) c).list = (chan s c).list ∧
     (grantSend s c e).out = s.out ++
       [.answer e.src (ansReserve c) (BitVec.ofNat 64 ((chan s c).epoch.toNat * 2 ^ 16))] ∧
     (Memory.wf s.mem = true → Memory.wf (grantSend s c e).mem = true ∧
       ∀ a, (∀ k ∈ (takeCells s e.need).1, a < linkBase s + 4 * k ∨ linkBase s + 4 * k + 4 ≤ a) →
         memByte (grantSend s c e) a = memByte s a))

/-- Receiving (R175, R177, R188, R189, R190, R192): a claim takes the item at the head or waits, a closed channel
answers at once, a read returns the claimed packet's bytes, a release frees its cells and slot, and NOTIFY names the
notified node. -/
def Obligations.ChannelReceive : Prop :=
  ∀ (u : State) (c : Nat) (src : Src) (v : Nat) (h : Chan), chnShut u = false → h = chan u c →
    chanAllowed u c src = true →
    (opCredit u (.claim c src v) = true →
      (h.open_ = false → Becomes (.claim c src v) u (answer u src (ansClaim c) (2 ^ 34))) ∧
      (∀ x h', h.open_ = true → (u.chn.claims.any (·.chan == c)) = false → claimItem h (v % 2 ^ 19) = some (x, h') →
        Becomes (.claim c src v) u (answer (updC u c fun _ => h') src (ansClaim c) x)) ∧
      (∀ s, h.open_ = true → ((u.chn.claims.any (·.chan == c)) = true ∨ claimItem h (v % 2 ^ 19) = none) →
          s = count (updC u c fun h => { h with stall := sat32 h.stall 1 }) .chnStall →
        Becomes (.claim c src v) u { s with chn := { s.chn with
          claims := u.chn.claims ++ [{ chan := c, src := src, maxLen := v % 2 ^ 19 }] } })) ∧
    (∀ p r m, h.list = p :: r → (p.gap = 0 ∨ h.gapTaken = true) →
      (m = 0 ∨ p.len ≤ m → ∀ k, freeSlot h = some k → claimItem h m =
        some (p.len + k * 2 ^ 36, { h with list := r, claims := h.claims.put k (some p), gapTaken := false })) ∧
      (m ≠ 0 → m < p.len → claimItem h m = some (p.len + 2 ^ 33, h))) ∧
    (∀ k o n p, k < 31 → o < 0x40000 → h.claims.look k = some p → o < p.len →
      (∀ b s, (b, s) = pktRead u p o n →
        Ends (.recvData c src (0x800000 + k * 0x40000 + o) n false) u (emit s (.readData src b))) ∧
      ((u.slt.vaults.any fun e => !e.2.bad.isEmpty) = false →
        Becomes (.recvData c src (0x800000 + k * 0x40000 + o) n false) u (emit u (.readData src (pktBytes u p o n))))) ∧
    (∀ k o n p, k < 31 → o < 0x40000 → h.claims.look k = some p → p.len ≤ o →
      Becomes (.recvData c src (0x800000 + k * 0x40000 + o) n false) u (emit u (.readData src (List.replicate n 0)))) ∧
    (∀ off n, Becomes (.recvData c src off n true) u (emit (count u .chnOrphan) (.answer src (8 * c) 0))) ∧
    (∀ p s, v < 32 → h.claims.look v = some p →
        s = updC (freeCells (writeDone u src c 0xFC0008) p.cells) c (fun h =>
          { h with claims := h.claims.put v none, packets := h.packets - 1, used := h.used - p.cells.length }) →
      Ends (.release c src v) u (retestClaims (retestSends (progress s h.queue) c) c)) ∧
    (h.open_ = true →
      (bitOf v 24 = true → v % 2 ^ 24 ≠ Config.noNode → ownsNode u h.part (v % 2 ^ 24) = true →
        Becomes (.notify c src v) u (updC u c fun h => { h with notifyNode := v % 2 ^ 24, notifyEn := true })) ∧
      (bitOf v 24 = false → Becomes (.notify c src v) u (updC u c fun h => { h with notifyEn := false })))

/-- Barriers (R194, R195, R196, R197): ARM binds a free barrier, an arrival counts once for a participant and phase
and releases at the expected number, a wait of the current phase is held and an earlier one answered, and a retirement
lowers what is expected. Group atomics (R170, R199, R200, R201): the active lanes are counted, those on the
partition's own data are performed indivisibly address by address, and their old values return to the source; those in
another block go to FAB, one atomic for each address; the arithmetic of the ten codes on a word. -/
def Obligations.BarriersAndAtomics : Prop :=
  (∀ (u : State) (b : Nat) (src : Src) (x : Bar), u.bau.stopped = false → x = bar u b →
     (∀ n ex, barAllowed u b src = true → x.bound = false → 1 ≤ ex → ex < 2 ^ 24 → n < 2 ^ 24 →
         ownsNode u src.part n = true → (u.bau.bars.filter fun e => e.2.bound && e.2.node == n).length < 4 →
         (((u.bau.bars.filter (·.2.bound)).map (·.2.node)).eraseDups).length < 4096 →
       Becomes (.barrierArm b src (n + ex * 2 ^ 24) true) u
         (updB u b fun x => { x with bound := true, genSet := false, node := n, expected := ex, arrived := 0 })) ∧
     (∀ v full, (barAllowed u b src = false ∨ full = false ∨ x.bound = true) →
       Becomes (.barrierArm b src v full) u (count u .bauRefuse)) ∧
     (∀ ph, (barAllowed u b src = false ∨ barMatches u b src = false) →
       Becomes (.barrierArrive b src ph) u (answer (count u .bauRefuse) src (ansArrive b) (2 ^ 63))) ∧
     (∀ ph s, barAllowed u b src = true → barMatches u b src = true →
         s = updB u b (fun x => { x with gen := src.gen, genSet := true }) →
       (ph = some x.phase → Becomes (.barrierArrive b src ph) u
         (answer (count s .bauDup) src (ansArrive b) (x.phase.toNat + x.arrived * 2 ^ 16))) ∧
       (∀ t, ph ≠ some x.phase → t = answer (count (updB s b fun x => { x with arrived := x.arrived + 1 }) .bauArrive) src
             (ansArrive b) (x.phase.toNat + (x.arrived + 1) * 2 ^ 16) →
         (x.arrived + 1 < x.expected → Becomes (.barrierArrive b src ph) u t) ∧
         (x.expected ≤ x.arrived + 1 → Ends (.barrierArrive b src ph) u (releaseBar t b)))) ∧
     (∀ ph s, barAllowed u b src = true → barMatches u b src = true → opCredit u (.wait b src ph) = true →
         s = updB u b (fun x => { x with gen := src.gen, genSet := true }) →
       (ph = x.phase → Becomes (.barrierWait b src ph) u
         { s with bau := { s.bau with waits := u.bau.waits ++ [{ bar := b, phase := ph, src := src }] } }) ∧
       (ph ≠ x.phase → Becomes (.barrierWait b src ph) u (answer s src (ansWait b) x.lastCount))) ∧
     (bar (releaseBar u b) b).phase = x.phase + 1 ∧ (bar (releaseBar u b) b).arrived = 0 ∧
     (bar (releaseBar u b) b).lastCount = x.arrived ∧
     (∀ n gen pairs w, Lands (isNotice n gen pairs) u w →
         ((u.bau.bars.filter fun e => e.2.bound && e.2.node == n).map (·.1)) = [b] →
       Ends (.retireNotice n gen pairs) u (retireAt w b gen pairs)) ∧
     (∀ n gen pairs w, Lands (isNotice n gen pairs) u w → (u.bau.bars.any fun e => e.2.bound && e.2.node == n) = false →
       Becomes (.retireNotice n gen pairs) u w) ∧
     (∀ gen pairs s, (x.genSet = false ∨ x.gen = gen) →
         s = updB u b (fun y => { y with gen := gen, genSet := true, expected := y.expected - 1,
                                         arrived := if pairs.any fun e => e.1 == b && e.2 == x.phase then y.arrived - 1
                                                    else y.arrived }) →
       (1 < x.expected → (bar s b).arrived = 0 ∨ (bar s b).arrived < (bar s b).expected → retireAt u b gen pairs = s))) ∧
  (∀ (u : State) (src : Src) (tag aop : Nat) (size8 : Bool) (lanes : List Lane) (act : List (Nat × Lane)) (s0 s : State)
     (old : Tab Nat) (far : List (Nat × Nat × Lane)), bauShut u = false → act = ((List.range 32).zip lanes).filter (·.2.active) →
     s0 = countN (count u .bauAtom) .bauLane act.length →
     far = act.filterMap (fun e => match laneFate s0 src.part aop (if size8 then 8 else 4) e.2.addr with
       | .remote a => some (a, e)
       | _ => none) →
     (s, old) = groupLocal s0 src.part src aop (if size8 then 8 else 4) act →
     (far = [] → Ends (.groupAtomic src tag aop size8 lanes) u (groupDone s src tag (oldBytes old))) ∧
     (∀ addrs, addrs = (far.map (·.1)).eraseDups → addrs ≠ [] → Ends (.groupAtomic src tag aop size8 lanes) u (addrs.foldl (fun s a =>
         let mine := (far.filter (·.1 == a)).map (·.2)
         fabSubmit s (groupHdr src aop a size8 mine) (.bau src.agent src.unit tag ((mine.map (·.1)).headD 0)))
       { s with bau.groups := s.bau.groups ++ [{ src := src, tag := tag, left := addrs.length, old := oldBytes old }] })) ∧
     (∀ n o x c : Nat, atomVal n 0 o x c = (o + x) % 2 ^ (8 * n) ∧ atomVal n 1 o x c = o &&& x ∧ atomVal n 2 o x c = o ||| x ∧
       atomVal n 3 o x c = o ^^^ x ∧ atomVal n 6 o x c = max o x ∧ atomVal n 7 o x c = min o x ∧ atomVal n 8 o x c = x ∧
       (o = c → atomVal n 9 o x c = x) ∧ (o ≠ c → atomVal n 9 o x c = o) ∧
       (signedOf n o < signedOf n x → atomVal n 4 o x c = x ∧ atomVal n 5 o x c = o)))

/-- A ROUTE at RTE (R222, R223, R224): the one that continues a pass or starts it over an idle group is routed while
there is room, one that is too early is held and counted, one that is out of order is a fault. What routing does with
a token's choices (R227, R228, R230, R231): an expert with room takes the choice and one without drops it, counted;
ties and scores choose the best expert not yet chosen; a dispatch list is padded to a multiple of its unit. A
routing's end (R232, R233): the count table stands in the Reckoner's memory, choices dropped or skipped are traced,
the answer carries the placed and the dropped choices, and what waited for it is tried again. -/
def Obligations.BatchRouting : Prop :=
  (∀ (u w : State) (q : RouteReq) (r : Nat) (x : RteEnt), u.rte.stopped = false → Lands (isRoute q) u w →
     opCredit u (.route q) = true → r = q.entry → x = rc u r →
     (∀ v, x.st = .active → q.first = x.next → rteRoom u r = true → v = routeNow w q →
       Ends (.routeRequest q) u (retestEntry v r) ∧ (rc v r).next = x.next + q.tile.rows ∧
         ∃ y, y.req = q ∧ v.rte.routing = u.rte.routing ++ [y]) ∧
     (∀ s v, x.st ≠ .active → q.first = 0 → (grp u (rcGroup u r)).st = .idle → rteRoom u r = true →
         s = updG (updRc w r fun x => { x with st := .active, pass := x.pass + 1, cnt := [], next := 0 }) (rcGroup u r)
           (fun x => { x with st := .opened, done := 0 }) → v = routeNow s q →
       Ends (.routeRequest q) u (retestEntry v r) ∧ (rc v r).next = q.tile.rows ∧ (rc v r).pass = x.pass + 1 ∧
         ∃ y, y.req = q ∧ v.rte.routing = u.rte.routing ++ [y]) ∧
     (x.st = .active → q.first = x.next → rteRoom u r = false → Ends (.routeRequest q) u
       (retestEntry { w with rte := { u.rte with ready := u.rte.ready ++ [q] } } r)) ∧
     (x.st = .active → x.next < q.first → Ends (.routeRequest q) u
       (retestEntry (count { w with rte := { u.rte with held := u.rte.held ++ [q] } } .rteHold) r)) ∧
     (x.st = .active → q.first < x.next → Ends (.routeRequest q) u (retestEntry (raise w 0x0D01 .up q.part r) r))) ∧
  ((∀ (r t rank e wt : Nat) (w : RouteWork) (rest : List (Nat × Nat)),
     ((rc w.s r).cnt.look e < rcCap w.s r →
       placeChoices r t w rank ((e, wt) :: rest) =
         (let p := placeChoices r t
           { w with s := updRc (count w.s .rtePlaced) r fun x => { x with cnt := x.cnt.upd e (· + 1) },
                    lists := w.lists.upd e (· ++ [(t, rank, wt)]), placed := w.placed + 1 } (rank + 1) rest
          (p.1, p.2 + 1))) ∧
     (rcCap w.s r ≤ (rc w.s r).cnt.look e →
       placeChoices r t w rank ((e, wt) :: rest) =
         placeChoices r t { w with s := pageCount (count w.s .rteDrop) (rcPart w.s r) 9 1, dropped := w.dropped + 1 }
           (rank + 1) rest)) ∧
   (∀ (scores l : List Nat) (k : Nat), topK scores (k + 1) l = topK scores k (l ++ [bestExpert scores l])) ∧
   (∀ (key : Nat) (seed : W64) (n k r : Nat) (l : List Nat), hashChoices key seed n (k + 1) r l =
     hashChoices key seed n k (r + 1)
       (l ++ [freeExpert ((mix (BitVec.ofNat 64 (key * 2 ^ 32 + r) ^^^ seed)).toNat * n / 2 ^ 64) n l n])) ∧
   (∀ pad n : Nat, 0 < pad → padded pad n % pad = 0 ∧ n ≤ padded pad n ∧ padded pad n < n + pad)) ∧
  (∀ (u : State) (k r : Nat) (x : Routing) (rest : List Routing) (b : Bytes) (z w t s v : State), u.rte.stopped = false →
     takeAt u.rte.routing k = some (x, rest) → r = x.req.entry →
     b = (x.table.flatMap fun e => leBytes 8 (e.1 % 2 ^ 16 + e.2 % 2 ^ 16 * 2 ^ 16)) →
     z = { u with rte := { u.rte with routing := rest } } →
     w = count (if ((rkn u x.req.agent).reqs.any fun q => q.id == x.req.req && q.kind == .route) = false then z
       else if agtShut u x.req.agent = true then
         updA z x.req.agent fun y => { y with inbox := y.inbox ++ [.table x.req.req (rcCounts u r) b] }
       else updA z x.req.agent fun y => { y with rkn.dmem := memPut y.rkn.dmem (rcCounts u r) b }) .rteRoute →
     t = (if x.dropped ≠ 0 ∨ x.skipped ≠ 0 then
         trRecord w { type := 5, part := x.req.part, cls := 0, gen := 0, node := x.req.node, sub := 1, ts := w.ts,
                      arg1 := BitVec.ofNat 64 r, arg2 := min x.dropped 0xFFFF + min x.skipped 0xFFFF * 2 ^ 16 }
       else w) →
     s = emit t (.answer { block := blockId t, agent := x.req.agent, unit := 16, part := x.req.part, node := x.req.node,
                           gen := 0, group := 0 }
         (ansRequest x.req.req) (BitVec.ofNat 64 (x.placed + x.dropped * 2 ^ 32))) →
     v = retestEntry (routeReady (s.rte.ready.length + 1) s) r →
     Ends (.routingDone k) u (retestGroup v (rcGroup (routeReady (s.rte.ready.length + 1) s) r)) ∧
       (u.rte.ready = [] → u.rte.held = [] → Becomes (.routingDone k) u s))

/-- CMB (R218, R223, R235, R236, R237, R238, R239, R248): the rows of a CADD in order and the answer with the rows
accepted, a row that is added, a stray one and a pad; a TALLY word lowers its token's tally and reads it out at zero;
zeroing leaves the group IDLE over zeros. -/
def Obligations.Combining : Prop :=
  ∀ (u : State) (g t : Nat),
    (∀ c v misses b s1 tb s2 wb s2' s3 k, cmbShut u = false → Lands (isCadd c) u v → c.group = g →
        (b, s1) = tileBytes v c.part c.tile c.data → (tb, s2) = tileBytes s1 c.part c.tok c.tokData →
        ((c.wt = none ∧ wb = none ∧ s2' = s2) ∨
          (∃ x y, c.wt = some x ∧ (y, s2') = tileBytes s2 c.part x c.wtData ∧ wb = some (elems 4 c.tile.rows y))) →
        (s3, k) = (List.range c.tile.rows).foldl (fun (a : State × Nat) j =>
          let p := caddRow a.1 g ((elems 4 c.tile.rows tb).getD j 0) (wb.map fun l => l.getD j 0)
            ((elems (elemSize c.tile.fmt) c.tile.cols (b.drop (j * c.tile.cols * elemSize c.tile.fmt))).map (fmtVal c.tile.fmt))
          (p.1, a.2 + b2n p.2)) (countN s2' .cmbMiss misses, 0) →
      Ends (.caddRequest c misses) u (retestGroup (emit s3 (.answer
        { block := blockId s3, agent := c.agent, unit := 16, part := c.part, node := 0, gen := 0, group := 0 }
        (ansRequest c.req) (BitVec.ofNat 64 k))) g)) ∧
    (∀ word w row r s, t = word % 2 ^ 24 → bitOf word 31 = false → t < grpTokens u g → (r, s) = tokRead u g t →
      (bitsOf word 30 24 = 0 → strayTok r = false → r % 2 ^ 24 ≠ 0 → (grp s g).st = .opened →
        caddRow u g word w row = (tallyDown (count (addRow s g t 0 (match w with
          | some x => row.map (mulVal (fmtVal 2 x))
          | none => row)) .cmbRow) g t 1, true)) ∧
      ((bitsOf word 30 24 ≠ 0 ∨ strayTok r = true ∨ r % 2 ^ 24 = 0 ∨ (grp s g).st ≠ .opened) →
        caddRow u g word w row = (count s .cmbStray, false))) ∧
    (∀ word w row, bitOf word 31 = false → grpTokens u g ≤ word % 2 ^ 24 →
      caddRow u g word w row = (count u .cmbStray, false)) ∧
    (∀ word w row, bitOf word 31 = true → caddRow u g word w row = (u, false)) ∧
    (∀ p v, cmbShut u = false → grpValid u g = true → grpPart u g = p →
      (grpTokens u g ≤ t ∨ (grp u g).st ≠ .opened → inData u p (recordOff u g t) 4 = true →
          (u.slt.vaults.any fun e => !e.2.bad.isEmpty) = false →
        Ends (.tallyWordWrite g t p v) u (retestGroup (count u .cmbStray) g)) ∧
      (t < grpTokens u g → inData u p (recordOff u g t) 4 = true →
          (u.slt.vaults.any fun e => !e.2.bad.isEmpty) = false → (grp u g).st = .opened →
        (strayTok (tokRec u g t) = true → Becomes (.tallyWordWrite g t p v) u (count u .cmbStray)) ∧
        (strayTok (tokRec u g t) = false →
          (v % 2 ^ 24 < tokRec u g t % 2 ^ 24 → Becomes (.tallyWordWrite g t p v) u (memWrite u (recordAt u g t)
            (leBytes 4 (tokRec u g t % 2 ^ 24 - v % 2 ^ 24 + 2 ^ 24)))) ∧
          (v % 2 ^ 24 = tokRec u g t % 2 ^ 24 →
            Ends (.tallyWordWrite g t p v) u (retestGroup (readout u g t) g)) ∧
          (tokRec u g t % 2 ^ 24 < v % 2 ^ 24 →
            Ends (.tallyWordWrite g t p v) u (retestGroup (readout (count u .cmbUnder) g t) g))))) ∧
    (∀ s, cmbShut u = false → (grp u g).st = .zeroing → inData u (grpPart u g) (imageOff u g 0) (grpBytes u g) = true →
        (u.slt.vaults.any fun e => !e.2.bad.isEmpty) = false → s = zeroMem u (imageAt u g 0) (grpBytes u g) →
      Ends (.zeroingDone g) u (retestGroup (updG s g fun x => { x with st := .idle, done := 0 }) g) ∧
      (u.rte.held = [] → Becomes (.zeroingDone g) u (updG s g fun x => { x with st := .idle, done := 0 })) ∧
      (∀ a, imageAt u g 0 ≤ a → a < imageAt u g 0 + grpBytes u g → s.mem.look a = 0) ∧
      (Memory.wf u.mem = true →
        ∀ a, (a < imageAt u g 0 ∨ imageAt u g 0 + grpBytes u g ≤ a) → s.mem.look a = u.mem.look a))

/-! ### The Slate -/

/-- A read of a block (R245, R248, R252, R253): the bytes of the block once its errors are corrected or read again, an
error response with SLT_UE for one that is uncorrectable or known to be, a RANGE response outside the location's
region. A write of a block (R246, R248, R251, R252): a whole block stands in its place and leaves the vault's
bad-block table if its CRC is right, a part of one is merged if the block reads, and nothing is stored otherwise. -/
def Obligations.SlateReadsAndWrites : Prop :=
  (∀ (u : State) (l : SlateLoc) (e : ReadErrs), u.slt.stopped = false →
     (∀ a v s b, slateAddr u l = some a → v = physOf u (vaultOf a) (vaultBlock a) →
         ((∀ n, l ≠ .node n) → b = memRead s (a / 256 * 256) 256) → (∀ n, l = .node n → b = nodeBytes s n) →
       (e.ces = [] → e.fails = 0 → vaultBlock a ∉ (vault u v).bad → s = countN u .sltReread 0 →
         Becomes (.slateRead l e) u (emit (locTouch s l a) (.slate (v / 8) true b))) ∧
       (readBlock u v (vaultBlock a) e = (s, true) →
         Ends (.slateRead l e) u (emit (locTouch s l a) (.slate (v / 8) true b))) ∧
       (readBlock u v (vaultBlock a) e = (s, false) → ownerOf s l = none →
         Ends (.slateRead l e) u (emit (raise s 0x0F02 .ud 0 (vaultOf a)) (.slate (v / 8) false []))) ∧
       (∀ p, readBlock u v (vaultBlock a) e = (s, false) → ownerOf s l = some p →
         Ends (.slateRead l e) u (emit (raise s 0x0F02 .up p (vaultOf a)) (.slate (v / 8) false [])))) ∧
     (slateAddr u l = none →
       Ends (.slateRead l e) u (raise (count u .sltRange) 0x0F01 .up (locPart u l) 0)) ∧
     (∀ v vb, vb ∈ (vault u v).bad → readBlock u v vb e = (u, false)) ∧
     (∀ v vb s t, vb ∉ (vault u v).bad →
       s = countN (e.ces.foldl (fun s x => corrected s v vb x) u) .sltReread e.fails →
       t = updV (count s .sltCe) v (fun x => { x with
         rowCe := x.rowCe.upd (rowKey vb) (· + 1), ceTimes := x.ceTimes ++ [s.ts] }) →
       (e.fails = 0 → readBlock u v vb e = (s, true)) ∧
       (0 < e.fails → e.fails < 3 → readBlock u v vb e =
         (if regFld t 0xa00308 7 0 ≠ 0 ∧ regFld t 0xa00308 7 0 ≤ (vault t v).rowCe.look (rowKey vb) then queueRow t v (rowKey vb)
          else t, true))) ∧
     (∀ v vb s, vb ∉ (vault u v).bad → 3 ≤ e.fails →
       s = countN (e.ces.foldl (fun s x => corrected s v vb x) u) .sltReread 2 →
       ((vault s v).bad.length < 64 → readBlock u v vb e =
         (queueRow (count (updV s v fun x => { x with bad := x.bad ++ [vb] }) .sltUe) v (rowKey vb), false)) ∧
       (64 ≤ (vault s v).bad.length → readBlock u v vb e =
         (queueRow (count (raise s 0x0F02 .ud 0 (logicalOf s v)) .sltUe) v (rowKey vb), false)))) ∧
  (∀ (u : State) (l : SlateLoc) (o : Nat) (b : Bytes) (ok : Bool) (e : ReadErrs), u.slt.stopped = false →
     (∀ a v s, slateAddr u l = some a → v = physOf u (vaultOf a) (vaultBlock a) →
       (b.length = 256 → o = 0 → ok = true →
         s = updV u v (fun x => { x with bad := x.bad.filter (· != vaultBlock a) }) →
         Becomes (.slateWrite l o b ok e) u (emit (locTouch (storeBlock s l (a / 256 * 256) b) l a) (.slate (v / 8) true []))) ∧
       (b.length = 256 → o = 0 → ok = false →
         Becomes (.slateWrite l o b ok e) u (emit (count u .sltWrCrc) (.slate (v / 8) false []))) ∧
       ((b.length ≠ 256 ∨ o ≠ 0) → e.ces = [] → e.fails = 0 → vaultBlock a ∉ (vault u v).bad → s = countN u .sltReread 0 →
         Becomes (.slateWrite l o b ok e) u
           (emit (locTouch (storeBlock s l (a / 256 * 256 + o) (b.take (256 - o))) l a) (.slate (v / 8) true []))) ∧
       ((b.length ≠ 256 ∨ o ≠ 0) → readBlock u v (vaultBlock a) e = (s, true) →
         Ends (.slateWrite l o b ok e) u
           (emit (locTouch (storeBlock s l (a / 256 * 256 + o) (b.take (256 - o))) l a) (.slate (v / 8) true []))) ∧
       ((b.length ≠ 256 ∨ o ≠ 0) → readBlock u v (vaultBlock a) e = (s, false) →
         Ends (.slateWrite l o b ok e) u (emit s (.slate (v / 8) false [])))) ∧
     ((∀ n, l ≠ .node n) → ∀ a, storeBlock u l a b = memWrite u a b) ∧
     (∀ n, l = .node n → b.length = 256 → ∀ a, a % 256 = 0 →
       storeBlock u l a b = updN u n fun r => nodeOf r (leNat b)) ∧
     (slateAddr u l = none →
       Ends (.slateWrite l o b ok e) u (raise (count u .sltRange) 0x0F01 .up (locPart u l) 0)))

/-- Scrub, refresh and the tier sensors (R255, R256): the next block of a vault, in turn, with a write-back counted
where an error was corrected and SLT_SCRUB_UE where the block is lost; the next of a tier's 1,792 rows; refresh
doubled above 85 °C and until below 82 °C, the tier reported above 95 °C, SLT_OVERTEMP above 105 °C. Repairs of a
vault (R257, R258, R365, R369): the oldest worn row goes to one of its bank's 32 spare rows, the oldest failed lane of
a group to one of 2 spare lanes, both logged; with no spare left MGT is told; calibration queues the lanes it finds.
-/
def Obligations.VaultsKeptAndRepaired : Prop :=
  ((∀ (u : State) (v vb : Nat) (e : ReadErrs) (raced : Bool) (s : State),
     regBit u 0xa00300 31 = true → u.slt.stopped = false → u.slt.filled = true → (vault u v).role ≠ .retired → v < 128 →
     vb = (vault u v).scrubAt →
     (readBlock u v vb e = (s, true) → ((e.ces = [] ∧ e.fails = 0) ∨ raced = true) →
       Ends (.scrubRead v e raced) u { updV s v (fun x => { x with scrubAt := (vb + 1) % 1835008 }) with
         slt.scrubActive := decide (vb + 1 < 1835008) }) ∧
     (readBlock u v vb e = (s, true) → (e.ces ≠ [] ∨ e.fails ≠ 0) → raced = false →
       Ends (.scrubRead v e raced) u { updV (count s .sltScrubFix) v (fun x => { x with scrubAt := (vb + 1) % 1835008 }) with
         slt.scrubActive := decide (vb + 1 < 1835008) }) ∧
     (readBlock u v vb e = (s, false) → vb ∉ (vault u v).bad →
       Ends (.scrubRead v e raced) u { updV (raise s 0x0F03 .c 0 (logicalOf s v)) v
         (fun x => { x with scrubAt := (vb + 1) % 1835008 }) with slt.scrubActive := decide (vb + 1 < 1835008) })) ∧
   (∀ (u : State) (t : Nat), t < 16 → u.slt.filled = true → Becomes (.refresh t) u
     { u with slt := { u.slt with refreshAt := u.slt.refreshAt.upd t fun r => (r + 1) % 1792 } }) ∧
   (∀ (u v : State) (t raw x : Nat), t < 16 → x = reading u t raw (neighbours t) →
     v = { u with
       slt := { u.slt with
         temp := u.slt.temp.put t (min (x / 8) 255)
         refresh2x := if 85 * 8 < x then setBit16 u.slt.refresh2x t true
           else if x < 82 * 8 then setBit16 u.slt.refresh2x t false else u.slt.refresh2x
         hot := setBit16 u.slt.hot t (decide (95 * 8 < x)) }
       mgt := { u.mgt with temp := u.mgt.temp.put t x } } →
     (x ≤ 105 * 8 → Becomes (.tierTempSample t raw) u v) ∧
     (105 * 8 < x → Ends (.tierTempSample t raw) u (raise v 0x0F04 .ud 0 t)))) ∧
  (∀ (u : State) (v k used n : Nat) (rest : List Nat) (s : State), u.slt.stopped = false →
     ((vault u v).rowQ = k :: rest → used = (vault u v).rowsUsed.look (bankKey k) →
       (used < 32 → n = nextRow (vault u v) (bankKey k) → s = updV (updV u v fun x => { x with rowQ := rest }) v (fun x => { x with
           rowsUsed := x.rowsUsed.put (bankKey k) (used + 1), rowMap := x.rowMap.put k n,
           rowCe := x.rowCe.put k 0 }) →
         Becomes (.rowRepair v) u (logRepair (count s .sltRowSpare) 3 (v * 2 ^ 32 + k) n)) ∧
       (32 ≤ used → s = updV u v (fun x => { x with rowQ := rest }) →
         Becomes (.rowRepair v) u { s with mgt := { s.mgt with bankOut := true } })) ∧
     ((vault u v).laneQ = k :: rest → used = (vault u v).lanesUsed.look (k / 128) →
       (used < 2 → n = nextLane (vault u v) (k / 128) → s = updV (updV u v fun x => { x with laneQ := rest }) v (fun x => { x with
           lanesUsed := x.lanesUsed.put (k / 128) (used + 1), laneMap := x.laneMap.put k n,
           laneErr := x.laneErr.put k { count := 0, rows := [] } }) →
         Becomes (.laneRepair v) u (logRepair (count s .sltLaneSpare) 4 (v * 2 ^ 32 + k) n)) ∧
       (2 ≤ used → s = updV u v (fun x => { x with laneQ := rest }) →
         Becomes (.laneRepair v) u { s with mgt := { s.mgt with laneOut := true } })) ∧
     (∀ lanes : List (Nat × Nat), isReady u = false → (vault u v).role ≠ .retired → v < 128 →
       Becomes (.vaultCalibration v lanes) u (lanes.foldl (fun s e => queueLane s v (e.1 * 128 + e.2)) u)) ∧
     (∀ lanes : List (Nat × Nat), isReady u = true → Becomes (.vaultCalibration v lanes) u u) ∧
     (∀ m x, (firstFrom (fun m => !(x.rowMap.any fun e => bankKey e.1 == k && e.2 == m)) 1 32) = some m → nextRow x k = m ∧
       1 ≤ m ∧ m ≤ 32 ∧ (x.rowMap.any fun e => bankKey e.1 == k && e.2 == m) = false) ∧
     (∀ m x, (firstFrom (fun m => !(x.laneMap.any fun e => e.1 / 128 == k && e.2 == m)) 1 2) = some m → nextLane x k = m ∧
       1 ≤ m ∧ m ≤ 2 ∧ (x.laneMap.any fun e => e.1 / 128 == k && e.2 == m) = false) ∧
     (k ∉ (vault u v).laneQ → queueLane u v k = updV u v fun x => { x with laneQ := x.laneQ ++ [k] }))

/-- A vault spare-in (R259, R260, R261): from TEST to COPY or, with the target RETIRED, to FAILED; a chunk of 8 blocks
moves and the cursor with it, up to SWITCH; the map then names the target and both vaults change role. -/
def Obligations.SpareIn : Prop :=
  ∀ (u s : State) (l t old c : Nat), u.slt.stopped = false →
    l = u.slt.vsLogical → t = u.slt.vsTarget → old = u.slt.vmap.look l → c = u.slt.cursor →
    (u.slt.vs = .test → Becomes (.vspareTestDone true) u
      { updV u t (fun x => { x with bad := [] }) with
        slt.vs := .copy, slt.cursor := 0 }) ∧
    (u.slt.vs = .test → s = updV u t (fun x => { x with role := .retired }) →
      Becomes (.vspareTestDone false) u (logRecord { s with slt := { s.slt with vs := .failed } } 6 t 0)) ∧
    (∀ errs w, u.slt.vs = .copy →
      w = (List.range 8).foldl (fun s i => copyBlock s old t (c + i) (errs.getD i default)) u →
      s = updV w old (fun x => { x with bad := x.bad.filter fun b => !(decide (c ≤ b) && decide (b < c + 8)) }) →
      Ends (.vspareChunkCopy errs) u { s with
        slt := { s.slt with cursor := c + 8, vs := if 1835008 ≤ c + 8 then .switch else .copy } }) ∧
    (∀ b e w, (readBlock u old b e = (w, true) →
        copyBlock u old t b e = updV w t fun x => { x with bad := x.bad.filter (· != b) }) ∧
      (readBlock u old b e = (w, false) →
        (b ∈ (vault w t).bad → copyBlock u old t b e = w) ∧
        (b ∉ (vault w t).bad → (vault w t).bad.length < 64 →
          copyBlock u old t b e = updV w t fun x => { x with bad := x.bad ++ [b] }) ∧
        (b ∉ (vault w t).bad → 64 ≤ (vault w t).bad.length → copyBlock u old t b e = raise w 0x0F02 .ud 0 w.slt.vsLogical))) ∧
    (u.slt.vs = .switch → s = updV (updV u t fun x => { x with role := .active }) old (fun x => { x with role := .retired }) →
      Becomes .vspareSwitch u (logRecord (logRecord (count
        { s with slt := { s.slt with vs := .idle, vmap := s.slt.vmap.put l t } } .sltVaultSpare) 5 l t) 6 old 0))

/-! ### The fabric -/

/-- A partner's request (R264, R266, R267, R269, R272, R290): the first one buffered is taken while the block is Ready
and no response waits; a malformed header, a target without an owner and one that the owner's hall tag and range do
not admit are answered with their NACK, a decrement goes to TLY, a barrier is denied, a word of the data region is
read or written. Flagged final writes (R274, R275): those held for a sequence leave in order, as far as the next final
write that must still wait for an acknowledgement; an agent's core holds its own block's. A refused write counts no
longer. -/
def Obligations.PartnerRequests : Prop :=
  ((∀ (u s : State) (k : Nat) (h : FabHdr), u.fab.stopped = false → isReady u = true → responseWaits u = false →
     takeIn u k (fun h => vcOf h.op == 0) = some (h, s) →
     (unitFull u h = false → Ends (.fabRequestReceive k) u (serve s h)) ∧
     (unitFull u h = true → Becomes (.fabRequestReceive k) u u) ∧
     (∀ q a, unitFull u h = false → h.op = 2 → h.final = false → h.ord = false → targetOf s h.loc = .data q a → a % 8 = 0 →
       admits s q h = true → h.mask.toNat % 256 = 255 → inData s q a 8 = true →
       (s.slt.vaults.any fun e => !e.2.bad.isEmpty) = false →
       Ends (.fabRequestReceive k) u (respond (touch (memWrite s (dataBase s q + a) (leBytes 8 h.data.toNat)) q
         (dataBase s q + a) 8) h 8 0 0 []))) ∧
   (∀ (u : State) (h : FabHdr), (h.op = 0 ∨ 0xC ≤ h.op) → serve u h = nackTo (count u .fabProto) h 5) ∧
   (∀ (u : State) (h : FabHdr), h.op ≠ 0 → h.op < 0xC →
     (h.final = true → isWrite h = false → serve u h = nackTo u h 5) ∧
     (h.ord = true → h.op ≠ 1 → isWrite h = false → serve u h = nackTo u h 5) ∧
     (∀ b o, malformed h = false → h.op ≠ 7 → targetOf u h.loc = .bar b o →
       serve u h = nackTo (count u .fabDenied) h 4) ∧
     (malformed h = false → (h.op = 7 ∨ ∀ b o, targetOf u h.loc ≠ .bar b o) →
       (requestPart u h = none → serve u h = nackTo u h 5) ∧
       (∀ q, requestPart u h = some q → admits u q h = false → serve u h = nackTo (count u .fabDenied) h 4) ∧
       (∀ q, requestPart u h = some q → admits u q h = true →
         (h.op = 7 → serve u h = remoteDec u h) ∧
         (∀ p o, h.op ≠ 7 → targetOf u h.loc = .data p o → misaligned h o = true → serve u h = nackTo u h 5) ∧
         (∀ p o, h.op = 1 → targetOf u h.loc = .data p o → o % 8 = 0 → serve u h =
           (let r := wordRead u p o
            respond r.2 h 9 r.1 (BitVec.ofNat 64 (tagWord u (dataBase u p + o))) [])) ∧
         (∀ p o s, h.op = 2 → targetOf u h.loc = .data p o → o % 8 = 0 → s = wordWrite u p o h.data h.mask.toNat →
           (h.ord = false → serve u h = respond s h 8 0 0 []) ∧
           (h.ord = true → serve u h =
             respond (setTag s (dataBase u p + o) h.scope h.srcBlock h.srcAgent h.srcUnit) h 8 0 0 [])) ∧
         (∀ p o s, h.op = 5 → targetOf u h.loc = .data p o → o % 256 = 0 → h.ord = false →
           s = blockWrite u p o h.payload h.mask.toNat →
           (h.mask.toNat = 2 ^ 32 - 1 → crc32c (Bytes.slice h.payload 0 256) ≠ h.dcrc.toNat →
             serve u h = respond (count u .sltWrCrc) h 8 0 0 []) ∧
           ((h.mask.toNat ≠ 2 ^ 32 - 1 ∨ crc32c (Bytes.slice h.payload 0 256) = h.dcrc.toNat) →
             serve u h = respond s h 8 0 0 [])))))) ∧
  (∀ (u : State),
     (∀ a b c d e s l v, u.fab.stopped = false →
       u.fab.seqs.find? (fun e => e.srcAgent == a && e.srcUnit == b && e.srcPart == c && e.queue == none && e.dst == d) = some e →
       s = { u with fab := { u.fab with
         seqs := updFirst (fun e => e.srcAgent == a && e.srcUnit == b && e.srcPart == c && e.queue == none && e.dst == d)
           (fun e => { e with held := [] }) u.fab.seqs } } →
       seqDrain e.held s = (l, v) →
       Ends (.finalWriteRelease (.fab a b c d)) u { v with fab := { v.fab with
         seqs := updFirst (fun e => e.srcAgent == a && e.srcUnit == b && e.srcPart == c && e.queue == none && e.dst == d)
           (fun e => { e with held := l }) v.fab.seqs } }) ∧
     (∀ a core, agtShut u a = false → Ends (.finalWriteRelease (.core a core)) u
       (coreRelease a core (fun o => isWrite o.hdr) [] ((agt u a).ops.filter (·.core == core)) u)) ∧
     (∀ x r, isFinal x.hdr = true → mayLand u x.order x.hdr x.who = false → seqDrain (x :: r) u = (x :: r, u)) ∧
     (∀ x r, (isFinal x.hdr = false ∨ mayLand u x.order x.hdr x.who = true) →
       seqDrain (x :: r) u = seqDrain r (seqLeave u x.hdr x.who)) ∧
     (seqDrain [] u = ([], u)) ∧
     (∀ h who, isWrite h = true → (seqDone u h who).fab.seqs = (updFirst (ofSeq h who) (fun e =>
       if isFinal h then { e with finals := e.finals - 1 } else { e with unacked := e.unacked - 1 }) u.fab.seqs).filter fun e =>
         !(e.unacked == 0 && e.finals == 0 && e.held.isEmpty)))

/-- The answers to the block's own requests (R268, R269, R270, R296, R424): a response frees its entry and reaches its
requester, one for no entry, for an aborted or for a failed request is counted as an orphan; a NACK is retried, ends
the command that asked or raises the fault its code gives; the n-th retry leaves min(BASE × 2^(n−1), MAX) qc after its
NACK. -/
def Obligations.FabricAnswers : Prop :=
  ∀ (u : State) (k t : Nat) (e : OutEnt),
    (∀ s r v w x, u.fab.stopped = false → takeIn u k (fun h => decide (8 ≤ h.op ∧ h.op ≤ 0xA)) = some (r, s) →
      (retryFull u r = true → Becomes (.fabResponse k) u u) ∧
      (retryFull u r = false → outEnt s r.txn = none → Becomes (.fabResponse k) u (count s .fabOrphanRsp)) ∧
      (retryFull u r = false → outEnt s r.txn = some e →
        v = { s with fab := { s.fab with outst := s.fab.outst.put r.txn none } } →
        w = (if v.fab.partner.look e.hdr.dstBlock == .notReady then
          { v with fab := { v.fab with partner := v.fab.partner.put e.hdr.dstBlock .reachable } } else v) →
        x = (if e.counted = true then seqAck w e.hdr e.who else w) →
        ((e.aborted = true ∨ e.failed = true) → Ends (.fabResponse k) u (fabPump (fabRefill (count x .fabOrphanRsp)))) ∧
        (e.aborted = false → e.failed = false → Ends (.fabResponse k) u (fabPump (fabRefill (deliver x e r)))) ∧
        (e.who = .tly → e.counted = false → e.aborted = false → e.failed = false → FabIdle w →
          Becomes (.fabResponse k) u w) ∧
        (∀ a id, e.who = .rkn a id → e.hdr.ord = false → e.counted = false → e.aborted = false → e.failed = false →
          FabIdle w → Becomes (.fabResponse k) u (updReq w a id fun q => { q with got := some r.data })))) ∧
    (∀ s r, u.fab.stopped = false → takeIn u k (fun h => h.op == 0xB) = some (r, s) →
      (retryFull u r = true → Becomes (.fabNack k) u u) ∧
      (retryFull u r = false →
        (outEnt s r.txn = none → Becomes (.fabNack k) u (count s .fabOrphanRsp)) ∧
        (outEnt s r.txn = some e → e.failed = true → Becomes (.fabNack k) u s) ∧
        (outEnt s r.txn = some e → e.failed = false → Ends (.fabNack k) u
          (fabPump (fabRefill (seqRetry (sourceNack s r.txn (r.data.toNat % 256) k false))))) ∧
        (outEnt s r.txn = some e → e.failed = false → e.aborted = false → r.data.toNat % 256 = 2 → FabIdle s →
          Becomes (.fabNack k) u (retryLater s r.txn e)))) ∧
    (∀ s d, outEnt u t = some e → e.due = some d → d ≤ u.ts → u.fab.stopped = false → e.aborted = false →
      s = { u with fab := { u.fab with outst := u.fab.outst.put t (some { e with due := none }) } } →
      (e.who ≠ .tly → Ends (.fabRetry t) u (fabRoute (count s .fabRetry) e.hdr)) ∧
      (e.who = .tly → Ends (.fabRetry t) u (fabRoute (count (count s .tlyRemoteRetry) .fabRetry) e.hdr))) ∧
    (∀ d, outEnt u t = some e → e.due = some d → u.ts < d → Becomes (.fabRetry t) u u) ∧
    (outEnt u t = some e → e.aborted = false →
      (∀ s, s = { u with fab := { u.fab with partner := u.fab.partner.put e.hdr.dstBlock .notReady } } →
        sourceNack u t 1 k false = retryLater s t e) ∧
      sourceNack u t 2 k false = retryLater u t e ∧
      (∀ s, s = { u with fab := { u.fab with outst := u.fab.outst.put t none } } →
        (e.who = .tly → sourceNack u t 3 k false = count s .tlyRemoteNack) ∧
        (e.who = .tly → sourceNack u t 6 k false = raise s 0x1002 .up e.hdr.srcPart k) ∧
        (∀ code, e.who = .tly → code ≠ 1 → code ≠ 2 → code ≠ 3 → code ≠ 6 →
          sourceNack u t code k false = raise s 0x1001 .up e.hdr.srcPart e.hdr.dstBlock) ∧
        (∀ q n, e.who = .flagWait q n → sourceNack u t 6 k false = endFlag s q n 0x30 0) ∧
        (∀ q n code, e.who = .flagWait q n → code ≠ 1 → code ≠ 2 → code ≠ 6 →
          sourceNack u t code k false = endFlag s q n 0x14 (e.hdr.loc % 2 ^ 32)) ∧
        (∀ q n, e.who = .flagSet q n → sourceNack u t 6 k false = endFlag (seqDone s e.hdr e.who) q n 0x30 0) ∧
        (∀ q n code, e.who = .flagSet q n → code ≠ 1 → code ≠ 2 → code ≠ 6 →
          sourceNack u t code k false = endFlag (seqDone s e.hdr e.who) q n 0x14 (e.hdr.loc % 2 ^ 32))) ∧
      (∀ s, e.who ≠ .tly → (∀ q n, e.who ≠ .flagSet q n ∧ e.who ≠ .flagWait q n) →
        s = { u with fab := { u.fab with outst := u.fab.outst.put t (some { e with failed := true, due := none }) } } →
        sourceNack u t 6 k false = raise s 0x1002 .up e.hdr.srcPart k ∧
        (∀ code, code ≠ 1 → code ≠ 2 → code ≠ 6 →
          sourceNack u t code k false = raise s 0x1001 .up e.hdr.srcPart e.hdr.dstBlock))) ∧
    (retryLater u t e = { u with fab := { u.fab with outst := u.fab.outst.put t (some { e with
      retries := e.retries + 1, due := some (u.ts + BitVec.ofNat 64 (retrySpacing u (e.retries + 1))) }) } }) ∧
    (∀ n base, base = max 1 (regFld u 0xb00010 23 0) →
      retrySpacing u n = min (base * 2 ^ (n - 1)) (max base (regFld u 0xb00010 55 32)))

/-- A flit arrives (R286, R287, R288, R289): one with a bad CRC or that breaks the link rules is counted and
discarded, one out of its sequence is discarded after its ACK and credits are applied, the next one expected is
accepted; the first discard after an accepted flit is answered with a NAK of the last accepted SEQ. -/
def Obligations.FlitsArrive : Prop :=
  ∀ (u : State) (k : Nat) (x : BitVec 2176) (f : Flit), f = flitOf x → (port u k).st = .up →
    (f.crcOk = false → Becomes (.flitReceive k x) u (discardFlit (count u .fabCrcErr) k)) ∧
    (f.crcOk = true → (flitForm f = false ∨ (f.kind ≠ 3 ∧ f.seq = (port u k).rxNext ∧ flitFollows (port u k) f = false)) →
      Becomes (.flitReceive k x) u (discardFlit (count u .fabProto) k)) ∧
    (∀ s, f.crcOk = true → flitForm f = true → (f.kind = 3 ∨ f.seq ≠ (port u k).rxNext ∨ flitFollows (port u k) f = true) →
        s = takeTrailer u k f →
      (f.kind = 3 → Ends (.flitReceive k x) u (fabPump s)) ∧
      (f.kind ≠ 3 → f.seq ≠ (port s k).rxNext → Ends (.flitReceive k x) u (fabPump (discardFlit s k))) ∧
      (f.kind ≠ 3 → f.seq = (port s k).rxNext → Ends (.flitReceive k x) u (fabPump (takeFlit
        (count (updPort s k fun p => { p with rxNext := (p.rxNext + 1) % 4096, nakSent := false }) .fabRxFlit) k f)))) ∧
    ((port u k).nakSent = true → discardFlit u k = u) ∧
    ((port u k).nakSent = false → discardFlit u k = emit (updPort u k fun p => { p with nakSent := true })
      (.nullFlit k (((port u k).rxNext + 4095) % 4096) true))

/-- Replays (R289): the oldest flit that has waited REPLAY_QC without an advance is sent again with all that follow,
and more than STORM replays within 65,536 qc retrain the link. Links (R291, R292, R294): a lane that fails gives way
to the spare or leaves three lanes, and the link retrains, or is DEAD with fewer; loss of lock retrains; an attempt
with three good lanes leads to IDENT, one with fewer counts, and the last allowed one is the link's death. Control
messages and equalisation (R294, R295, R298, R369, R403): IDENT brings a link UP if it names the partner expected and
is its death otherwise, STOP and RESUME close and open a port, one port at a time is re-equalised and held meanwhile.
-/
def Obligations.LinksAndPorts : Prop :=
  (∀ (u : State) (k a : Nat) (f : SentFlit) (rest : List SentFlit) (l : List W64) (s : State),
     ((port u k).replay = f :: rest → (port u k).st = .up →
       (max 1 (regFld u 0xb00018 15 0) ≤ (u.ts - (port u k).lastAdvance).toNat →
         Ends (.replayTimeout k) u (replayFrom u k f.seq)) ∧
       ((u.ts - (port u k).lastAdvance).toNat < max 1 (regFld u 0xb00018 15 0) → Becomes (.replayTimeout k) u u)) ∧
     (l = ((port (count (resend u k a) .fabReplay) k).replays.filter
         fun t => decide (((count (resend u k a) .fabReplay).ts - t).toNat ≤ 65536)) ++ [(count (resend u k a) .fabReplay).ts] →
       s = updPort (count (resend u k a) .fabReplay) k
         (fun p => { p with replays := l, lastAdvance := (count (resend u k a) .fabReplay).ts }) →
       (l.length ≤ regFld s 0xb00018 23 16 → replayFrom u k a = s) ∧
       (regFld s 0xb00018 23 16 < l.length → replayFrom u k a = linkRetrain s k))) ∧
  (∀ (u s : State) (k j errs top : Nat) (good aligned : BitVec 5),
     (errs ≤ regFld u (0xb00100 + 0x20 * k) 47 32 → Becomes (.laneFailure k ⟨j, errs⟩) u u) ∧
     ((port u k).st ≠ .down → (port u k).st ≠ .dead → (port u k).lanes.getLsbD j = true →
       regFld u (0xb00100 + 0x20 * k) 47 32 < errs →
       s = updPort u k (fun p => { p with failedLanes := p.failedLanes ||| ((1 : BitVec 5) <<< j) }) →
       good = ~~~(port s k).failedLanes →
       (laneCount good < 3 → Ends (.laneFailure k ⟨j, errs⟩) u (linkDead s k false)) ∧
       (3 ≤ laneCount good → Becomes (.laneFailure k ⟨j, errs⟩) u (linkRetrain (useLanes s k good) k))) ∧
     ((port u k).st = .up → Becomes (.lossOfLock k) u (linkRetrain u k)) ∧
     ((port u k).st = .up → linkRetrain u k = count (updPort u k fun p => { p with
       st := .retrain, trained := false, trainFails := 0, eqReq := false, replays := [] }) .fabRetrain) ∧
     (((port u k).st = .train ∨ ((port u k).st = .retrain ∧ (port u k).trained = false)) →
       good = aligned &&& ~~~(port u k).failedLanes → top = max 1 (regFld u (0xb00100 + 0x20 * k) 31 24) →
       (3 ≤ laneCount good → Ends (.trainResult k aligned) u (sendIdent (updPort (useLanes u k good) k fun p => { p with
         trainFails := 0, st := if p.st = .train then .ident else p.st, trained := true }) k)) ∧
       (laneCount good < 3 → s = count (updPort u k fun p => { p with trainFails := p.trainFails + 1 }) .fabTrainFail →
         ((port u k).trainFails + 1 < top → Becomes (.trainResult k aligned) u s) ∧
         (top ≤ (port u k).trainFails + 1 → Ends (.trainResult k aligned) u (linkDead s k false)))) ∧
     linkDead u k false = linkLost (raise (updPort u k fun p => { p with st := .dead }) 0x1004 .c 0 k) k ∧
     (∀ h : FabHdr, vcOf h.op = 0 → h.srcBlock = blockId (count u .fabLinkLost) →
       headerLost k u h = sourceNack (count u .fabLinkLost) h.txn 6 k false)) ∧
  (∀ (u s : State) (k blk prt rx want : Nat) (ready : Bool), want = regFld u (0xb00100 + 0x20 * k) 19 8 →
     s = updPort u k (fun p => { p with peerReady := ready, peerBlock := blk, peerPort := prt, trained := false }) →
     ((port u k).st = .ident → blk ≠ blockId u → (want = 0xFFF ∨ want = blk) →
       Ends (.identReceive k ready blk prt rx) u (linkUp s k rx true)) ∧
     ((port u k).st = .ident → (blk = blockId u ∨ (want ≠ 0xFFF ∧ want ≠ blk)) →
       Ends (.identReceive k ready blk prt rx) u (linkDead (raise s 0x1003 .c 0 k) k false)) ∧
     ((port u k).st = .retrain → (port u k).trained = true → blk = (port u k).peerBlock → prt = (port u k).peerPort →
       Ends (.identReceive k ready blk prt rx) u (linkUp s k rx false)) ∧
     ((port u k).st = .retrain → (port u k).trained = true → (blk ≠ (port u k).peerBlock ∨ prt ≠ (port u k).peerPort) →
       Ends (.identReceive k ready blk prt rx) u (linkDead u k false)) ∧
     (∀ v, (port u k).st = .up → v = updPort u k (fun p => { p with peerReady := ready, peerBlock := blk, peerPort := prt }) →
       ((ready = false ∨ (port u k).peerReady = true) → Ends (.identReceive k ready blk prt rx) u (fabPump v)) ∧
       (ready = true → (port u k).peerReady = false → Ends (.identReceive k ready blk prt rx) u (fabPump (portReady v k))) ∧
       ((ready = false ∨ (port u k).peerReady = true) → FabIdle u → Becomes (.identReceive k ready blk prt rx) u v) ∧
       (ready = true → (port u k).peerReady = false → FabIdle u →
         Becomes (.identReceive k ready blk prt rx) u (portReady v k))) ∧
     (∀ v, v = updPort u k (fun p => { p with peerStopped := true }) →
       Ends (.stopReceive k) u (fabPump v) ∧ (FabIdle u → Becomes (.stopReceive k) u v)) ∧
     (∀ v, v = updPort u k (fun p => { p with peerStopped := false }) →
       ((port u k).peerStopped = false → Ends (.resumeReceive k) u (fabPump v)) ∧
       ((port u k).peerStopped = true → Ends (.resumeReceive k) u (fabPump (portReady v k))) ∧
       ((port u k).peerStopped = true → FabIdle u → Becomes (.resumeReceive k) u (portReady v k))) ∧
     (∀ m, usable u k = true → m = (u.fab.partner.foldUpd fun d x =>
         if x = .notReady ∧ bitOf (routeMask u d) k then .reachable else x) →
       portReady u k = { u with fab := { u.fab with partner := m } }) ∧
     ((port u k).st = .up → u.fab.stopped = false → u.fab.ports.any (·.2.eqReq) = false →
       Becomes (.fabReeq k) u (emit (updPort u k fun p => { p with eqReq := true }) (.eqReq k))) ∧
     (((port u k).st = .retrain ∨ u.fab.stopped = true ∨ u.fab.ports.any (·.2.eqReq) = true) → Becomes (.fabReeq k) u u) ∧
     (∀ v, (port u k).eqReq = true → v = updPort u k (fun p => { p with eqReq := false }) →
       Ends (.phyEqDone k) u (fabPump v) ∧ (FabIdle u → Becomes (.phyEqDone k) u v)))

/-! ### Start-up, faults and stop -/

/-- The reset pins (R304, R305, R307): PORESET_N leads to the reset state but for what lies outside the block,
WARM_RESET_N and a DEVICE reset keep the clocks, the timestamp and the Slate as well; the boot leaves RESET once both
pins are released. What they keep of the Slate, the log and the Cut is the model's reading (DEDUCED, log entries 50,
51, 52, 55). The PLLs (R301, R302, R303, R307): the first lock leads from CLOCKS to HEADER, where the timestamp
counts; without the root PLL the standby takes over, counted and reported with CRB_PLL_SWAP, and with neither the boot
fails. -/
def Obligations.ResetsAndClocks : Prop :=
  (∀ (u s : State),
     (s = { u with flt := { u.flt with level := u.flt.level &&& ~~~((1 : BitVec 5) <<< 0) } } →
       u.flt.level.getLsbD 0 = true → Becomes (.powerOnReset false) u (powerOnState s)) ∧
     (s = { u with flt := { u.flt with level := u.flt.level &&& ~~~((1 : BitVec 5) <<< 1) } } →
       u.flt.level.getLsbD 1 = true →
       (s.crb.stage ≠ .reset → noClock s = false → Becomes (.warmReset false) u (assertReset s 1 0)) ∧
       (s.crb.stage = .reset → Becomes (.warmReset false) u s)) ∧
     (u.flt.level.getLsbD 0 = false → Becomes (.powerOnReset false) u u) ∧
     (u.flt.level.getLsbD 1 = false → Becomes (.warmReset false) u u) ∧
     (s = { u with flt := { u.flt with level := u.flt.level ||| ((1 : BitVec 5) <<< 0) } } →
       Becomes (.powerOnReset true) u (leaveReset s)) ∧
     (s = { u with flt := { u.flt with level := u.flt.level ||| ((1 : BitVec 5) <<< 1) } } →
       Becomes (.warmReset true) u (leaveReset s)) ∧
     (u.flt.devReset = true → u.dis.running = [] → u.hif.flight = [] → noClock u = false →
       Becomes .deviceResetSequence u (leaveReset (assertReset u 2 u.flt.resetSource))) ∧
     ((u.flt.devReset = false ∨ u.dis.running ≠ [] ∨ u.hif.flight ≠ []) → Becomes .deviceResetSequence u u) ∧
     (u.crb.stage = .reset → u.flt.level.getLsbD 0 = true → u.flt.level.getLsbD 1 = true → u.test.testMode = false →
       (clocked u = false → leaveReset u = { u with crb := { u.crb with stage := .clocks } }) ∧
       (clocked u = true → leaveReset u = enterHeader u)) ∧
     (u.crb.stage = .reset → (u.flt.level.getLsbD 0 = false ∨ u.flt.level.getLsbD 1 = false) → leaveReset u = u) ∧
     (enterHeader u = emit { u with
       free := u.free + 1
       crb := { u.crb with stage := .header }
       mgt := { u.mgt with i3cPid := 2 ^ 32 + Config.freeNat u.free % 2 ^ 32 } } .hotJoin) ∧
     ((powerOnState u).regs = State.reset.regs ∧ (powerOnState u).mem = [] ∧ (powerOnState u).queues = [] ∧
       (powerOnState u).crb.stage = .reset ∧ (powerOnState u).grs.nodes = [] ∧ (powerOnState u).aut = State.reset.aut) ∧
     (∀ k source w, w = assertReset u k source →
       (u.flt.resumable = false → w.mem = u.mem) ∧ (u.flt.resumable = true → w.mem = (memWrite u 7 [memByte u 7 &&& 0xFB]).mem) ∧
       w.ts = u.ts ∧ w.regs = State.reset.regs ∧ w.grs.nodes = u.grs.nodes ∧ w.slt.vs = u.slt.vs ∧
       w.slt.cursor = u.slt.cursor ∧ w.flt.lastUd = u.flt.lastUd ∧ w.crb.fault = u.crb.fault ∧ w.queues = [] ∧
       w.crb.stage = .reset ∧ w.crb.kind = k ∧ w.crb.source = source)) ∧
  (∀ (u s : State), pllsRun u = true →
     (u.crb.stage = .clocks → s = { u with crb := { u.crb with rootLock := true } } →
       Becomes (.pllLock true) u (enterHeader s)) ∧
     (u.crb.stage ≠ .clocks → Becomes (.pllLock true) u { u with crb := { u.crb with rootLock := true } }) ∧
     Becomes (.pllLock false) u { u with crb := { u.crb with stbyLock := true } } ∧
     (u.crb.rootLock = false → u.crb.onStby = false → u.crb.stbyLock = true →
       (u.crb.stage = .clocks → s = enterHeader u → Ends .pllLockTimeout u (logRecord (raise (count
         { s with crb := { s.crb with onStby := true } } .crbPllSwap) 0x1401 .c 0 0) 8 0 0)) ∧
       (u.crb.stage = .reset → s = { u with crb := { u.crb with onStby := true } } →
         Ends .pllLockTimeout u (logRecord (raise (count s .crbPllSwap) 0x1401 .c 0 0) 8 0 0))) ∧
     (u.crb.stage = .clocks → u.crb.rootLock = false → u.crb.onStby = false → u.crb.stbyLock = false →
       Becomes .pllLockTimeout u { u with crb := { u.crb with stage := .failed, failCode := 1 } }) ∧
     (((u.crb.stage ≠ .clocks ∧ u.crb.stage ≠ .reset) ∨ u.crb.rootLock = true ∨ u.crb.onStby = true) → u.crb.stbyLock = false →
       Becomes .pllLockTimeout u { u with crb := { u.crb with stbyFail := true } }) ∧
     (u.crb.rootLock = true → u.crb.onStby = false → u.crb.stbyLock = true →
       s = { u with crb := { u.crb with rootLock := false, onStby := true } } →
       Ends .pllLossOfLock u (logRecord (raise (count s .crbPllSwap) 0x1401 .c 0 0) 8 0 0)) ∧
     (u.crb.rootLock = true → (u.crb.onStby = true ∨ u.crb.stbyLock = false) →
       Becomes .pllLossOfLock u { u with crb := { u.crb with rootLock := false } }))

/-- Reading the image (R307, R310, R312, R313, R314): a read that fails and every failed check end the boot in FAILED
with the check's code; a verified header leads to SLATE_INIT, and each section whose digest matches takes effect in
its turn. The fill, BUILD and Ready (R254, R306, R307, R322, R325, R326): the fill leaves the Slate zero and leads to
LOAD; BUILD fails with LAYOUT or is done once; in the Ready ac the image's queues are IDLE, the pending doorbells are
tested, its channels open, and after another reset than power-on each kernel queue has its DEVICE_RESET record. -/
def Obligations.ImageAndReady : Prop :=
  (∀ (u s : State) (h b : Bytes) (ok : Bool),
     (u.crb.stage = .header →
       Becomes (.headerVerified false ok h) u { u with crb := { u.crb with stage := .failed, failCode := 2 } } ∧
       Becomes (.headerVerified true false h) u { u with crb := { u.crb with stage := .failed, failCode := 3 } } ∧
       (s = logSpares { u with crb := { u.crb with bytesRead := 0x1000 } } →
         Ends (.headerVerified true true h) u (match headerFail s (Bytes.slice h 0 0x1000) with
           | some c => { s with crb := { s.crb with stage := .failed, failCode := c } }
           | none => { s with
               crb := { s.crb with
                 stage := .slateInit
                 secs := hdrTable (Bytes.slice h 0 0x1000)
                 svn := Bytes.fld (Bytes.slice h 0 0x1000) 0xC 0 16
                 keySlot := Bytes.fld (Bytes.slice h 0 0x1000) 0xE 0 2
                 imageLen := hdrImageLen (Bytes.slice h 0 0x1000)
                 secType := (((hdrTable (Bytes.slice h 0 0x1000)).head?).map (·.type)).getD 0 } }))) ∧
     (∀ x rest, u.crb.secs = x :: rest → (u.crb.stage = .load ∨ (u.crb.stage = .slateInit ∧ x.type ≤ 2)) →
       s = stageSection { u with crb := { u.crb with bytesRead := x.off + x.len } } x (Bytes.slice b 0 x.len) →
       Becomes (.sectionDigest false b) u { u with crb := { u.crb with stage := .failed, failCode := 2 } } ∧
       (sha384 (Bytes.slice b 0 x.len) ≠ x.digest → Becomes (.sectionDigest true b) u
         { s with crb := { s.crb with stage := .failed, failCode := 9 } }) ∧
       (∀ c, sha384 (Bytes.slice b 0 x.len) = x.digest → sectionFail s x.type (Bytes.slice b 0 x.len) = some c →
         Becomes (.sectionDigest true b) u { s with crb := { s.crb with stage := .failed, failCode := c } }) ∧
       (∀ t, sha384 (Bytes.slice b 0 x.len) = x.digest → sectionFail s x.type (Bytes.slice b 0 x.len) = none →
         t = applySection s x.type (Bytes.slice b 0 x.len) → Ends (.sectionDigest true b) u
           (afterSection { t with crb := { t.crb with secs := rest } } x.type)) ∧
       (∀ y r, sha384 (Bytes.slice b 0 x.len) = x.digest → x.type = 9 → tplSecOk (Bytes.slice b 0 x.len) = true → rest = y :: r →
         5 < y.type → Becomes (.sectionDigest true b) u (releaseAgents { s with crb := { s.crb with
           tplSec := Bytes.slice b 0 x.len, secs := rest, secType := y.type } }))) ∧
     (∀ (x : BootSec) (w : State), (x.type < 4 → stageSection w x b = w) ∧
       (4 ≤ x.type → (w.slt.vaults.any fun e => !e.2.bad.isEmpty) = false →
         stageSection w x b = memWrite w (0xC000000 + x.off) b)) ∧
     (Bytes.fld h 0 0 32 ≠ 0x44524F4B → headerFail u h = some 4) ∧
     ((Bytes.fld h 4 0 16 ≠ 1 ∨ Bytes.fld h 0x14 0 8 ≠ agentCount u ∨
         sha384 (Bytes.slice h 0x80 96) ≠ u.crb.otp.digest.look (Bytes.fld h 0xE 0 2) ∨
         u.crb.otp.programmed.getLsbD (Bytes.fld h 0xE 0 2) = false ∨ u.crb.otp.revoked.getLsbD (Bytes.fld h 0xE 0 2) = true ∨
         ecdsaVerify (beNat ((Bytes.slice h 0x80 96).take 48)) (beNat ((Bytes.slice h 0x80 96).drop 48))
           (sha384 (Bytes.slice h 0 0xFA0)) (beNat ((Bytes.slice h 0xFA0 96).take 48))
           (beNat ((Bytes.slice h 0xFA0 96).drop 48)) = false ∨
         Bytes.fld h 0xC 0 16 < u.crb.otp.minSvn ∨ tableOk h = false) →
       headerFail u h ≠ none)) ∧
  (∀ (u s t : State) (bad : List (Nat × Nat)) (failed : List Nat),
     (∀ w, u.crb.stage = .slateInit → u.slt.filled = false → 2 < ((u.crb.secs.head?).map (·.type)).getD 0 →
       s = { u with
         mem := []
         grs := { u.grs with nodes := [] }
         slt := { u.slt with tags := [], filled := true } } →
       w = (List.range 128).foldl (fun s v =>
         if (vault s v).role = .retired then s
         else if (vault s v).role = .spare ∧ (failed.contains v ∨
             64 < (((bad.filter fun e => e.1 == v && decide (e.2 < vaultBlocks)).map (·.2)).eraseDups).length) then retireVault s v
         else filledVault s v (((bad.filter fun e => e.1 == v && decide (e.2 < vaultBlocks)).map (·.2)).eraseDups)) s →
       (replaceVaults w ((List.range 128).filter fun v => (vault w v).role == .active &&
           decide (64 < (((bad.filter fun e => e.1 == v && decide (e.2 < vaultBlocks)).map (·.2)).eraseDups).length)) = some t →
         Ends (.slateFillDone bad failed) u { t with crb := { t.crb with stage := .load } }) ∧
       (replaceVaults w ((List.range 128).filter fun v => (vault w v).role == .active &&
           decide (64 < (((bad.filter fun e => e.1 == v && decide (e.2 < vaultBlocks)).map (·.2)).eraseDups).length)) = none →
         Ends (.slateFillDone bad failed) u { w with crb := { w.crb with stage := .failed, failCode := 0xC } }) ∧
       (bad = [] → failed = [] → Becomes (.slateFillDone bad failed) u { w with crb := { w.crb with stage := .load } })) ∧
     (∀ v found, (vault (filledVault u v found) v).bad = found.take 64 ∧
       (vault (filledVault u v found) v).rowQ = (found.map rowKey).eraseDups) ∧
     (u.crb.stage = .build → u.crb.built = false →
       (∀ n, buildSteps u = .inl n →
         Becomes .build u { u with crb := { u.crb with stage := .failed, failCode := 0xB, secType := n } }) ∧
       (buildSteps u = .inr s → t = sampleAgents s → Becomes .build u { t with crb := { t.crb with built := true } })) ∧
     (∀ l v, u.crb.stage = .build → u.crb.built = true → l = imageQueues u →
       s = l.foldl (fun s q => updQ s q fun x => { x with st := .idle }) { u with crb := { u.crb with stage := .ready } } →
       t = ((s.queues.map (·.1)).filter isQueue).foldl (checkPending l) s →
       openEntries l t (secEntries t.crb.chanSec 16) = some v →
       (v.crb.kind = 0 → Ends .ready u (fabReady ((List.range (agentCount v)).foldl agentReady v))) ∧
       (∀ w, v.crb.kind ≠ 0 → w = (l.filter isKernel).foldl resetRecord v →
         Ends .ready u (fabReady ((List.range (agentCount w)).foldl agentReady w))) ∧
       (v.crb.kind = 0 → (∀ k, k < 8 → (port u k).st ≠ .up) → (∀ e ∈ u.agt, e.2.inbox = []) → Becomes .ready u
         ((List.range (agentCount v)).foldl (fun s a => emits (updA s a fun x => { x with inbox := [] })
           [.upCredit a 0 16, .upCredit a 1 16]) v))) ∧
     (∀ l q, (queue u q).pend = true →
       (q ∈ l → (queue u q).tail < sqSize u q → checkPending l u q = u) ∧
       ((q ∉ l ∨ sqSize u q ≤ (queue u q).tail) →
         checkPending l u q = count (updQ u q fun x => { x with pend := false }) .hifDbIgn)))

/-- What FLT does with a fault (R328, R329, R330, R333, R338, R348): every fault is the last one, joins the log of 64,
and is counted or flagged by its class; a C fault changes nothing else, a UP fault starts the discard of its
partition, is merged into one that runs or is held through a stop, and a UD fault starts a device reset. Faults raised
in the same ac are taken in ascending order of identifier, each once (R329). Discards and aborts (R333, R334, R336,
R348): a discard ends once no launch of its partition runs and no agent runs a slice of it; an abort reaches an
agent's blocks and its layer of that node and generation, and an agent that holds none ignores it. -/
def Obligations.FaultsTaken : Prop :=
  (∀ (u s : State) (f : FaultRec),
     (u.flt.log.length < 64 → s = { u with flt := { u.flt with last := f, log := u.flt.log ++ [f] } } →
       (f.cls = .c → recordFault u f = count { s with flt := { s.flt with irqStat := s.flt.irqStat ||| 1 } } .fltC) ∧
       (f.cls = .up → recordFault u f = logRecord (pageCount (count { s with
         flt := { s.flt with irqStat := s.flt.irqStat ||| 2 } } .fltUp) f.part 12 1) 0x0A f.id (faultWord f).toNat) ∧
       (f.cls = .ud → recordFault u f = logRecord { s with
         flt := { s.flt with lastUd := f }
         crb := { s.crb with fault := f.id } } 0x0A f.id (faultWord f).toNat)) ∧
     (64 ≤ u.flt.log.length → (recordFault u f).flt.log = u.flt.log.tail ++ [f] ∧ (recordFault u f).flt.last = f) ∧
     (s = recordFault u f →
       (f.cls = .c → takeFault u f = s) ∧
       (f.cls = .up → isReady s = false → takeFault u f = s) ∧
       (∀ w, f.cls = .up → isReady s = true → s.flt.devReset = false → s.flt.stop ≠ .running →
           w = { s with flt := { s.flt with heldUp := s.flt.heldUp.put f.part true } } →
         (s.flt.stop ≠ .stopped → takeFault u f = w) ∧
         (s.flt.stop = .stopped → takeFault u f = memWrite w 0xC (leBytes 2 (partMask w.flt.heldUp)))) ∧
       (f.cls = .up → isReady s = true → s.flt.devReset = false → s.flt.stop = .running →
         (s.flt.discarding.look f.part = true → takeFault u f = count s .fltMerge) ∧
         (s.flt.discarding.look f.part = false → takeFault u f = startDiscard s f.part fun _ => false)) ∧
       (f.cls = .ud → isReady s = true → s.flt.devReset = false → takeFault u f =
         startDeviceReset s (fun q => (f.id == 0x0101 || f.id == 0x0102) && q == f.detail) 1) ∧
       (f.cls = .ud → (isReady s = false ∨ s.flt.devReset = true) → takeFault u f = s))) ∧
  (∀ l : List FaultRec, (l.foldl (fun a f => insFault f a) []).Perm l ∧
     (l.foldl (fun a f => insFault f a) []).Pairwise fun f g => f.id ≤ g.id) ∧
  (∀ (u : State) (a p n : Nat) (gen : BitVec 16),
     ((u.grs.nodes.any fun e => e.2.kind == .graph && (e.2.hdr.lstate == .active || e.2.hdr.lstate == .draining) &&
         partOr0 u e.1 == p) = false → issuedOf u p = false → u.flt.devReset = false → u.flt.stop = .running →
       Becomes (.discardEnd p) u { u with flt := { u.flt with discarding := u.flt.discarding.put p false } }) ∧
     (((u.grs.nodes.any fun e => e.2.kind == .graph && (e.2.hdr.lstate == .active || e.2.hdr.lstate == .draining) &&
         partOr0 u e.1 == p) = true ∨ issuedOf u p = true ∨ u.flt.devReset = true ∨ u.flt.stop ≠ .running) →
       Becomes (.discardEnd p) u u) ∧
     (issuedOf u p = u.dis.running.any fun r => r.part == p && !sliceOver u r) ∧
     (∀ v mine idle fresh s, agtShut u a = false → Lands (isAbort a n gen) u v →
         mine = (fun (b : Block) => b.node == n && b.gen == gen) →
         idle = ((agt u a).blocks.filter fun b => mine b && !b.started) →
         fresh = ((agt u a).tasks.filter fun t => sameLaunch t.l n gen && !t.checked) →
         s = updA v a (fun x => { x with
           tasks := x.tasks.filter fun t => !sameLaunch t.l n gen,
           blocks := (x.blocks.filter fun b => !(mine b && !b.started)).map fun b =>
             if mine b then { b with aborted := true } else b,
           dnQ := x.dnQ.filter fun m => !idle.any fun b => isStart b.core b.tag m }) →
       Ends (.abort a n gen) u (abortLayer
         (((agt u a).blocks.filter fun b => mine b && b.started && !b.aborted).foldl
           (fun s b => dnSend s a (.abortBlock b.core b.tag))
           (returnMerged s a ((fresh.map (·.l.part) ++ idle.map (·.part)).headD 0) n gen
             (fresh.flatMap (fun t => launchCharge t.l) ++ idle.map fun b => (b.core, b.res)))) a n gen) ∧
       (((agt u a).blocks.any fun b => mine b && b.started && !b.aborted) = false → (rkn u a).launch = none →
         Becomes (.abort a n gen) u (returnMerged s a ((fresh.map (·.l.part) ++ idle.map (·.part)).headD 0) n gen
           (fresh.flatMap (fun t => launchCharge t.l) ++ idle.map fun b => (b.core, b.res))))) ∧
     ((rkn u a).launch = none → abortLayer u a n gen = u) ∧
     (∀ l, (rkn u a).launch = some l → (sameLaunch l n gen = false ∨ (rkn u a).st = .idle ∨ (rkn u a).st = .loading) →
       abortLayer u a n gen = u) ∧
     (∀ l s unsent, (rkn u a).launch = some l → sameLaunch l n gen = true → (rkn u a).st ≠ .idle →
       (rkn u a).st ≠ .aborting → (rkn u a).st ≠ .loading →
       unsent = (agt u a).dnQ.filterMap (fun m => match m with
         | .engCmd core eng tag .. => some (core, eng, some tag)
         | .engCfg core eng _ _ _ => some (core, eng, none)
         | _ => none) →
       s = updR (updA (rknHaltNote u a) a fun x => { x with
           dnQ := x.dnQ.filter fun m => (engMsg m).isNone,
           eqUsed := unsent.foldl (fun t e => t.upd (4 * e.1 + e.2.1) (· - 1)) x.eqUsed }) a (fun r => { r with
         st := .aborting, ops := r.ops.filter (fun o => !unsent.any fun e => e.1 == o.core && e.2.2 == some o.tag), reqs := [],
         halt := none, writes := [], line := [], stepping := false }) →
       abortLayer u a n gen = orphan s fun w => match w with
         | .rkn a' _ => a' == a
         | _ => false))

/-- The end of a progress window (R339, R341, R348): each queue's stall count goes to 0 where it progressed or was not
counted and up by one otherwise, counted, and at LIMIT raises FLT_HANG with the queue; with EN = 0 no count changes,
and none ends while the block is stopped or not yet Ready. -/
def Obligations.ProgressWindows : Prop :=
  ∀ (u s : State) (q limit : Nat),
    (u.flt.stop = .running → isReady u = true → regBit u 0xc00040 40 = true →
      s = ((u.queues.map (·.1)).filter isQueue).foldl
        (fun t q => windowQueue { t with flt := { t.flt with progressed := u.flt.progressed } } q) u →
      Ends .progressWindowEnd u { s with
        flt := { s.flt with progressed := [] }
        agt := s.agt.foldUpd fun _ a => { a with acts := [] } }) ∧
    (u.flt.stop = .running → isReady u = true → regBit u 0xc00040 40 = false → Becomes .progressWindowEnd u { u with
        flt := { u.flt with progressed := [] }
        agt := u.agt.foldUpd fun _ a => { a with acts := [] } }) ∧
    ((u.flt.stop ≠ .running ∨ isReady u = false) → Becomes .progressWindowEnd u u) ∧
    (regBit u 0xc00100 63 = false → limit = max 1 (regFld u 0xc00040 39 32) →
      ((windowCounts u q = false ∨ progressed u q = true) →
        windowQueue u q = { u with flt := { u.flt with stall := u.flt.stall.put q 0 } }) ∧
      (windowCounts u q = true → progressed u q = false → s = count { u with
          flt := { u.flt with stall := u.flt.stall.put q (min 255 (u.flt.stall.look q + 1)) } } .fltStallWin →
        (min 255 (u.flt.stall.look q + 1) ≠ limit → windowQueue u q = s) ∧
        (min 255 (u.flt.stall.look q + 1) = limit → windowQueue u q = raise s 0x1101 .ud 0 q)))

/-- The end of a cycle walk (R342, R343): without a cycle nothing happens; every FLAG_WAIT on a cycle completes with
DEADLOCK and the cycle's length, its queue stops, and the cycle is counted, flagged, shown with its first 16 queues
and logged. The asynchronous inputs (R344, R345, R346): an input acts once, on its filtered assertion, and again only
after it has returned; STOP_N requests a stop, THERM_TRIP_N raises its fault, PMB_ALERT_N has MGT read the devices,
and a glitch only counts. Global Stop (R308, R346, R347, R349, R352, R353): a request is taken in RUNNING only and
never before Ready, each unit stops as the token reaches it, all stopped lead to SAVING, the Cut to STOPPED with its
header at byte 0, and all running again to RUNNING. What the sections hold beside the stated parts is free (log entry
56). -/
def Obligations.CyclesInputsAndStop : Prop :=
  (∀ (u s t : State) (q : Nat) (rest l : List Nat),
     (u.flt.walks = q :: rest → s = { u with flt := { u.flt with walks := rest } } →
       (cycleOf s q = none → Becomes .cycleWalkEnd u s) ∧
       (cycleOf s q = some l → t = l.foldl (deadlock l.length) s →
         Ends .cycleWalkEnd u (logRecord (count { t with flt := { t.flt with
           irqStat := t.flt.irqStat ||| 4, cycLen := l.length, cycQ := l.take 16 } } .fltCycle) 0x0A 0 l.length))) ∧
     (u.flt.walks = [] → Becomes .cycleWalkEnd u u) ∧
     (∀ w n, u.flt.wait.find? (·.q == q) = some w →
       deadlock n u q = stopQueue (endFlag u q w.seq 0x21 n) q .deadlock)) ∧
  (∀ (u s : State) (k : Nat) (fails : List Nat),
     (u.flt.level.getLsbD 2 = true → s = { u with flt := { u.flt with level := u.flt.level &&& ~~~((1 : BitVec 5) <<< 2) } } →
       Becomes .stopN u (stopRequest s 0)) ∧
     (u.flt.level.getLsbD 3 = true → s = { u with flt := { u.flt with level := u.flt.level &&& ~~~((1 : BitVec 5) <<< 3) } } →
       Ends .thermTripN u (raise s 0x1202 .ud 0 0)) ∧
     (u.flt.level.getLsbD 4 = true → s = { u with flt := { u.flt with level := u.flt.level &&& ~~~((1 : BitVec 5) <<< 4) } } →
       (u.mgt.running = true → Becomes (.pmbAlertN fails) u (pmbReads s fails)) ∧
       (u.mgt.running = false → Becomes (.pmbAlertN fails) u s)) ∧
     (u.flt.level.getLsbD 2 = false → Becomes .stopN u u) ∧
     (u.flt.level.getLsbD 3 = false → Becomes .thermTripN u u) ∧
     (u.flt.level.getLsbD 4 = false → Becomes (.pmbAlertN fails) u u) ∧
     (k < 5 → Becomes (.inputGlitch k) u
       (count { u with flt := { u.flt with irqStat := u.flt.irqStat ||| 8 } } (.fltGlitch k))) ∧
     (2 ≤ k → k < 5 → Becomes (.inputInactive k) u
       { u with flt := { u.flt with level := u.flt.level ||| ((1 : BitVec 5) <<< k) } }) ∧
     (k < 2 → s = { u with flt := { u.flt with level := u.flt.level ||| ((1 : BitVec 5) <<< k) } } →
       Becomes (.inputInactive k) u (leaveReset s))) ∧
  (∀ (u s : State) (k src : Nat),
     (isReady u = false → stopRequest u src = count u .crbBootIgn) ∧
     (isReady u = true → u.flt.stop ≠ .running → stopRequest u src = count u .fltStopIgn) ∧
     (isReady u = true → u.flt.stop = .running →
       s = trRecord u { type := 8, part := 0, cls := 0, gen := 0, node := Config.noNode, sub := src, ts := u.ts, arg1 := 0,
                        arg2 := 0 } →
       stopRequest u src = { s with flt := { s.flt with
         stop := .stopping, stopSource := src, stopTs := s.ts, stoppedUnits := [] } }) ∧
     (u.flt.stop = .stopping → k ∉ u.flt.stoppedUnits →
       s = { u with flt := { u.flt with stoppedUnits := u.flt.stoppedUnits ++ [k] } } →
       (k = 2 → Becomes (.stopTokenArrive k) u s) ∧
       (k = 5 → Becomes (.stopTokenArrive k) u { s with tly := { s.tly with stopped := true } }) ∧
       (k = 7 → Becomes (.stopTokenArrive k) u { s with pdm := { s.pdm with
         stopped := true
         dl := s.pdm.dl.foldUpd fun _ d =>
           if d.armed then { d with at_ := if d.at_ ≤ s.ts then (0 : W64) else d.at_ - s.ts } else d } }) ∧
       (k = 0xC → Becomes (.stopTokenArrive k) u { s with bau := { s.bau with stopped := true } }) ∧
       (k = 0xD → Becomes (.stopTokenArrive k) u { s with rte := { s.rte with stopped := true } }) ∧
       (k = 0xE → Becomes (.stopTokenArrive k) u { s with cmb := { s.cmb with stopped := true } }) ∧
       (k = 0x13 → Becomes (.stopTokenArrive k) u { s with obs := { s.obs with stopped := true } }) ∧
       (k = 1 → Becomes (.stopTokenArrive k) u { s with hif := { s.hif with stopped := true } }) ∧
       (k = 6 → Becomes (.stopTokenArrive k) u { s with dis := { s.dis with stopped := true } }) ∧
       (k = 0xB → Becomes (.stopTokenArrive k) u { s with chn := { s.chn with stopped := true } }) ∧
       (k = 0xF → Becomes (.stopTokenArrive k) u { s with slt := { s.slt with stopped := true } }) ∧
       (k = 0x10 → Ends (.stopTokenArrive k) u (fabStop s)) ∧
       (32 ≤ k → k < 32 + agentCount u → Becomes (.stopTokenArrive k) u (updA s (k - 32) fun x => { x with
         stopped := true
         rkn := { x.rkn with prior := x.rkn.st, st := .stopped } }))) ∧
     ((u.flt.stop ≠ .stopping ∨ k ∈ u.flt.stoppedUnits) → Becomes (.stopTokenArrive k) u u) ∧
     (u.flt.stop = .stopping → (stopUnits ++ (List.range (agentCount u)).map (32 + ·)).all u.flt.stoppedUnits.contains = true →
       tlyStopped u = true → fabHalted u = true → Becomes .allUnitsStopped u
         { u with flt := { u.flt with stop := .saving, stoppedTs := u.ts, cutValid := false } }) ∧
     ((u.flt.stop ≠ .stopping ∨
         (stopUnits ++ (List.range (agentCount u)).map (32 + ·)).all u.flt.stoppedUnits.contains = false) →
       Becomes .allUnitsStopped u u) ∧
     (∀ l len t w, u.flt.stop = .saving → l = cutSections u → len = cutLength u →
       t = l.foldl (fun s x => (writeAt s x.2.1 x.2.2).1) { u with free := u.free + 32801 } →
       w = (writeAt t 0 (cutHeader t l.length len (l.flatMap dirEntry))).1 →
       (l.map (·.1) = [1, 2, 3, 4, 5, 6, 7, 8, 9, 10, 11, 12, 13, 14, 15, 17, 18, 19, 20, 16] ∧ (l.map (·.2.1)).head? = some 0x1000 ∧
         ∀ x ∈ l, ∃ b, x.2.2 = cutStated u x.1 ++ b) ∧
       Becomes .cutWritten u { w with flt := { w.flt with
         stop := .stopped, cutValid := true, resumable := true, cutKib := (len + 1023) / 1024
         irqStat := w.flt.irqStat ||| 16 } }) ∧
     (u.flt.stop ≠ .saving → Becomes .cutWritten u u) ∧
     (u.flt.stop = .resuming → s = startHeld { u with flt := { u.flt with stop := .running } } →
       Ends .allUnitsRunning u (((s.queues.map (·.1)).filter isQueue).foldl settleQ s)) ∧
     (u.flt.stop = .resuming → u.flt.heldUp = [] → u.cfe.turn = none → (∀ e ∈ u.queues, e.2.fetched = []) →
       Becomes .allUnitsRunning u { u with flt := { u.flt with stop := .running } }) ∧
     (u.flt.stop ≠ .resuming → Becomes .allUnitsRunning u u))

/-! ### Management and test access -/

/-- Messages to MGT (R357, R358, R359): a request of a known OP is served from the mailbox or the management port, an
MCTP message of another type is unsupported, an unknown OP is BAD_OP, a wrong length is BAD_LEN; an answer through the
mailbox clears BUSY and sets DONE. The management port (R359): its address by ENTDAA, and the four control messages
answered while it is up. The layout of the answers is DSP0236's (PRESUMED, log entry 6). -/
def Obligations.ManagementMessages : Prop :=
  (∀ (u : State) (src : MgtIn) (m : Bytes), mgtRequest u src = some m → (∀ t d, src = .i3c t d → t = 0x7F) →
     (∀ op f, (mgtOps.contains (m.fld 0 0 8) = false ∨ zeroBytes m 8 15 = false) →
       mgtServe u src op f = mgtRespond u (isPortMsg src) (m.fld 0 0 8) (m.fld 4 0 32) 1 []) ∧
     (mgtOps.contains (m.fld 0 0 8) = true → zeroBytes m 8 15 = true → recovering u = false →
       (m.fld 0 0 8 = 1 → m.fld 2 0 16 = 0 → Becomes (.getHealth src) u (mgtRespond u (isPortMsg src) 1 (m.fld 4 0 32) 0
         (leBytes 4 (healthWord u) ++ leBytes 8 (logStat u) ++ (List.range 128).flatMap fun v => leBytes 8 (vaultStat u v)))) ∧
       (m.fld 0 0 8 = 1 → m.fld 2 0 16 ≠ 0 → Becomes (.getHealth src) u
         (mgtRespond u (isPortMsg src) 1 (m.fld 4 0 32) 2 [])) ∧
       (m.fld 0 0 8 = 2 → m.fld 2 0 16 = 0 → Becomes (.getSensors src) u (mgtRespond u (isPortMsg src) 2 (m.fld 4 0 32) 0
         ((List.range 32).flatMap (fun i => leBytes 1 (celsius u i)) ++
           (List.range 16).flatMap (fun k => leBytes 2 (millivolt u k)) ++ leBytes 8 (busWord u) ++ leBytes 8 (pwrStat u)))) ∧
       (m.fld 0 0 8 = 2 → m.fld 2 0 16 ≠ 0 → Becomes (.getSensors src) u
         (mgtRespond u (isPortMsg src) 2 (m.fld 4 0 32) 2 [])) ∧
       (m.fld 0 0 8 = 3 → m.fld 2 0 16 = 4 → Becomes (.readLog src) u (mgtRespond u (isPortMsg src) 3 (m.fld 4 0 32) 0
         ((((liveLog u).drop ((reqPayload m).fld 0 0 32)).take 63).flatMap logBytes))) ∧
       (m.fld 0 0 8 = 3 → m.fld 2 0 16 ≠ 4 → Becomes (.readLog src) u
         (mgtRespond u (isPortMsg src) 3 (m.fld 4 0 32) 2 [])) ∧
       (m.fld 0 0 8 = 0x20 → m.fld 2 0 16 = 0 → Ends (.deviceReset src) u
         (requestReset (mgtRespond u (isPortMsg src) 0x20 (m.fld 4 0 32) 0 []))) ∧
       (m.fld 0 0 8 = 0x20 → m.fld 2 0 16 ≠ 0 → Becomes (.deviceReset src) u
         (mgtRespond u (isPortMsg src) 0x20 (m.fld 4 0 32) 2 []))) ∧
     (∀ op tag st p, mgtRespond u false op tag st p = { u with mgt := { u.mgt with
       buf := putBuf u.mgt.buf 0
         (leBytes 1 op ++ leBytes 1 st ++ leBytes 2 p.length ++ leBytes 4 tag ++ leBytes 8 0 ++ p)
       busy := false, done := true } }) ∧
     (∀ op tag st p, mgtRespond u true op tag st p = emits u [.mctp
         (leBytes 1 op ++ leBytes 1 st ++ leBytes 2 p.length ++ leBytes 4 tag ++ leBytes 8 0 ++ p), .ibi])) ∧
  (∀ (u : State) (addr inst op eid type : Nat),
     (clocked u = true → u.crb.stage ≠ .reset → Becomes (.entdaa addr) u (emit { u with
       mgt := { u.mgt with i3cAddr := some (addr % 128) } } (.i3cIdent u.mgt.i3cPid 6 0))) ∧
     ((clocked u = false ∨ u.crb.stage = .reset) → Becomes (.entdaa addr) u u) ∧
     (mctpUp u = true →
       (op % 4 ≤ 1 → 8 ≤ eid % 256 → eid % 256 ≠ 255 → Becomes (.setEndpointId inst op eid) u
         (emits { u with mgt := { u.mgt with eid := eid % 256 } } [.mctp
           (leBytes 1 0 ++ leBytes 1 (inst % 32) ++ leBytes 1 1 ++ [0, 0, eid % 256, 0].flatMap (leBytes 1 ·)), .ibi])) ∧
       ((2 ≤ op % 4 ∨ eid % 256 < 8 ∨ eid % 256 = 255) → Becomes (.setEndpointId inst op eid) u (emits u [.mctp
           (leBytes 1 0 ++ leBytes 1 (inst % 32) ++ leBytes 1 1 ++ [2].flatMap (leBytes 1 ·)), .ibi])) ∧
       Becomes (.getEndpointId inst) u (emits u [.mctp
           (leBytes 1 0 ++ leBytes 1 (inst % 32) ++ leBytes 1 2 ++ [0, u.mgt.eid, 0, 0].flatMap (leBytes 1 ·)), .ibi]) ∧
       ((type = 0xFF ∨ type = 0 ∨ type = 0x7F) → Becomes (.getMctpVersionSupport inst type) u (emits u [.mctp
           (leBytes 1 0 ++ leBytes 1 (inst % 32) ++ leBytes 1 4 ++
             ([0, 1] ++ (Bytes.slice (Config.mctpVersion type) 0 4).map fun (x : Byte) => x.toNat).flatMap (leBytes 1 ·)), .ibi])) ∧
       (type ≠ 0xFF → type ≠ 0 → type ≠ 0x7F → Becomes (.getMctpVersionSupport inst type) u (emits u [.mctp
           (leBytes 1 0 ++ leBytes 1 (inst % 32) ++ leBytes 1 4 ++ [0x80].flatMap (leBytes 1 ·)), .ibi])) ∧
       Becomes (.getMessageTypeSupport inst) u (emits u [.mctp
           (leBytes 1 0 ++ leBytes 1 (inst % 32) ++ leBytes 1 5 ++ [0, 1, 0x7F].flatMap (leBytes 1 ·)), .ibi])))

/-- Updates (R362): BEGIN gives the port the update, DATA goes to the staging bytes and marks its blocks, COMMIT needs
every block, verification and programming lead on or end it with VERIFY or NOR, ABORT ends it; a request that the
state does not list is answered STATE, one from the other port BUSY. That an abort in VERIFYING leaves the commit
unanswered is the model's reading (DEDUCED, log entry 65). -/
def Obligations.Updates : Prop :=
  ∀ (u : State) (src : MgtIn) (m : Bytes) (norOk : Bool) (tag n off : Nat), tag = m.fld 4 0 32 → n = m.fld 2 0 16 →
    off = (reqPayload m).fld 0 0 32 → mgtRequest u src = some m → (∀ t d, src = .i3c t d → t = 0x7F) →
    zeroBytes m 8 15 = true → recovering u = false →
    (m.fld 0 0 8 = 0x10 → n = 4 → updBusy u.mgt.upd = false → off % 256 = 0 → off ≤ 0x4000000 →
      Becomes (.updBegin src) u (updRespond { u with mgt := { u.mgt with
        upd := .receiving, updPort := isPortMsg src, updLen := off, updMap := [], recov := [] } } (isPortMsg src) 0x10 tag 0 [])) ∧
    (m.fld 0 0 8 = 0x10 → n = 4 → updBusy u.mgt.upd = true → Becomes (.updBegin src) u
      (updRespond u (isPortMsg src) 0x10 tag (if u.mgt.updPort = isPortMsg src then 3 else 6) [])) ∧
    (∀ s, m.fld 0 0 8 = 0x11 → 260 ≤ n → n ≤ 3844 → (n - 4) % 256 = 0 → u.mgt.upd = .receiving →
      u.mgt.updPort = isPortMsg src → off % 256 = 0 → off + (n - 4) ≤ u.mgt.updLen →
      s = memWrite u (0xC000000 + off) ((reqPayload m).drop 4) →
      Becomes (.updData src norOk) u (updRespond { s with mgt := { s.mgt with
        updMap := (List.range ((n - 4) / 256)).foldl (fun (t : Tab Bool) i => t.put (off / 256 + i) true) s.mgt.updMap } }
        (isPortMsg src) 0x11 tag 0 [])) ∧
    (m.fld 0 0 8 = 0x12 → n = 0 → u.mgt.upd = .receiving → u.mgt.updPort = isPortMsg src →
      ((List.range (u.mgt.updLen / 256)).all u.mgt.updMap.look = true → Becomes (.updCommit src norOk) u { u with
        mgt := { u.mgt with upd := .verifying, updWait := true, updTag := tag } }) ∧
      ((List.range (u.mgt.updLen / 256)).all u.mgt.updMap.look = false → Becomes (.updCommit src norOk) u
        (updRespond u (isPortMsg src) 0x12 tag 2 []))) ∧
    (m.fld 0 0 8 = 0x12 → n = 0 → updBusy u.mgt.upd = false → Becomes (.updCommit src norOk) u
      (updRespond u (isPortMsg src) 0x12 tag 3 [])) ∧
    (m.fld 0 0 8 = 0x13 → n = 0 → (u.mgt.upd = .receiving ∨ u.mgt.upd = .verifying) → u.mgt.updPort = isPortMsg src →
      Becomes (.updAbort src) u (updRespond { u with mgt := { u.mgt with upd := .idle, updWait := false } }
        (isPortMsg src) 0x13 tag 0 [])) ∧
    (u.mgt.upd = .verifying → Becomes .updVerifyDone u (match imageFail u (memRead u 0xC000000 u.mgt.updLen) with
      | some c => updRespond { u with mgt := { u.mgt with upd := .idle, updWait := false, updFail := c } }
          u.mgt.updPort 0x12 u.mgt.updTag 4 (leBytes 1 c)
      | none => { u with mgt := { u.mgt with upd := .committing } })) ∧
    (u.mgt.upd = .committing → Becomes (.updProgramDone false) u
      (updRespond { u with mgt := { u.mgt with upd := .idle, updWait := false, updFail := u.mgt.updFail } }
        u.mgt.updPort 0x12 u.mgt.updTag 5 [])) ∧
    (u.mgt.upd = .committing → Becomes (.updProgramDone true) u (updRespond (logRecord (count
      { u with mgt := { u.mgt with upd := .committed, updWait := false } } .mgtUpd) 0x0B (leNat (memRead u 0xC00000C 2)) 0)
        u.mgt.updPort 0x12 u.mgt.updTag 0 []))

/-- Sensors and power (R361, R366, R367, R368): a rail outside its tolerance for 1 ms raises MGT_SUPPLY, a droop keeps
the next 32 slots empty, a sensor apart from every neighbour in three checks is failed; each millisecond's estimate
sets the metering rate by the rule given, and a device's reads count their failures. That MGT_SUPPLY is raised from
Ready on only is the model's reading (DEDUCED, log entry 62). The persistent log and the spares it calls for (R364,
R365, R370): the oldest waiting record is written at the head, a sector whose program fails is retired, compaction
keeps the live records, and a worn vault starts a spare-in to the lowest SPARE vault with SHARE 2, counted.
Observability (R376, R377, R381, R385): a millisecond's energy and hot milliseconds are integrated, the oldest
buffered record goes to the ring while it has room, and a ring write that fails loses the buffer and ends the trace.
-/
def Obligations.SensorsPowerAndLog : Prop :=
  (∀ (u s : State) (k v : Nat),
     (∀ raw : Nat, k < 16 → u.mgt.running = true →
       v = ((raw : Int) + signedBits 10 (u.crb.trims.look (32 + k))).toNat → s = { u with mgt := { u.mgt with volt := u.mgt.volt.put k v } } →
       ((railRange k).1 ≤ v → v ≤ (railRange k).2 → Becomes (.voltageSample k raw) u { s with
         mgt := { s.mgt with voltSince := s.mgt.voltSince.put k none } }) ∧
       ((v < (railRange k).1 ∨ (railRange k).2 < v) →
         (u.mgt.voltSince.look k = none → Becomes (.voltageSample k raw) u { s with
           mgt := { s.mgt with voltSince := s.mgt.voltSince.put k (some u.ts) } }) ∧
         (∀ t, u.mgt.voltSince.look k = some t → (u.ts - t).toNat < 1650000 → Becomes (.voltageSample k raw) u s) ∧
         (∀ t, u.mgt.voltSince.look k = some t → 1650000 ≤ (u.ts - t).toNat → isReady u = true →
           Ends (.voltageSample k raw) u (raise { s with
             mgt := { s.mgt with voltSince := s.mgt.voltSince.put k none } } 0x1201 .ud 0 k)))) ∧
     (s = count { u with dis := { u.dis with droop := 32 } } .mgtDroop →
       Becomes .droop u { s with mgt := { s.mgt with
         droops := (s.mgt.droops.filter fun t => decide ((s.ts - t).toNat < 1000 * msQc)) ++ [s.ts] } }) ∧
     (u.mgt.running = true → s = (List.range 32).foldl (fun (t : State) i => { t with mgt := { t.mgt with
         cross := t.mgt.cross.put i (if lonely u i then t.mgt.cross.look i + 1 else 0) } }) u →
       Becomes .sensorCrossCheck u (((List.range 32).filter fun i => decide (3 ≤ s.mgt.cross.look i) && !s.mgt.failed.look i).foldl
         (fun (t : State) i => { t with mgt := { t.mgt with
           failed := t.mgt.failed.put i true
           temp := t.mgt.temp.put i (((neighbours i).map s.mgt.temp.look).foldl max 0) } }) s)) ∧
     (∀ ev hub w t, u.mgt.running = true → w = (if u.mgt.rate < 8192 then count u .mgtCapAct else u) →
       t = (List.range (min 16 hub.length)).foldl (fun s i => hubSample s i (hub.getD i 0)) w →
       (u.flt.stop = .running →
         s = { t with mgt := { t.mgt with est := 22 * watt + 625000000 * (hotTier t - 480) + evPower ev } } →
         Becomes (.powerMeterTick ev hub) u { s with mgt := { s.mgt with rate := nextRate s, thermal := thermalOver s } }) ∧
       (u.flt.stop ≠ .running →
         Becomes (.powerMeterTick ev hub) u { t with mgt := { t.mgt with thermal := thermalOver t } })) ∧
     (powerOver u = true → nextRate u = max (u.mgt.rate - u.mgt.rate / 8) 64) ∧
     (powerOver u = false → powerLow u = true → nextRate u = min (u.mgt.rate + max (u.mgt.rate / 32) 64) 8192) ∧
     (powerOver u = false → powerLow u = false → nextRate u = u.mgt.rate) ∧
     (∀ vin iin fails, u.mgt.running = true → s = pmbReads u fails →
       (pmbListed u 0 = true → fails.contains 0 = false → Becomes (.pmbusPoll vin iin fails) u { s with
         mgt := { s.mgt with
           vin := vin % 2 ^ 16
           iin := iin % 2 ^ 16
           busSince := if decide (vin < 3600) || decide (4800 < vin) then
             (match s.mgt.busSince with
               | none => some s.ts
               | some t => some t) else none } }) ∧
       ((pmbListed u 0 = false ∨ fails.contains 0 = true) → Becomes (.pmbusPoll vin iin fails) u s))) ∧
  (∀ (u s : State),
     (∀ r rest eraseOk, u.mgt.logQ = r :: rest → u.mgt.running = true → headOpen u = true →
       (s = count { u with mgt := { u.mgt with log := u.mgt.log ++ [r], logQ := rest } } .mgtLogWr →
         Becomes (.logAppend true eraseOk) u { s with mgt := { s.mgt with
           sectors := s.mgt.sectors.upd u.mgt.head fun x => { x with recs := x.recs + 1 } } }) ∧
       Becomes (.logAppend false eraseOk) u { u with mgt := { u.mgt with
         sectors := u.mgt.sectors.upd u.mgt.head fun x => { x with st := .retired } } }) ∧
     (∀ ok eraseOk, (u.mgt.logQ = [] ∨ u.mgt.running = false) → Becomes (.logAppend ok eraseOk) u u) ∧
     (∀ k taken t v old, u.mgt.running = true → 16 ≤ u.mgt.moved → u.flt.stop = .running → k = (liveLog u).length / 1024 + 1 →
       old = ((List.range 1022).map (· + 2)).filter (fun i => (u.mgt.sectors.look i).st == .journal) →
       copyForward k u [] = (s, taken) → taken.length = k →
       t = old.foldl (fun (s : State) i => { s with mgt := { s.mgt with
         sectors := s.mgt.sectors.upd i fun x => { x with st := .free, recs := 0 } } }) s →
       v = ((List.range k).zip taken).foldl (fun (s : State) (e : Nat × Nat) => { s with mgt := { s.mgt with
         sectors := s.mgt.sectors.upd e.2 fun x => { x with
           recs := if e.1 + 1 = k then (liveLog u).length % 1024 else 1024 } } }) t →
       Ends .logCompact u { v with mgt := { v.mgt with
         log := liveLog u, head := taken.getLastD v.mgt.head, moved := 0 } }) ∧
     ((u.mgt.running = false ∨ u.mgt.moved < 16 ∨ u.flt.stop ≠ .running) → Becomes .logCompact u u) ∧
     (∀ l t, (List.range 120).find? (vaultWorn u) = some l →
       (List.range 128).find? (fun v => (vault u v).role == .spare) = some t → u.mgt.running = true → regBit u 0xd00038 16 = true →
       u.flt.stop = .running → isReady u = true →
       ((u.slt.vs = .idle ∨ u.slt.vs = .failed) → s = updV u t (fun x => { x with role := .target }) →
         Becomes .vaultSpareTrigger u (count (regSet { s with
           slt := { s.slt with vs := .test, vsLogical := l, vsTarget := t, cursor := 0 } } 0xa02000
             (BitVec.ofNat 64 (l + t * 2 ^ 8 + 2 * 2 ^ 16))) .mgtSpareReq)) ∧
       ((u.slt.vs = .copy ∨ u.slt.vs = .test ∨ u.slt.vs = .switch) → Becomes .vaultSpareTrigger u u)) ∧
     ((List.range 120).find? (vaultWorn u) = none → Becomes .vaultSpareTrigger u u)) ∧
  (∀ (u s : State),
     (∀ evs x a b, isReady u = true → x = u.obs.energyFrac + u.mgt.est →
       s = countN { u with obs := { u.obs with energyFrac := x % 20000000 } } .obsEnergyUj (x / 20000000) →
       a = (if 85 * 8 < hotTier s then count s .obsHot85Ms else s) →
       b = (if thermalOver a then count a .obsHot95Ms else a) →
       Becomes (.obsMsTick evs) u
         ((List.range (min 16 evs.length)).foldl (fun s p => partEnergy s p (evs.getD p default)) (peak b))) ∧
     (∀ p e x, x = u.obs.partFrac.look p + evPower e → partEnergy u p e =
       pageCount { u with obs := { u.obs with partFrac := u.obs.partFrac.put p (x % 20000000) } } p 17 (x / 20000000)) ∧
     (∀ r rest next, u.obs.buf = r :: rest → u.obs.stopped = false → regBit u 0xe00000 0 = true →
       next = (u.obs.tail + 1) % trSize u →
       (next ≠ regFld u 0xe00018 23 0 →
         s = emit u (.chiWrite ((regGet u 0xe00008).toNat / 4096 * 4096 + 32 * u.obs.tail) (trBytes r u.obs.phase)) →
         Becomes .trRecordWrite u (count { s with obs := { s.obs with
           buf := rest, tail := next, phase := if next = 0 then !u.obs.phase else u.obs.phase, writing := true } } .obsTrRec)) ∧
       (next = regFld u 0xe00018 23 0 → Becomes .trRecordWrite u u)) ∧
     ((u.obs.buf = [] ∨ u.obs.stopped = true ∨ regBit u 0xe00000 0 = false) → Becomes .trRecordWrite u u) ∧
     (u.obs.writing = true → s = regSetFld (dropTrace u) 0xe00000 0 0 0 →
       Becomes .trWriteError u { s with obs := { s.obs with wrErr := true, writing := false } }) ∧
     (u.obs.writing = false → Becomes .trWriteError u u))

/-- The TAP (R400, R401): IDCODE and BYPASS are scanned as given; a DBG_ACCESS that the debug level does not allow is
DENIED and counted, an allowed one has its register's own effect and leaves OK, with the data of a read, for the next
scan; of a Reckoner in DEBUG at level full it reads and writes the registers and DMEM (R138), at places that are free
(log entry 108). That DENIED counts, and that an access is done at once, is the model's reading (DEDUCED, log entry
5). The wrapper (R402): BYPASS and PRELOAD act always, every other instruction only while TEST_MODE is 1 and as BYPASS
otherwise. What the internal scan returns is not stated: it is a free value. That TEST_MODE is sampled in RESET is the
model's choice (log entry 67). -/
def Obligations.TestAccess : Prop :=
  (∀ (u s : State) (w : BitVec 96) (x : Access), x = dbgBeat w →
     (s = { u with test := { u.test with ir := 0x01 } } → Becomes .idcode u
       (emit s (.dr 32 (3 * 2 ^ 28 + 0x5674 * 2 ^ 12 + u.test.mfr % 2 ^ 11 * 2 + 1)))) ∧
     (s = { u with test := { u.test with ir := 0xFF } } → Becomes .bypass u (emit s (.dr 1 0))) ∧
     (s = emit { u with test := { u.test with ir := 0x10 } } (.dr 96 u.test.dbg.toNat) → dbgPlace u x = none →
       (dbgAllowed u x.addr.toNat x.write = false → ∀ t, t = count s .obsUnpriv →
         Becomes (.dbgAccess w) u { t with test := { t.test with dbg := dbgCapture w 1 none } }) ∧
       (dbgAllowed u x.addr.toNat x.write = true → x.write = true → ∀ t, t = onAny s x →
         Ends (.dbgAccess w) u { t with test := { t.test with dbg := dbgCapture w 0 none } }) ∧
       (dbgAllowed u x.addr.toNat x.write = true → x.write = false → ∀ t, t = onAny s x →
         Ends (.dbgAccess w) u { t with test := { t.test with dbg := dbgCapture w 0 (some (dbgRead s x)) } })) ∧
     (s = emit { u with test := { u.test with ir := 0x10 } } (.dr 96 u.test.dbg.toNat) → ∀ a p, dbgPlace u x = some (a, p) →
       (x.write = false → Becomes (.dbgAccess w) u { s with test := { s.test with dbg := dbgCapture w 0 (some
         (if x.strb = 0xFF then rknPeek u a p else BitVec.ofNat 64 ((rknPeek u a p).toNat % 2 ^ 32))) } }) ∧
       (x.write = true → ∀ v t, v = (if x.strb = 0xFF then x.data
           else BitVec.ofNat 64 ((rknPeek u a p).toNat / 2 ^ 32 * 2 ^ 32 + x.data.toNat % 2 ^ 32)) → t = rknPoke s a v p →
         Becomes (.dbgAccess w) u { t with test := { t.test with dbg := dbgCapture w 0 none } })) ∧
     (∀ a p, dbgPlace u x = some (a, p) → (rkn u a).st = .debug ∧ debugFull u (rknPart u a) = true) ∧
     (∀ a wr, u.obs.dbgLevel = 0 → dbgAllowed u a wr = false) ∧
     (∀ a wr, isReady u = false → dbgAllowed u a wr = false) ∧
     (∀ a, u.obs.dbgLevel = 1 → dbgAllowed u a true = false) ∧
     (∀ a, isReady u = true → u.obs.dbgLevel = 2 → u.obs.dbgMask = 0xFFFF → dbgAllowed u a true = true) ∧
     (∀ a p, isReady u = true → u.obs.dbgLevel = 1 → pagePart a = some p → u.obs.dbgMask.getLsbD p = true →
       dbgAllowed u a false = true)) ∧
  (∀ (u s t : State) (tm : Bool) (data n : Nat) (rows : List (Nat × Nat)) (res : List BistRes),
     s = (if u.crb.stage = .reset then { u with test := { u.test with testMode := tm } } else u) →
     (t = { s with test := { s.test with wir := 0 } } → Becomes (.wsBypass tm) u (emit t (.dr 1 0))) ∧
     Becomes (.wsPreload tm data) u { s with test := { s.test with wir := 1, boundary := data } } ∧
     (s.test.testMode = true →
       (t = { s with test := { s.test with wir := 2 } } → Becomes (.wsExtest tm) u (emit t (.boundary s.test.boundary))) ∧
       (t = { s with test := { s.test with wir := 3 }, free := s.free + 1 } →
         Becomes (.wsIntestScan tm n) u (emit t (.dr n (Config.freeNat s.free % 2 ^ n)))) ∧
       Becomes (.mbistRun tm rows) u { s with test := { s.test with wir := 4, mbist := rows } } ∧
       (∀ r, r = (List.range 128).foldl (fun (t : Tab BistRes) v => t.put v (res.getD v default)) [] →
         t = { s with test := { s.test with wir := 5, bist := r } } →
         Becomes (.slateBist tm res) u (emit t (.dr 2048 (bistWord r))))) ∧
     (s.test.testMode = false →
       (t = { s with test := { s.test with wir := 2 } } → Becomes (.wsExtest tm) u (emit t (.dr 1 0))) ∧
       (t = { s with test := { s.test with wir := 3 } } → Becomes (.wsIntestScan tm n) u (emit t (.dr 1 0))) ∧
       (t = { s with test := { s.test with wir := 4 } } → Becomes (.mbistRun tm rows) u (emit t (.dr 1 0))) ∧
       (t = { s with test := { s.test with wir := 5 } } → Becomes (.slateBist tm res) u (emit t (.dr 1 0)))))
end

