-- ==== Sys2Proof/Laws/Act.lean ====
section
/-!
SUPPORT. What stands around every command's effect: in a calm state nothing else happens, and after every command no fault
waits, the waiting commands and N are as before.
-/

namespace Sys2Proof.Machine

open Sys2Proof

/-- With no fault raised, FLT takes nothing. -/
theorem takeFaults_idle (n : Nat) (s : State) (h : s.flt.raised = []) : takeFaults n s = s := by
  cases n with
  | zero => cases s; rename_i flt _ _ _ _; cases flt; cases h; rfl
  | succ n => unfold takeFaults; rw [h]; rfl

/-- With no partner's request held, no answer leaves for a partner. -/
theorem fabCollect_idle (s : State) (h : s.fab.served = []) : fabCollect s = s := by
  unfold fabCollect
  suffices H : ∀ (l : List Out) (f : State → Out → State), (∀ o, f s o = s) → l.foldl f s = s by
    apply H
    intro o
    cases o <;> try rfl
    simp only [h, takeFirst]
    split <;> rfl
  intro l f hf
  induction l with
  | nil => rfl
  | cons o r ih => rw [List.foldl_cons, hf, ih]

/-- With no operation waiting for a credit, none leaves. -/
theorem opRelease_idle (n : Nat) (s : State) (h : s.held = []) : opRelease n s = s := by
  cases n with
  | zero => rfl
  | succ n => unfold opRelease; rw [h]; rfl

/-- With nothing before TLY's intake or its expansion table, nothing moves there. -/
theorem tlyPump_idle (s : State) (hw : s.tly.wait = []) (hi : s.tly.intake = []) : tlyPump s = s := by
  unfold tlyPump
  split
  · rfl
  · simp only [hi, List.length_nil, expFill, hw, intakeFill]

/-- Where nothing waits, a command ends as its effect left it, its Beam packets under way. -/
theorem finish_idle (s : State) (h : Settled s) : finish s = underWay s := by
  obtain ⟨hr, hh, hv, hw, hi⟩ := h
  unfold finish
  rw [takeFaults_idle 4 s hr]
  simp only
  rw [opRelease_idle _ s hh, tlyPump_idle s hw hi, fabCollect_idle s hv, takeFaults_idle 4 s hr]

/-- No injection point is armed: no SRAM shows an error. -/
theorem sramInject_idle (s : State) (t : Touch) (h : regBit s 0xc00100 63 = false) : sramInject s t = s := by
  unfold sramInject injArmed
  simp [h]

theorem touches_idle (l : List Touch) (s : State) (h : regBit s 0xc00100 63 = false) :
    l.foldl sramInject s = s := by
  induction l with
  | nil => rfl
  | cons t r ih => rw [List.foldl_cons, sramInject_idle s t h, ih]

/-- In a calm state a command is its own effect and nothing else, where that effect raises no fault. -/
theorem act_calm (l : List Touch) (f : State → State) (s : State) (hc : Calm s)
    (h : Settled (f s.quiet)) :
    act l f s = { underWay (f s.quiet) with pending := s.pending, agents := s.agents } := by
  unfold act
  rw [touches_idle l s.quiet hc.1, finish_idle _ h]

theorem insFault_ne_nil (f : FaultRec) (l : List FaultRec) : insFault f l ≠ [] := by
  cases l with
  | nil => exact List.cons_ne_nil _ _
  | cons g r => unfold insFault; split <;> exact List.cons_ne_nil _ _

theorem foldl_insFault_nil (l acc : List FaultRec) (h : l.foldl (fun l f => insFault f l) acc = []) :
    l = [] ∧ acc = [] := by
  induction l generalizing acc with
  | nil => exact ⟨rfl, h⟩
  | cons f r ih => exact absurd (ih _ h).2 (insFault_ne_nil f acc)

/-- FLT leaves no fault waiting. -/
theorem takeFaults_raised (n : Nat) (s : State) : (takeFaults n s).flt.raised = [] := by
  induction n generalizing s with
  | zero => rfl
  | succ n ih =>
    unfold takeFaults
    split
    · rename_i h; exact (foldl_insFault_nil _ _ h).1
    · exact ih _

/-- After every command, no fault waits for FLT. -/
theorem act_raised (l : List Touch) (f : State → State) (s : State) : (act l f s).flt.raised = [] :=
  takeFaults_raised 4 _

@[simp] theorem act_pending (l : List Touch) (f : State → State) (s : State) : (act l f s).pending = s.pending := rfl

@[simp] theorem act_agents (l : List Touch) (f : State → State) (s : State) : (act l f s).agents = s.agents := rfl

/-- A command whose effect `f` leads from `u` to `v` and leaves nothing waiting ends in `v`. -/
theorem becomes_act (i : Instr) (l : List Touch) (f : State → State) (u v : State)
    (hi : ∀ s, exec i s = .next (act l f s))
    (hf : Calm u → u.out = [] → u.obs.inAc = 0 → f u = v ∧ v.flt.raised = [] ∧ v.held = [] ∧
      v.fab.served = [] ∧ v.tly.wait = [] ∧ v.tly.intake = [])
    (hp : v.pending = u.pending) (ha : v.agents = u.agents) : Becomes i u v := by
  intro s hc hu
  subst hu
  obtain ⟨h1, h2⟩ := hf hc rfl rfl
  have hs : { underWay v with pending := s.pending, agents := s.agents } = underWay v := by
    rw [show s.pending = v.pending from hp.symm, show s.agents = v.agents from ha.symm]
    rfl
  rw [hi, act_calm l f s hc (by rw [h1]; exact h2), h1, hs]

/-- A command ends in what its effect leaves, once what waits is taken. -/
theorem ends_act (i : Instr) (l : List Touch) (f : State → State) (u v : State)
    (hi : ∀ s, exec i s = .next (act l f s)) (hf : Calm u → f u = v) : Ends i u v := by
  intro s hc hu
  subst hu
  rw [hi]
  unfold act
  rw [touches_idle l s.quiet hc.1, hf hc]
  rfl

/-- Where nothing waits, a command that ends so becomes it. -/
theorem becomes_of_ends {i : Instr} {u v : State} (h : Ends i u v) (hs : Settled v) (hp : v.pending = u.pending)
    (ha : v.agents = u.agents) : Becomes i u v := by
  intro s hc hu
  rw [h s hc hu, finish_idle v hs, ← hp, ← ha]
  rfl

/-- Where nothing sent is a Beam packet, the Beam is as before. -/
theorem underWay_none (s : State) (h : s.out.filter (·.beam.isSome) = []) : underWay s = s := by
  unfold underWay
  rw [h, List.append_nil]

theorem State.quiet_quiet (s : State) : s.quiet.quiet = s.quiet := rfl

theorem exec_act (i : Instr) : ∃ l f, ∀ s, exec i s = .next (act l f s) := by
  cases i <;> exact ⟨_, _, fun _ => rfl⟩

theorem insFault_perm (f : FaultRec) (l : List FaultRec) : (insFault f l).Perm (f :: l) := by
  induction l with
  | nil => exact .refl _
  | cons g r ih =>
    unfold insFault; split
    · exact .refl _
    · exact (List.Perm.cons g ih).trans (List.Perm.swap f g r)

theorem insFault_sorted (f : FaultRec) (l : List FaultRec) (h : l.Pairwise fun f g => f.id ≤ g.id) :
    (insFault f l).Pairwise fun f g => f.id ≤ g.id := by
  induction l with
  | nil => exact List.pairwise_singleton _ _
  | cons g r ih =>
    rw [List.pairwise_cons] at h
    unfold insFault; split
    · rename_i hlt
      rw [List.pairwise_cons, List.pairwise_cons]
      refine ⟨?_, h⟩
      intro x hx
      rcases List.mem_cons.mp hx with hx | hx
      · subst hx; omega
      · have := h.1 x hx; omega
    · rename_i hlt
      rw [List.pairwise_cons]
      refine ⟨?_, ih h.2⟩
      intro x hx
      have hx' := (insFault_perm f r).mem_iff.mp hx
      rcases List.mem_cons.mp hx' with hx' | hx'
      · subst hx'; omega
      · exact h.1 x hx'

theorem pageCount_keep (s : State) (p i n : Nat) : (pageCount s p i n).flt = s.flt ∧ (pageCount s p i n).agents =
    s.agents ∧ (pageCount s p i n).pending = s.pending ∧ (pageCount s p i n).mem = s.mem ∧ (pageCount s p i n).queues =
        s.queues ∧ (pageCount s p i n).regs = s.regs ∧ (pageCount s p i n).ts = s.ts := ⟨rfl,rfl,rfl,rfl,rfl,rfl,rfl⟩

theorem tick_keep (s : State) : (tick s).flt = s.flt ∧ (tick s).agents = s.agents ∧ (tick s).pending = s.pending ∧
    (tick s).mem = s.mem ∧ (tick s).queues = s.queues ∧ (tick s).regs = s.regs ∧ (clocked s = true → (tick s).ts =
        s.ts + 1) := by
  have key : ∀ (l : List Nat) (w : State) (f : State → Nat → Nat × Nat),
      (l.foldl (fun s p => pageCount (pageCount s p 4 (f s p).1) p 5 (f s p).2) w).flt = w.flt ∧
      (l.foldl (fun s p => pageCount (pageCount s p 4 (f s p).1) p 5 (f s p).2) w).agents = w.agents ∧
      (l.foldl (fun s p => pageCount (pageCount s p 4 (f s p).1) p 5 (f s p).2) w).pending = w.pending ∧
      (l.foldl (fun s p => pageCount (pageCount s p 4 (f s p).1) p 5 (f s p).2) w).mem = w.mem ∧
      (l.foldl (fun s p => pageCount (pageCount s p 4 (f s p).1) p 5 (f s p).2) w).queues = w.queues ∧
      (l.foldl (fun s p => pageCount (pageCount s p 4 (f s p).1) p 5 (f s p).2) w).regs = w.regs ∧
      (l.foldl (fun s p => pageCount (pageCount s p 4 (f s p).1) p 5 (f s p).2) w).ts = w.ts := by
    intro l
    induction l with
    | nil => intro w f; exact ⟨rfl,rfl,rfl,rfl,rfl,rfl,rfl⟩
    | cons a r ih =>
      intro w f
      have h := ih (pageCount (pageCount w a 4 (f w a).1) a 5 (f w a).2) f
      exact h
  unfold tick; split
  · rename_i h; exact ⟨rfl,rfl,rfl,rfl,rfl,rfl, fun h' => by rw [h'] at h; cases h⟩
  · simp only []; split
    · exact ⟨rfl,rfl,rfl,rfl,rfl,rfl,fun _ => rfl⟩
    · obtain ⟨a,b,c,d,e,f,g⟩ := key (List.range 16) { s with ts := s.ts + 1, tly.last := none } (fun s p => (2 * busyCores s p, 2 * busyRkns s p))
      exact ⟨a,b,c,d,e,f,fun _ => g⟩

end Sys2Proof.Machine
end

