-- ==== Sys2Proof/Laws/Tab.lean ====
section
/-!
SUPPORT. Laws of sparse tables: reading after writing, and the canonical form that every table operation keeps.
-/

namespace Sys2Proof

variable {α : Type} [Inhabited α]

@[simp] theorem Tab.look_nil (k : Nat) : Tab.look ([] : Tab α) k = default := rfl

theorem Tab.look_cons (n : Nat) (v : α) (r : Tab α) (k : Nat) :
    Tab.look ((n, v) :: r) k = if k = n then v else if k < n then default else Tab.look r k := rfl

/-- Every entry of `above k` lies above `k`, so index `k` itself reads as the default. -/
theorem Tab.look_above_self (t : Tab α) (k : Nat) : Tab.look (Tab.above t k) k = default := by
  induction t with
  | nil => rfl
  | cons e r ih =>
    obtain ⟨n, v⟩ := e
    unfold Tab.above
    by_cases h : n ≤ k
    · rw [if_pos h]; exact ih
    · rw [if_neg h, Tab.look_cons, if_neg (by omega), if_pos (by omega)]

/-- A read after a write to the same index gives the value written. -/
@[simp] theorem Tab.look_put_same [DecidableEq α] (t : Tab α) (k : Nat) (v : α) :
    Tab.look (Tab.put t k v) k = v := by
  induction t with
  | nil => unfold Tab.put; split <;> simp_all [Tab.look]
  | cons e r ih =>
    obtain ⟨n, w⟩ := e
    unfold Tab.put
    by_cases h : n < k
    · rw [if_pos h, Tab.look_cons, if_neg (by omega), if_neg (by omega)]; exact ih
    · rw [if_neg h]
      by_cases hv : v = default
      · simp only [hv, if_true]; exact Tab.look_above_self _ _
      · simp only [hv, if_false]; rw [Tab.look_cons, if_pos rfl]

/-- A table whose indices start at `lo` reads as the default below it. -/
theorem Tab.look_below [DecidableEq α] (t : Tab α) (lo k : Nat) (h : Tab.canonFrom lo t = true) (hk : k < lo) :
    Tab.look t k = default := by
  cases t with
  | nil => rfl
  | cons e r =>
    obtain ⟨n, v⟩ := e
    simp only [Tab.canonFrom, Bool.and_eq_true, decide_eq_true_eq] at h
    rw [Tab.look_cons, if_neg (by omega), if_pos (by omega)]

theorem Tab.canonFrom_mono [DecidableEq α] (t : Tab α) (lo lo' : Nat) (h : Tab.canonFrom lo t = true) (hl : lo' ≤ lo) :
    Tab.canonFrom lo' t = true := by
  cases t with
  | nil => rfl
  | cons e r =>
    obtain ⟨n, v⟩ := e
    simp only [Tab.canonFrom, Bool.and_eq_true, decide_eq_true_eq] at h ⊢
    exact ⟨⟨by omega, h.1.2⟩, h.2⟩

theorem Tab.canonFrom_above [DecidableEq α] (t : Tab α) (lo k : Nat) (h : Tab.canonFrom lo t = true) :
    Tab.canonFrom (k + 1) (Tab.above t k) = true := by
  induction t generalizing lo with
  | nil => rfl
  | cons e r ih =>
    obtain ⟨n, v⟩ := e
    simp only [Tab.canonFrom, Bool.and_eq_true, decide_eq_true_eq] at h
    unfold Tab.above
    by_cases hn : n ≤ k
    · rw [if_pos hn]; exact ih _ h.2
    · rw [if_neg hn]
      simp only [Tab.canonFrom, Bool.and_eq_true, decide_eq_true_eq]
      exact ⟨⟨by omega, h.1.2⟩, h.2⟩

theorem Tab.look_above [DecidableEq α] (t : Tab α) (lo k j : Nat) (h : Tab.canonFrom lo t = true) (hj : k < j) :
    Tab.look (Tab.above t k) j = Tab.look t j := by
  induction t generalizing lo with
  | nil => rfl
  | cons e r ih =>
    obtain ⟨n, v⟩ := e
    simp only [Tab.canonFrom, Bool.and_eq_true, decide_eq_true_eq] at h
    unfold Tab.above
    by_cases hn : n ≤ k
    · rw [if_pos hn, Tab.look_cons, if_neg (by omega), if_neg (by omega)]; exact ih _ h.2
    · rw [if_neg hn]

theorem Tab.canonFrom_put [DecidableEq α] (t : Tab α) (lo k : Nat) (v : α) (h : Tab.canonFrom lo t = true)
    (hk : lo ≤ k) : Tab.canonFrom lo (Tab.put t k v) = true := by
  induction t generalizing lo with
  | nil => unfold Tab.put; split <;> simp_all [Tab.canonFrom]
  | cons e r ih =>
    obtain ⟨n, w⟩ := e
    have h' := h
    simp only [Tab.canonFrom, Bool.and_eq_true, decide_eq_true_eq] at h
    unfold Tab.put
    by_cases hn : n < k
    · rw [if_pos hn]
      simp only [Tab.canonFrom, Bool.and_eq_true, decide_eq_true_eq]
      exact ⟨h.1, ih _ h.2 (by omega)⟩
    · rw [if_neg hn]
      have ha := Tab.canonFrom_above ((n, w) :: r) lo k h'
      by_cases hv : v = default
      · simp only [hv, if_true]; exact Tab.canonFrom_mono _ _ _ ha (by omega)
      · simp only [hv, if_false, Tab.canonFrom, Bool.and_eq_true, decide_eq_true_eq]
        exact ⟨⟨hk, hv⟩, ha⟩

/-- A write keeps the canonical form. -/
theorem Tab.canon_put [DecidableEq α] (t : Tab α) (k : Nat) (v : α) (h : t.canon = true) : (t.put k v).canon = true :=
  Tab.canonFrom_put t 0 k v h (Nat.zero_le k)

/-- A write leaves every other index alone, in a canonical table. -/
theorem Tab.look_put_ne [DecidableEq α] (t : Tab α) (k j : Nat) (v : α) (h : t.canon = true) (hj : j ≠ k) :
    Tab.look (t.put k v) j = Tab.look t j := by
  suffices H : ∀ (t : Tab α) lo, Tab.canonFrom lo t = true → Tab.look (t.put k v) j = Tab.look t j from H t 0 h
  intro t
  induction t with
  | nil =>
    intro lo _
    unfold Tab.put
    split
    · rfl
    · rw [Tab.look_cons, if_neg hj]; split <;> rfl
  | cons e r ih =>
    intro lo h
    obtain ⟨n, w⟩ := e
    have h' := h
    simp only [Tab.canonFrom, Bool.and_eq_true, decide_eq_true_eq] at h
    unfold Tab.put
    by_cases hn : n < k
    · rw [if_pos hn, Tab.look_cons, Tab.look_cons, ih _ h.2]
    · rw [if_neg hn]
      rcases Nat.lt_or_gt_of_ne hj with hlt | hgt
      · have hold : Tab.look ((n, w) :: r) j = default := by
          rw [Tab.look_cons, if_neg (by omega), if_pos (by omega)]
        rw [hold]
        by_cases hv : v = default
        · simp only [hv, if_true]
          exact Tab.look_below _ (k + 1) j (Tab.canonFrom_above _ _ k h') (by omega)
        · simp only [hv, if_false]; rw [Tab.look_cons, if_neg hj, if_pos hlt]
      · have hab := Tab.look_above ((n, w) :: r) lo k j h' hgt
        by_cases hv : v = default
        · simp only [hv, if_true]; exact hab
        · simp only [hv, if_false]; rw [Tab.look_cons, if_neg hj, if_neg (by omega)]; exact hab

@[simp] theorem Tab.look_upd_same [DecidableEq α] (t : Tab α) (k : Nat) (f : α → α) :
    Tab.look (t.upd k f) k = f (Tab.look t k) := Tab.look_put_same t k _

theorem Tab.look_upd_ne [DecidableEq α] (t : Tab α) (k j : Nat) (f : α → α) (h : t.canon = true) (hj : j ≠ k) :
    Tab.look (t.upd k f) j = Tab.look t j := Tab.look_put_ne t k j _ h hj

theorem Tab.canon_upd [DecidableEq α] (t : Tab α) (k : Nat) (f : α → α) (h : t.canon = true) :
    (t.upd k f).canon = true := Tab.canon_put t k _ h

theorem Tab.canon_foldUpd [DecidableEq α] (t : Tab α) (f : Nat → α → α) (h : t.canon = true) :
    (t.foldUpd f).canon = true := by
  unfold Tab.foldUpd
  suffices H : ∀ (l : List (Nat × α)) (u : Tab α), u.canon = true →
      (l.foldl (fun u e => u.put e.1 (f e.1 e.2)) u).canon = true from H t t h
  intro l
  induction l with
  | nil => exact fun _ hu => hu
  | cons e r ih => exact fun u hu => ih _ (Tab.canon_put u _ _ hu)

theorem Tab.look_filter_out (m : Tab Byte) (p : Nat → Bool) (k : Nat) (hp : p k = false) : Tab.look
    (m.filter fun e => p e.1) k = 0 := by
  induction m with
  | nil => rfl
  | cons e r ih =>
    obtain ⟨a, b⟩ := e
    by_cases ha : p a = true
    · rw [List.filter_cons_of_pos (by exact ha), Tab.look_cons]
      have : k ≠ a := by intro h; subst h; simp [hp] at ha
      rw [if_neg this, ih]; split <;> rfl
    · rw [List.filter_cons_of_neg (by simpa using ha), ih]

theorem Tab.canonFrom_filter (m : Tab Byte) (lo : Nat) (p : Nat → Bool) (h : Tab.canonFrom lo m = true) :
    Tab.canonFrom lo (m.filter fun e => p e.1) = true := by
  induction m generalizing lo with
  | nil => rfl
  | cons e r ih =>
    obtain ⟨a, b⟩ := e
    simp only [Tab.canonFrom, Bool.and_eq_true, decide_eq_true_eq] at h
    by_cases ha : p a = true
    · rw [List.filter_cons_of_pos (by exact ha)]
      simp only [Tab.canonFrom, Bool.and_eq_true, decide_eq_true_eq]
      exact ⟨h.1, ih _ h.2⟩
    · rw [List.filter_cons_of_neg (by simpa using ha)]
      exact Tab.canonFrom_mono _ _ _ (ih _ h.2) (by omega)

theorem Tab.look_filter_in (m : Tab Byte) (lo : Nat) (h : Tab.canonFrom lo m = true) (p : Nat → Bool) (k : Nat) (hp :
    p k = true) : Tab.look (m.filter fun e => p e.1) k = m.look k := by
  induction m generalizing lo with
  | nil => rfl
  | cons e r ih =>
    obtain ⟨a, b⟩ := e
    simp only [Tab.canonFrom, Bool.and_eq_true, decide_eq_true_eq] at h
    by_cases ha : p a = true
    · rw [List.filter_cons_of_pos (by exact ha), Tab.look_cons, Tab.look_cons, ih _ h.2]
    · rw [List.filter_cons_of_neg (by simpa using ha), ih _ h.2, Tab.look_cons]
      have : k ≠ a := by intro h; subst h; exact ha hp
      rw [if_neg this]
      split
      · exact Tab.look_below r (a+1) k h.2 (by omega)
      · rfl

theorem Tab.above_above {α : Type} (t : Tab α) (k : Nat) : Tab.above (Tab.above t k) k = Tab.above t k := by
  induction t with
  | nil => rfl
  | cons e r ih =>
    by_cases h : e.1 ≤ k
    · simp only [Tab.above, h, if_true, ih]
    · simp only [Tab.above, h, if_false]

/-- An entry put twice at one index is the later one. -/
theorem Tab.put_put_same [DecidableEq α] (t : Tab α) (k : Nat) (v w : α) : (t.put k v).put k w = t.put k w := by
  have key : ∀ r : Tab α, (Tab.above r k).put k w = if w = default then Tab.above r k else (k, w) :: Tab.above r k := by
    intro r
    have hr := Tab.above_above r k
    match h : Tab.above r k with
    | [] => rfl
    | (n, x) :: rest =>
      rw [h] at hr
      have hn : k < n := by
        refine Nat.lt_of_not_le fun hle => ?_
        have hl : ∀ s : Tab α, (Tab.above s k).length ≤ s.length := by
          intro s
          induction s with
          | nil => exact Nat.le_refl 0
          | cons e s ih =>
            unfold Tab.above
            split
            · exact Nat.le_succ_of_le ih
            · exact Nat.le_refl _
        have := hl rest
        simp only [Tab.above, hle, if_true] at hr
        rw [hr] at this
        exact absurd this (Nat.not_succ_le_self _)
      unfold Tab.put
      rw [if_neg (by omega)]
      simp only [hr]
  induction t with
  | nil =>
    by_cases hv : v = default
    · simp only [Tab.put, hv, if_true]
    · simp only [Tab.put, hv, Nat.lt_irrefl, if_false, Tab.above, Nat.le_refl, if_true]
  | cons e r ih =>
    obtain ⟨n, x⟩ := e
    by_cases h : n < k
    · simp only [Tab.put, h, if_true, ih]
    · have hc : Tab.put ((n, x) :: r) k v = if v = default then Tab.above ((n, x) :: r) k
          else (k, v) :: Tab.above ((n, x) :: r) k := by
        simp only [Tab.put, h, if_false]
      have hw : Tab.put ((n, x) :: r) k w = if w = default then Tab.above ((n, x) :: r) k
          else (k, w) :: Tab.above ((n, x) :: r) k := by
        simp only [Tab.put, h, if_false]
      rw [hc, hw]
      by_cases hv : v = default
      · rw [if_pos hv, key]
      · rw [if_neg hv]
        generalize ((n, x) :: r : Tab α) = t
        conv => lhs; unfold Tab.put
        simp only [Nat.lt_irrefl, if_false, Tab.above, Nat.le_refl, if_true, Tab.above_above]

theorem Tab.upd_eq_put {α} [Inhabited α] [DecidableEq α] (t : Tab α) (k : Nat) (f : α → α) : t.upd k f = t.put k (f
    (t.look k)) := rfl

theorem Tab.upd_upd {α} [Inhabited α] [DecidableEq α] (t : Tab α) (k : Nat) (f g : α → α) : (t.upd k f).upd k g =
    t.upd k fun x => g (f x) := by
  unfold Tab.upd
  rw [Tab.look_put_same, Tab.put_put_same]

end Sys2Proof
end

