-- ==== Sys2Proof/Laws/Bus.lean ====
section
/-!
SUPPORT. How a register access is answered: the port that receives the answer, the command that an access is, and the frame of a
register write.
-/

namespace Sys2Proof.Machine

open Sys2Proof

/-! ### Answers and accesses -/

theorem answerBus_port {s : State} {x : Access} (h : x.port ≠ .dbg) (d : W64) : answerBus s x d = emit s (.axi false
    (if x.write then 0 else d)) := by
  unfold answerBus; split
  · contradiction
  · rfl

theorem onPort_of_busOp {s : State} {x : Access} {k : BusOp} (h : x.port ≠ .dbg) (hk : busOp s x = k) (p) :
    onPort s x p = (p k).getD s := by
  unfold onPort; rw [if_neg h, hk]

theorem writing_port (s : State) (x : Access) (f : State → State) (h : x.port ≠ .dbg) : writing s x f = emit (f
    (halfUsed s x)) (.axi false 0) := by
  unfold writing; rw [answerBus_port h]; simp [halfUsed]

theorem strobe_low (n : Nat) : n % 16 % 4 = n % 4 := by omega

/-! ### A beat that reaches one register -/

/-- A mask without bits changes nothing. -/
theorem mergeBits_none (o v : Nat) : mergeBits o v 0 = o := by simp [mergeBits]

/-- A beat that changes no locked field is not counted as a locked write. -/
theorem lockCount_none {s : State} {b : Beat}
    (h : isReady s = true → mergeBits (readWord s b.addr).toNat b.data (b.mask &&& lockMask s b.addr) = (readWord s b.addr).toNat) :
    lockCount s b = s := by
  unfold lockCount
  cases hr : isReady s
  · rfl
  · simp [h hr]

/-- Where the registers with plain RW fields stand. -/
theorem rwMask_place {s : State} {a : Nat} (h : rwMask s a ≠ 0) :
    (a = 0x100000 ∨ a = 0x400000 ∨ a = 0x500000 ∨ a = 0x600200 ∨ a = 0xa00300 ∨ a = 0xa00308 ∨ a = 0xb00010 ∨
      a = 0xb00018 ∨ a = 0xb00020 ∨ a = 0xc00040 ∨ a = 0xc00048 ∨ a = 0xd00020 ∨ a = 0xd00038 ∨ a = 0xe00030 ∨
      a = 0xe00050) ∨ (0xb00100 ≤ a ∧ a < 0xb00200) ∨ (0x1000028 ≤ a ∧ (a - 0x1000028) % 0x10000 = 0) := by
  refine Classical.byContradiction fun hn => h ?_
  simp only [not_or] at hn
  obtain ⟨h0, h1, h2⟩ := hn
  have k1 : inRow a 0xb00100 0x20 8 = false := by
    simp only [inRow, Bool.and_eq_false_iff, decide_eq_false_iff_not]; omega
  have k2 : inRow a 0x1000028 0x10000 (agentCount s) = false := by
    simp only [inRow, Bool.and_eq_false_iff, decide_eq_false_iff_not, beq_eq_false_iff_ne]; omega
  unfold rwMask
  simp only [h0, k1, k2, if_false, Bool.false_eq_true]

/-- A register with plain RW fields and no counter takes a write by no rule of its own. -/
theorem writeReg_plain {s : State} {a : Nat} (port : Port) (v m : Nat) (h : rwMask s a ≠ 0) (hc : counterAt s a = none) :
    writeReg s port a v m = plainWrite s a v m := by
  have hr := rwMask_place h
  clear h
  have k0 : ∀ k ∈ [0x610, 0x300000, 0xc00030, 0xd00018, 0xe00020, 0xa02000, 0xe00008, 0xe00010, 0xe00018], a ≠ k := by
    intro k hk
    simp only [List.mem_cons, List.not_mem_nil, or_false] at hk
    omega
  have row : ∀ base stride n, (∀ _ : base ≤ a ∧ a < base + stride * n ∧ (a - base) % stride = 0, False) →
      ¬ (inRow a base stride n = true) := by
    intro base stride n hn hx
    simp only [inRow, Bool.and_eq_true, decide_eq_true_eq, beq_iff_eq] at hx
    exact hn ⟨hx.1.1, hx.1.2, hx.2⟩
  have r1 := row 0x1000008 0x10000 (agentCount s) (by omega)
  have r2 := row 0x400 0x20 16 (by omega)
  have r3 := row 0x408 0x20 16 (by omega)
  have r4 := row 0x410 0x20 16 (by omega)
  have r5 := row 0x502000 32 16 (by omega)
  have r6 := row 0x502008 32 16 (by omega)
  have r7 := row 0x810000 8 4096 (by omega)
  have r8 := row 0x910000 8 1024 (by omega)
  have r9 := row 0xe40000 8 (4 * 0x1010) (by omega)
  have hw : w1cWrite s a (v &&& m) = s := by
    unfold w1cWrite
    simp only [k0 0x610 (by simp), k0 0x300000 (by simp), k0 0xc00030 (by simp), k0 0xd00018 (by simp),
      k0 0xe00020 (by simp), r1, if_false]
    rfl
  unfold writeReg
  simp only [hc, hw, r2, r3, r4, r5, r6, r7, r8, r9, k0 0xa02000 (by simp), k0 0xe00008 (by simp),
    k0 0xe00010 (by simp), k0 0xe00018 (by simp), if_false, or_self, Bool.false_eq_true]

/-- A beat lies at a multiple of 8. -/
theorem beatOf_aligned (u : State) (x : Access) : (beatOf u x).addr % 8 = 0 := by
  simp only [beatOf]
  split <;> (try split) <;> simp only [Access.word] <;> omega

/-- The one register that a beat touches stands at its address or 4 above, at its address where it has 64 bits. -/
theorem touched_one {u : State} {b : Beat} {a : Nat} (ht : touched u b = [a]) :
    (is64 u b.addr = true → a = b.addr) ∧ (a = b.addr ∨ a = b.addr + 4) := by
  unfold touched at ht
  split at ht
  · split at ht
    · cases ht
    · have : a = b.addr := by simpa using ht.symm
      exact ⟨fun _ => this, Or.inl this⟩
  · rename_i h
    refine ⟨fun h' => absurd h' h, ?_⟩
    split at ht <;> split at ht <;> simp at ht <;> omega

/-- A beat that reaches one register is one write of it. -/
theorem writeBeat_one {u : State} {b : Beat} {a : Nat} (p : Port) (h : OneReg u b a) :
    writeBeat u p b = writeReg u p a (beatVal u b a) (beatMask u b a) := by
  obtain ⟨hi, hl, _, ht⟩ := h
  unfold writeBeat beatVal beatMask
  rw [lockCount_none hl]
  simp only [hi, Bool.false_eq_true, if_false, ht]
  by_cases h6 : is64 u b.addr = true
  · simp only [h6, if_true]
    rw [(touched_one ht).1 h6]
  · simp only [h6, if_false, List.foldl_cons, List.foldl_nil, Bool.false_eq_true]

/-- A beat to one register with plain RW fields writes those that it covers, if any (R11, R394). -/
theorem writeBeat_fields {u : State} {b : Beat} {a : Nat} (p : Port) (h : OneReg u b a) (h5 : rwMask u a ≠ 0)
    (hc : counterAt u a = none) :
    writeBeat u p b = if beatMask u b a &&& rwMask u a = 0 then u else regSet u a (rwWritten u b a) := by
  rw [writeBeat_one p h, writeReg_plain _ _ _ h5 hc]
  unfold plainWrite
  rw [h.2.2.1, Nat.or_zero]
  rfl

/-- A beat to one register with plain RW fields writes those that it covers (R11, R394). -/
theorem writeBeat_rw {u : State} {b : Beat} {a : Nat} (p : Port) (h : OneReg u b a) (hc : counterAt u a = none)
    (hm : beatMask u b a &&& rwMask u a ≠ 0) : writeBeat u p b = regSet u a (rwWritten u b a) := by
  rw [writeBeat_fields p h (fun h => hm (by rw [h, Nat.and_zero])) hc]
  exact if_neg hm

/-- No counter of the hub stands in a row of registers that none of its addresses falls in. -/
theorem counterAt_none {s : State} {a lo hi : Nat} (h : (hubCounters.all fun c => decide (c.addr < lo ∨ hi ≤ c.addr)) = true)
    (h1 : lo ≤ a) (h2 : a < hi) (h3 : a < 0x1000000) : counterAt s a = none := by
  unfold counterAt
  have : hubCounters.find? (·.addr == a) = none := by
    rw [List.find?_eq_none]
    intro c hc
    have := List.all_eq_true.mp h c hc
    simp only [decide_eq_true_eq, beq_iff_eq] at this ⊢
    omega
  rw [this]
  exact if_neg (by omega)

/-- The first register of a reduction group takes a write by the rule of its group alone (R235). -/
theorem writeReg_group {s : State} {g : Nat} (p : Port) (v m : Nat) (hg : g < 256) (ho : openLock s (grpAddr g) = 0) :
    writeReg s p (grpAddr g) v m = grpWrite s g 0 (mergeBits (regGet s (grpAddr g)).toNat v m) := by
  have ea : grpAddr g = 0x910000 + 0x20 * g := rfl
  generalize grpAddr g = a at ea ho ⊢
  have hc : counterAt s a = none := counterAt_none (lo := 0x910000) (hi := 0x920000) (by decide +kernel) (by omega) (by omega) (by omega)
  have row : ∀ base stride n, (base ≤ a ∧ a < base + stride * n ∧ (a - base) % stride = 0 → False) →
      ¬ (inRow a base stride n = true) := by
    intro base stride n hn hx
    simp only [inRow, Bool.and_eq_true, decide_eq_true_eq, beq_iff_eq] at hx
    exact hn ⟨hx.1.1, hx.1.2, hx.2⟩
  have r0 := row 0x1000008 0x10000 (agentCount s) (by omega)
  have r1 := row 0x400 0x20 16 (by omega)
  have r2 := row 0x408 0x20 16 (by omega)
  have r3 := row 0x410 0x20 16 (by omega)
  have r4 := row 0x502000 32 16 (by omega)
  have r5 := row 0x502008 32 16 (by omega)
  have r6 := row 0x810000 8 4096 (by omega)
  have r7 : inRow a 0x910000 8 1024 = true := by
    simp only [inRow, Bool.and_eq_true, decide_eq_true_eq, beq_iff_eq]
    omega
  have k0 : ∀ k ∈ [0x610, 0x300000, 0xc00030, 0xd00018, 0xe00020], a ≠ k := by
    intro k hk
    simp only [List.mem_cons, List.not_mem_nil, or_false] at hk
    omega
  have hw : w1cWrite s a (v &&& m) = s := by
    unfold w1cWrite
    simp only [k0 0x610 (by simp), k0 0x300000 (by simp), k0 0xc00030 (by simp), k0 0xd00018 (by simp),
      k0 0xe00020 (by simp), r0, if_false]
    rfl
  have hr : rwMask s a = 0 := by
    refine Classical.byContradiction fun h => ?_
    have := rwMask_place h
    omega
  have hp : plainWrite s a v m = s := by
    unfold plainWrite
    rw [hr, ho]
    simp
  unfold writeReg
  rw [hc]
  simp only [hw, r1, r2, r3, r4, r5, r6, r7, hp, or_self, Bool.false_eq_true, if_false, if_true]
  rw [show (a - 0x910000) / 0x20 = g by omega, show (a - 0x910000) % 0x20 / 8 = 0 by omega]

/-- A field of a port's configuration written beside EN: one write of the register (R394). -/
theorem portWrite_one {u : State} {b : Beat} {k : Nat} (p : Port) (hk : k < 8) (h : OneReg u b (portCfg k)) :
    portWrite u p k b = regSetFld (regSet u (portCfg k) (rwWritten u b (portCfg k))) (portCfg k) 0 0 (b2n (bitOf b.data 0)) := by
  have ea : portCfg k = 0xb00100 + 0x20 * k := rfl
  unfold portWrite
  rw [← ea]
  generalize portCfg k = a at ea h ⊢
  have hc : counterAt u a = none := counterAt_none (lo := 0xb00100) (hi := 0xb00200) (by decide +kernel) (by omega) (by omega) (by omega)
  have h7 : inRow a 0xb00100 0x20 8 = true := by
    simp only [inRow, Bool.and_eq_true, decide_eq_true_eq, beq_iff_eq]
    omega
  have hm : rwMask u a ≠ 0 := by
    unfold rwMask
    rw [h7]
    rw [if_neg (by omega), if_neg (by omega), if_neg (by omega), if_neg (by omega), if_neg (by omega), if_neg (by omega),
      if_neg (by omega), if_neg (by omega), if_neg (by omega), if_pos rfl]
    decide
  rw [writeBeat_fields p h hm hc]
  split
  · rename_i h0
    have : rwWritten u b a = regGet u a := by
      unfold rwWritten
      rw [h0, mergeBits_none]
      exact BitVec.ofNat_toNat ..|>.trans (BitVec.setWidth_eq _)
    rw [this]
    unfold regSetFld regSet
    simp only [Tab.look_put_same, Tab.put_put_same]
    rfl
  · rfl

/-- A beat to one counter gives it the bytes that it covers (R371). -/
theorem writeBeat_counter {u : State} {b : Beat} {a : Nat} {c : Ctr} (p : Port) (h : OneReg u b a)
    (hc : counterAt u a = some c) : writeBeat u p b =
      regSet u a (BitVec.ofNat 64 (mergeBits (regGet u a).toNat (beatVal u b a) (beatMask u b a) % 2 ^ c.bits)) := by
  rw [writeBeat_one p h]
  unfold writeReg
  rw [hc]

end Sys2Proof.Machine
end

