-- ==== Sys2Proof/Laws/Keeps.lean ====
section
/-!
SUPPORT. The shared operations that leave what waits alone: the faults that FLT has not taken, operations that wait for a
credit, partners' requests that are held, the waiting commands and N. A chain of them is a command's whole effect in a calm
state.
-/

namespace Sys2Proof.Machine

open Sys2Proof

/-- From `s` to `t` nothing that waits changes. -/
def Keeps (s t : State) : Prop :=
  t.flt.raised = s.flt.raised ∧ t.held = s.held ∧ t.fab.served = s.fab.served ∧ t.pending = s.pending ∧
    t.agents = s.agents ∧ t.tly.wait = s.tly.wait ∧ t.tly.intake = s.tly.intake

theorem Keeps.refl (s : State) : Keeps s s := ⟨rfl, rfl, rfl, rfl, rfl, rfl, rfl⟩

theorem Keeps.trans {s t v : State} (h : Keeps s t) (k : Keeps t v) : Keeps s v :=
  ⟨k.1.trans h.1, k.2.1.trans h.2.1, k.2.2.1.trans h.2.2.1, k.2.2.2.1.trans h.2.2.2.1,
    k.2.2.2.2.1.trans h.2.2.2.2.1, k.2.2.2.2.2.1.trans h.2.2.2.2.2.1, k.2.2.2.2.2.2.trans h.2.2.2.2.2.2⟩

/-- What waits in no way before does not wait after. -/
theorem Keeps.settled {s t : State} (h : Keeps s t) (k : Settled s) : Settled t :=
  ⟨h.1.trans k.1, h.2.1.trans k.2.1, h.2.2.1.trans k.2.2.1, h.2.2.2.2.2.1.trans k.2.2.2.1,
    h.2.2.2.2.2.2.trans k.2.2.2.2⟩

theorem Keeps.ite {s t v : State} {p : Prop} [Decidable p] (h : Keeps s t) (k : Keeps s v) :
    Keeps s (if p then t else v) := by split <;> assumption

/-- A fold of steps that keep it keeps it. -/
theorem Keeps.foldl {α : Type} (l : List α) (f : State → α → State) (s : State) (h : ∀ t x, Keeps t (f t x)) :
    Keeps s (l.foldl f s) := by
  induction l generalizing s with
  | nil => exact .refl s
  | cons x r ih => exact (h s x).trans (ih _)

/-- A command whose effect leads from `u` to `v` and keeps what waits ends in `v`. -/
theorem becomes_keeps (i : Instr) (l : List Touch) (f : State → State) (u v : State)
    (hi : ∀ s, exec i s = .next (act l f s)) (hf : Calm u → f u = v) (hk : Keeps u v) : Becomes i u v :=
  becomes_act i l f u v hi
    (fun hc _ _ => ⟨hf hc, hk.settled hc.2⟩) hk.2.2.2.1 hk.2.2.2.2.1

/-- The same where the effect starts from the empty list of what was sent. -/
theorem becomes_sends (i : Instr) (l : List Touch) (f : State → State) (u v : State)
    (hi : ∀ s, exec i s = .next (act l f s)) (hf : Calm u → u.out = [] → f u = v) (hk : Keeps u v) : Becomes i u v :=
  becomes_act i l f u v hi
    (fun hc ho _ => ⟨hf hc ho, hk.settled hc.2⟩) hk.2.2.2.1 hk.2.2.2.2.1

/-- No injection point is armed in a calm state. -/
theorem calm_inj {u : State} (h : Calm u) (id : Nat) (ok : Nat → Bool) : injArmed u id ok = false := by
  simp only [injArmed, h.1, Bool.false_and]

theorem calm_injPart {u : State} (h : Calm u) (id p : Nat) : injPart u id p = false := by
  simp only [injPart, h.1, Bool.false_and]

theorem keeps_emit (s : State) (o : Out) : Keeps s (emit s o) := .refl s
theorem keeps_emits (s : State) (l : List Out) : Keeps s (emits s l) := .refl s
theorem keeps_freeNat (s : State) : Keeps s (freeNat s).2 := .refl s
theorem keeps_regSet (s : State) (a : Nat) (v : W64) : Keeps s (regSet s a v) := .refl s
theorem keeps_regSetFld (s : State) (a hi lo v : Nat) : Keeps s (regSetFld s a hi lo v) := .refl s
theorem keeps_countN (s : State) (c : Ctr) (n : Nat) : Keeps s (countN s c n) := .refl s
theorem keeps_count (s : State) (c : Ctr) : Keeps s (count s c) := .refl s
theorem keeps_memWrite (s : State) (a : Nat) (b : Bytes) : Keeps s (memWrite s a b) := .refl s
theorem keeps_memSetWord (s : State) (a : Nat) (v : W64) : Keeps s (memSetWord s a v) := .refl s
theorem keeps_setTag (s : State) (a sc b g n : Nat) : Keeps s (setTag s a sc b g n) := .refl s
theorem keeps_pageCount (s : State) (p i n : Nat) : Keeps s (pageCount s p i n) := .refl s
theorem keeps_wordCount (s : State) (q i : Nat) : Keeps s (wordCount s q i) := .refl s
theorem keeps_logRecord (s : State) (t k b : Nat) : Keeps s (logRecord s t k b) := .refl s
theorem keeps_updQ (s : State) (q : Nat) (f : Queue → Queue) : Keeps s (updQ s q f) := .refl s
theorem keeps_stopQueue (s : State) (q : Nat) (r : StopReason) : Keeps s (stopQueue s q r) := .refl s
theorem keeps_startFront (s : State) (q : Nat) (c : Cmd) : Keeps s (startFront s q c) := .refl s
theorem keeps_endTurn (s : State) : Keeps s (endTurn s) := .refl s
theorem keeps_injFire (s : State) : Keeps s (injFire s) := .refl s

theorem keeps_touch (s : State) (p a n : Nat) : Keeps s (touch s p a n) := by
  unfold touch; split <;> exact .refl s

theorem keeps_progress (s : State) (q : Nat) : Keeps s (progress s q) := by
  unfold progress; split <;> exact .refl s

theorem keeps_leaveTurn (s : State) (q : Nat) : Keeps s (leaveTurn s q) := by
  unfold leaveTurn; split <;> exact .refl s

theorem keeps_pickFresh (s : State) (used : Nat → Bool) (n : Nat) : Keeps s (pickFresh s used n).2 := by
  exact .refl s

theorem keeps_trPlace (s : State) (r : TrRec) : Keeps s (trPlace s r) := by
  unfold trPlace
  split
  · exact .refl s
  · split
    · exact .refl s
    · simp only; split <;> exact .refl s

theorem keeps_trRecord (s : State) (r : TrRec) : Keeps s (trRecord s r) := by
  unfold trRecord; split
  · exact keeps_trPlace s r
  · exact .refl s

theorem keeps_detReport (s : State) (p k o n src : Nat) : Keeps s (detReport s p k o n src) := by
  unfold detReport
  simp only
  refine .trans ?_ (keeps_trRecord _ _)
  refine .trans ?_ (keeps_pageCount _ _ _ _)
  split <;> exact .refl s

theorem keeps_nodeRecordWritten (s : State) (q seq n : Nat) (g : BitVec 16) : Keeps s (nodeRecordWritten s q seq n g) := by
  unfold nodeRecordWritten; simp only; split <;> exact .refl s

/-- A completion record of a queue none of whose records is spilled. -/
theorem keeps_produceRecord (s : State) (q : Nat) (r : CplRec) (irq node : Bool) (seq : Nat)
    (h : s.hif.spill.any (·.q == q) = false) : Keeps s (produceRecord s q r irq node seq) := by
  have key : ∀ t : State, t.hif = s.hif → Keeps s t → ∀ (i : CplItem) (o : Out) (w : State),
      Keeps s (if t.hif.spill.any (·.q == q) then w
        else if t.hif.stopped then { t with hif.waiting := t.hif.waiting ++ [i] }
        else emit { t with hif.flight := t.hif.flight ++ [i] } o) := by
    intro t ht hk i o w
    rw [ht, h]
    simp only [Bool.false_eq_true, if_false]
    split <;> exact hk
  unfold produceRecord
  simp only
  apply key
  · split <;> split <;> rfl
  · split <;> split <;> exact .refl s

/-- A command completes whose queue has no spilled record. -/
theorem keeps_complete (s : State) (q : Nat) (c : Cmd) (st d : Nat) (h : s.hif.spill.any (·.q == q) = false) :
    Keeps s (complete s q c st d) := by
  unfold complete
  simp only
  split
  · exact .trans (keeps_updQ _ _ _) (keeps_produceRecord _ _ _ _ _ _ h)
  · exact .refl s

theorem keeps_refuse (s : State) (q : Nat) (c : Cmd) (st d : Nat) (h : s.hif.spill.any (·.q == q) = false) :
    Keeps s (refuse s q c st d) := keeps_complete _ q c st d h

theorem keeps_acquireCheck (s : State) (tag sc a n : Nat) : Keeps s (acquireCheck s tag sc a n) := by
  unfold acquireCheck
  simp only
  split
  · exact .refl s
  · split <;> split <;> exact .refl s

end Sys2Proof.Machine
end

