-- ==== Sys2Proof/Laws/Queue.lean ====
section
/-!
SUPPORT. Commands of a queue: what starting and completing one leaves of the commands fetched, and a command alone at the
front of its queue.
-/

namespace Sys2Proof.Machine

open Sys2Proof

@[simp] theorem queue_emit (s : State) (o : Out) (q : Nat) : queue (emit s o) q = queue s q := rfl
@[simp] theorem queue_count (s : State) (c : Ctr) (q : Nat) : queue (count s c) q = queue s q := rfl

@[simp] theorem queue_updQ_same (s : State) (q : Nat) (f : Queue → Queue) : queue (updQ s q f) q = f (queue s q) :=
  Tab.look_upd_same s.queues q f

theorem start_fetched (u : State) (q op : Nat) (c : Cmd) (h : Alone u q op c) :
    (queue (startFront u q c) q).fetched = [] := by
  unfold startFront
  rw [queue_updQ_same, h.2.1]
  rfl

theorem produce_fetched (s : State) (q : Nat) (r : CplRec) (irq node : Bool) (seq : Nat)
    (h : s.hif.spill.any (·.q == q) = false) :
    (queue (produceRecord s q r irq node seq) q).fetched = (queue s q).fetched := by
  have key : ∀ t : State, t.hif = s.hif → (queue t q).fetched = (queue s q).fetched →
      ∀ (i : CplItem) (o : Out) (w : State),
      (queue (if t.hif.spill.any (·.q == q) then w
        else if t.hif.stopped then { t with hif.waiting := t.hif.waiting ++ [i] }
        else emit { t with hif.flight := t.hif.flight ++ [i] } o) q).fetched = (queue s q).fetched := by
    intro t ht hk i o w
    rw [ht, h]
    simp only [Bool.false_eq_true, if_false]
    split <;> exact hk
  unfold produceRecord
  simp only
  apply key
  · split <;> split <;> rfl
  · split <;> split <;> simp [queue, updQ, wordCount, pageCount]

/-- Completing a command leaves the queue's fetched commands as they are. -/
theorem complete_fetched (s : State) (q : Nat) (c : Cmd) (st d : Nat) (h : s.hif.spill.any (·.q == q) = false) :
    (queue (complete s q c st d) q).fetched = (queue s q).fetched := by
  unfold complete
  simp only
  split
  · refine (produce_fetched (updQ s q _) q _ _ _ _ h).trans ?_
    rw [queue_updQ_same]
    rfl
  · rw [queue_updQ_same, queue_updQ_same]
    rfl

/-- With nothing fetched, there is no further command to test. -/
theorem settleQ_empty (s : State) (q : Nat) (h : (queue s q).fetched = []) : settleQ s q = leaveTurn s q := by
  unfold settleQ settle
  simp only [h]

/-- A command alone at the front of its queue has its effect, and the queue's turn ends if it has no more to fetch. -/
theorem run_alone (u : State) (q op : Nat) (c : Cmd) (f : State → Cmd → State) (h : Alone u q op c)
    (hf : (queue (f (startFront u q c) c) q).fetched = []) :
    runCmd u q op f = leaveTurn (f (startFront u q c) c) q := by
  unfold runCmd
  rw [h.1]
  exact settleQ_empty _ q hf

theorem keeps_alone {u : State} {q op : Nat} {c : Cmd} (h : Alone u q op c) (st d : Nat) :
    Keeps u (leaveTurn (complete (startFront u q c) q c st d) q) :=
  ((keeps_startFront u q c).trans (keeps_complete _ q c st d h.2.2)).trans (keeps_leaveTurn _ q)

/-- A command alone at the front of its queue, whose effect leads to `v` and keeps what waits. -/
theorem becomes_alone {i : Instr} {l : List Touch} {u v : State} {q op : Nat} {c : Cmd} {f : State → Cmd → State}
    (hi : ∀ s, exec i s = .next (act l (fun s => runCmd s q op f) s)) (h : Alone u q op c)
    (hf : Calm u → f (startFront u q c) c = v) (hk : Keeps u v ∧ (queue v q).fetched = []) :
    Becomes i u (leaveTurn v q) :=
  becomes_keeps i l _ u _ hi
    (fun hc => by rw [run_alone u q op c f h (by rw [hf hc]; exact hk.2), hf hc])
    (hk.1.trans (keeps_leaveTurn v q))

/-- Completing the command after operations that keep what waits and the queue's fetched commands. -/
theorem alone_complete {u v : State} {q op : Nat} {c d : Cmd} (h : Alone u q op c) (hk : Keeps u v)
    (hs : v.hif.spill = u.hif.spill) (hq : (queue v q).fetched = (queue (startFront u q c) q).fetched) (st dt : Nat) :
    Keeps u (complete v q d st dt) ∧ (queue (complete v q d st dt) q).fetched = [] := by
  have hv : v.hif.spill.any (·.q == q) = false := by rw [hs]; exact h.2.2
  exact ⟨hk.trans (keeps_complete v q d st dt hv),
    (complete_fetched v q d st dt hv).trans (hq.trans (start_fetched u q op c h))⟩

end Sys2Proof.Machine
end

