-- ==== Sys2Proof/Laws/Commands.lean ====
section
/-!
SUPPORT. The front command of a queue, and the authenticator's check of a critical one.
-/

namespace Sys2Proof.Machine

open Sys2Proof

/-! ### The front command -/

theorem frontCmd_op {u : State} {q op : Nat} {c : Cmd} (h : frontCmd u q op = some c) : c.op = op := by
  unfold frontCmd at h
  split at h
  · split at h
    · rename_i g; simp at g; cases h; exact g.1.2
    · cases h
  · cases h

theorem authenticate_calm {u : State} (hc : Calm u) {q : Nat} {c : Cmd} {w : State} (hw : w = startFront u q c) :
   autCheck w q c = 
    if (keySlot w (extSlot c)).st ≠ .valid ∨ (c.op = 0xC1 ∧ extSlot c ≠ 0) ∨ authTag (keySlot w
        (extSlot c)).key c ≠ extTag c then authFail w q c
  else if extCounter c ≤ (keySlot w (extSlot c)).last.toNat then
    refuse { count w .autReplay with hif.irqStat := w.hif.irqStat ||| 2 } q c 0x13 0
  else if (keySlot w (extSlot c)).logged / 65536 < extCounter c / 65536 then holdFor
      (logRecord { w with aut.slots := w.aut.slots.upd (extSlot c) fun k => { k with last := BitVec.ofNat 64 (extCounter c) } } 1 (extSlot c) (extCounter c)) q c (extSlot c) false
    else runCritical { w with aut.slots := w.aut.slots.upd (extSlot c) fun k => { k with last := BitVec.ofNat 64 (extCounter c) } } q c := by
    unfold autCheck
    have : sramInject w (3, some (extSlot c)) = w := sramInject_idle w _ (by rw [hw]; exact hc.1)
    simp only [this]

theorem run_passed {u : State} (hc : Calm u) {q op : Nat} {c : Cmd} {w v : State} (hw : w = startFront u q c) (h :
    Passed w q c v) (hf : frontCmd u q op = some c) :
   startCritical u q op = settleQ (if c.op = 0xC0 then doPartitionSet v q c
    else if c.op = 0xC1 then doKeySet v q c
    else if c.op = 0xC2 then doRknLoad v q c
    else if c.op = 0xC3 then doRknQuiesce v q c
    else if c.op = 0xC4 then doLockedWrite v q c
    else doDebugUnlock v q c) q := by
  obtain ⟨h1,h2,h3,h4,h5,h6,h7⟩ := h
  have ha := authenticate_calm hc hw (q := q) (c := c)
  have g1 : ¬ ((keySlot w (extSlot c)).st ≠ .valid ∨ (c.op = 0xC1 ∧ extSlot c ≠ 0) ∨ authTag (keySlot w (extSlot c)).key c ≠ extTag c) := by
    rintro (g | ⟨g1,g2⟩ | g)
    · exact g h1
    · exact g2 (h2 g1)
    · exact g h3
  rw [if_neg g1, if_neg (Nat.not_le.mpr h4), if_neg (Nat.not_lt.mpr h5), ← h6] at ha
  have hr : runCritical v q c = if c.op = 0xC0 then doPartitionSet v q c
    else if c.op = 0xC1 then doKeySet v q c
    else if c.op = 0xC2 then doRknLoad v q c
    else if c.op = 0xC3 then doRknQuiesce v q c
    else if c.op = 0xC4 then doLockedWrite v q c
    else doDebugUnlock v q c := by
    unfold runCritical; rw [h7]
  unfold startCritical runCmd
  rw [hf]
  show settleQ (autCheck (startFront u q c) q c) q = _
  rw [← hw, ha, hr]

end Sys2Proof.Machine
end

