-- ==== Sys2Proof/Laws/Crypto.lean ====
section
/-!
SUPPORT. The substitution table of AES is what the standard defines it to be: the affine map of the inverse in its field.
-/

namespace Sys2Proof

/-- `x` times itself `n` times over in the field of AES: `x` to the power 2ⁿ. -/
def gfSquares : Nat → Nat → Nat
  | 0, x => x
  | n + 1, x => gfSquares n (gfMul x x)

/-- The inverse in the field of AES, `x` to the power 254; 0 for 0. -/
def gfInv (x : Nat) : Nat := ((List.range 7).map fun n => gfSquares (n + 1) x).foldl gfMul 1

/-- The affine map of FIPS 197 on one byte. -/
def aesAffine (b : Nat) : Nat :=
  ((List.range 5).map fun k => (b * 2 ^ k + b * 2 ^ k / 256) % 256).foldl (· ^^^ ·) 0x63

theorem aesSub_eq_affine : ∀ x, x < 256 → aesSub x = aesAffine (gfInv x) := by decide +kernel

theorem aesSubInv_aesSub : ∀ x, x < 256 → aesSubInv (aesSub x) = x := by decide +kernel

end Sys2Proof
end

