-- ==== Sys2Proof/Laws/Memory.lean ====
section
/-!
SUPPORT. Laws of the Slate's bytes: every memory operation keeps the canonical form, a read after a write to the same
place gives what was written, and a write leaves every other byte alone.
-/

namespace Sys2Proof.Machine

open Sys2Proof

theorem memPut_wf (m : Tab Byte) (a : Nat) (b : Bytes) (h : Memory.wf m = true) : Memory.wf (memPut m a b) = true := by
  induction b generalizing m a with
  | nil => exact h
  | cons x r ih => exact ih _ _ (Tab.canon_put m a x h)

/-- Bytes outside the written range keep their contents. -/
theorem memPut_other (m : Tab Byte) (a j : Nat) (b : Bytes) (h : Memory.wf m = true) (hj : j < a ∨ a + b.length ≤ j) :
    (memPut m a b).look j = m.look j := by
  induction b generalizing m a with
  | nil => rfl
  | cons x r ih =>
    simp only [List.length_cons] at hj
    unfold memPut
    rw [ih _ _ (Tab.canon_put m a x h) (by omega), Tab.look_put_ne m a j x h (by omega)]

/-- Byte `i` of a write reads back at its place. -/
theorem memPut_same (m : Tab Byte) (a i : Nat) (b : Bytes) (h : Memory.wf m = true) (hi : i < b.length) :
    (memPut m a b).look (a + i) = b[i] := by
  induction b generalizing m a i with
  | nil => exact absurd hi (Nat.not_lt_zero i)
  | cons x r ih =>
    unfold memPut
    cases i with
    | zero =>
      rw [memPut_other _ _ _ _ (Tab.canon_put m a x h) (by omega)]
      exact Tab.look_put_same m a x
    | succ k =>
      have hk : k < r.length := by simpa using hi
      have e : a + (k + 1) = (a + 1) + k := by omega
      rw [e, ih _ _ _ (Tab.canon_put m a x h) hk]
      rfl

theorem memWrite_wf (s : State) (a : Nat) (b : Bytes) (h : Memory.wf s.mem = true) :
    Memory.wf (memWrite s a b).mem = true := memPut_wf s.mem a b h

theorem memSetWord_wf (s : State) (a : Nat) (v : W64) (h : Memory.wf s.mem = true) :
    Memory.wf (memSetWord s a v).mem = true := memPut_wf s.mem a _ h

theorem memByte_memWrite_other (s : State) (a j : Nat) (b : Bytes) (h : Memory.wf s.mem = true)
    (hj : j < a ∨ a + b.length ≤ j) : memByte (memWrite s a b) j = memByte s j := memPut_other s.mem a j b h hj

theorem reset_mem_wf : Memory.wf State.reset.mem = true := rfl

theorem leBytes_length (n x : Nat) : (leBytes n x).length = n := by
  induction n generalizing x with
  | zero => rfl
  | succ n ih => simp [leBytes, ih]

theorem memRead_length (s : State) (a n : Nat) : (memRead s a n).length = n := by
  induction n generalizing a with
  | zero => rfl
  | succ n ih => simp [memRead, ih]

/-- A word stored leaves the bytes outside its eight alone. -/
theorem memByte_memSetWord_other (s : State) (a j : Nat) (v : W64) (h : Memory.wf s.mem = true)
    (hj : j < a ∨ a + 8 ≤ j) : memByte (memSetWord s a v) j = memByte s j :=
  memByte_memWrite_other s a j _ h (by simpa [leBytes_length] using hj)

/-- A read of exactly the bytes just written gives them. -/
theorem memRead_memWrite (s : State) (a : Nat) (b : Bytes) (h : Memory.wf s.mem = true) :
    memRead (memWrite s a b) a b.length = b := by
  have key : ∀ (n i : Nat), i + n = b.length → memRead (memWrite s a b) (a + i) n = b.drop i := by
    intro n
    induction n with
    | zero => intro i hi; simp [memRead]; omega
    | succ n ih =>
      intro i hi
      have hlt : i < b.length := by omega
      have e : a + i + 1 = a + (i + 1) := by omega
      unfold memRead
      rw [e, ih (i + 1) (by omega), List.drop_eq_getElem_cons hlt]
      congr 1
      exact memPut_same s.mem a i b h hlt
  simpa using key b.length 0 (by omega)

/-- A write of less than a block changes nothing but memory, which it leaves in canonical form and alone outside the bytes
written, whether a bad block rejects it or not. -/
theorem writeBlock_part (s : State) (a : Nat) (b : Bytes) (hb : b.length ≠ 256) : ∃ m, (writeBlock s a b).1 = { s with mem := m } ∧
    (Memory.wf s.mem = true → Memory.wf m = true ∧ ∀ j, (j < a ∨ a + b.length ≤ j) → m.look j = s.mem.look j) := by
  unfold writeBlock
  simp only [hb, if_false]
  split
  · exact ⟨s.mem, rfl, fun h => ⟨h, fun _ _ => rfl⟩⟩
  · exact ⟨_, rfl, fun h => ⟨memPut_wf _ _ _ h, fun j hj => memPut_other _ _ _ _ h hj⟩⟩

/-- The same of a write that may reach over a block's end. -/
theorem writeAt_part (s : State) (a : Nat) (b : Bytes) (hb : b.length < 256) : ∃ m, (writeAt s a b).1 = { s with mem := m } ∧
    (Memory.wf s.mem = true → Memory.wf m = true ∧ ∀ j, (j < a ∨ a + b.length ≤ j) → m.look j = s.mem.look j) := by
  have key : ∀ (n : Nat) (s : State) (a : Nat) (b : Bytes), b.length < 256 → ∃ m, (writeBlocks n s a b).1 = { s with mem := m } ∧
      (Memory.wf s.mem = true → Memory.wf m = true ∧ ∀ j, (j < a ∨ a + b.length ≤ j) → m.look j = s.mem.look j) := by
    intro n
    induction n with
    | zero => intro s a b _; exact ⟨s.mem, rfl, fun h => ⟨h, fun _ _ => rfl⟩⟩
    | succ n ih =>
      intro s a b hb
      unfold writeBlocks
      split
      · exact ⟨s.mem, rfl, fun h => ⟨h, fun _ _ => rfl⟩⟩
      · have hl : (b.take (256 - a % 256)).length ≤ b.length := by rw [List.length_take]; omega
        obtain ⟨m, h1, h2⟩ := writeBlock_part s a (b.take (256 - a % 256)) (by omega)
        have hd : (b.drop (256 - a % 256)).length < 256 := by rw [List.length_drop]; omega
        obtain ⟨m', h3, h4⟩ := ih (writeBlock s a (b.take (256 - a % 256))).1 (a + (256 - a % 256)) (b.drop (256 - a % 256)) hd
        refine ⟨m', ?_, ?_⟩
        · exact h3.trans (by rw [h1])
        · intro h
          obtain ⟨w1, o1⟩ := h2 h
          obtain ⟨w2, o2⟩ := h4 (by rw [h1]; exact w1)
          refine ⟨w2, fun j hj => ?_⟩
          rw [o2 j (by rw [List.length_drop]; omega)]
          have : (writeBlock s a (b.take (256 - a % 256))).1.mem = m := by rw [h1]
          rw [this]
          exact o1 j (by rw [List.length_take]; omega)
  unfold writeAt
  split
  · exact key _ _ _ _ hb
  · exact ⟨_, rfl, fun h => ⟨memPut_wf _ _ _ h, fun j hj => memPut_other _ _ _ _ h hj⟩⟩

/-- Zeroing a range keeps the canonical form. -/
theorem zeroMem_wf (s : State) (a n : Nat) (h : Memory.wf s.mem = true) : Memory.wf (zeroMem s a n).mem = true :=
  Tab.canonFrom_filter s.mem 0 (fun k => decide (k < a ∨ a + n ≤ k)) h

/-- A zeroed range reads as zero. -/
theorem memByte_zeroMem (s : State) (a n j : Nat) (hj : a ≤ j ∧ j < a + n) : memByte (zeroMem s a n) j = 0 :=
  Tab.look_filter_out s.mem (fun k => decide (k < a ∨ a + n ≤ k)) j (by simp; omega)

/-- Zeroing a range leaves every byte outside it alone. -/
theorem memByte_zeroMem_other (s : State) (a n j : Nat) (h : Memory.wf s.mem = true) (hj : j < a ∨ a + n ≤ j) :
    memByte (zeroMem s a n) j = memByte s j :=
  Tab.look_filter_in s.mem 0 h (fun k => decide (k < a ∨ a + n ≤ k)) j (by simpa using hj)

end Sys2Proof.Machine
end

