-- ==== Sys2Proof/Laws/Units.lean ====
section
/-!
SUPPORT. What single operations of the units do to the rest of the state: most leave alone what a command's end looks at, and the
others have one form.
-/

namespace Sys2Proof.Machine

open Sys2Proof

/-! ### Flag words -/

theorem partRange_in {u : State} (hc : Calm u) {p o n : Nat} (h : inData u p o n = true) : partRange u p o n = none := by
  unfold partRange
  rw [calm_injPart hc]
  simp [h]

theorem badRange_none {u : State} (hc : Calm u) (a n : Nat) (h : (u.slt.vaults.any fun e => !e.2.bad.isEmpty) = false) :
    badRange u a n = none := by
  unfold badRange
  rw [h, calm_inj hc]
  rfl

theorem queue_acquireCheck (s : State) (t sc a n q : Nat) : queue (acquireCheck s t sc a n) q = queue s q := by
  unfold acquireCheck
  simp only []
  repeat' split
  all_goals rfl

/-- A FLAG_SET writes the word of its command with the tag of its release (R46, R277, R280). -/
theorem flagWrite_here {u : State} (hc : Calm u) {q : Nat} {c : Cmd} {a : Nat} (h : FlagWord u q c a) :
    flagWrite u q c = complete (setTag (memWrite u a (leBytes 8 (c.fld 0x10 0 64))) a (c.fld 0x18 0 2) (blockId u) 0 31) q c 0 0 := by
  obtain ⟨h1, h2, h3, h4, h5⟩ := h
  subst h2
  unfold flagWrite flagHere
  simp only [h1, beq_self_eq_true, if_true, h4, Bool.false_eq_true, if_false, partRange_in hc h3, writeAt, h5]
  rfl

/-- A flag word is read by an acquire of its command's scope (R280). -/
theorem flagRead_here {u : State} (hc : Calm u) {q : Nat} {c : Cmd} {a : Nat} (h : FlagWord u q c a) :
    flagRead u q c = (some (memWord u a).toNat, acquireCheck u (tagWord u a) (c.fld 0x18 0 2) 0 31) := by
  obtain ⟨_, h2, h3, _, h5⟩ := h
  subst h2
  unfold flagRead
  simp only [partRange_in hc h3, badRange_none hc _ _ h5]

/-! ### Beam packets, TLY's intake and lanes -/

/-- A packet that may arrive takes effect without it on the Beam. -/
theorem arrives_lands {is : Out → Bool} {u w : State} (h : Lands is u w) (f : State → State) : arrives u true is f = f w := by
  unfold Lands at h
  unfold arrives
  cases hb : takeFirst is u.beam with
  | none =>
    rw [hb] at h
    simp only [Bool.not_true, Bool.false_eq_true, if_false]
    rw [h]
  | some p =>
    obtain ⟨o, rest⟩ := p
    rw [hb] at h
    simp only [Bool.not_true, Bool.false_eq_true, if_false, h.1]
    rw [h.2]

/-- A packet that lands changes nothing but the Beam. -/
theorem lands_form {is : Out → Bool} {u w : State} (h : Lands is u w) : ∃ b, w = { u with beam := b } := by
  unfold Lands at h
  split at h
  · exact ⟨u.beam, h⟩
  · exact ⟨_, h.2⟩

theorem intakeOpen_settled {u : State} (hw : u.tly.wait = []) (hi : u.tly.intake = []) (hs : u.tly.stopped = false) (p : Nat) :
    intakeOpen u p = true := by
  unfold intakeOpen intakeCredit hasCredit
  simp [hw, hi, hs]

/-- Where the intake keeps nothing and the table has room, a carry takes its expansion entry at once. -/
theorem tlyOffer_carry {u : State} (hw : u.tly.wait = []) (hi : u.tly.intake = []) (hs : u.tly.stopped = false) (e : ExpEntry)
    (hc : expCredit u (partOr0 u e.node) = true) : tlyOffer u (.carry e) = carried u e := by
  unfold tlyOffer
  rw [intakeOpen_settled hw hi hs, if_pos rfl]
  unfold tlyTake
  refine if_pos ?_
  rw [hc, hi]
  rfl

/-- An activation without a sweep, of a template that no deadline watches (R73). -/
theorem activate_now {u : State} {h : Nat} (hw : u.tly.wait = []) (hi : u.tly.intake = []) (ha : Activates u h) (arg : W64)
    (src : LaunchSrc) : activate u h arg src = activated u h arg src := by
  obtain ⟨h1, h2, h3, h4⟩ := ha
  unfold activate
  simp only [h1, Bool.false_eq_true, if_false]
  unfold dlArm
  have ht : ∀ f : NodeRec → NodeRec, (f (nd u h)).hdr.template = none → ((u.grs.nodes.upd h f).look h).hdr.template = none := by
    intro f hf
    rw [Tab.look_upd_same]
    exact hf
  simp only [nd, updN]
  rw [ht _ h2]
  simp only []
  unfold pushHeader
  refine (tlyOffer_carry (by exact hw) (by exact hi) (by exact h3) _ ?_).trans ?_
  · exact h4
  · simp only [carried, nd, Tab.look_upd_same]
    rfl

@[simp] theorem queue_activated (u : State) (h : Nat) (arg : W64) (src : LaunchSrc) (q : Nat) :
    queue (activated u h arg src) q = queue u q := rfl

/-- A decrement for a lane goes there at once where the intake keeps nothing. -/
theorem tlyOffer_dec {u : State} (hw : u.tly.wait = []) (hi : u.tly.intake = []) (hs : u.tly.stopped = false) (op : LaneOp) :
    tlyOffer u (.dec op) = { u with tly.ops := u.tly.ops ++ [op] } := by
  unfold tlyOffer
  rw [intakeOpen_settled hw hi hs, if_pos rfl]
  rfl

/-- With no item before the intake, the queue from CFE to GRS has its credits. -/
theorem grsCredit_settled {u : State} (hw : u.tly.wait = []) (q : Nat) : grsCredit u q = true := by
  unfold grsCredit signalQueues
  simp only [hw, List.filterMap_nil, List.filter_nil, List.length_nil]
  rfl

/-- What a decrement does to a standalone node that is WAITING (R75, R81, R84). -/
theorem applyDec_standalone {u : State} {n w k : Nat} (h1 : isWork (nd u n).kind = true) (h2 : (nd u n).st = .waiting)
    (h3 : (nd u n).graph = Config.noNode) (hw : w ≤ 0xFFFFFF) :
    applyDec u { node := n, w := w, n := k, src := .notice, also := [] } =
      let s := pageCount (countN (updN u n fun _ => nd u n) .tlyDec k) (partOr0 u n) 3 k
      if w < (nd u n).tally then updN s n fun r => { r with tally := r.tally - w }
      else zeroReached (if (nd u n).tally < w then count s .tlyUnderflow else s) n := by
  have hi : inGraph (nd u n) = false := by simp [inGraph, h3]
  have ha : armed u (nd u n) = nd u n := by simp [armed, hi]
  unfold applyDec
  simp only [LaneOp.parts, staleDec, List.filter, dropDecs, Bool.not_false, hi, Bool.false_and, h1, h2, suppressed, decCount]
  simp only [reduceCtorEq, if_false, List.map_cons, List.map_nil, List.foldl_cons, List.foldl_nil, Nat.zero_add, rootArg,
    List.find?_cons, List.find?_nil, Nat.min_eq_left hw, Bool.not_true, Bool.false_or]
  unfold decArmed
  simp only [if_true, ha]
  have hp : partOr0 (updN u n fun _ => nd u n) n = partOr0 u n := rfl
  simp [h2, decAnswer, hp]

/-- A decrement that a waiting node's tally exceeds is subtracted (R75, R81, R84). -/
theorem applyDec_waits {u : State} {n w k : Nat} (h : WaitsFor u n w) (hw : w ≤ 0xFFFFFF) :
    applyDec u { node := n, w := w, n := k, src := .notice, also := [] } = subtracted u n w k := by
  obtain ⟨h1, h2, h3, h4⟩ := h
  rw [applyDec_standalone h1 h2 h3 hw]
  exact if_pos h4

/-! ### Observability -/

theorem trRecord_off (s : State) (r : TrRec) (h : regBit s 0xe00000 0 = false) : trRecord s r = s := by
  simp [trRecord, h]

theorem keeps_ite_count (s : State) (p : Prop) [Decidable p] (c : Ctr) : Keeps s (if p then count s c else s) :=
    by split <;> exact ⟨rfl,rfl,rfl,rfl,rfl,rfl,rfl⟩

theorem trPlace_form (s : State) (r : TrRec) : ∃ o g, trPlace s r = { s with obs := o, regs := g } := by
  unfold trPlace
  split
  · exact ⟨_, _, rfl⟩
  · split
    · exact ⟨_, _, rfl⟩
    · simp only []; split <;> exact ⟨_, _, rfl⟩

theorem trRecord_form (s : State) (r : TrRec) : ∃ o g, trRecord s r = { s with obs := o, regs := g } := by
  unfold trRecord
  split
  · exact trPlace_form s r
  · exact ⟨s.obs, s.regs, rfl⟩

theorem detReport_form (s : State) (p k o n i : Nat) : ∃ o' g, detReport s p k o n i = { s with obs := o', regs := g } := by
  unfold detReport
  simp only []
  split
  · obtain ⟨o', g, h⟩ := trRecord_form (pageCount _ p 14 1) _; exact ⟨_, _, h⟩
  · obtain ⟨o', g, h⟩ := trRecord_form (pageCount _ p 14 1) _; exact ⟨_, _, h⟩

theorem progress_form (s : State) (q : Nat) : ∃ o f, progress s q = { s with obs := o, flt := f } := by
  unfold progress; split
  · exact ⟨s.obs, s.flt, rfl⟩
  · exact ⟨_, _, rfl⟩

/-! ### Queues, channels and operations -/

@[simp] theorem queue_blocks (s : State) (r a n) (q) : queue (slateBlocks s r a n) q = queue s q :=
    by unfold slateBlocks; split <;> rfl

theorem offer_now {u : State} (hc : Calm u) (o : HeldOp) (h : opCredit u o = true) : opOffer u o = opPerform u o := by
  unfold opOffer; rw [hc.2.2.1, h]; rfl

theorem calm_not_armed {u : State} (hc : Calm u) (id : Nat) (ok) : ¬ (injArmed u id ok = true) :=
    by rw [calm_inj hc]; decide

theorem keeps_updC (s : State) (c : Nat) (f : Chan → Chan) : Keeps s (updC s c f) := .refl s

theorem takeCells_form (s : State) (n : Nat) : ∃ f t, (takeCells s n).2 =
    { s with free := f, chn := { s.chn with taken := t } } := by
  induction n generalizing s with
  | zero => exact ⟨s.free, s.chn.taken, rfl⟩
  | succ n ih =>
    have hp : ∀ u m, ∃ f, (pickFresh s u m).2 = { s with free := f } := by
      intro u m; simp only [pickFresh, freeNat]; repeat' split
      all_goals exact ⟨_, rfl⟩
    unfold takeCells
    obtain ⟨f, hf⟩ := hp (fun k => s.chn.taken.look k) s.chn.cells
    generalize pickFresh s (fun k => s.chn.taken.look k) s.chn.cells = p at hf
    obtain ⟨o, s'⟩ := p
    simp only at hf
    subst hf
    cases o with
    | none => exact ⟨f, s.chn.taken, rfl⟩
    | some k =>
      simp only []
      obtain ⟨f', t', h⟩ := ih { s with free := f, chn.taken := s.chn.taken.put k true }
      refine ⟨f', t', ?_⟩
      exact h

/-- Cells returned to the free list change, in memory, their link entries only. -/
theorem freeCells_form (l : List Nat) (s : State) : ∃ f m, freeCells s l =
    { s with free := f, mem := m, chn.taken := l.foldl (fun t k => t.put k false) s.chn.taken } ∧
    (Memory.wf s.mem = true → Memory.wf m = true ∧
      ∀ j, (∀ k ∈ l, j < linkBase s + 4 * k ∨ linkBase s + 4 * k + 4 ≤ j) → m.look j = s.mem.look j) := by
  have key : ∀ (l : List Nat) (s : State), ∃ f m, l.foldl unlinkCell s = { s with free := f, mem := m } ∧
      (Memory.wf s.mem = true → Memory.wf m = true ∧
        ∀ j, (∀ k ∈ l, j < linkBase s + 4 * k ∨ linkBase s + 4 * k + 4 ≤ j) → m.look j = s.mem.look j) := by
    intro l
    induction l with
    | nil => intro s; exact ⟨s.free, s.mem, rfl, fun h => ⟨h, fun _ _ => rfl⟩⟩
    | cons k r ih =>
      intro s
      have h0 : ∃ f, (freeNat s).2 = { s with free := f } := ⟨_, rfl⟩
      obtain ⟨f, hf⟩ := h0
      have h4 : (leBytes 4 ((freeNat s).1 % 2 ^ 25)).length = 4 := leBytes_length _ _
      obtain ⟨m, h1, h2⟩ := writeAt_part (freeNat s).2 (linkBase (freeNat s).2 + 4 * k) (leBytes 4 ((freeNat s).1 % 2 ^ 25)) (by omega)
      have hu : unlinkCell s k = { s with free := f, mem := m } := by
        show (writeAt (freeNat s).2 (linkBase (freeNat s).2 + 4 * k) (leBytes 4 ((freeNat s).1 % 2 ^ 25))).1 = _
        rw [h1, hf]
      obtain ⟨f', m', h5, h6⟩ := ih { s with free := f, mem := m }
      refine ⟨f', m', ?_, ?_⟩
      · rw [List.foldl_cons, hu, h5]
      · intro h
        obtain ⟨w1, o1⟩ := h2 (by rw [hf]; exact h)
        obtain ⟨w2, o2⟩ := h6 w1
        refine ⟨w2, fun j hj => ?_⟩
        refine (o2 j fun i hi => hj i (List.mem_cons_of_mem _ hi)).trans ?_
        refine (o1 j ?_).trans (by rw [hf])
        rw [h4, hf]
        exact hj k List.mem_cons_self
  obtain ⟨f, m, h1, h2⟩ := key l { s with chn.taken := l.foldl (fun t k => t.put k false) s.chn.taken }
  exact ⟨f, m, h1, h2⟩

theorem orphan_ext (s : State) (f g : Requester → Bool) (h : ∀ w, f w = g w) : orphan s f = orphan s g := by
  rw [show f = g from funext h]

theorem slice_len (b : Bytes) (o n : Nat) : (Bytes.slice b o n).length = n := by
  unfold Bytes.slice; simp only []; simp <;> omega

/-! ### Lists -/

theorem any_false {α : Type} {l : List α} {p : α → Bool} (h : ∀ x ∈ l, p x = false) : l.any p = false := by
  simpa using h

theorem filter_all {α : Type} {l : List α} {p : α → Bool} (h : ∀ x ∈ l, p x = true) : l.filter p = l :=
  List.filter_eq_self.mpr h

theorem filter_none {α : Type} {l : List α} {p : α → Bool} (h : ∀ x ∈ l, p x = false) : l.filter p = [] := by
  simpa [List.filter_eq_nil_iff] using h

/-! ### Slate and fabric -/

theorem keeps_logRepair (s : State) (a b c : Nat) : Keeps s (logRepair s a b c) := by
  unfold logRepair; split <;> exact ⟨rfl,rfl,rfl,rfl,rfl,rfl,rfl⟩

theorem updV_congr (s : State) (v : Nat) (f g : Vault → Vault) (h : f (vault s v) = g (vault s v)) : updV s v f =
    updV s v g := by
  unfold updV Tab.upd
  rw [show f (s.slt.vaults.look v) = g (s.slt.vaults.look v) from h]

theorem keeps_discard (s : State) (k : Nat) : Keeps s (discardFlit s k) := by
  unfold discardFlit; simp only []; split
  · exact .refl _
  · exact ⟨rfl,rfl,rfl,rfl,rfl,rfl,rfl⟩

theorem keeps_linkRetrain (s : State) (k : Nat) : Keeps s (linkRetrain s k) := by
  unfold linkRetrain; split
  · exact ⟨rfl,rfl,rfl,rfl,rfl,rfl,rfl⟩
  · exact .refl _

theorem foldl_same {α β : Type} (l : List α) (f : β → α → β) (b : β) (h : ∀ a ∈ l, f b a = b) : l.foldl f b = b := by
  induction l with
  | nil => rfl
  | cons a r ih =>
    rw [List.foldl_cons, h a List.mem_cons_self]
    exact ih fun x hx => h x (List.mem_cons_of_mem _ hx)

/-- Where nothing waits in FAB, nothing leaves it. -/
theorem fabPump_idle (u : State) (h : FabIdle u) : fabPump u = u := by
  obtain ⟨hp, hq, _, _⟩ := h
  have h1 : ctlAll u = u := by
    unfold ctlAll
    refine foldl_same _ _ _ fun k hk => ?_
    rw [(hp k (List.mem_range.mp hk)).1]
    rfl
  have h2 : transitAll u = u := by
    unfold transitAll
    split
    · rfl
    · refine foldl_same _ _ _ fun k hk => ?_
      exact if_pos (hp k (List.mem_range.mp hk)).2
  unfold fabPump
  rw [h1, h2]
  simp only [hq, List.foldl_nil]
  split
  · rfl
  · rw [← hq]

/-- Where no write waits for a sequence entry, none is tried. -/
theorem seqRetry_none (u : State) (h : u.fab.seqWait = []) : seqRetry u = u := by
  unfold seqRetry
  rw [h, List.foldl_nil, ← h]

/-- Where no request waits for an outstanding entry, none is issued. -/
theorem fabRefill_none (u : State) (h : u.fab.noEntry = []) : fabRefill u = u := by
  unfold fabRefill
  rw [h, List.foldl_nil, ← h]

/-- Where nothing waits in FAB, nothing that it tries again leaves. -/
theorem fabGoesOn_idle (u : State) (h : FabIdle u) : fabPump (fabRefill (seqRetry u)) = u := by
  rw [seqRetry_none u h.2.2.2, fabRefill_none u h.2.2.1, fabPump_idle u h]

/-- Without links and waiting headers, FAB only takes requests again, and its retries run on (R297, R353). -/
theorem fabResume_unlinked (u : State) (h : Unlinked u) : fabResume u =
    { u with fab.stopped := false,
             fab.outst := u.fab.outst.foldUpd fun _ e => e.map fun e => { e with due := e.due.map (u.ts + ·) } } := by
  obtain ⟨hp, hi⟩ := h
  unfold fabResume
  simp only []
  rw [filter_none fun k hk => by
    have := hp k (List.mem_range.mp hk)
    show ((port u k).stopSent && (port u k).st == .up) = false
    simp [this]]
  rw [List.foldl_nil]
  exact fabGoesOn_idle _ hi

theorem agt_updA_same (s : State) (a : Nat) (f : Agent → Agent) : agt (updA s a f) a = f (agt s a) :=
  Tab.look_upd_same s.agt a f

theorem agt_updA_ne (s : State) (a b : Nat) (f : Agent → Agent) (hc : s.agt.canon = true) (h : b ≠ a) :
    agt (updA s a f) b = agt s b := Tab.look_upd_ne s.agt a b f hc h

theorem canon_updA (s : State) (a : Nat) (f : Agent → Agent) (hc : s.agt.canon = true) : (updA s a f).agt.canon = true :=
  Tab.canon_upd s.agt a f hc

/-- A stopped agent with nothing at its input and nothing to send only runs on (R140, R353). -/
theorem agentRuns_idle (s : State) (a : Nat) (hi : (agt s a).inbox = []) (hq : (agt s a).dnQ = []) : agentRuns s a =
    updA s a fun y =>
      { y with stopped := false, rkn.st := if y.rkn.st = .stopped then y.rkn.prior else y.rkn.st } := by
  unfold agentRuns
  simp only [hi, List.foldl_nil]
  rw [agt_updA_same]
  simp only [hq, dnPump, updA, Tab.upd_upd]
  unfold Tab.upd
  simp only [show s.agt.look a = agt s a from rfl, hi, hq]

/-- Stopped agents with nothing at their inputs and nothing to send only run on. -/
theorem agentsRun_idle (l : List Nat) (s : State) (hc : s.agt.canon = true)
    (h : ∀ a, (agt s a).inbox = [] ∧ (agt s a).dnQ = []) : l.foldl agentRuns s =
    { s with agt := l.foldl (fun t a => t.upd a fun y =>
        { y with stopped := false, rkn.st := if y.rkn.st = .stopped then y.rkn.prior else y.rkn.st }) s.agt } := by
  induction l generalizing s with
  | nil => rfl
  | cons a r ih =>
    rw [List.foldl_cons, List.foldl_cons, agentRuns_idle s a (h a).1 (h a).2, ih]
    · rfl
    · exact canon_updA s a _ hc
    · intro b
      by_cases hb : b = a
      · subst hb
        rw [agt_updA_same]
        exact h b
      · rw [agt_updA_ne s a b _ hc hb]
        exact h b

/-- A block in which nothing was held when it stopped goes on with every unit running: deadlines and retries run on from what was
left of them, and a stopped Reckoner takes the state it had (R113, R140, R347, R353). -/
theorem unstop_idle (w : State) (hl : Unlinked w) (hf : w.fab.stopped = true) (hw : w.hif.waiting = []) (hp : w.pdm.stopped = true)
    (hc : w.chn.chans = []) (hr : w.rte.ready = []) (ha : w.agt.canon = true)
    (hi : ∀ a, (agt w a).inbox = [] ∧ (agt w a).dnQ = []) : unstop w =
    { w with
        fab := { w.fab with stopped := false,
                            outst := w.fab.outst.foldUpd fun _ e => e.map fun e => { e with due := e.due.map (w.ts + ·) } },
        hif := { w.hif with stopped := false },
        pdm := { w.pdm with stopped := false, dl := w.pdm.dl.foldUpd fun _ d => if d.armed then { d with at_ := w.ts + d.at_ } else d },
        tly := { w.tly with stopped := false }, dis := { w.dis with stopped := false }, chn := { w.chn with stopped := false },
        bau := { w.bau with stopped := false }, rte := { w.rte with stopped := false }, cmb := { w.cmb with stopped := false },
        slt := { w.slt with stopped := false }, obs := { w.obs with stopped := false },
        flt := { w.flt with stoppedUnits := [] },
        agt := (List.range (agentCount w)).foldl (fun t a => t.upd a fun y =>
          { y with stopped := false, rkn.st := if y.rkn.st = .stopped then y.rkn.prior else y.rkn.st }) w.agt } := by
  unfold unstop
  rw [if_pos hf, fabResume_unlinked w hl]
  simp only [hw, hp, hc, hr, List.map_nil, List.foldl_nil, List.append_nil, if_true, List.length_nil, Nat.zero_add, emits]
  unfold routeReady
  simp only [takeFirst]
  refine (agentsRun_idle _ _ ?_ ?_).trans ?_
  · exact ha
  · exact hi
  · simp only [agentCount]

/-! ### A queue without work -/

/-- Where no launch, node or pending launch is picked, a discard leaves everything as it is. -/
theorem discardAll_none (s : State) (pick : Nat → Header → Bool) (pickN : Nat → NodeRec → Bool) (st : Nat)
    (h : ∀ e ∈ s.grs.nodes, pick e.1 e.2.hdr = false ∧ pickN e.1 e.2 = false) : discardAll s pick pickN st = s := by
  unfold discardAll
  have h1 : (s.grs.nodes.filter fun e => e.2.kind == .graph &&
      (e.2.hdr.lstate == .active || e.2.hdr.lstate == .draining) && pick e.1 e.2.hdr) = [] :=
    filter_none fun e he => by rw [(h e he).1, Bool.and_false]
  have h2 : (s.grs.nodes.filter fun e => nodeInFlight e.2 && pickN e.1 e.2) = [] :=
    filter_none fun e he => by rw [(h e he).2, Bool.and_false]
  have ho : ∀ x : LaunchSrc, (x.main.any fun m => ([] : List Nat).contains m.1 && (nd s m.1).gen == m.2) = false := by
    intro x
    cases x.main <;> rfl
  have h3 : (s.grs.nodes.any fun e => e.2.hdr.pend.any fun p =>
      p.src.main.any fun m => ([] : List Nat).contains m.1 && (nd s m.1).gen == m.2) = false :=
    any_false fun e _ => any_false fun p _ => ho p.src
  have h4 : (s.grs.nodes.filter fun e => e.2.kind == .graph && e.2.hdr.lstate == .active && !([] : List Nat).contains e.1 &&
      e.2.hdr.src.main.any fun m => ([] : List Nat).contains m.1 && (nd s m.1).gen == m.2) = [] :=
    filter_none fun e _ => by rw [ho, Bool.and_false]
  simp only [h1, List.map_nil]
  rw [h3, h4]
  simp only [Bool.false_eq_true, if_false, h2]
  rfl

/-- Discarding a queue without work only turns it off (R49). -/
theorem discardQueue_workless (s : State) (q st : Nat) (h : Workless s q) :
    discardQueue s q st = updQ s q fun k => { k with st := .disabled, reason := .none, pend := false, want := 0,
                                                     found := false } := by
  obtain ⟨hf, hl, ht, h1, h2, h3, h4, h5, h6, h7, h8⟩ := h
  unfold discardQueue
  have e1 : dropTurn s q = s := by unfold dropTurn; rw [if_neg ht]
  have e2 : discardAll s (fun _ h => h.src.q == q) (fun _ r => r.src.q == q) st = s :=
    discardAll_none s _ _ st fun e he => ⟨by simpa using (h7 e he).2.1, by simpa using (h7 e he).1⟩
  have e3 : (s.grs.nodes.any fun e => e.2.hdr.pend.any (·.src.q == q)) = false :=
    any_false fun e he => any_false fun p hp => by simpa using (h7 e he).2.2 p hp
  have e4 : resetChans s (·.queue == q) = s := by
    unfold resetChans
    rw [filter_none fun e he => by simp [h8 e he]]
    rfl
  simp only [e1, e2, e3, e4, Bool.false_eq_true, if_false]
  unfold dropCommands dropLoads dropCodeLoads
  have n1 : s.grs.loads.filter (fun x => x.q == q) = [] := filter_none fun x hx => by simpa using h1 x hx
  have n2 : s.grs.loads.filter (fun x => x.q != q) = s.grs.loads := filter_all fun x hx => by simpa using h1 x hx
  have n3 : s.grs.waits.filter (fun x => x.src.q != q) = s.grs.waits := filter_all fun x hx => by simpa using h2 x hx
  have n4 : s.codeLoads.filter (fun x => x.q == q) = [] := filter_none fun x hx => by simpa using h3 x hx
  have n5 : s.codeLoads.filter (fun x => x.q != q) = s.codeLoads := filter_all fun x hx => by simpa using h3 x hx
  have n6 : s.flt.wait.filter (fun x => x.q != q) = s.flt.wait := filter_all fun x hx => by simpa using h4 x hx
  have n7 : s.flt.walks.filter (fun x => x != q) = s.flt.walks := filter_all fun x hx => by simpa using h5 x hx
  have n8 : s.aut.held.filter (fun x => x.q != q) = s.aut.held := filter_all fun x hx => by simpa using h6 x hx
  have n9 : (queue s q).live.filter (fun l => !l.ended) = [] := filter_none fun l hx => by simp [hl l hx]
  have n10 : (queue s q).live.map (fun l => if l.ended then l else { l with nodes := 0 }) = (queue s q).live := by
    refine (List.map_congr_left fun l hx => ?_).trans (List.map_id _)
    simp [hl l hx]
  simp only [n1, n2, n3, n4, n5, n6, n7, n8, n9, hf, List.foldl_nil, List.map_nil, List.append_nil, Bool.false_eq_true, if_false]
  simp only [updQ, Tab.upd_upd]
  unfold Tab.upd
  simp only [show s.queues.look q = queue s q from rfl, n10, hf]
  rfl

/-! ### Resets, stop and management -/

theorem assertReset_pending (w : State) (k c : Nat) : (assertReset w k c).pending = w.pending ∧
    (assertReset w k c).agents = w.agents := by
  show (cutLost w).pending = _ ∧ (cutLost w).agents = _
  unfold cutLost; split <;> exact ⟨rfl, rfl⟩

theorem keeps_leaveReset (s : State) : Keeps s (leaveReset s) := by
  unfold leaveReset; split
  · exact .refl _
  · split <;> exact ⟨rfl,rfl,rfl,rfl,rfl,rfl,rfl⟩

theorem leave_waits (s : State) : (leaveReset s).flt.raised = s.flt.raised ∧ (leaveReset s).held = s.held ∧
    (leaveReset s).fab.served = s.fab.served :=
  ⟨(keeps_leaveReset s).1, (keeps_leaveReset s).2.1, (keeps_leaveReset s).2.2.1⟩

theorem keeps_stopRequest (s : State) (k : Nat) : Keeps s (stopRequest s k) := by
  unfold stopRequest; split
  · exact ⟨rfl,rfl,rfl,rfl,rfl,rfl,rfl⟩
  · split
    · exact ⟨rfl,rfl,rfl,rfl,rfl,rfl,rfl⟩
    · exact Keeps.trans (keeps_trRecord s _) ⟨rfl,rfl,rfl,rfl,rfl,rfl,rfl⟩

theorem keeps_pmbReads (s : State) (l : List Nat) : Keeps s (pmbReads s l) := by
  unfold pmbReads; exact Keeps.trans (keeps_countN s _ _) (Keeps.foldl _ _ _ (fun _ _ => by simp only []; split <;> exact ⟨rfl,rfl,rfl,rfl,rfl,rfl,rfl⟩))

theorem keeps_mgtRespond (s : State) (b : Bool) (op tag st : Nat) (p : Bytes) : Keeps s (mgtRespond s b op tag st p) := by
  unfold mgtRespond; simp only []; split <;> exact ⟨rfl,rfl,rfl,rfl,rfl,rfl,rfl⟩

theorem keeps_updRespond (s : State) (b : Bool) (op tag st : Nat) (p : Bytes) : Keeps s (updRespond s b op tag st p) := by
  unfold updRespond; exact Keeps.trans ⟨rfl,rfl,rfl,rfl,rfl,rfl,rfl⟩ (keeps_mgtRespond _ b op tag st p)

theorem serve_eq (u : State) (src : MgtIn) (m : Bytes) (op : Nat) (f) (h : mgtRequest u src = some m) (h2 : ∀ t d,
    src = .i3c t d → t = 0x7F)
    (h3 : mgtOps.contains (m.fld 0 0 8) = true) (h4 : zeroBytes m 8 15 = true) (h5 : recovering u = false) (h6 :
        m.fld 0 0 8 = op) :
    mgtServe u src op f = f u m := by
  unfold mgtServe; simp only [h]
  have hb : (!mgtOps.contains (m.fld 0 0 8) || !zeroBytes m 8 15 || (recovering u && !(decide (0x10 ≤ m.fld 0 0 8) && decide (m.fld 0 0 8 ≤ 0x13)))) = false := by
    rw [h3, h4, h5]; rfl
  cases src with
  | mailbox => simp only [Bool.false_eq_true, if_false]; rw [if_neg (by rw [hb]; decide), if_pos h6]
  | i3c t d =>
    have ht := h2 t d rfl
    subst ht
    simp only [show ((127 : Nat) == 0) = false from rfl, show ((127 : Nat) != 127) = false from rfl, Bool.false_eq_true, if_false]
    rw [if_neg (by rw [hb]; decide), if_pos h6]

end Sys2Proof.Machine
end

