-- ==== Sys2Proof/Laws/Dispatcher.lean ====
section
/-!
SUPPORT. One ac of the dispatcher over no bead or over one: which rods are examined, which phase issues the slice, and what an issue
leaves.
-/

namespace Sys2Proof.Machine

open Sys2Proof

/-! ### Phases over no bead -/

theorem keeps_dis (u : State) (d : Dis) : Keeps u { u with dis := d } := ⟨rfl,rfl,rfl,rfl,rfl,rfl,rfl⟩
/-- the one bead's partition -/

theorem examineRod_none (fuel : Nat) (w : AcWork) (p cls pr : Nat) (h : rodHead w.s p cls pr = none) :
    examineRod fuel w p cls pr = (w, false) := by
  cases fuel with
  | zero => rfl
  | succ n => simp [examineRod, h]

theorem examineClasses_none (w : AcWork) (p pr : Nat) (l : List Nat) (h : ∀ cls ∈ l, rodHead w.s p cls pr = none) :
    examineClasses w p pr l = (w, false) := by
  induction l with
  | nil => rfl
  | cons c r ih =>
    unfold examineClasses
    rw [examineRod_none _ _ _ _ _ (h c (by simp))]
    simp only [Bool.false_eq_true, if_false]
    exact ih fun x hx => h x (by simp [hx])

theorem examinePart_none (w : AcWork) (p n : Nat) (h : ∀ pr cls, pr < n → rodHead w.s p cls pr = none) :
    examinePart w p n = (w, false) := by
  induction n with
  | zero => rfl
  | succ n ih =>
    unfold examinePart
    split
    · rfl
    · simp only []
      rw [examineClasses_none _ _ _ _ (fun c _ => h n c (by omega))]
      simp only [Bool.false_eq_true, if_false]
      exact ih fun pr c hp => h pr c (by omega)

theorem rodHead_other (s : State) (b : Bead) (hb : s.dis.beads = [b]) (p cls pr : Nat) (h : ¬ (b.part = p ∧ b.cls =
    cls ∧ b.prio = pr)) : rodHead s p cls pr = none := by
  unfold rodHead; rw [hb]
  rw [List.find?_eq_none]
  intro x hx; simp at hx; subst hx; simp; intro h1 h2 h3; exact h ⟨h1,h2,h3⟩

theorem rodHead_nil (s : State) (hb : s.dis.beads = []) (p cls pr : Nat) : rodHead s p cls pr = none := by
  unfold rodHead; rw [hb]; rfl

theorem shareRound_nil (w : AcWork) (hb : w.s.dis.beads = []) (l : List Nat) : shareRound w l = (w, false) := by
  induction l with
  | nil => rfl
  | cons p r ih =>
    unfold shareRound
    rw [examinePart_none w p 16 (fun pr c _ => rodHead_nil _ hb _ _ _)]
    simp only [Bool.false_eq_true, if_false, ih, ite_self]

theorem spareRound_nil (w : AcWork) (hb : w.s.dis.beads = []) (l : List Nat) : spareRound w l = (w, false) := by
  induction l with
  | nil => rfl
  | cons p r ih =>
    unfold spareRound
    rw [examinePart_none w p 16 (fun pr c _ => rodHead_nil _ hb _ _ _)]
    simp only [Bool.false_eq_true, if_false, ih, ite_self]

theorem rounds_false (f : AcWork → List Nat → AcWork × Bool) (l : List Nat) (n : Nat) (w : AcWork) (h : f w l = (w,
    false)) : rounds f l n w = w := by
  cases n with
  | zero => rfl
  | succ n => unfold rounds; rw [h]; rfl

/-! ### Phases over one bead -/

theorem examineRod_one (fuel : Nat) (w : AcWork) (b : Bead) (a : Nat) (cores : List (Nat × Nat)) (hb : w.s.dis.beads = [b])
    (hi : injPart w.s 0x0601 b.part = false) (h1 : staleBead w.s b = false) (h2 : skipBead w.s b = false) (h3 :
        unplaceable w.s b = false)
    (hsent : w.sent = []) (h4 : choose w.s b (fun _ => false) = .slice a cores)
    (h5 : isLayer b = true ∨ (b.next + sliceBlocks cores = b.blocks ∧ (b.split = true ∨ b.next = 0))) :
    examineRod (fuel + 1) w b.part b.cls b.prio =
        ({ w with s := issueSlice w.s b a cores, slots := w.slots + 1, sent := [(b.node, b.gen, a)] }, true) := by
  have hr : rodHead w.s b.part b.cls b.prio = some b := by unfold rodHead; rw [hb]; simp
  have hs : (!isLayer b && !b.split && (sliceBlocks cores) != b.blocks) = false := by
    rcases h5 with h5 | ⟨h5, h6 | h6⟩
    · simp [h5]
    · simp [h6]
    · rw [h6, Nat.zero_add] at h5; simp [h5]
  unfold examineRod
  simp only [hr, h1, h2, h3, hi, hsent, Bool.false_eq_true, if_false]
  have : (fun a => ([] : List (Nat × BitVec 16 × Nat)).contains (b.node, b.gen, a)) = fun _ => false := by funext; rfl
  rw [this, h4]
  simp only [hs, Bool.false_and, Bool.false_eq_true, if_false]

theorem examineClasses_one (w w' : AcWork) (b : Bead) (hb : w.s.dis.beads = [b]) 
    (hx : ∀ fuel, examineRod (fuel + 1) w b.part b.cls b.prio = (w', true)) (l : List Nat) (hl : b.cls ∈ l) :
    examineClasses w b.part b.prio l = ({ w' with s := { w'.s with dis.clsPtr := w'.s.dis.clsPtr.put (16 * b.part + b.prio) ((b.cls + 1) % 5) } }, true) := by
  induction l with
  | nil => cases hl
  | cons c r ih =>
    unfold examineClasses
    by_cases hc : c = b.cls
    · subst hc; rw [hx]; rfl
    · rw [examineRod_none _ _ _ _ _ (rodHead_other _ b hb _ _ _ (fun h => hc h.2.1.symm))]
      simp only [Bool.false_eq_true, if_false]
      exact ih (by simpa [Ne.symm hc, hc, eq_comm] using hl)

theorem examinePart_one (w w' : AcWork) (b : Bead) (hb : w.s.dis.beads = [b]) (hh : b.held = false) (hcls : b.cls < 5)
    (hx : ∀ fuel, examineRod (fuel + 1) w b.part b.cls b.prio = (w', true)) (n : Nat) (hn : b.prio < n) :
    examinePart w b.part n = ({ w' with s := { w'.s with dis.clsPtr := w'.s.dis.clsPtr.put (16 * b.part + b.prio) ((b.cls + 1) % 5) } }, true) := by
  induction n with
  | zero => omega
  | succ n ih =>
    unfold examinePart
    rw [hb]
    simp only [List.any_cons, List.any_nil, hh, Bool.and_false, Bool.false_and, Bool.or_false, Bool.false_eq_true, if_false]
    by_cases hp : b.prio = n
    · subst hp
      rw [examineClasses_one w w' b hb hx]
      · rfl
      · rw [List.mem_map]
        have : ∀ p c, c < 5 → ∃ a ∈ List.range 5, (p + a) % 5 = c := by
          intro p c hc
          refine ⟨(c + 5 - p % 5) % 5, ?_, ?_⟩
          · rw [List.mem_range]; omega
          · omega
        obtain ⟨i, hi, he⟩ := this (w.s.dis.clsPtr.look (16 * b.part + b.prio)) b.cls hcls
        exact ⟨i, hi, he⟩
    · rw [examineClasses_none _ _ _ _ (fun c _ => rodHead_other _ b hb _ _ _ (fun h => hp h.2.2))]
      simp only [Bool.false_eq_true, if_false]
      exact ih (by omega)

theorem examinePart_off (w : AcWork) (b : Bead) (hb : w.s.dis.beads = [b]) (p : Nat) (hp : p ≠ b.part) :
    examinePart w p 16 = (w, false) :=
  examinePart_none w p 16 fun _ _ _ => rodHead_other _ b hb _ _ _ (fun h => hp h.1.symm)

theorem shareRound_one (w w1 : AcWork) (b : Bead) (hb : w.s.dis.beads = [b]) (hpo : partOpen w.s b.part = true) (hsl :
    slotLeft w = true)
    (hcr : 32 ≤ w.s.dis.credit.look b.part) (hx : examinePart w b.part 16 = (w1, true)) (hb1 : w1.s.dis.beads = [])
        (l : List Nat) (hl : b.part ∈ l) :
    shareRound w l = (spendToken { w1 with s := { w1.s with dis.credit := w1.s.dis.credit.upd b.part (· - 32) } },
        true) := by
  induction l with
  | nil => cases hl
  | cons p r ih =>
    unfold shareRound
    by_cases hp : p = b.part
    · subst hp
      rw [if_pos (by simp [hpo, hsl, hcr]), hx]
      simp only [if_true]
      rw [shareRound_nil]
      exact hb1
    · rw [examinePart_off w b hb p hp]
      simp only [Bool.false_eq_true, if_false, ite_self]
      exact ih (by simpa [Ne.symm hp, hp, eq_comm] using hl)

theorem shareRound_poor (w : AcWork) (b : Bead) (hb : w.s.dis.beads = [b]) (hcr : ¬ 32 ≤ w.s.dis.credit.look b.part)
    (l : List Nat) :
    shareRound w l = (w, false) := by
  induction l with
  | nil => rfl
  | cons p r ih =>
    unfold shareRound
    by_cases hp : p = b.part
    · subst hp
      rw [if_neg (by simp [hcr])]
      exact ih
    · rw [examinePart_off w b hb p hp]
      simp only [Bool.false_eq_true, if_false, ite_self]
      exact ih

theorem spareRound_one (w w1 : AcWork) (b : Bead) (hb : w.s.dis.beads = [b]) (hpo : partOpen w.s b.part = true) (hsl :
    slotLeft w = true)
    (hx : examinePart w b.part 16 = (w1, true)) (hb1 : w1.s.dis.beads = []) (l : List Nat) (hl : b.part ∈ l) :
    spareRound w l = (spendToken w1, true) := by
  induction l with
  | nil => cases hl
  | cons p r ih =>
    unfold spareRound
    by_cases hp : p = b.part
    · subst hp
      rw [if_pos (by simp [hpo, hsl]), hx]
      simp only [if_true]
      rw [spareRound_nil (spendToken w1) (by unfold spendToken; exact hb1)]
    · rw [examinePart_off w b hb p hp]
      simp only [Bool.false_eq_true, if_false, ite_self]
      exact ih (by simpa [Ne.symm hp, hp, eq_comm] using hl)

/-! ### The issue of a slice -/

theorem issue_tail (s : State) (q n1 : Nat) (c : Bool) (p n2 : Nat) (r : TrRec) (l : Out) : emit (trRecord
    (if c then detReport (progress (pageCount (count s .disDispatch) p 1 1) q) p 1 n1 n2 0 else (progress (pageCount
        (count s .disDispatch) p 1 1) q)) r) l
    = emit { s with
        obs := (trRecord
          (if c then detReport (progress (pageCount (count s .disDispatch) p 1 1) q) p 1 n1 n2 0
            else (progress (pageCount (count s .disDispatch) p 1 1) q)) r).obs
        flt := (trRecord
          (if c then detReport (progress (pageCount (count s .disDispatch) p 1 1) q) p 1 n1 n2 0
            else (progress (pageCount (count s .disDispatch) p 1 1) q)) r).flt
        regs := (trRecord
          (if c then detReport (progress (pageCount (count s .disDispatch) p 1 1) q) p 1 n1 n2 0
            else (progress (pageCount (count s .disDispatch) p 1 1) q)) r).regs } l := by
  have : ∀ x y : State, (∃ o f g, x = { y with obs := o, flt := f, regs := g }) → emit x l = emit { y with obs := x.obs, flt := x.flt, regs := x.regs } l := by
    rintro x y ⟨o, f, g, rfl⟩; rfl
  apply this
  obtain ⟨o1, f1, h1⟩ := progress_form (pageCount (count s .disDispatch) p 1 1) q
  rw [h1]
  split
  · obtain ⟨o2, g2, h2⟩ := detReport_form { (pageCount (count s .disDispatch) p 1 1) with obs := o1, flt := f1 } p 1 n1 n2 0
    rw [h2]
    obtain ⟨o3, g3, h3⟩ := trRecord_form { { (pageCount (count s .disDispatch) p 1 1) with obs := o1, flt := f1 } with obs := o2, regs := g2 } r
    rw [h3]
    exact ⟨_, _, _, rfl⟩
  · obtain ⟨o3, g3, h3⟩ := trRecord_form { (pageCount (count s .disDispatch) p 1 1) with obs := o1, flt := f1 } r
    rw [h3]
    exact ⟨_, _, _, rfl⟩

theorem charges (cores : List (Nat × Nat)) (s : State) (a p : Nat) (r : Res) :
    ∃ t, cores.foldl (fun s e => charge s (16 * a + e.1) p (scaleRes e.2 r)) s =
        { s with dis := { s.dis with used := t } } := by
  induction cores generalizing s with
  | nil => exact ⟨s.dis.used, rfl⟩
  | cons e r ih => obtain ⟨t, ht⟩ := ih (charge s (16 * a + e.1) p _); exact ⟨t, ht⟩

theorem issue_form (s : State) (b : Bead) (a : Nat) (cores : List (Nat × Nat)) (whole last : Bool) (n : Nat)
   (hn : n = if isLayer b then b.blocks else sliceBlocks cores) (hw : whole = (isLayer b || (b.next == 0 && n == b.blocks)))
   (hl : last = (isLayer b || b.next + n == b.blocks)) : ∃ o f g u l sl busy, issueSlice s b a cores =
   emit { s with
     obs := o, flt := f, regs := g, 
     grs.nodes := s.grs.nodes.upd b.node fun r => if r.st == .ready then { r with st := .issued } else r,
     dis := { s.dis with
     used := u, slices := sl, rknBusy := busy,
     beads := (if last then s.dis.beads.filter (fun x => !sameBead x b)
         else s.dis.beads.map fun x => if sameBead x b then { b with next := b.next + n, fails := 0, held := false, drain := none, split := !whole } else x),
     running := s.dis.running ++ [{ node := b.node, gen := b.gen, graph := b.graph, part := b.part, cls := b.cls, agent := a, aborted := false }],
     agentPtr := if isPinned s b.part then s.dis.agentPtr else s.dis.agentPtr.put (8 * b.part + b.cls) ((a + 1)
         % agentCount s) } } (.launch a l) 
    ∧ l.node = b.node ∧ l.gen = b.gen ∧ l.firstBlock = (if isLayer b then 0 else b.next) ∧ l.arg = b.arg ∧
      l.kdesc = b.kdesc ∧ l.params = b.params := by
  subst hn; subst hw; subst hl
  unfold issueSlice
  obtain ⟨t, ht⟩ := charges cores s a b.part (needOf b)
  simp only [ht]
  rw [issue_tail]
  refine ⟨_,_,_,_,_,_,_,rfl,?_⟩
  refine ⟨rfl,rfl,rfl,rfl,rfl,rfl⟩

theorem beads_map_nil (w : AcWork) (f : Bead → Bead) (hb : w.s.dis.beads = []) :
    ({ w.s with dis.beads := w.s.dis.beads.map f } : State) = w.s := by
  cases w with | mk s a b c d => 
  cases s with | mk => 
  rename_i x _ _ _ _ _ _ _ _ _ _ _ _ _ _ _ _
  simp only at hb
  simp only [hb, List.map_nil]
  rw [← hb]

theorem dispatch_shape (u s : State) (h1 : u.dis.stopped = false) (h2 : isReady u = true) (hs : s =
    { u with dis := { u.dis with
        credit := (List.range 16).foldl (fun t p => t.upd p fun c => min 256 (c + creditRise u p)) u.dis.credit,
        meter := min 8192 (u.dis.meter + u.mgt.rate), ptr := (u.dis.ptr + 1) % 16 } }) (h3 : u.dis.droop = 0) :
   ∃ f : AcWork → Bead → Bead, dispatchCycle u = (fun w : AcWork => { w.s with dis.beads := w.s.dis.beads.map (f w) })
       (rounds spareRound ((List.range 16).map fun i => (u.dis.ptr + i) % 16) 9 (rounds shareRound
           ((List.range 16).map fun i => (u.dis.ptr + i) % 16)
               9 { s := s, slots := 0, removed := 0, sent := [], failed := [] })) := by
  subst hs
  refine ⟨fun w b => if w.failed.contains (b.node, b.gen) && !(w.sent.any fun x => x.1 == b.node && x.2.1 == b.gen) then { b with fails := b.fails + 1 } else b, ?_⟩
  unfold dispatchCycle
  rw [if_neg (by simp [h1, h2])]
  simp only [h3, Nat.lt_irrefl, if_false]

end Sys2Proof.Machine
end

