-- ==== Sys2Proof/Laws/Reckoner.lean ====
section
/-!
SUPPORT. Operations of the agents and the Reckoner that leave what waits alone, and an instruction that passes its checks.
-/

namespace Sys2Proof.Machine

open Sys2Proof

theorem keeps_updA (s : State) (a : Nat) (f : Agent → Agent) : Keeps s (updA s a f) := .refl s
theorem keeps_updR (s : State) (a : Nat) (f : Rkn → Rkn) : Keeps s (updR s a f) := .refl s

theorem keeps_activity (s : State) (a n : Nat) (g : BitVec 16) : Keeps s (activity s a n g) := by
  unfold activity
  split
  · exact .refl s
  · exact keeps_progress (updA s a _) _

theorem keeps_setS (s : State) (a i : Nat) (v : W64) : Keeps s (setS s a i v) := by
  unfold setS; split <;> exact .refl s

theorem keeps_setPend (s : State) (a i : Nat) (v : Bool) : Keeps s (setPend s a i v) := by
  unfold setPend; simp only []; split <;> exact .refl s

theorem keeps_dnLeft (s : State) (a : Nat) (m : DnMsg) : Keeps s (dnLeft s a m) := by
  unfold dnLeft; split <;> exact .refl s

theorem keeps_dnPump (a : Nat) (l : List DnMsg) (s : State) : Keeps s (dnPump a l s) := by
  induction l generalizing s with
  | nil => exact .refl s
  | cons m r ih =>
    unfold dnPump
    simp only []
    split
    · exact (keeps_dnLeft (updA s a _) a m).trans (ih _)
    · exact .refl s

theorem keeps_dnSend (s : State) (a : Nat) (m : DnMsg) : Keeps s (dnSend s a m) := keeps_dnPump a _ s

theorem keeps_rknCompleted (s : State) (a : Nat) : Keeps s (rknCompleted s a) := keeps_activity (updR (count s _) a _) a _ _

theorem keeps_stepped (u : State) (a : Nat) (v : State) : Keeps v (stepped u a v) := keeps_rknCompleted (updR v a _) a

theorem keeps_jumped (a t : Nat) (v : State) : Keeps v (jumped a t v) := keeps_rknCompleted (updR v a _) a

/-- An instruction that passes its checks does what it does. -/
theorem row_clear {u : State} {a code w : Nat} {ins : State → Nat → RknIns} (hc : Calm u) (h : AtIns u a code w)
    (ho : rknOpcode code = true) (hi : Clear u a (ins u w)) :
    rknRow u a code ins = settleAct a (rkn u a).pc.toNat ((ins u w).act u) := by
  obtain ⟨h1, h2, h3, h4⟩ := h
  obtain ⟨k1, k2, k3, k4⟩ := hi
  unfold rknRow
  simp only [h3, h4, calm_inj hc, ho]
  rw [if_neg (by simp [h1, h2]), if_neg (by decide), if_neg (by decide), if_neg (fun h => h rfl), if_neg (by decide)]
  unfold runIns
  simp only [k1, k2, k3, k4]
  simp [worstHalt, minBy]

/-- An instruction whose checks pass ends in what its act leaves, where that keeps what waits. -/
theorem becomes_row {i : Instr} {u v : State} {a code w : Nat} {ins : State → Nat → RknIns}
    (he : ∀ s, exec i s = .next (act [] (fun s => rknRow s a code ins) s)) (h : AtIns u a code w)
    (ho : rknOpcode code = true) (hi : Clear u a (ins u w))
    (hv : Calm u → settleAct a (rkn u a).pc.toNat ((ins u w).act u) = v) (hk : Keeps u v) : Becomes i u v :=
  becomes_keeps i [] _ u v he (fun hc => (row_clear hc h ho hi).trans (hv hc)) hk

/-- The same for one that completes and moves on. -/
theorem becomes_next {i : Instr} {u t : State} {a code w : Nat} {ins : State → Nat → RknIns}
    (he : ∀ s, exec i s = .next (act [] (fun s => rknRow s a code ins) s)) (h : AtIns u a code w)
    (ho : rknOpcode code = true) (hi : Clear u a (ins u w)) (hv : (ins u w).act u = .next t) (hk : Keeps u t) :
    Becomes i u (stepped u a t) :=
  becomes_row he h ho hi (fun _ => by rw [hv]; rfl) (hk.trans (keeps_stepped u a t))

/-- The same for one that jumps. -/
theorem becomes_jump {i : Instr} {u t : State} {a code w d : Nat} {ins : State → Nat → RknIns}
    (he : ∀ s, exec i s = .next (act [] (fun s => rknRow s a code ins) s)) (h : AtIns u a code w)
    (ho : rknOpcode code = true) (hi : Clear u a (ins u w)) (hv : (ins u w).act u = .jump t d) (hk : Keeps u t) :
    Becomes i u (jumped a d t) :=
  becomes_row he h ho hi (fun _ => by rw [hv]; rfl) (hk.trans (keeps_jumped a d t))

/-- The same for one that stalls. -/
theorem becomes_stall {i : Instr} {u t : State} {a code w : Nat} {ins : State → Nat → RknIns}
    (he : ∀ s, exec i s = .next (act [] (fun s => rknRow s a code ins) s)) (h : AtIns u a code w)
    (ho : rknOpcode code = true) (hi : Clear u a (ins u w)) (hv : (ins u w).act u = .stall t) (hk : Keeps u t) :
    Becomes i u t :=
  becomes_row he h ho hi (fun _ => by rw [hv]; rfl) hk

end Sys2Proof.Machine
end

