-- ==== Sys2Proof/Laws/Rows.lean ====
section
/-!
SUPPORT. The rows of the Reckoner's instruction set by shape: register and immediate forms, shifts, loads and stores, halts, starts
and requests.
-/

namespace Sys2Proof.Machine

open Sys2Proof

/-! ### Halts and reserved bits -/

theorem resv_ok {w m : Nat} (h : w &&& m = w) : resv w m = [] := by simp [resv, h, ifHalt]

theorem resv_bad {w m : Nat} (h : w &&& m ≠ w) : resv w m = [1] := by
  unfold resv ifHalt
  rw [if_pos]
  have : w &&& m ≤ w := Nat.and_le_left
  simp; omega

/-- With no check of the state, none fails. -/
theorem made_nil {i : RknIns} (h : i.found = []) (u : State) (a : Nat) : i.made u a = [] := by
  unfold RknIns.made; rw [h]; rfl

/-- One check whose registers are all there gives its reasons. -/
theorem made_one {i : RknIns} {l : List Nat} {f : State → List Nat} {u : State} {a : Nat} (h : i.found = [check l f])
    (hn : l.any (isPend u a) = false) : i.made u a = f u := by
  unfold RknIns.made
  rw [h]
  simp only [List.flatMap_cons, List.flatMap_nil, List.append_nil, check, hn, Bool.false_eq_true, if_false]

theorem row_halt {u : State} {a code w r : Nat} {ins : State → Nat → RknIns} (hc : Calm u) (h : AtIns u a code w)
    (ho : rknOpcode code = true) (h2 : worstHalt ((ins u w).fixed ++ (ins u w).made u a) = some r) :
    rknRow u a code ins = rknHaltAt u a r (rkn u a).pc.toNat false := by
  obtain ⟨g1, g2, g3, g4⟩ := h
  unfold rknRow
  simp only [g3, g4, calm_inj hc, ho]
  rw [if_neg (by simp [g1, g2]), if_neg (by decide), if_neg (by decide), if_neg (fun h => h rfl), if_neg (by decide)]
  unfold runIns
  simp [h2]

theorem row_unlisted {u : State} {a code w : Nat} {ins : State → Nat → RknIns} (hc : Calm u) (h1 : agtShut u a =
    false) (h2 : (rkn u a).st = .running) (h3 : rknWordAt u a = w) (h4 : rknOpcode (w % 256) = false) :
    rknRow u a code ins = rknHaltAt u a 1 (rkn u a).pc.toNat false := by
  unfold rknRow
  simp only [h3, h4, calm_inj hc]
  rw [if_neg (by simp [h1, h2]), if_neg (by decide), if_pos (by decide)]

/-! ### Shapes of instructions -/

theorem reg_case {i : Instr} {u : State} {a code w : Nat} {f : W64 → W64 → W64} {v : W64}
   (he : ∀ s, exec i s = .next (act [] (fun s => rknRow s a code (insReg f a)) s)) (h : AtIns u a code w) (ho :
       rknOpcode code = true)
   (hm : w &&& maskR = w) (h1 : isPend u a (rs1 w) = false) (h2 : isPend u a (rs2 w) = false) (h3 : isPend u a (rd w) =
       false)
   (hv : f (getS u a (rs1 w)) (getS u a (rs2 w)) = v) : Becomes i u (stepped u a (setS u a (rd w) v)) := by
  refine becomes_next (ins := insReg f a) (w := w) he h ho ⟨?_, h3, resv_ok hm, rfl⟩ ?_ (keeps_setS _ _ _ _)
  · simp [insReg, h1, h2]
  · simp only [insReg, hv]

theorem imm_case {i : Instr} {u : State} {a code w : Nat} {f : W64 → W64 → W64} {v : W64}
   (he : ∀ s, exec i s = .next (act [] (fun s => rknRow s a code (insImm f a)) s)) (h : AtIns u a code w) (ho :
       rknOpcode code = true)
   (hm : w &&& maskI = w) (h1 : isPend u a (rs1 w) = false) (h3 : isPend u a (rd w) = false)
   (hv : f (getS u a (rs1 w)) (immI w) = v) : Becomes i u (stepped u a (setS u a (rd w) v)) := by
  refine becomes_next (ins := insImm f a) (w := w) he h ho ⟨?_, h3, resv_ok hm, rfl⟩ ?_ (keeps_setS _ _ _ _)
  · simp [insImm, h1]
  · simp only [insImm, hv]

theorem sh_case {i : Instr} {u : State} {a code w : Nat} {f : W64 → Nat → W64} {v : W64}
   (he : ∀ s, exec i s = .next (act [] (fun s => rknRow s a code (insShift f a)) s)) (h : AtIns u a code w) (ho :
       rknOpcode code = true)
   (hm : w &&& maskI = w) (h1 : isPend u a (rs1 w) = false) (h3 : isPend u a (rd w) = false) (h4 : bitsOf w 63 38 = 0)
   (hv : f (getS u a (rs1 w)) (wf w 37 32) = v) : Becomes i u (stepped u a (setS u a (rd w) v)) := by
  refine becomes_next (ins := insShift f a) (w := w) he h ho ⟨?_, h3, ?_, rfl⟩ ?_ (keeps_setS _ _ _ _)
  · simp [insShift, h1]
  · simp only [insShift]; rw [resv_ok hm]; simp [wf, h4, ifHalt]
  · simp only [insShift, hv]

theorem ld_case {i : Instr} {u : State} {a code w n addr : Nat} {sg : Bool} 
   (he : ∀ s, exec i s = .next (act [] (fun s => rknRow s a code (insLoad n sg a)) s)) (h : AtIns u a code w) (ho :
       rknOpcode code = true)
   (hm : w &&& maskI = w) (h1 : isPend u a (rs1 w) = false) (h3 : isPend u a (rd w) = false) (ha : dmemAddr u a w = addr) :
      (addr % n = 0 → addr + n ≤ 262144 → Becomes i u (stepped u a (setS u a (rd w)
        (if sg then BitVec.signExtend 64 (BitVec.ofNat (8 * n) (leNat (dmemRead (rkn u a).dmem addr n)))
         else BitVec.ofNat 64 (leNat (dmemRead (rkn u a).dmem addr n)))))) ∧
      (addr % n ≠ 0 → Ends i u (rknHaltAt u a 7 (rkn u a).pc.toNat false)) ∧
      (addr % n = 0 → 262144 < addr + n → Ends i u (rknHaltAt u a 5 (rkn u a).pc.toNat false)) := by
  refine ⟨?_,?_,?_⟩
  · intro g1 g2
    refine becomes_next (ins := insLoad n sg a) (w := w) he h ho ⟨?_, h3, resv_ok hm, ?_⟩ ?_ (keeps_setS _ _ _ _)
    · simp [insLoad, h1]
    · rw [made_one (l := [rs1 w]) rfl (by simp [h1])]
      simp only [ha, dmemHalts, ifHalt, g1]; rw [if_neg (by simp), if_neg (by simp; omega)]; rfl
    · simp only [insLoad, ha]; rfl
  · intro g1
    refine ends_act _ _ _ _ _ he (fun hc => row_halt hc h ho ?_)
    · rw [made_one (l := [rs1 w]) rfl (by simp [h1])]
      simp only [insLoad, ha, dmemHalts]; rw [resv_ok hm]
      simp only [ifHalt, List.nil_append]
      rw [if_pos (by simp [g1])]
      by_cases g2 : 262144 < addr + n
      · rw [if_pos (by simp [g2])]; rfl
      · rw [if_neg (by simp [g2])]; rfl
  · intro g1 g2
    refine ends_act _ _ _ _ _ he (fun hc => row_halt hc h ho ?_)
    · rw [made_one (l := [rs1 w]) rfl (by simp [h1])]
      simp only [insLoad, ha, dmemHalts]; rw [resv_ok hm]
      simp only [ifHalt, List.nil_append]
      rw [if_neg (by simp [g1]), if_pos (by simp [g2])]; rfl

theorem st_case {i : Instr} {u : State} {a code w n addr : Nat}
   (he : ∀ s, exec i s = .next (act [] (fun s => rknRow s a code (insStore n a)) s)) (h : AtIns u a code w) (ho :
       rknOpcode code = true)
   (hm : w &&& (maskI + maskBits 22 18) = w) (h1 : isPend u a (rs1 w) = false) (h2 : isPend u a (rs2 w) = false) (h3 :
       rd w = 0) (ha : dmemAddr u a w = addr) 
      (g1 : addr % n = 0) (g2 : addr + n ≤ 262144) : Becomes i u (stepped u a (updR u a fun r => { r with
        dmem := memPut r.dmem addr (leBytes n (getS u a (rs2 w)).toNat) })) := by
    refine becomes_next (ins := insStore n a) (w := w) he h ho ⟨?_, ?_, ?_, ?_⟩ ?_ (keeps_updR _ _ _)
    · simp [insStore, h1, h2]
    · simp [insStore, isPend]
    · simp only [insStore]; rw [resv_ok hm]; simp [ifHalt, show rd w = 0 from h3]
    · rw [made_one (l := [rs1 w]) rfl (by simp [h1])]
      simp only [ha, dmemHalts, ifHalt, g1]; rw [if_neg (by simp), if_neg (by simp; omega)]; rfl
    · simp only [insStore, ha]

theorem ends_row {i : Instr} {u t : State} {a code w : Nat} {ins : State → Nat → RknIns}
    (he : ∀ s, exec i s = .next (act [] (fun s => rknRow s a code ins) s)) (h : AtIns u a code w)
    (ho : rknOpcode code = true) (hi : Clear u a (ins u w)) (hv : (ins u w).act u = .next t) :
    Ends i u (stepped u a t) := by
  refine ends_act _ _ _ _ _ he (fun hc => ?_)
  rw [row_clear hc h ho hi, hv]; rfl

theorem activity_rkn (s : State) (a n : Nat) (g : BitVec 16) : rkn (activity s a n g) a = rkn s a := by
  unfold activity; split
  · rfl
  · unfold progress; split <;> simp [rkn, agt, updA]

theorem keeps_startOn (a eng fn slots wm rdn : Nat) (l : List Opnd) (s : State) (k : Nat) : Keeps s
    (startOn a eng fn slots wm rdn l s k) := by
  have h := keeps_pickFresh s (fun t => (rkn s a).ops.any fun o => o.core == physCore s a k && o.tag == t) (2 ^ 32)
  exact h.trans (keeps_dnSend (updR _ a _) a _)

theorem request_ok {u : State} {a : Nat} {q : RknReq} {l : List Claim4} {go : State → RknReq → State} (h :
    Accepts u a l) (hid : q.id = (rkn u a).nextReq) (q0 : RknReq) (hq : q = { q0 with id := q.id }) :
   request a q0 l go u = .next (go (queued u a q l) q) := by
  obtain ⟨h1, h2, h3⟩ := h
  unfold request
  rw [if_neg (by simp [h1]), if_neg (by omega), if_neg (by simp [h3])]
  simp only [← hid]
  rw [hid] at hq
  rw [← hid] at hq
  simp only [← hq]
  simp only [queued, hid]
  rw [hq]

end Sys2Proof.Machine
end

