-- ==== Sys2Proof/Laws/State.lean ====
section
/-!
SUPPORT. For every update of the state by a named operation, what each field is afterwards, so that no later proof unfolds a
record update.
-/

namespace Sys2Proof.Machine

open Sys2Proof

/-! ### emit -/

@[simp] theorem emit_pending (s : State) (o : Out) : (emit s o).pending = s.pending := rfl
@[simp] theorem emit_out (s : State) (o : Out) : (emit s o).out = s.out ++ [o] := rfl
@[simp] theorem emit_ts (s : State) (o : Out) : (emit s o).ts = s.ts := rfl
@[simp] theorem emit_free (s : State) (o : Out) : (emit s o).free = s.free := rfl
@[simp] theorem emit_agents (s : State) (o : Out) : (emit s o).agents = s.agents := rfl
@[simp] theorem emit_apEng (s : State) (o : Out) : (emit s o).apEng = s.apEng := rfl
@[simp] theorem emit_regs (s : State) (o : Out) : (emit s o).regs = s.regs := rfl
@[simp] theorem emit_mem (s : State) (o : Out) : (emit s o).mem = s.mem := rfl
@[simp] theorem emit_parts (s : State) (o : Out) : (emit s o).parts = s.parts := rfl
@[simp] theorem emit_queues (s : State) (o : Out) : (emit s o).queues = s.queues := rfl
@[simp] theorem emit_hif (s : State) (o : Out) : (emit s o).hif = s.hif := rfl
@[simp] theorem emit_cfe (s : State) (o : Out) : (emit s o).cfe = s.cfe := rfl
@[simp] theorem emit_aut (s : State) (o : Out) : (emit s o).aut = s.aut := rfl
@[simp] theorem emit_grs (s : State) (o : Out) : (emit s o).grs = s.grs := rfl
@[simp] theorem emit_tly (s : State) (o : Out) : (emit s o).tly = s.tly := rfl
@[simp] theorem emit_dis (s : State) (o : Out) : (emit s o).dis = s.dis := rfl
@[simp] theorem emit_agt (s : State) (o : Out) : (emit s o).agt = s.agt := rfl
@[simp] theorem emit_codeLoads (s : State) (o : Out) : (emit s o).codeLoads = s.codeLoads := rfl
@[simp] theorem emit_pdm (s : State) (o : Out) : (emit s o).pdm = s.pdm := rfl
@[simp] theorem emit_chn (s : State) (o : Out) : (emit s o).chn = s.chn := rfl
@[simp] theorem emit_bau (s : State) (o : Out) : (emit s o).bau = s.bau := rfl
@[simp] theorem emit_rte (s : State) (o : Out) : (emit s o).rte = s.rte := rfl
@[simp] theorem emit_cmb (s : State) (o : Out) : (emit s o).cmb = s.cmb := rfl
@[simp] theorem emit_held (s : State) (o : Out) : (emit s o).held = s.held := rfl
@[simp] theorem emit_beam (s : State) (o : Out) : (emit s o).beam = s.beam := rfl
@[simp] theorem emit_slt (s : State) (o : Out) : (emit s o).slt = s.slt := rfl
@[simp] theorem emit_fab (s : State) (o : Out) : (emit s o).fab = s.fab := rfl
@[simp] theorem emit_flt (s : State) (o : Out) : (emit s o).flt = s.flt := rfl
@[simp] theorem emit_obs (s : State) (o : Out) : (emit s o).obs = s.obs := rfl
@[simp] theorem emit_mgt (s : State) (o : Out) : (emit s o).mgt = s.mgt := rfl
@[simp] theorem emit_crb (s : State) (o : Out) : (emit s o).crb = s.crb := rfl
@[simp] theorem emit_test (s : State) (o : Out) : (emit s o).test = s.test := rfl

/-! ### emits -/

@[simp] theorem emits_pending (s : State) (l : List Out) : (emits s l).pending = s.pending := rfl
@[simp] theorem emits_out (s : State) (l : List Out) : (emits s l).out = s.out ++ l := rfl
@[simp] theorem emits_ts (s : State) (l : List Out) : (emits s l).ts = s.ts := rfl
@[simp] theorem emits_free (s : State) (l : List Out) : (emits s l).free = s.free := rfl
@[simp] theorem emits_agents (s : State) (l : List Out) : (emits s l).agents = s.agents := rfl
@[simp] theorem emits_apEng (s : State) (l : List Out) : (emits s l).apEng = s.apEng := rfl
@[simp] theorem emits_regs (s : State) (l : List Out) : (emits s l).regs = s.regs := rfl
@[simp] theorem emits_mem (s : State) (l : List Out) : (emits s l).mem = s.mem := rfl
@[simp] theorem emits_parts (s : State) (l : List Out) : (emits s l).parts = s.parts := rfl
@[simp] theorem emits_queues (s : State) (l : List Out) : (emits s l).queues = s.queues := rfl
@[simp] theorem emits_hif (s : State) (l : List Out) : (emits s l).hif = s.hif := rfl
@[simp] theorem emits_cfe (s : State) (l : List Out) : (emits s l).cfe = s.cfe := rfl
@[simp] theorem emits_aut (s : State) (l : List Out) : (emits s l).aut = s.aut := rfl
@[simp] theorem emits_grs (s : State) (l : List Out) : (emits s l).grs = s.grs := rfl
@[simp] theorem emits_tly (s : State) (l : List Out) : (emits s l).tly = s.tly := rfl
@[simp] theorem emits_dis (s : State) (l : List Out) : (emits s l).dis = s.dis := rfl
@[simp] theorem emits_agt (s : State) (l : List Out) : (emits s l).agt = s.agt := rfl
@[simp] theorem emits_codeLoads (s : State) (l : List Out) : (emits s l).codeLoads = s.codeLoads := rfl
@[simp] theorem emits_pdm (s : State) (l : List Out) : (emits s l).pdm = s.pdm := rfl
@[simp] theorem emits_chn (s : State) (l : List Out) : (emits s l).chn = s.chn := rfl
@[simp] theorem emits_bau (s : State) (l : List Out) : (emits s l).bau = s.bau := rfl
@[simp] theorem emits_rte (s : State) (l : List Out) : (emits s l).rte = s.rte := rfl
@[simp] theorem emits_cmb (s : State) (l : List Out) : (emits s l).cmb = s.cmb := rfl
@[simp] theorem emits_held (s : State) (l : List Out) : (emits s l).held = s.held := rfl
@[simp] theorem emits_beam (s : State) (l : List Out) : (emits s l).beam = s.beam := rfl
@[simp] theorem emits_slt (s : State) (l : List Out) : (emits s l).slt = s.slt := rfl
@[simp] theorem emits_fab (s : State) (l : List Out) : (emits s l).fab = s.fab := rfl
@[simp] theorem emits_flt (s : State) (l : List Out) : (emits s l).flt = s.flt := rfl
@[simp] theorem emits_obs (s : State) (l : List Out) : (emits s l).obs = s.obs := rfl
@[simp] theorem emits_mgt (s : State) (l : List Out) : (emits s l).mgt = s.mgt := rfl
@[simp] theorem emits_crb (s : State) (l : List Out) : (emits s l).crb = s.crb := rfl
@[simp] theorem emits_test (s : State) (l : List Out) : (emits s l).test = s.test := rfl

/-! ### regSet -/

@[simp] theorem regSet_pending (s : State) (a : Nat) (v : W64) : (regSet s a v).pending = s.pending := rfl
@[simp] theorem regSet_out (s : State) (a : Nat) (v : W64) : (regSet s a v).out = s.out := rfl
@[simp] theorem regSet_ts (s : State) (a : Nat) (v : W64) : (regSet s a v).ts = s.ts := rfl
@[simp] theorem regSet_free (s : State) (a : Nat) (v : W64) : (regSet s a v).free = s.free := rfl
@[simp] theorem regSet_agents (s : State) (a : Nat) (v : W64) : (regSet s a v).agents = s.agents := rfl
@[simp] theorem regSet_apEng (s : State) (a : Nat) (v : W64) : (regSet s a v).apEng = s.apEng := rfl
@[simp] theorem regSet_regs (s : State) (a : Nat) (v : W64) : (regSet s a v).regs = s.regs.put a v := rfl
@[simp] theorem regSet_mem (s : State) (a : Nat) (v : W64) : (regSet s a v).mem = s.mem := rfl
@[simp] theorem regSet_parts (s : State) (a : Nat) (v : W64) : (regSet s a v).parts = s.parts := rfl
@[simp] theorem regSet_queues (s : State) (a : Nat) (v : W64) : (regSet s a v).queues = s.queues := rfl
@[simp] theorem regSet_hif (s : State) (a : Nat) (v : W64) : (regSet s a v).hif = s.hif := rfl
@[simp] theorem regSet_cfe (s : State) (a : Nat) (v : W64) : (regSet s a v).cfe = s.cfe := rfl
@[simp] theorem regSet_aut (s : State) (a : Nat) (v : W64) : (regSet s a v).aut = s.aut := rfl
@[simp] theorem regSet_grs (s : State) (a : Nat) (v : W64) : (regSet s a v).grs = s.grs := rfl
@[simp] theorem regSet_tly (s : State) (a : Nat) (v : W64) : (regSet s a v).tly = s.tly := rfl
@[simp] theorem regSet_dis (s : State) (a : Nat) (v : W64) : (regSet s a v).dis = s.dis := rfl
@[simp] theorem regSet_agt (s : State) (a : Nat) (v : W64) : (regSet s a v).agt = s.agt := rfl
@[simp] theorem regSet_codeLoads (s : State) (a : Nat) (v : W64) : (regSet s a v).codeLoads = s.codeLoads := rfl
@[simp] theorem regSet_pdm (s : State) (a : Nat) (v : W64) : (regSet s a v).pdm = s.pdm := rfl
@[simp] theorem regSet_chn (s : State) (a : Nat) (v : W64) : (regSet s a v).chn = s.chn := rfl
@[simp] theorem regSet_bau (s : State) (a : Nat) (v : W64) : (regSet s a v).bau = s.bau := rfl
@[simp] theorem regSet_rte (s : State) (a : Nat) (v : W64) : (regSet s a v).rte = s.rte := rfl
@[simp] theorem regSet_cmb (s : State) (a : Nat) (v : W64) : (regSet s a v).cmb = s.cmb := rfl
@[simp] theorem regSet_held (s : State) (a : Nat) (v : W64) : (regSet s a v).held = s.held := rfl
@[simp] theorem regSet_beam (s : State) (a : Nat) (v : W64) : (regSet s a v).beam = s.beam := rfl
@[simp] theorem regSet_slt (s : State) (a : Nat) (v : W64) : (regSet s a v).slt = s.slt := rfl
@[simp] theorem regSet_fab (s : State) (a : Nat) (v : W64) : (regSet s a v).fab = s.fab := rfl
@[simp] theorem regSet_flt (s : State) (a : Nat) (v : W64) : (regSet s a v).flt = s.flt := rfl
@[simp] theorem regSet_obs (s : State) (a : Nat) (v : W64) : (regSet s a v).obs = s.obs := rfl
@[simp] theorem regSet_mgt (s : State) (a : Nat) (v : W64) : (regSet s a v).mgt = s.mgt := rfl
@[simp] theorem regSet_crb (s : State) (a : Nat) (v : W64) : (regSet s a v).crb = s.crb := rfl
@[simp] theorem regSet_test (s : State) (a : Nat) (v : W64) : (regSet s a v).test = s.test := rfl

/-! ### regSetFld -/

@[simp] theorem regSetFld_pending (s : State) (a hi lo v : Nat) : (regSetFld s a hi lo v).pending = s.pending := rfl
@[simp] theorem regSetFld_out (s : State) (a hi lo v : Nat) : (regSetFld s a hi lo v).out = s.out := rfl
@[simp] theorem regSetFld_ts (s : State) (a hi lo v : Nat) : (regSetFld s a hi lo v).ts = s.ts := rfl
@[simp] theorem regSetFld_free (s : State) (a hi lo v : Nat) : (regSetFld s a hi lo v).free = s.free := rfl
@[simp] theorem regSetFld_agents (s : State) (a hi lo v : Nat) : (regSetFld s a hi lo v).agents = s.agents := rfl
@[simp] theorem regSetFld_apEng (s : State) (a hi lo v : Nat) : (regSetFld s a hi lo v).apEng = s.apEng := rfl
@[simp] theorem regSetFld_mem (s : State) (a hi lo v : Nat) : (regSetFld s a hi lo v).mem = s.mem := rfl
@[simp] theorem regSetFld_parts (s : State) (a hi lo v : Nat) : (regSetFld s a hi lo v).parts = s.parts := rfl
@[simp] theorem regSetFld_queues (s : State) (a hi lo v : Nat) : (regSetFld s a hi lo v).queues = s.queues := rfl
@[simp] theorem regSetFld_hif (s : State) (a hi lo v : Nat) : (regSetFld s a hi lo v).hif = s.hif := rfl
@[simp] theorem regSetFld_cfe (s : State) (a hi lo v : Nat) : (regSetFld s a hi lo v).cfe = s.cfe := rfl
@[simp] theorem regSetFld_aut (s : State) (a hi lo v : Nat) : (regSetFld s a hi lo v).aut = s.aut := rfl
@[simp] theorem regSetFld_grs (s : State) (a hi lo v : Nat) : (regSetFld s a hi lo v).grs = s.grs := rfl
@[simp] theorem regSetFld_tly (s : State) (a hi lo v : Nat) : (regSetFld s a hi lo v).tly = s.tly := rfl
@[simp] theorem regSetFld_dis (s : State) (a hi lo v : Nat) : (regSetFld s a hi lo v).dis = s.dis := rfl
@[simp] theorem regSetFld_agt (s : State) (a hi lo v : Nat) : (regSetFld s a hi lo v).agt = s.agt := rfl
@[simp] theorem regSetFld_codeLoads (s : State) (a hi lo v : Nat) :
    (regSetFld s a hi lo v).codeLoads = s.codeLoads := rfl
@[simp] theorem regSetFld_pdm (s : State) (a hi lo v : Nat) : (regSetFld s a hi lo v).pdm = s.pdm := rfl
@[simp] theorem regSetFld_chn (s : State) (a hi lo v : Nat) : (regSetFld s a hi lo v).chn = s.chn := rfl
@[simp] theorem regSetFld_bau (s : State) (a hi lo v : Nat) : (regSetFld s a hi lo v).bau = s.bau := rfl
@[simp] theorem regSetFld_rte (s : State) (a hi lo v : Nat) : (regSetFld s a hi lo v).rte = s.rte := rfl
@[simp] theorem regSetFld_cmb (s : State) (a hi lo v : Nat) : (regSetFld s a hi lo v).cmb = s.cmb := rfl
@[simp] theorem regSetFld_held (s : State) (a hi lo v : Nat) : (regSetFld s a hi lo v).held = s.held := rfl
@[simp] theorem regSetFld_beam (s : State) (a hi lo v : Nat) : (regSetFld s a hi lo v).beam = s.beam := rfl
@[simp] theorem regSetFld_slt (s : State) (a hi lo v : Nat) : (regSetFld s a hi lo v).slt = s.slt := rfl
@[simp] theorem regSetFld_fab (s : State) (a hi lo v : Nat) : (regSetFld s a hi lo v).fab = s.fab := rfl
@[simp] theorem regSetFld_flt (s : State) (a hi lo v : Nat) : (regSetFld s a hi lo v).flt = s.flt := rfl
@[simp] theorem regSetFld_obs (s : State) (a hi lo v : Nat) : (regSetFld s a hi lo v).obs = s.obs := rfl
@[simp] theorem regSetFld_mgt (s : State) (a hi lo v : Nat) : (regSetFld s a hi lo v).mgt = s.mgt := rfl
@[simp] theorem regSetFld_crb (s : State) (a hi lo v : Nat) : (regSetFld s a hi lo v).crb = s.crb := rfl
@[simp] theorem regSetFld_test (s : State) (a hi lo v : Nat) : (regSetFld s a hi lo v).test = s.test := rfl

/-! ### countN -/

@[simp] theorem countN_pending (s : State) (c : Ctr) (n : Nat) : (countN s c n).pending = s.pending := rfl
@[simp] theorem countN_out (s : State) (c : Ctr) (n : Nat) : (countN s c n).out = s.out := rfl
@[simp] theorem countN_ts (s : State) (c : Ctr) (n : Nat) : (countN s c n).ts = s.ts := rfl
@[simp] theorem countN_free (s : State) (c : Ctr) (n : Nat) : (countN s c n).free = s.free := rfl
@[simp] theorem countN_agents (s : State) (c : Ctr) (n : Nat) : (countN s c n).agents = s.agents := rfl
@[simp] theorem countN_apEng (s : State) (c : Ctr) (n : Nat) : (countN s c n).apEng = s.apEng := rfl
@[simp] theorem countN_mem (s : State) (c : Ctr) (n : Nat) : (countN s c n).mem = s.mem := rfl
@[simp] theorem countN_parts (s : State) (c : Ctr) (n : Nat) : (countN s c n).parts = s.parts := rfl
@[simp] theorem countN_queues (s : State) (c : Ctr) (n : Nat) : (countN s c n).queues = s.queues := rfl
@[simp] theorem countN_hif (s : State) (c : Ctr) (n : Nat) : (countN s c n).hif = s.hif := rfl
@[simp] theorem countN_cfe (s : State) (c : Ctr) (n : Nat) : (countN s c n).cfe = s.cfe := rfl
@[simp] theorem countN_aut (s : State) (c : Ctr) (n : Nat) : (countN s c n).aut = s.aut := rfl
@[simp] theorem countN_grs (s : State) (c : Ctr) (n : Nat) : (countN s c n).grs = s.grs := rfl
@[simp] theorem countN_tly (s : State) (c : Ctr) (n : Nat) : (countN s c n).tly = s.tly := rfl
@[simp] theorem countN_dis (s : State) (c : Ctr) (n : Nat) : (countN s c n).dis = s.dis := rfl
@[simp] theorem countN_agt (s : State) (c : Ctr) (n : Nat) : (countN s c n).agt = s.agt := rfl
@[simp] theorem countN_codeLoads (s : State) (c : Ctr) (n : Nat) : (countN s c n).codeLoads = s.codeLoads := rfl
@[simp] theorem countN_pdm (s : State) (c : Ctr) (n : Nat) : (countN s c n).pdm = s.pdm := rfl
@[simp] theorem countN_chn (s : State) (c : Ctr) (n : Nat) : (countN s c n).chn = s.chn := rfl
@[simp] theorem countN_bau (s : State) (c : Ctr) (n : Nat) : (countN s c n).bau = s.bau := rfl
@[simp] theorem countN_rte (s : State) (c : Ctr) (n : Nat) : (countN s c n).rte = s.rte := rfl
@[simp] theorem countN_cmb (s : State) (c : Ctr) (n : Nat) : (countN s c n).cmb = s.cmb := rfl
@[simp] theorem countN_held (s : State) (c : Ctr) (n : Nat) : (countN s c n).held = s.held := rfl
@[simp] theorem countN_beam (s : State) (c : Ctr) (n : Nat) : (countN s c n).beam = s.beam := rfl
@[simp] theorem countN_slt (s : State) (c : Ctr) (n : Nat) : (countN s c n).slt = s.slt := rfl
@[simp] theorem countN_fab (s : State) (c : Ctr) (n : Nat) : (countN s c n).fab = s.fab := rfl
@[simp] theorem countN_flt (s : State) (c : Ctr) (n : Nat) : (countN s c n).flt = s.flt := rfl
@[simp] theorem countN_obs (s : State) (c : Ctr) (n : Nat) : (countN s c n).obs = s.obs := rfl
@[simp] theorem countN_mgt (s : State) (c : Ctr) (n : Nat) : (countN s c n).mgt = s.mgt := rfl
@[simp] theorem countN_crb (s : State) (c : Ctr) (n : Nat) : (countN s c n).crb = s.crb := rfl
@[simp] theorem countN_test (s : State) (c : Ctr) (n : Nat) : (countN s c n).test = s.test := rfl

/-! ### count -/

@[simp] theorem count_pending (s : State) (c : Ctr) : (count s c).pending = s.pending := rfl
@[simp] theorem count_out (s : State) (c : Ctr) : (count s c).out = s.out := rfl
@[simp] theorem count_ts (s : State) (c : Ctr) : (count s c).ts = s.ts := rfl
@[simp] theorem count_free (s : State) (c : Ctr) : (count s c).free = s.free := rfl
@[simp] theorem count_agents (s : State) (c : Ctr) : (count s c).agents = s.agents := rfl
@[simp] theorem count_apEng (s : State) (c : Ctr) : (count s c).apEng = s.apEng := rfl
@[simp] theorem count_mem (s : State) (c : Ctr) : (count s c).mem = s.mem := rfl
@[simp] theorem count_parts (s : State) (c : Ctr) : (count s c).parts = s.parts := rfl
@[simp] theorem count_queues (s : State) (c : Ctr) : (count s c).queues = s.queues := rfl
@[simp] theorem count_hif (s : State) (c : Ctr) : (count s c).hif = s.hif := rfl
@[simp] theorem count_cfe (s : State) (c : Ctr) : (count s c).cfe = s.cfe := rfl
@[simp] theorem count_aut (s : State) (c : Ctr) : (count s c).aut = s.aut := rfl
@[simp] theorem count_grs (s : State) (c : Ctr) : (count s c).grs = s.grs := rfl
@[simp] theorem count_tly (s : State) (c : Ctr) : (count s c).tly = s.tly := rfl
@[simp] theorem count_dis (s : State) (c : Ctr) : (count s c).dis = s.dis := rfl
@[simp] theorem count_agt (s : State) (c : Ctr) : (count s c).agt = s.agt := rfl
@[simp] theorem count_codeLoads (s : State) (c : Ctr) : (count s c).codeLoads = s.codeLoads := rfl
@[simp] theorem count_pdm (s : State) (c : Ctr) : (count s c).pdm = s.pdm := rfl
@[simp] theorem count_chn (s : State) (c : Ctr) : (count s c).chn = s.chn := rfl
@[simp] theorem count_bau (s : State) (c : Ctr) : (count s c).bau = s.bau := rfl
@[simp] theorem count_rte (s : State) (c : Ctr) : (count s c).rte = s.rte := rfl
@[simp] theorem count_cmb (s : State) (c : Ctr) : (count s c).cmb = s.cmb := rfl
@[simp] theorem count_held (s : State) (c : Ctr) : (count s c).held = s.held := rfl
@[simp] theorem count_beam (s : State) (c : Ctr) : (count s c).beam = s.beam := rfl
@[simp] theorem count_slt (s : State) (c : Ctr) : (count s c).slt = s.slt := rfl
@[simp] theorem count_fab (s : State) (c : Ctr) : (count s c).fab = s.fab := rfl
@[simp] theorem count_flt (s : State) (c : Ctr) : (count s c).flt = s.flt := rfl
@[simp] theorem count_obs (s : State) (c : Ctr) : (count s c).obs = s.obs := rfl
@[simp] theorem count_mgt (s : State) (c : Ctr) : (count s c).mgt = s.mgt := rfl
@[simp] theorem count_crb (s : State) (c : Ctr) : (count s c).crb = s.crb := rfl
@[simp] theorem count_test (s : State) (c : Ctr) : (count s c).test = s.test := rfl

/-! ### memWrite -/

@[simp] theorem memWrite_pending (s : State) (a : Nat) (b : Bytes) : (memWrite s a b).pending = s.pending := rfl
@[simp] theorem memWrite_out (s : State) (a : Nat) (b : Bytes) : (memWrite s a b).out = s.out := rfl
@[simp] theorem memWrite_ts (s : State) (a : Nat) (b : Bytes) : (memWrite s a b).ts = s.ts := rfl
@[simp] theorem memWrite_free (s : State) (a : Nat) (b : Bytes) : (memWrite s a b).free = s.free := rfl
@[simp] theorem memWrite_agents (s : State) (a : Nat) (b : Bytes) : (memWrite s a b).agents = s.agents := rfl
@[simp] theorem memWrite_apEng (s : State) (a : Nat) (b : Bytes) : (memWrite s a b).apEng = s.apEng := rfl
@[simp] theorem memWrite_regs (s : State) (a : Nat) (b : Bytes) : (memWrite s a b).regs = s.regs := rfl
@[simp] theorem memWrite_mem (s : State) (a : Nat) (b : Bytes) : (memWrite s a b).mem = memPut s.mem a b := rfl
@[simp] theorem memWrite_parts (s : State) (a : Nat) (b : Bytes) : (memWrite s a b).parts = s.parts := rfl
@[simp] theorem memWrite_queues (s : State) (a : Nat) (b : Bytes) : (memWrite s a b).queues = s.queues := rfl
@[simp] theorem memWrite_hif (s : State) (a : Nat) (b : Bytes) : (memWrite s a b).hif = s.hif := rfl
@[simp] theorem memWrite_cfe (s : State) (a : Nat) (b : Bytes) : (memWrite s a b).cfe = s.cfe := rfl
@[simp] theorem memWrite_aut (s : State) (a : Nat) (b : Bytes) : (memWrite s a b).aut = s.aut := rfl
@[simp] theorem memWrite_grs (s : State) (a : Nat) (b : Bytes) : (memWrite s a b).grs = s.grs := rfl
@[simp] theorem memWrite_tly (s : State) (a : Nat) (b : Bytes) : (memWrite s a b).tly = s.tly := rfl
@[simp] theorem memWrite_dis (s : State) (a : Nat) (b : Bytes) : (memWrite s a b).dis = s.dis := rfl
@[simp] theorem memWrite_agt (s : State) (a : Nat) (b : Bytes) : (memWrite s a b).agt = s.agt := rfl
@[simp] theorem memWrite_codeLoads (s : State) (a : Nat) (b : Bytes) : (memWrite s a b).codeLoads = s.codeLoads := rfl
@[simp] theorem memWrite_pdm (s : State) (a : Nat) (b : Bytes) : (memWrite s a b).pdm = s.pdm := rfl
@[simp] theorem memWrite_chn (s : State) (a : Nat) (b : Bytes) : (memWrite s a b).chn = s.chn := rfl
@[simp] theorem memWrite_bau (s : State) (a : Nat) (b : Bytes) : (memWrite s a b).bau = s.bau := rfl
@[simp] theorem memWrite_rte (s : State) (a : Nat) (b : Bytes) : (memWrite s a b).rte = s.rte := rfl
@[simp] theorem memWrite_cmb (s : State) (a : Nat) (b : Bytes) : (memWrite s a b).cmb = s.cmb := rfl
@[simp] theorem memWrite_held (s : State) (a : Nat) (b : Bytes) : (memWrite s a b).held = s.held := rfl
@[simp] theorem memWrite_beam (s : State) (a : Nat) (b : Bytes) : (memWrite s a b).beam = s.beam := rfl
@[simp] theorem memWrite_slt (s : State) (a : Nat) (b : Bytes) : (memWrite s a b).slt = s.slt := rfl
@[simp] theorem memWrite_fab (s : State) (a : Nat) (b : Bytes) : (memWrite s a b).fab = s.fab := rfl
@[simp] theorem memWrite_flt (s : State) (a : Nat) (b : Bytes) : (memWrite s a b).flt = s.flt := rfl
@[simp] theorem memWrite_obs (s : State) (a : Nat) (b : Bytes) : (memWrite s a b).obs = s.obs := rfl
@[simp] theorem memWrite_mgt (s : State) (a : Nat) (b : Bytes) : (memWrite s a b).mgt = s.mgt := rfl
@[simp] theorem memWrite_crb (s : State) (a : Nat) (b : Bytes) : (memWrite s a b).crb = s.crb := rfl
@[simp] theorem memWrite_test (s : State) (a : Nat) (b : Bytes) : (memWrite s a b).test = s.test := rfl

/-! ### memSetWord -/

@[simp] theorem memSetWord_pending (s : State) (a : Nat) (v : W64) : (memSetWord s a v).pending = s.pending := rfl
@[simp] theorem memSetWord_out (s : State) (a : Nat) (v : W64) : (memSetWord s a v).out = s.out := rfl
@[simp] theorem memSetWord_ts (s : State) (a : Nat) (v : W64) : (memSetWord s a v).ts = s.ts := rfl
@[simp] theorem memSetWord_free (s : State) (a : Nat) (v : W64) : (memSetWord s a v).free = s.free := rfl
@[simp] theorem memSetWord_agents (s : State) (a : Nat) (v : W64) : (memSetWord s a v).agents = s.agents := rfl
@[simp] theorem memSetWord_apEng (s : State) (a : Nat) (v : W64) : (memSetWord s a v).apEng = s.apEng := rfl
@[simp] theorem memSetWord_regs (s : State) (a : Nat) (v : W64) : (memSetWord s a v).regs = s.regs := rfl
@[simp] theorem memSetWord_mem (s : State) (a : Nat) (v : W64) :
    (memSetWord s a v).mem = memPut s.mem a (leBytes 8 v.toNat) := rfl
@[simp] theorem memSetWord_parts (s : State) (a : Nat) (v : W64) : (memSetWord s a v).parts = s.parts := rfl
@[simp] theorem memSetWord_queues (s : State) (a : Nat) (v : W64) : (memSetWord s a v).queues = s.queues := rfl
@[simp] theorem memSetWord_hif (s : State) (a : Nat) (v : W64) : (memSetWord s a v).hif = s.hif := rfl
@[simp] theorem memSetWord_cfe (s : State) (a : Nat) (v : W64) : (memSetWord s a v).cfe = s.cfe := rfl
@[simp] theorem memSetWord_aut (s : State) (a : Nat) (v : W64) : (memSetWord s a v).aut = s.aut := rfl
@[simp] theorem memSetWord_grs (s : State) (a : Nat) (v : W64) : (memSetWord s a v).grs = s.grs := rfl
@[simp] theorem memSetWord_tly (s : State) (a : Nat) (v : W64) : (memSetWord s a v).tly = s.tly := rfl
@[simp] theorem memSetWord_dis (s : State) (a : Nat) (v : W64) : (memSetWord s a v).dis = s.dis := rfl
@[simp] theorem memSetWord_agt (s : State) (a : Nat) (v : W64) : (memSetWord s a v).agt = s.agt := rfl
@[simp] theorem memSetWord_codeLoads (s : State) (a : Nat) (v : W64) : (memSetWord s a v).codeLoads = s.codeLoads := rfl
@[simp] theorem memSetWord_pdm (s : State) (a : Nat) (v : W64) : (memSetWord s a v).pdm = s.pdm := rfl
@[simp] theorem memSetWord_chn (s : State) (a : Nat) (v : W64) : (memSetWord s a v).chn = s.chn := rfl
@[simp] theorem memSetWord_bau (s : State) (a : Nat) (v : W64) : (memSetWord s a v).bau = s.bau := rfl
@[simp] theorem memSetWord_rte (s : State) (a : Nat) (v : W64) : (memSetWord s a v).rte = s.rte := rfl
@[simp] theorem memSetWord_cmb (s : State) (a : Nat) (v : W64) : (memSetWord s a v).cmb = s.cmb := rfl
@[simp] theorem memSetWord_held (s : State) (a : Nat) (v : W64) : (memSetWord s a v).held = s.held := rfl
@[simp] theorem memSetWord_beam (s : State) (a : Nat) (v : W64) : (memSetWord s a v).beam = s.beam := rfl
@[simp] theorem memSetWord_slt (s : State) (a : Nat) (v : W64) : (memSetWord s a v).slt = s.slt := rfl
@[simp] theorem memSetWord_fab (s : State) (a : Nat) (v : W64) : (memSetWord s a v).fab = s.fab := rfl
@[simp] theorem memSetWord_flt (s : State) (a : Nat) (v : W64) : (memSetWord s a v).flt = s.flt := rfl
@[simp] theorem memSetWord_obs (s : State) (a : Nat) (v : W64) : (memSetWord s a v).obs = s.obs := rfl
@[simp] theorem memSetWord_mgt (s : State) (a : Nat) (v : W64) : (memSetWord s a v).mgt = s.mgt := rfl
@[simp] theorem memSetWord_crb (s : State) (a : Nat) (v : W64) : (memSetWord s a v).crb = s.crb := rfl
@[simp] theorem memSetWord_test (s : State) (a : Nat) (v : W64) : (memSetWord s a v).test = s.test := rfl

/-! ### raiseInj -/

@[simp] theorem raiseInj_pending (s : State) (id : Nat) (cls : FClass) (part detail : Nat) (inj : Bool) :
    (raiseInj s id cls part detail inj).pending = s.pending := rfl
@[simp] theorem raiseInj_out (s : State) (id : Nat) (cls : FClass) (part detail : Nat) (inj : Bool) :
    (raiseInj s id cls part detail inj).out = s.out := rfl
@[simp] theorem raiseInj_ts (s : State) (id : Nat) (cls : FClass) (part detail : Nat) (inj : Bool) :
    (raiseInj s id cls part detail inj).ts = s.ts := rfl
@[simp] theorem raiseInj_free (s : State) (id : Nat) (cls : FClass) (part detail : Nat) (inj : Bool) :
    (raiseInj s id cls part detail inj).free = s.free := rfl
@[simp] theorem raiseInj_agents (s : State) (id : Nat) (cls : FClass) (part detail : Nat) (inj : Bool) :
    (raiseInj s id cls part detail inj).agents = s.agents := rfl
@[simp] theorem raiseInj_apEng (s : State) (id : Nat) (cls : FClass) (part detail : Nat) (inj : Bool) :
    (raiseInj s id cls part detail inj).apEng = s.apEng := rfl
@[simp] theorem raiseInj_regs (s : State) (id : Nat) (cls : FClass) (part detail : Nat) (inj : Bool) :
    (raiseInj s id cls part detail inj).regs = s.regs := rfl
@[simp] theorem raiseInj_mem (s : State) (id : Nat) (cls : FClass) (part detail : Nat) (inj : Bool) :
    (raiseInj s id cls part detail inj).mem = s.mem := rfl
@[simp] theorem raiseInj_parts (s : State) (id : Nat) (cls : FClass) (part detail : Nat) (inj : Bool) :
    (raiseInj s id cls part detail inj).parts = s.parts := rfl
@[simp] theorem raiseInj_queues (s : State) (id : Nat) (cls : FClass) (part detail : Nat) (inj : Bool) :
    (raiseInj s id cls part detail inj).queues = s.queues := rfl
@[simp] theorem raiseInj_hif (s : State) (id : Nat) (cls : FClass) (part detail : Nat) (inj : Bool) :
    (raiseInj s id cls part detail inj).hif = s.hif := rfl
@[simp] theorem raiseInj_cfe (s : State) (id : Nat) (cls : FClass) (part detail : Nat) (inj : Bool) :
    (raiseInj s id cls part detail inj).cfe = s.cfe := rfl
@[simp] theorem raiseInj_aut (s : State) (id : Nat) (cls : FClass) (part detail : Nat) (inj : Bool) :
    (raiseInj s id cls part detail inj).aut = s.aut := rfl
@[simp] theorem raiseInj_grs (s : State) (id : Nat) (cls : FClass) (part detail : Nat) (inj : Bool) :
    (raiseInj s id cls part detail inj).grs = s.grs := rfl
@[simp] theorem raiseInj_tly (s : State) (id : Nat) (cls : FClass) (part detail : Nat) (inj : Bool) :
    (raiseInj s id cls part detail inj).tly = s.tly := rfl
@[simp] theorem raiseInj_dis (s : State) (id : Nat) (cls : FClass) (part detail : Nat) (inj : Bool) :
    (raiseInj s id cls part detail inj).dis = s.dis := rfl
@[simp] theorem raiseInj_agt (s : State) (id : Nat) (cls : FClass) (part detail : Nat) (inj : Bool) :
    (raiseInj s id cls part detail inj).agt = s.agt := rfl
@[simp] theorem raiseInj_codeLoads (s : State) (id : Nat) (cls : FClass) (part detail : Nat) (inj : Bool) :
    (raiseInj s id cls part detail inj).codeLoads = s.codeLoads := rfl
@[simp] theorem raiseInj_pdm (s : State) (id : Nat) (cls : FClass) (part detail : Nat) (inj : Bool) :
    (raiseInj s id cls part detail inj).pdm = s.pdm := rfl
@[simp] theorem raiseInj_chn (s : State) (id : Nat) (cls : FClass) (part detail : Nat) (inj : Bool) :
    (raiseInj s id cls part detail inj).chn = s.chn := rfl
@[simp] theorem raiseInj_bau (s : State) (id : Nat) (cls : FClass) (part detail : Nat) (inj : Bool) :
    (raiseInj s id cls part detail inj).bau = s.bau := rfl
@[simp] theorem raiseInj_rte (s : State) (id : Nat) (cls : FClass) (part detail : Nat) (inj : Bool) :
    (raiseInj s id cls part detail inj).rte = s.rte := rfl
@[simp] theorem raiseInj_cmb (s : State) (id : Nat) (cls : FClass) (part detail : Nat) (inj : Bool) :
    (raiseInj s id cls part detail inj).cmb = s.cmb := rfl
@[simp] theorem raiseInj_held (s : State) (id : Nat) (cls : FClass) (part detail : Nat) (inj : Bool) :
    (raiseInj s id cls part detail inj).held = s.held := rfl
@[simp] theorem raiseInj_beam (s : State) (id : Nat) (cls : FClass) (part detail : Nat) (inj : Bool) :
    (raiseInj s id cls part detail inj).beam = s.beam := rfl
@[simp] theorem raiseInj_slt (s : State) (id : Nat) (cls : FClass) (part detail : Nat) (inj : Bool) :
    (raiseInj s id cls part detail inj).slt = s.slt := rfl
@[simp] theorem raiseInj_fab (s : State) (id : Nat) (cls : FClass) (part detail : Nat) (inj : Bool) :
    (raiseInj s id cls part detail inj).fab = s.fab := rfl
@[simp] theorem raiseInj_obs (s : State) (id : Nat) (cls : FClass) (part detail : Nat) (inj : Bool) :
    (raiseInj s id cls part detail inj).obs = s.obs := rfl
@[simp] theorem raiseInj_mgt (s : State) (id : Nat) (cls : FClass) (part detail : Nat) (inj : Bool) :
    (raiseInj s id cls part detail inj).mgt = s.mgt := rfl
@[simp] theorem raiseInj_crb (s : State) (id : Nat) (cls : FClass) (part detail : Nat) (inj : Bool) :
    (raiseInj s id cls part detail inj).crb = s.crb := rfl
@[simp] theorem raiseInj_test (s : State) (id : Nat) (cls : FClass) (part detail : Nat) (inj : Bool) :
    (raiseInj s id cls part detail inj).test = s.test := rfl

/-! ### raise -/

@[simp] theorem raise_pending (s : State) (id : Nat) (cls : FClass) (part detail : Nat) :
    (raise s id cls part detail).pending = s.pending := rfl
@[simp] theorem raise_out (s : State) (id : Nat) (cls : FClass) (part detail : Nat) :
    (raise s id cls part detail).out = s.out := rfl
@[simp] theorem raise_ts (s : State) (id : Nat) (cls : FClass) (part detail : Nat) :
    (raise s id cls part detail).ts = s.ts := rfl
@[simp] theorem raise_free (s : State) (id : Nat) (cls : FClass) (part detail : Nat) :
    (raise s id cls part detail).free = s.free := rfl
@[simp] theorem raise_agents (s : State) (id : Nat) (cls : FClass) (part detail : Nat) :
    (raise s id cls part detail).agents = s.agents := rfl
@[simp] theorem raise_apEng (s : State) (id : Nat) (cls : FClass) (part detail : Nat) :
    (raise s id cls part detail).apEng = s.apEng := rfl
@[simp] theorem raise_regs (s : State) (id : Nat) (cls : FClass) (part detail : Nat) :
    (raise s id cls part detail).regs = s.regs := rfl
@[simp] theorem raise_mem (s : State) (id : Nat) (cls : FClass) (part detail : Nat) :
    (raise s id cls part detail).mem = s.mem := rfl
@[simp] theorem raise_parts (s : State) (id : Nat) (cls : FClass) (part detail : Nat) :
    (raise s id cls part detail).parts = s.parts := rfl
@[simp] theorem raise_queues (s : State) (id : Nat) (cls : FClass) (part detail : Nat) :
    (raise s id cls part detail).queues = s.queues := rfl
@[simp] theorem raise_hif (s : State) (id : Nat) (cls : FClass) (part detail : Nat) :
    (raise s id cls part detail).hif = s.hif := rfl
@[simp] theorem raise_cfe (s : State) (id : Nat) (cls : FClass) (part detail : Nat) :
    (raise s id cls part detail).cfe = s.cfe := rfl
@[simp] theorem raise_aut (s : State) (id : Nat) (cls : FClass) (part detail : Nat) :
    (raise s id cls part detail).aut = s.aut := rfl
@[simp] theorem raise_grs (s : State) (id : Nat) (cls : FClass) (part detail : Nat) :
    (raise s id cls part detail).grs = s.grs := rfl
@[simp] theorem raise_tly (s : State) (id : Nat) (cls : FClass) (part detail : Nat) :
    (raise s id cls part detail).tly = s.tly := rfl
@[simp] theorem raise_dis (s : State) (id : Nat) (cls : FClass) (part detail : Nat) :
    (raise s id cls part detail).dis = s.dis := rfl
@[simp] theorem raise_agt (s : State) (id : Nat) (cls : FClass) (part detail : Nat) :
    (raise s id cls part detail).agt = s.agt := rfl
@[simp] theorem raise_codeLoads (s : State) (id : Nat) (cls : FClass) (part detail : Nat) :
    (raise s id cls part detail).codeLoads = s.codeLoads := rfl
@[simp] theorem raise_pdm (s : State) (id : Nat) (cls : FClass) (part detail : Nat) :
    (raise s id cls part detail).pdm = s.pdm := rfl
@[simp] theorem raise_chn (s : State) (id : Nat) (cls : FClass) (part detail : Nat) :
    (raise s id cls part detail).chn = s.chn := rfl
@[simp] theorem raise_bau (s : State) (id : Nat) (cls : FClass) (part detail : Nat) :
    (raise s id cls part detail).bau = s.bau := rfl
@[simp] theorem raise_rte (s : State) (id : Nat) (cls : FClass) (part detail : Nat) :
    (raise s id cls part detail).rte = s.rte := rfl
@[simp] theorem raise_cmb (s : State) (id : Nat) (cls : FClass) (part detail : Nat) :
    (raise s id cls part detail).cmb = s.cmb := rfl
@[simp] theorem raise_held (s : State) (id : Nat) (cls : FClass) (part detail : Nat) :
    (raise s id cls part detail).held = s.held := rfl
@[simp] theorem raise_beam (s : State) (id : Nat) (cls : FClass) (part detail : Nat) :
    (raise s id cls part detail).beam = s.beam := rfl
@[simp] theorem raise_slt (s : State) (id : Nat) (cls : FClass) (part detail : Nat) :
    (raise s id cls part detail).slt = s.slt := rfl
@[simp] theorem raise_fab (s : State) (id : Nat) (cls : FClass) (part detail : Nat) :
    (raise s id cls part detail).fab = s.fab := rfl
@[simp] theorem raise_obs (s : State) (id : Nat) (cls : FClass) (part detail : Nat) :
    (raise s id cls part detail).obs = s.obs := rfl
@[simp] theorem raise_mgt (s : State) (id : Nat) (cls : FClass) (part detail : Nat) :
    (raise s id cls part detail).mgt = s.mgt := rfl
@[simp] theorem raise_crb (s : State) (id : Nat) (cls : FClass) (part detail : Nat) :
    (raise s id cls part detail).crb = s.crb := rfl
@[simp] theorem raise_test (s : State) (id : Nat) (cls : FClass) (part detail : Nat) :
    (raise s id cls part detail).test = s.test := rfl

/-! ### injFire -/

@[simp] theorem injFire_pending (s : State) : (injFire s).pending = s.pending := rfl
@[simp] theorem injFire_out (s : State) : (injFire s).out = s.out := rfl
@[simp] theorem injFire_ts (s : State) : (injFire s).ts = s.ts := rfl
@[simp] theorem injFire_free (s : State) : (injFire s).free = s.free := rfl
@[simp] theorem injFire_agents (s : State) : (injFire s).agents = s.agents := rfl
@[simp] theorem injFire_apEng (s : State) : (injFire s).apEng = s.apEng := rfl
@[simp] theorem injFire_mem (s : State) : (injFire s).mem = s.mem := rfl
@[simp] theorem injFire_parts (s : State) : (injFire s).parts = s.parts := rfl
@[simp] theorem injFire_queues (s : State) : (injFire s).queues = s.queues := rfl
@[simp] theorem injFire_hif (s : State) : (injFire s).hif = s.hif := rfl
@[simp] theorem injFire_cfe (s : State) : (injFire s).cfe = s.cfe := rfl
@[simp] theorem injFire_aut (s : State) : (injFire s).aut = s.aut := rfl
@[simp] theorem injFire_grs (s : State) : (injFire s).grs = s.grs := rfl
@[simp] theorem injFire_tly (s : State) : (injFire s).tly = s.tly := rfl
@[simp] theorem injFire_dis (s : State) : (injFire s).dis = s.dis := rfl
@[simp] theorem injFire_agt (s : State) : (injFire s).agt = s.agt := rfl
@[simp] theorem injFire_codeLoads (s : State) : (injFire s).codeLoads = s.codeLoads := rfl
@[simp] theorem injFire_pdm (s : State) : (injFire s).pdm = s.pdm := rfl
@[simp] theorem injFire_chn (s : State) : (injFire s).chn = s.chn := rfl
@[simp] theorem injFire_bau (s : State) : (injFire s).bau = s.bau := rfl
@[simp] theorem injFire_rte (s : State) : (injFire s).rte = s.rte := rfl
@[simp] theorem injFire_cmb (s : State) : (injFire s).cmb = s.cmb := rfl
@[simp] theorem injFire_held (s : State) : (injFire s).held = s.held := rfl
@[simp] theorem injFire_beam (s : State) : (injFire s).beam = s.beam := rfl
@[simp] theorem injFire_slt (s : State) : (injFire s).slt = s.slt := rfl
@[simp] theorem injFire_fab (s : State) : (injFire s).fab = s.fab := rfl
@[simp] theorem injFire_flt (s : State) : (injFire s).flt = s.flt := rfl
@[simp] theorem injFire_obs (s : State) : (injFire s).obs = s.obs := rfl
@[simp] theorem injFire_mgt (s : State) : (injFire s).mgt = s.mgt := rfl
@[simp] theorem injFire_crb (s : State) : (injFire s).crb = s.crb := rfl
@[simp] theorem injFire_test (s : State) : (injFire s).test = s.test := rfl

/-! ### pageCount -/

@[simp] theorem pageCount_pending (s : State) (p i n : Nat) : (pageCount s p i n).pending = s.pending := rfl
@[simp] theorem pageCount_out (s : State) (p i n : Nat) : (pageCount s p i n).out = s.out := rfl
@[simp] theorem pageCount_ts (s : State) (p i n : Nat) : (pageCount s p i n).ts = s.ts := rfl
@[simp] theorem pageCount_free (s : State) (p i n : Nat) : (pageCount s p i n).free = s.free := rfl
@[simp] theorem pageCount_agents (s : State) (p i n : Nat) : (pageCount s p i n).agents = s.agents := rfl
@[simp] theorem pageCount_apEng (s : State) (p i n : Nat) : (pageCount s p i n).apEng = s.apEng := rfl
@[simp] theorem pageCount_regs (s : State) (p i n : Nat) : (pageCount s p i n).regs = s.regs := rfl
@[simp] theorem pageCount_mem (s : State) (p i n : Nat) : (pageCount s p i n).mem = s.mem := rfl
@[simp] theorem pageCount_parts (s : State) (p i n : Nat) : (pageCount s p i n).parts = s.parts := rfl
@[simp] theorem pageCount_queues (s : State) (p i n : Nat) : (pageCount s p i n).queues = s.queues := rfl
@[simp] theorem pageCount_hif (s : State) (p i n : Nat) : (pageCount s p i n).hif = s.hif := rfl
@[simp] theorem pageCount_cfe (s : State) (p i n : Nat) : (pageCount s p i n).cfe = s.cfe := rfl
@[simp] theorem pageCount_aut (s : State) (p i n : Nat) : (pageCount s p i n).aut = s.aut := rfl
@[simp] theorem pageCount_grs (s : State) (p i n : Nat) : (pageCount s p i n).grs = s.grs := rfl
@[simp] theorem pageCount_tly (s : State) (p i n : Nat) : (pageCount s p i n).tly = s.tly := rfl
@[simp] theorem pageCount_dis (s : State) (p i n : Nat) : (pageCount s p i n).dis = s.dis := rfl
@[simp] theorem pageCount_agt (s : State) (p i n : Nat) : (pageCount s p i n).agt = s.agt := rfl
@[simp] theorem pageCount_codeLoads (s : State) (p i n : Nat) : (pageCount s p i n).codeLoads = s.codeLoads := rfl
@[simp] theorem pageCount_pdm (s : State) (p i n : Nat) : (pageCount s p i n).pdm = s.pdm := rfl
@[simp] theorem pageCount_chn (s : State) (p i n : Nat) : (pageCount s p i n).chn = s.chn := rfl
@[simp] theorem pageCount_bau (s : State) (p i n : Nat) : (pageCount s p i n).bau = s.bau := rfl
@[simp] theorem pageCount_rte (s : State) (p i n : Nat) : (pageCount s p i n).rte = s.rte := rfl
@[simp] theorem pageCount_cmb (s : State) (p i n : Nat) : (pageCount s p i n).cmb = s.cmb := rfl
@[simp] theorem pageCount_held (s : State) (p i n : Nat) : (pageCount s p i n).held = s.held := rfl
@[simp] theorem pageCount_beam (s : State) (p i n : Nat) : (pageCount s p i n).beam = s.beam := rfl
@[simp] theorem pageCount_slt (s : State) (p i n : Nat) : (pageCount s p i n).slt = s.slt := rfl
@[simp] theorem pageCount_fab (s : State) (p i n : Nat) : (pageCount s p i n).fab = s.fab := rfl
@[simp] theorem pageCount_flt (s : State) (p i n : Nat) : (pageCount s p i n).flt = s.flt := rfl
@[simp] theorem pageCount_mgt (s : State) (p i n : Nat) : (pageCount s p i n).mgt = s.mgt := rfl
@[simp] theorem pageCount_crb (s : State) (p i n : Nat) : (pageCount s p i n).crb = s.crb := rfl
@[simp] theorem pageCount_test (s : State) (p i n : Nat) : (pageCount s p i n).test = s.test := rfl

/-! ### wordCount -/

@[simp] theorem wordCount_pending (s : State) (q i : Nat) : (wordCount s q i).pending = s.pending := rfl
@[simp] theorem wordCount_out (s : State) (q i : Nat) : (wordCount s q i).out = s.out := rfl
@[simp] theorem wordCount_ts (s : State) (q i : Nat) : (wordCount s q i).ts = s.ts := rfl
@[simp] theorem wordCount_free (s : State) (q i : Nat) : (wordCount s q i).free = s.free := rfl
@[simp] theorem wordCount_agents (s : State) (q i : Nat) : (wordCount s q i).agents = s.agents := rfl
@[simp] theorem wordCount_apEng (s : State) (q i : Nat) : (wordCount s q i).apEng = s.apEng := rfl
@[simp] theorem wordCount_regs (s : State) (q i : Nat) : (wordCount s q i).regs = s.regs := rfl
@[simp] theorem wordCount_mem (s : State) (q i : Nat) : (wordCount s q i).mem = s.mem := rfl
@[simp] theorem wordCount_parts (s : State) (q i : Nat) : (wordCount s q i).parts = s.parts := rfl
@[simp] theorem wordCount_queues (s : State) (q i : Nat) : (wordCount s q i).queues = s.queues := rfl
@[simp] theorem wordCount_hif (s : State) (q i : Nat) : (wordCount s q i).hif = s.hif := rfl
@[simp] theorem wordCount_cfe (s : State) (q i : Nat) : (wordCount s q i).cfe = s.cfe := rfl
@[simp] theorem wordCount_aut (s : State) (q i : Nat) : (wordCount s q i).aut = s.aut := rfl
@[simp] theorem wordCount_grs (s : State) (q i : Nat) : (wordCount s q i).grs = s.grs := rfl
@[simp] theorem wordCount_tly (s : State) (q i : Nat) : (wordCount s q i).tly = s.tly := rfl
@[simp] theorem wordCount_dis (s : State) (q i : Nat) : (wordCount s q i).dis = s.dis := rfl
@[simp] theorem wordCount_agt (s : State) (q i : Nat) : (wordCount s q i).agt = s.agt := rfl
@[simp] theorem wordCount_codeLoads (s : State) (q i : Nat) : (wordCount s q i).codeLoads = s.codeLoads := rfl
@[simp] theorem wordCount_pdm (s : State) (q i : Nat) : (wordCount s q i).pdm = s.pdm := rfl
@[simp] theorem wordCount_chn (s : State) (q i : Nat) : (wordCount s q i).chn = s.chn := rfl
@[simp] theorem wordCount_bau (s : State) (q i : Nat) : (wordCount s q i).bau = s.bau := rfl
@[simp] theorem wordCount_rte (s : State) (q i : Nat) : (wordCount s q i).rte = s.rte := rfl
@[simp] theorem wordCount_cmb (s : State) (q i : Nat) : (wordCount s q i).cmb = s.cmb := rfl
@[simp] theorem wordCount_held (s : State) (q i : Nat) : (wordCount s q i).held = s.held := rfl
@[simp] theorem wordCount_beam (s : State) (q i : Nat) : (wordCount s q i).beam = s.beam := rfl
@[simp] theorem wordCount_slt (s : State) (q i : Nat) : (wordCount s q i).slt = s.slt := rfl
@[simp] theorem wordCount_fab (s : State) (q i : Nat) : (wordCount s q i).fab = s.fab := rfl
@[simp] theorem wordCount_flt (s : State) (q i : Nat) : (wordCount s q i).flt = s.flt := rfl
@[simp] theorem wordCount_mgt (s : State) (q i : Nat) : (wordCount s q i).mgt = s.mgt := rfl
@[simp] theorem wordCount_crb (s : State) (q i : Nat) : (wordCount s q i).crb = s.crb := rfl
@[simp] theorem wordCount_test (s : State) (q i : Nat) : (wordCount s q i).test = s.test := rfl

/-! ### logRecord -/

@[simp] theorem logRecord_pending (s : State) (type key body : Nat) :
    (logRecord s type key body).pending = s.pending := rfl
@[simp] theorem logRecord_out (s : State) (type key body : Nat) : (logRecord s type key body).out = s.out := rfl
@[simp] theorem logRecord_ts (s : State) (type key body : Nat) : (logRecord s type key body).ts = s.ts := rfl
@[simp] theorem logRecord_free (s : State) (type key body : Nat) : (logRecord s type key body).free = s.free := rfl
@[simp] theorem logRecord_agents (s : State) (type key body : Nat) :
    (logRecord s type key body).agents = s.agents := rfl
@[simp] theorem logRecord_apEng (s : State) (type key body : Nat) : (logRecord s type key body).apEng = s.apEng := rfl
@[simp] theorem logRecord_regs (s : State) (type key body : Nat) : (logRecord s type key body).regs = s.regs := rfl
@[simp] theorem logRecord_mem (s : State) (type key body : Nat) : (logRecord s type key body).mem = s.mem := rfl
@[simp] theorem logRecord_parts (s : State) (type key body : Nat) : (logRecord s type key body).parts = s.parts := rfl
@[simp] theorem logRecord_queues (s : State) (type key body : Nat) :
    (logRecord s type key body).queues = s.queues := rfl
@[simp] theorem logRecord_hif (s : State) (type key body : Nat) : (logRecord s type key body).hif = s.hif := rfl
@[simp] theorem logRecord_cfe (s : State) (type key body : Nat) : (logRecord s type key body).cfe = s.cfe := rfl
@[simp] theorem logRecord_aut (s : State) (type key body : Nat) : (logRecord s type key body).aut = s.aut := rfl
@[simp] theorem logRecord_grs (s : State) (type key body : Nat) : (logRecord s type key body).grs = s.grs := rfl
@[simp] theorem logRecord_tly (s : State) (type key body : Nat) : (logRecord s type key body).tly = s.tly := rfl
@[simp] theorem logRecord_dis (s : State) (type key body : Nat) : (logRecord s type key body).dis = s.dis := rfl
@[simp] theorem logRecord_agt (s : State) (type key body : Nat) : (logRecord s type key body).agt = s.agt := rfl
@[simp] theorem logRecord_codeLoads (s : State) (type key body : Nat) :
    (logRecord s type key body).codeLoads = s.codeLoads := rfl
@[simp] theorem logRecord_pdm (s : State) (type key body : Nat) : (logRecord s type key body).pdm = s.pdm := rfl
@[simp] theorem logRecord_chn (s : State) (type key body : Nat) : (logRecord s type key body).chn = s.chn := rfl
@[simp] theorem logRecord_bau (s : State) (type key body : Nat) : (logRecord s type key body).bau = s.bau := rfl
@[simp] theorem logRecord_rte (s : State) (type key body : Nat) : (logRecord s type key body).rte = s.rte := rfl
@[simp] theorem logRecord_cmb (s : State) (type key body : Nat) : (logRecord s type key body).cmb = s.cmb := rfl
@[simp] theorem logRecord_held (s : State) (type key body : Nat) : (logRecord s type key body).held = s.held := rfl
@[simp] theorem logRecord_beam (s : State) (type key body : Nat) : (logRecord s type key body).beam = s.beam := rfl
@[simp] theorem logRecord_slt (s : State) (type key body : Nat) : (logRecord s type key body).slt = s.slt := rfl
@[simp] theorem logRecord_fab (s : State) (type key body : Nat) : (logRecord s type key body).fab = s.fab := rfl
@[simp] theorem logRecord_flt (s : State) (type key body : Nat) : (logRecord s type key body).flt = s.flt := rfl
@[simp] theorem logRecord_obs (s : State) (type key body : Nat) : (logRecord s type key body).obs = s.obs := rfl
@[simp] theorem logRecord_crb (s : State) (type key body : Nat) : (logRecord s type key body).crb = s.crb := rfl
@[simp] theorem logRecord_test (s : State) (type key body : Nat) : (logRecord s type key body).test = s.test := rfl

/-! ### updQ -/

@[simp] theorem updQ_pending (s : State) (q : Nat) (f : Queue → Queue) : (updQ s q f).pending = s.pending := rfl
@[simp] theorem updQ_out (s : State) (q : Nat) (f : Queue → Queue) : (updQ s q f).out = s.out := rfl
@[simp] theorem updQ_ts (s : State) (q : Nat) (f : Queue → Queue) : (updQ s q f).ts = s.ts := rfl
@[simp] theorem updQ_free (s : State) (q : Nat) (f : Queue → Queue) : (updQ s q f).free = s.free := rfl
@[simp] theorem updQ_agents (s : State) (q : Nat) (f : Queue → Queue) : (updQ s q f).agents = s.agents := rfl
@[simp] theorem updQ_apEng (s : State) (q : Nat) (f : Queue → Queue) : (updQ s q f).apEng = s.apEng := rfl
@[simp] theorem updQ_regs (s : State) (q : Nat) (f : Queue → Queue) : (updQ s q f).regs = s.regs := rfl
@[simp] theorem updQ_mem (s : State) (q : Nat) (f : Queue → Queue) : (updQ s q f).mem = s.mem := rfl
@[simp] theorem updQ_parts (s : State) (q : Nat) (f : Queue → Queue) : (updQ s q f).parts = s.parts := rfl
@[simp] theorem updQ_queues (s : State) (q : Nat) (f : Queue → Queue) : (updQ s q f).queues = s.queues.upd q f := rfl
@[simp] theorem updQ_hif (s : State) (q : Nat) (f : Queue → Queue) : (updQ s q f).hif = s.hif := rfl
@[simp] theorem updQ_cfe (s : State) (q : Nat) (f : Queue → Queue) : (updQ s q f).cfe = s.cfe := rfl
@[simp] theorem updQ_aut (s : State) (q : Nat) (f : Queue → Queue) : (updQ s q f).aut = s.aut := rfl
@[simp] theorem updQ_grs (s : State) (q : Nat) (f : Queue → Queue) : (updQ s q f).grs = s.grs := rfl
@[simp] theorem updQ_tly (s : State) (q : Nat) (f : Queue → Queue) : (updQ s q f).tly = s.tly := rfl
@[simp] theorem updQ_dis (s : State) (q : Nat) (f : Queue → Queue) : (updQ s q f).dis = s.dis := rfl
@[simp] theorem updQ_agt (s : State) (q : Nat) (f : Queue → Queue) : (updQ s q f).agt = s.agt := rfl
@[simp] theorem updQ_codeLoads (s : State) (q : Nat) (f : Queue → Queue) : (updQ s q f).codeLoads = s.codeLoads := rfl
@[simp] theorem updQ_pdm (s : State) (q : Nat) (f : Queue → Queue) : (updQ s q f).pdm = s.pdm := rfl
@[simp] theorem updQ_chn (s : State) (q : Nat) (f : Queue → Queue) : (updQ s q f).chn = s.chn := rfl
@[simp] theorem updQ_bau (s : State) (q : Nat) (f : Queue → Queue) : (updQ s q f).bau = s.bau := rfl
@[simp] theorem updQ_rte (s : State) (q : Nat) (f : Queue → Queue) : (updQ s q f).rte = s.rte := rfl
@[simp] theorem updQ_cmb (s : State) (q : Nat) (f : Queue → Queue) : (updQ s q f).cmb = s.cmb := rfl
@[simp] theorem updQ_held (s : State) (q : Nat) (f : Queue → Queue) : (updQ s q f).held = s.held := rfl
@[simp] theorem updQ_beam (s : State) (q : Nat) (f : Queue → Queue) : (updQ s q f).beam = s.beam := rfl
@[simp] theorem updQ_slt (s : State) (q : Nat) (f : Queue → Queue) : (updQ s q f).slt = s.slt := rfl
@[simp] theorem updQ_fab (s : State) (q : Nat) (f : Queue → Queue) : (updQ s q f).fab = s.fab := rfl
@[simp] theorem updQ_flt (s : State) (q : Nat) (f : Queue → Queue) : (updQ s q f).flt = s.flt := rfl
@[simp] theorem updQ_obs (s : State) (q : Nat) (f : Queue → Queue) : (updQ s q f).obs = s.obs := rfl
@[simp] theorem updQ_mgt (s : State) (q : Nat) (f : Queue → Queue) : (updQ s q f).mgt = s.mgt := rfl
@[simp] theorem updQ_crb (s : State) (q : Nat) (f : Queue → Queue) : (updQ s q f).crb = s.crb := rfl
@[simp] theorem updQ_test (s : State) (q : Nat) (f : Queue → Queue) : (updQ s q f).test = s.test := rfl

/-! ### stopQueue -/

@[simp] theorem stopQueue_pending (s : State) (q : Nat) (r : StopReason) : (stopQueue s q r).pending = s.pending := rfl
@[simp] theorem stopQueue_out (s : State) (q : Nat) (r : StopReason) : (stopQueue s q r).out = s.out := rfl
@[simp] theorem stopQueue_ts (s : State) (q : Nat) (r : StopReason) : (stopQueue s q r).ts = s.ts := rfl
@[simp] theorem stopQueue_free (s : State) (q : Nat) (r : StopReason) : (stopQueue s q r).free = s.free := rfl
@[simp] theorem stopQueue_agents (s : State) (q : Nat) (r : StopReason) : (stopQueue s q r).agents = s.agents := rfl
@[simp] theorem stopQueue_apEng (s : State) (q : Nat) (r : StopReason) : (stopQueue s q r).apEng = s.apEng := rfl
@[simp] theorem stopQueue_regs (s : State) (q : Nat) (r : StopReason) : (stopQueue s q r).regs = s.regs := rfl
@[simp] theorem stopQueue_mem (s : State) (q : Nat) (r : StopReason) : (stopQueue s q r).mem = s.mem := rfl
@[simp] theorem stopQueue_parts (s : State) (q : Nat) (r : StopReason) : (stopQueue s q r).parts = s.parts := rfl
@[simp] theorem stopQueue_queues (s : State) (q : Nat) (r : StopReason) :
    (stopQueue s q r).queues = s.queues.upd q fun u => { u with st := .stopped, reason := r } := rfl
@[simp] theorem stopQueue_cfe (s : State) (q : Nat) (r : StopReason) : (stopQueue s q r).cfe = s.cfe := rfl
@[simp] theorem stopQueue_aut (s : State) (q : Nat) (r : StopReason) : (stopQueue s q r).aut = s.aut := rfl
@[simp] theorem stopQueue_grs (s : State) (q : Nat) (r : StopReason) : (stopQueue s q r).grs = s.grs := rfl
@[simp] theorem stopQueue_tly (s : State) (q : Nat) (r : StopReason) : (stopQueue s q r).tly = s.tly := rfl
@[simp] theorem stopQueue_dis (s : State) (q : Nat) (r : StopReason) : (stopQueue s q r).dis = s.dis := rfl
@[simp] theorem stopQueue_agt (s : State) (q : Nat) (r : StopReason) : (stopQueue s q r).agt = s.agt := rfl
@[simp] theorem stopQueue_codeLoads (s : State) (q : Nat) (r : StopReason) :
    (stopQueue s q r).codeLoads = s.codeLoads := rfl
@[simp] theorem stopQueue_pdm (s : State) (q : Nat) (r : StopReason) : (stopQueue s q r).pdm = s.pdm := rfl
@[simp] theorem stopQueue_chn (s : State) (q : Nat) (r : StopReason) : (stopQueue s q r).chn = s.chn := rfl
@[simp] theorem stopQueue_bau (s : State) (q : Nat) (r : StopReason) : (stopQueue s q r).bau = s.bau := rfl
@[simp] theorem stopQueue_rte (s : State) (q : Nat) (r : StopReason) : (stopQueue s q r).rte = s.rte := rfl
@[simp] theorem stopQueue_cmb (s : State) (q : Nat) (r : StopReason) : (stopQueue s q r).cmb = s.cmb := rfl
@[simp] theorem stopQueue_held (s : State) (q : Nat) (r : StopReason) : (stopQueue s q r).held = s.held := rfl
@[simp] theorem stopQueue_beam (s : State) (q : Nat) (r : StopReason) : (stopQueue s q r).beam = s.beam := rfl
@[simp] theorem stopQueue_slt (s : State) (q : Nat) (r : StopReason) : (stopQueue s q r).slt = s.slt := rfl
@[simp] theorem stopQueue_fab (s : State) (q : Nat) (r : StopReason) : (stopQueue s q r).fab = s.fab := rfl
@[simp] theorem stopQueue_flt (s : State) (q : Nat) (r : StopReason) : (stopQueue s q r).flt = s.flt := rfl
@[simp] theorem stopQueue_obs (s : State) (q : Nat) (r : StopReason) : (stopQueue s q r).obs = s.obs := rfl
@[simp] theorem stopQueue_mgt (s : State) (q : Nat) (r : StopReason) : (stopQueue s q r).mgt = s.mgt := rfl
@[simp] theorem stopQueue_crb (s : State) (q : Nat) (r : StopReason) : (stopQueue s q r).crb = s.crb := rfl
@[simp] theorem stopQueue_test (s : State) (q : Nat) (r : StopReason) : (stopQueue s q r).test = s.test := rfl

/-! ### updN -/

@[simp] theorem updN_pending (s : State) (n : Nat) (f : NodeRec → NodeRec) : (updN s n f).pending = s.pending := rfl
@[simp] theorem updN_out (s : State) (n : Nat) (f : NodeRec → NodeRec) : (updN s n f).out = s.out := rfl
@[simp] theorem updN_ts (s : State) (n : Nat) (f : NodeRec → NodeRec) : (updN s n f).ts = s.ts := rfl
@[simp] theorem updN_free (s : State) (n : Nat) (f : NodeRec → NodeRec) : (updN s n f).free = s.free := rfl
@[simp] theorem updN_agents (s : State) (n : Nat) (f : NodeRec → NodeRec) : (updN s n f).agents = s.agents := rfl
@[simp] theorem updN_apEng (s : State) (n : Nat) (f : NodeRec → NodeRec) : (updN s n f).apEng = s.apEng := rfl
@[simp] theorem updN_regs (s : State) (n : Nat) (f : NodeRec → NodeRec) : (updN s n f).regs = s.regs := rfl
@[simp] theorem updN_mem (s : State) (n : Nat) (f : NodeRec → NodeRec) : (updN s n f).mem = s.mem := rfl
@[simp] theorem updN_parts (s : State) (n : Nat) (f : NodeRec → NodeRec) : (updN s n f).parts = s.parts := rfl
@[simp] theorem updN_queues (s : State) (n : Nat) (f : NodeRec → NodeRec) : (updN s n f).queues = s.queues := rfl
@[simp] theorem updN_hif (s : State) (n : Nat) (f : NodeRec → NodeRec) : (updN s n f).hif = s.hif := rfl
@[simp] theorem updN_cfe (s : State) (n : Nat) (f : NodeRec → NodeRec) : (updN s n f).cfe = s.cfe := rfl
@[simp] theorem updN_aut (s : State) (n : Nat) (f : NodeRec → NodeRec) : (updN s n f).aut = s.aut := rfl
@[simp] theorem updN_tly (s : State) (n : Nat) (f : NodeRec → NodeRec) : (updN s n f).tly = s.tly := rfl
@[simp] theorem updN_dis (s : State) (n : Nat) (f : NodeRec → NodeRec) : (updN s n f).dis = s.dis := rfl
@[simp] theorem updN_agt (s : State) (n : Nat) (f : NodeRec → NodeRec) : (updN s n f).agt = s.agt := rfl
@[simp] theorem updN_codeLoads (s : State) (n : Nat) (f : NodeRec → NodeRec) :
    (updN s n f).codeLoads = s.codeLoads := rfl
@[simp] theorem updN_pdm (s : State) (n : Nat) (f : NodeRec → NodeRec) : (updN s n f).pdm = s.pdm := rfl
@[simp] theorem updN_chn (s : State) (n : Nat) (f : NodeRec → NodeRec) : (updN s n f).chn = s.chn := rfl
@[simp] theorem updN_bau (s : State) (n : Nat) (f : NodeRec → NodeRec) : (updN s n f).bau = s.bau := rfl
@[simp] theorem updN_rte (s : State) (n : Nat) (f : NodeRec → NodeRec) : (updN s n f).rte = s.rte := rfl
@[simp] theorem updN_cmb (s : State) (n : Nat) (f : NodeRec → NodeRec) : (updN s n f).cmb = s.cmb := rfl
@[simp] theorem updN_held (s : State) (n : Nat) (f : NodeRec → NodeRec) : (updN s n f).held = s.held := rfl
@[simp] theorem updN_beam (s : State) (n : Nat) (f : NodeRec → NodeRec) : (updN s n f).beam = s.beam := rfl
@[simp] theorem updN_slt (s : State) (n : Nat) (f : NodeRec → NodeRec) : (updN s n f).slt = s.slt := rfl
@[simp] theorem updN_fab (s : State) (n : Nat) (f : NodeRec → NodeRec) : (updN s n f).fab = s.fab := rfl
@[simp] theorem updN_flt (s : State) (n : Nat) (f : NodeRec → NodeRec) : (updN s n f).flt = s.flt := rfl
@[simp] theorem updN_obs (s : State) (n : Nat) (f : NodeRec → NodeRec) : (updN s n f).obs = s.obs := rfl
@[simp] theorem updN_mgt (s : State) (n : Nat) (f : NodeRec → NodeRec) : (updN s n f).mgt = s.mgt := rfl
@[simp] theorem updN_crb (s : State) (n : Nat) (f : NodeRec → NodeRec) : (updN s n f).crb = s.crb := rfl
@[simp] theorem updN_test (s : State) (n : Nat) (f : NodeRec → NodeRec) : (updN s n f).test = s.test := rfl

/-! ### updH -/

@[simp] theorem updH_pending (s : State) (h : Nat) (f : Header → Header) : (updH s h f).pending = s.pending := rfl
@[simp] theorem updH_out (s : State) (h : Nat) (f : Header → Header) : (updH s h f).out = s.out := rfl
@[simp] theorem updH_ts (s : State) (h : Nat) (f : Header → Header) : (updH s h f).ts = s.ts := rfl
@[simp] theorem updH_free (s : State) (h : Nat) (f : Header → Header) : (updH s h f).free = s.free := rfl
@[simp] theorem updH_agents (s : State) (h : Nat) (f : Header → Header) : (updH s h f).agents = s.agents := rfl
@[simp] theorem updH_apEng (s : State) (h : Nat) (f : Header → Header) : (updH s h f).apEng = s.apEng := rfl
@[simp] theorem updH_regs (s : State) (h : Nat) (f : Header → Header) : (updH s h f).regs = s.regs := rfl
@[simp] theorem updH_mem (s : State) (h : Nat) (f : Header → Header) : (updH s h f).mem = s.mem := rfl
@[simp] theorem updH_parts (s : State) (h : Nat) (f : Header → Header) : (updH s h f).parts = s.parts := rfl
@[simp] theorem updH_queues (s : State) (h : Nat) (f : Header → Header) : (updH s h f).queues = s.queues := rfl
@[simp] theorem updH_hif (s : State) (h : Nat) (f : Header → Header) : (updH s h f).hif = s.hif := rfl
@[simp] theorem updH_cfe (s : State) (h : Nat) (f : Header → Header) : (updH s h f).cfe = s.cfe := rfl
@[simp] theorem updH_aut (s : State) (h : Nat) (f : Header → Header) : (updH s h f).aut = s.aut := rfl
@[simp] theorem updH_tly (s : State) (h : Nat) (f : Header → Header) : (updH s h f).tly = s.tly := rfl
@[simp] theorem updH_dis (s : State) (h : Nat) (f : Header → Header) : (updH s h f).dis = s.dis := rfl
@[simp] theorem updH_agt (s : State) (h : Nat) (f : Header → Header) : (updH s h f).agt = s.agt := rfl
@[simp] theorem updH_codeLoads (s : State) (h : Nat) (f : Header → Header) : (updH s h f).codeLoads = s.codeLoads := rfl
@[simp] theorem updH_pdm (s : State) (h : Nat) (f : Header → Header) : (updH s h f).pdm = s.pdm := rfl
@[simp] theorem updH_chn (s : State) (h : Nat) (f : Header → Header) : (updH s h f).chn = s.chn := rfl
@[simp] theorem updH_bau (s : State) (h : Nat) (f : Header → Header) : (updH s h f).bau = s.bau := rfl
@[simp] theorem updH_rte (s : State) (h : Nat) (f : Header → Header) : (updH s h f).rte = s.rte := rfl
@[simp] theorem updH_cmb (s : State) (h : Nat) (f : Header → Header) : (updH s h f).cmb = s.cmb := rfl
@[simp] theorem updH_held (s : State) (h : Nat) (f : Header → Header) : (updH s h f).held = s.held := rfl
@[simp] theorem updH_beam (s : State) (h : Nat) (f : Header → Header) : (updH s h f).beam = s.beam := rfl
@[simp] theorem updH_slt (s : State) (h : Nat) (f : Header → Header) : (updH s h f).slt = s.slt := rfl
@[simp] theorem updH_fab (s : State) (h : Nat) (f : Header → Header) : (updH s h f).fab = s.fab := rfl
@[simp] theorem updH_flt (s : State) (h : Nat) (f : Header → Header) : (updH s h f).flt = s.flt := rfl
@[simp] theorem updH_obs (s : State) (h : Nat) (f : Header → Header) : (updH s h f).obs = s.obs := rfl
@[simp] theorem updH_mgt (s : State) (h : Nat) (f : Header → Header) : (updH s h f).mgt = s.mgt := rfl
@[simp] theorem updH_crb (s : State) (h : Nat) (f : Header → Header) : (updH s h f).crb = s.crb := rfl
@[simp] theorem updH_test (s : State) (h : Nat) (f : Header → Header) : (updH s h f).test = s.test := rfl

/-! ### updA -/

@[simp] theorem updA_pending (s : State) (a : Nat) (f : Agent → Agent) : (updA s a f).pending = s.pending := rfl
@[simp] theorem updA_out (s : State) (a : Nat) (f : Agent → Agent) : (updA s a f).out = s.out := rfl
@[simp] theorem updA_ts (s : State) (a : Nat) (f : Agent → Agent) : (updA s a f).ts = s.ts := rfl
@[simp] theorem updA_free (s : State) (a : Nat) (f : Agent → Agent) : (updA s a f).free = s.free := rfl
@[simp] theorem updA_agents (s : State) (a : Nat) (f : Agent → Agent) : (updA s a f).agents = s.agents := rfl
@[simp] theorem updA_apEng (s : State) (a : Nat) (f : Agent → Agent) : (updA s a f).apEng = s.apEng := rfl
@[simp] theorem updA_regs (s : State) (a : Nat) (f : Agent → Agent) : (updA s a f).regs = s.regs := rfl
@[simp] theorem updA_mem (s : State) (a : Nat) (f : Agent → Agent) : (updA s a f).mem = s.mem := rfl
@[simp] theorem updA_parts (s : State) (a : Nat) (f : Agent → Agent) : (updA s a f).parts = s.parts := rfl
@[simp] theorem updA_queues (s : State) (a : Nat) (f : Agent → Agent) : (updA s a f).queues = s.queues := rfl
@[simp] theorem updA_hif (s : State) (a : Nat) (f : Agent → Agent) : (updA s a f).hif = s.hif := rfl
@[simp] theorem updA_cfe (s : State) (a : Nat) (f : Agent → Agent) : (updA s a f).cfe = s.cfe := rfl
@[simp] theorem updA_aut (s : State) (a : Nat) (f : Agent → Agent) : (updA s a f).aut = s.aut := rfl
@[simp] theorem updA_grs (s : State) (a : Nat) (f : Agent → Agent) : (updA s a f).grs = s.grs := rfl
@[simp] theorem updA_tly (s : State) (a : Nat) (f : Agent → Agent) : (updA s a f).tly = s.tly := rfl
@[simp] theorem updA_dis (s : State) (a : Nat) (f : Agent → Agent) : (updA s a f).dis = s.dis := rfl
@[simp] theorem updA_agt (s : State) (a : Nat) (f : Agent → Agent) : (updA s a f).agt = s.agt.upd a f := rfl
@[simp] theorem updA_codeLoads (s : State) (a : Nat) (f : Agent → Agent) : (updA s a f).codeLoads = s.codeLoads := rfl
@[simp] theorem updA_pdm (s : State) (a : Nat) (f : Agent → Agent) : (updA s a f).pdm = s.pdm := rfl
@[simp] theorem updA_chn (s : State) (a : Nat) (f : Agent → Agent) : (updA s a f).chn = s.chn := rfl
@[simp] theorem updA_bau (s : State) (a : Nat) (f : Agent → Agent) : (updA s a f).bau = s.bau := rfl
@[simp] theorem updA_rte (s : State) (a : Nat) (f : Agent → Agent) : (updA s a f).rte = s.rte := rfl
@[simp] theorem updA_cmb (s : State) (a : Nat) (f : Agent → Agent) : (updA s a f).cmb = s.cmb := rfl
@[simp] theorem updA_held (s : State) (a : Nat) (f : Agent → Agent) : (updA s a f).held = s.held := rfl
@[simp] theorem updA_beam (s : State) (a : Nat) (f : Agent → Agent) : (updA s a f).beam = s.beam := rfl
@[simp] theorem updA_slt (s : State) (a : Nat) (f : Agent → Agent) : (updA s a f).slt = s.slt := rfl
@[simp] theorem updA_fab (s : State) (a : Nat) (f : Agent → Agent) : (updA s a f).fab = s.fab := rfl
@[simp] theorem updA_flt (s : State) (a : Nat) (f : Agent → Agent) : (updA s a f).flt = s.flt := rfl
@[simp] theorem updA_obs (s : State) (a : Nat) (f : Agent → Agent) : (updA s a f).obs = s.obs := rfl
@[simp] theorem updA_mgt (s : State) (a : Nat) (f : Agent → Agent) : (updA s a f).mgt = s.mgt := rfl
@[simp] theorem updA_crb (s : State) (a : Nat) (f : Agent → Agent) : (updA s a f).crb = s.crb := rfl
@[simp] theorem updA_test (s : State) (a : Nat) (f : Agent → Agent) : (updA s a f).test = s.test := rfl

/-! ### updR -/

@[simp] theorem updR_pending (s : State) (a : Nat) (f : Rkn → Rkn) : (updR s a f).pending = s.pending := rfl
@[simp] theorem updR_out (s : State) (a : Nat) (f : Rkn → Rkn) : (updR s a f).out = s.out := rfl
@[simp] theorem updR_ts (s : State) (a : Nat) (f : Rkn → Rkn) : (updR s a f).ts = s.ts := rfl
@[simp] theorem updR_free (s : State) (a : Nat) (f : Rkn → Rkn) : (updR s a f).free = s.free := rfl
@[simp] theorem updR_agents (s : State) (a : Nat) (f : Rkn → Rkn) : (updR s a f).agents = s.agents := rfl
@[simp] theorem updR_apEng (s : State) (a : Nat) (f : Rkn → Rkn) : (updR s a f).apEng = s.apEng := rfl
@[simp] theorem updR_regs (s : State) (a : Nat) (f : Rkn → Rkn) : (updR s a f).regs = s.regs := rfl
@[simp] theorem updR_mem (s : State) (a : Nat) (f : Rkn → Rkn) : (updR s a f).mem = s.mem := rfl
@[simp] theorem updR_parts (s : State) (a : Nat) (f : Rkn → Rkn) : (updR s a f).parts = s.parts := rfl
@[simp] theorem updR_queues (s : State) (a : Nat) (f : Rkn → Rkn) : (updR s a f).queues = s.queues := rfl
@[simp] theorem updR_hif (s : State) (a : Nat) (f : Rkn → Rkn) : (updR s a f).hif = s.hif := rfl
@[simp] theorem updR_cfe (s : State) (a : Nat) (f : Rkn → Rkn) : (updR s a f).cfe = s.cfe := rfl
@[simp] theorem updR_aut (s : State) (a : Nat) (f : Rkn → Rkn) : (updR s a f).aut = s.aut := rfl
@[simp] theorem updR_grs (s : State) (a : Nat) (f : Rkn → Rkn) : (updR s a f).grs = s.grs := rfl
@[simp] theorem updR_tly (s : State) (a : Nat) (f : Rkn → Rkn) : (updR s a f).tly = s.tly := rfl
@[simp] theorem updR_dis (s : State) (a : Nat) (f : Rkn → Rkn) : (updR s a f).dis = s.dis := rfl
@[simp] theorem updR_agt (s : State) (a : Nat) (f : Rkn → Rkn) :
    (updR s a f).agt = s.agt.upd a fun x => { x with rkn := f x.rkn } := rfl
@[simp] theorem updR_codeLoads (s : State) (a : Nat) (f : Rkn → Rkn) : (updR s a f).codeLoads = s.codeLoads := rfl
@[simp] theorem updR_pdm (s : State) (a : Nat) (f : Rkn → Rkn) : (updR s a f).pdm = s.pdm := rfl
@[simp] theorem updR_chn (s : State) (a : Nat) (f : Rkn → Rkn) : (updR s a f).chn = s.chn := rfl
@[simp] theorem updR_bau (s : State) (a : Nat) (f : Rkn → Rkn) : (updR s a f).bau = s.bau := rfl
@[simp] theorem updR_rte (s : State) (a : Nat) (f : Rkn → Rkn) : (updR s a f).rte = s.rte := rfl
@[simp] theorem updR_cmb (s : State) (a : Nat) (f : Rkn → Rkn) : (updR s a f).cmb = s.cmb := rfl
@[simp] theorem updR_held (s : State) (a : Nat) (f : Rkn → Rkn) : (updR s a f).held = s.held := rfl
@[simp] theorem updR_beam (s : State) (a : Nat) (f : Rkn → Rkn) : (updR s a f).beam = s.beam := rfl
@[simp] theorem updR_slt (s : State) (a : Nat) (f : Rkn → Rkn) : (updR s a f).slt = s.slt := rfl
@[simp] theorem updR_fab (s : State) (a : Nat) (f : Rkn → Rkn) : (updR s a f).fab = s.fab := rfl
@[simp] theorem updR_flt (s : State) (a : Nat) (f : Rkn → Rkn) : (updR s a f).flt = s.flt := rfl
@[simp] theorem updR_obs (s : State) (a : Nat) (f : Rkn → Rkn) : (updR s a f).obs = s.obs := rfl
@[simp] theorem updR_mgt (s : State) (a : Nat) (f : Rkn → Rkn) : (updR s a f).mgt = s.mgt := rfl
@[simp] theorem updR_crb (s : State) (a : Nat) (f : Rkn → Rkn) : (updR s a f).crb = s.crb := rfl
@[simp] theorem updR_test (s : State) (a : Nat) (f : Rkn → Rkn) : (updR s a f).test = s.test := rfl

/-! ### updC -/

@[simp] theorem updC_pending (s : State) (c : Nat) (f : Chan → Chan) : (updC s c f).pending = s.pending := rfl
@[simp] theorem updC_out (s : State) (c : Nat) (f : Chan → Chan) : (updC s c f).out = s.out := rfl
@[simp] theorem updC_ts (s : State) (c : Nat) (f : Chan → Chan) : (updC s c f).ts = s.ts := rfl
@[simp] theorem updC_free (s : State) (c : Nat) (f : Chan → Chan) : (updC s c f).free = s.free := rfl
@[simp] theorem updC_agents (s : State) (c : Nat) (f : Chan → Chan) : (updC s c f).agents = s.agents := rfl
@[simp] theorem updC_apEng (s : State) (c : Nat) (f : Chan → Chan) : (updC s c f).apEng = s.apEng := rfl
@[simp] theorem updC_regs (s : State) (c : Nat) (f : Chan → Chan) : (updC s c f).regs = s.regs := rfl
@[simp] theorem updC_mem (s : State) (c : Nat) (f : Chan → Chan) : (updC s c f).mem = s.mem := rfl
@[simp] theorem updC_parts (s : State) (c : Nat) (f : Chan → Chan) : (updC s c f).parts = s.parts := rfl
@[simp] theorem updC_queues (s : State) (c : Nat) (f : Chan → Chan) : (updC s c f).queues = s.queues := rfl
@[simp] theorem updC_hif (s : State) (c : Nat) (f : Chan → Chan) : (updC s c f).hif = s.hif := rfl
@[simp] theorem updC_cfe (s : State) (c : Nat) (f : Chan → Chan) : (updC s c f).cfe = s.cfe := rfl
@[simp] theorem updC_aut (s : State) (c : Nat) (f : Chan → Chan) : (updC s c f).aut = s.aut := rfl
@[simp] theorem updC_grs (s : State) (c : Nat) (f : Chan → Chan) : (updC s c f).grs = s.grs := rfl
@[simp] theorem updC_tly (s : State) (c : Nat) (f : Chan → Chan) : (updC s c f).tly = s.tly := rfl
@[simp] theorem updC_dis (s : State) (c : Nat) (f : Chan → Chan) : (updC s c f).dis = s.dis := rfl
@[simp] theorem updC_agt (s : State) (c : Nat) (f : Chan → Chan) : (updC s c f).agt = s.agt := rfl
@[simp] theorem updC_codeLoads (s : State) (c : Nat) (f : Chan → Chan) : (updC s c f).codeLoads = s.codeLoads := rfl
@[simp] theorem updC_pdm (s : State) (c : Nat) (f : Chan → Chan) : (updC s c f).pdm = s.pdm := rfl
@[simp] theorem updC_bau (s : State) (c : Nat) (f : Chan → Chan) : (updC s c f).bau = s.bau := rfl
@[simp] theorem updC_rte (s : State) (c : Nat) (f : Chan → Chan) : (updC s c f).rte = s.rte := rfl
@[simp] theorem updC_cmb (s : State) (c : Nat) (f : Chan → Chan) : (updC s c f).cmb = s.cmb := rfl
@[simp] theorem updC_held (s : State) (c : Nat) (f : Chan → Chan) : (updC s c f).held = s.held := rfl
@[simp] theorem updC_beam (s : State) (c : Nat) (f : Chan → Chan) : (updC s c f).beam = s.beam := rfl
@[simp] theorem updC_slt (s : State) (c : Nat) (f : Chan → Chan) : (updC s c f).slt = s.slt := rfl
@[simp] theorem updC_fab (s : State) (c : Nat) (f : Chan → Chan) : (updC s c f).fab = s.fab := rfl
@[simp] theorem updC_flt (s : State) (c : Nat) (f : Chan → Chan) : (updC s c f).flt = s.flt := rfl
@[simp] theorem updC_obs (s : State) (c : Nat) (f : Chan → Chan) : (updC s c f).obs = s.obs := rfl
@[simp] theorem updC_mgt (s : State) (c : Nat) (f : Chan → Chan) : (updC s c f).mgt = s.mgt := rfl
@[simp] theorem updC_crb (s : State) (c : Nat) (f : Chan → Chan) : (updC s c f).crb = s.crb := rfl
@[simp] theorem updC_test (s : State) (c : Nat) (f : Chan → Chan) : (updC s c f).test = s.test := rfl

/-! ### updB -/

@[simp] theorem updB_pending (s : State) (b : Nat) (f : Bar → Bar) : (updB s b f).pending = s.pending := rfl
@[simp] theorem updB_out (s : State) (b : Nat) (f : Bar → Bar) : (updB s b f).out = s.out := rfl
@[simp] theorem updB_ts (s : State) (b : Nat) (f : Bar → Bar) : (updB s b f).ts = s.ts := rfl
@[simp] theorem updB_free (s : State) (b : Nat) (f : Bar → Bar) : (updB s b f).free = s.free := rfl
@[simp] theorem updB_agents (s : State) (b : Nat) (f : Bar → Bar) : (updB s b f).agents = s.agents := rfl
@[simp] theorem updB_apEng (s : State) (b : Nat) (f : Bar → Bar) : (updB s b f).apEng = s.apEng := rfl
@[simp] theorem updB_regs (s : State) (b : Nat) (f : Bar → Bar) : (updB s b f).regs = s.regs := rfl
@[simp] theorem updB_mem (s : State) (b : Nat) (f : Bar → Bar) : (updB s b f).mem = s.mem := rfl
@[simp] theorem updB_parts (s : State) (b : Nat) (f : Bar → Bar) : (updB s b f).parts = s.parts := rfl
@[simp] theorem updB_queues (s : State) (b : Nat) (f : Bar → Bar) : (updB s b f).queues = s.queues := rfl
@[simp] theorem updB_hif (s : State) (b : Nat) (f : Bar → Bar) : (updB s b f).hif = s.hif := rfl
@[simp] theorem updB_cfe (s : State) (b : Nat) (f : Bar → Bar) : (updB s b f).cfe = s.cfe := rfl
@[simp] theorem updB_aut (s : State) (b : Nat) (f : Bar → Bar) : (updB s b f).aut = s.aut := rfl
@[simp] theorem updB_grs (s : State) (b : Nat) (f : Bar → Bar) : (updB s b f).grs = s.grs := rfl
@[simp] theorem updB_tly (s : State) (b : Nat) (f : Bar → Bar) : (updB s b f).tly = s.tly := rfl
@[simp] theorem updB_dis (s : State) (b : Nat) (f : Bar → Bar) : (updB s b f).dis = s.dis := rfl
@[simp] theorem updB_agt (s : State) (b : Nat) (f : Bar → Bar) : (updB s b f).agt = s.agt := rfl
@[simp] theorem updB_codeLoads (s : State) (b : Nat) (f : Bar → Bar) : (updB s b f).codeLoads = s.codeLoads := rfl
@[simp] theorem updB_pdm (s : State) (b : Nat) (f : Bar → Bar) : (updB s b f).pdm = s.pdm := rfl
@[simp] theorem updB_chn (s : State) (b : Nat) (f : Bar → Bar) : (updB s b f).chn = s.chn := rfl
@[simp] theorem updB_rte (s : State) (b : Nat) (f : Bar → Bar) : (updB s b f).rte = s.rte := rfl
@[simp] theorem updB_cmb (s : State) (b : Nat) (f : Bar → Bar) : (updB s b f).cmb = s.cmb := rfl
@[simp] theorem updB_held (s : State) (b : Nat) (f : Bar → Bar) : (updB s b f).held = s.held := rfl
@[simp] theorem updB_beam (s : State) (b : Nat) (f : Bar → Bar) : (updB s b f).beam = s.beam := rfl
@[simp] theorem updB_slt (s : State) (b : Nat) (f : Bar → Bar) : (updB s b f).slt = s.slt := rfl
@[simp] theorem updB_fab (s : State) (b : Nat) (f : Bar → Bar) : (updB s b f).fab = s.fab := rfl
@[simp] theorem updB_flt (s : State) (b : Nat) (f : Bar → Bar) : (updB s b f).flt = s.flt := rfl
@[simp] theorem updB_obs (s : State) (b : Nat) (f : Bar → Bar) : (updB s b f).obs = s.obs := rfl
@[simp] theorem updB_mgt (s : State) (b : Nat) (f : Bar → Bar) : (updB s b f).mgt = s.mgt := rfl
@[simp] theorem updB_crb (s : State) (b : Nat) (f : Bar → Bar) : (updB s b f).crb = s.crb := rfl
@[simp] theorem updB_test (s : State) (b : Nat) (f : Bar → Bar) : (updB s b f).test = s.test := rfl

/-! ### updG -/

@[simp] theorem updG_pending (s : State) (g : Nat) (f : CmbGrp → CmbGrp) : (updG s g f).pending = s.pending := rfl
@[simp] theorem updG_out (s : State) (g : Nat) (f : CmbGrp → CmbGrp) : (updG s g f).out = s.out := rfl
@[simp] theorem updG_ts (s : State) (g : Nat) (f : CmbGrp → CmbGrp) : (updG s g f).ts = s.ts := rfl
@[simp] theorem updG_free (s : State) (g : Nat) (f : CmbGrp → CmbGrp) : (updG s g f).free = s.free := rfl
@[simp] theorem updG_agents (s : State) (g : Nat) (f : CmbGrp → CmbGrp) : (updG s g f).agents = s.agents := rfl
@[simp] theorem updG_apEng (s : State) (g : Nat) (f : CmbGrp → CmbGrp) : (updG s g f).apEng = s.apEng := rfl
@[simp] theorem updG_regs (s : State) (g : Nat) (f : CmbGrp → CmbGrp) : (updG s g f).regs = s.regs := rfl
@[simp] theorem updG_mem (s : State) (g : Nat) (f : CmbGrp → CmbGrp) : (updG s g f).mem = s.mem := rfl
@[simp] theorem updG_parts (s : State) (g : Nat) (f : CmbGrp → CmbGrp) : (updG s g f).parts = s.parts := rfl
@[simp] theorem updG_queues (s : State) (g : Nat) (f : CmbGrp → CmbGrp) : (updG s g f).queues = s.queues := rfl
@[simp] theorem updG_hif (s : State) (g : Nat) (f : CmbGrp → CmbGrp) : (updG s g f).hif = s.hif := rfl
@[simp] theorem updG_cfe (s : State) (g : Nat) (f : CmbGrp → CmbGrp) : (updG s g f).cfe = s.cfe := rfl
@[simp] theorem updG_aut (s : State) (g : Nat) (f : CmbGrp → CmbGrp) : (updG s g f).aut = s.aut := rfl
@[simp] theorem updG_grs (s : State) (g : Nat) (f : CmbGrp → CmbGrp) : (updG s g f).grs = s.grs := rfl
@[simp] theorem updG_tly (s : State) (g : Nat) (f : CmbGrp → CmbGrp) : (updG s g f).tly = s.tly := rfl
@[simp] theorem updG_dis (s : State) (g : Nat) (f : CmbGrp → CmbGrp) : (updG s g f).dis = s.dis := rfl
@[simp] theorem updG_agt (s : State) (g : Nat) (f : CmbGrp → CmbGrp) : (updG s g f).agt = s.agt := rfl
@[simp] theorem updG_codeLoads (s : State) (g : Nat) (f : CmbGrp → CmbGrp) : (updG s g f).codeLoads = s.codeLoads := rfl
@[simp] theorem updG_pdm (s : State) (g : Nat) (f : CmbGrp → CmbGrp) : (updG s g f).pdm = s.pdm := rfl
@[simp] theorem updG_chn (s : State) (g : Nat) (f : CmbGrp → CmbGrp) : (updG s g f).chn = s.chn := rfl
@[simp] theorem updG_bau (s : State) (g : Nat) (f : CmbGrp → CmbGrp) : (updG s g f).bau = s.bau := rfl
@[simp] theorem updG_rte (s : State) (g : Nat) (f : CmbGrp → CmbGrp) : (updG s g f).rte = s.rte := rfl
@[simp] theorem updG_held (s : State) (g : Nat) (f : CmbGrp → CmbGrp) : (updG s g f).held = s.held := rfl
@[simp] theorem updG_beam (s : State) (g : Nat) (f : CmbGrp → CmbGrp) : (updG s g f).beam = s.beam := rfl
@[simp] theorem updG_slt (s : State) (g : Nat) (f : CmbGrp → CmbGrp) : (updG s g f).slt = s.slt := rfl
@[simp] theorem updG_fab (s : State) (g : Nat) (f : CmbGrp → CmbGrp) : (updG s g f).fab = s.fab := rfl
@[simp] theorem updG_flt (s : State) (g : Nat) (f : CmbGrp → CmbGrp) : (updG s g f).flt = s.flt := rfl
@[simp] theorem updG_obs (s : State) (g : Nat) (f : CmbGrp → CmbGrp) : (updG s g f).obs = s.obs := rfl
@[simp] theorem updG_mgt (s : State) (g : Nat) (f : CmbGrp → CmbGrp) : (updG s g f).mgt = s.mgt := rfl
@[simp] theorem updG_crb (s : State) (g : Nat) (f : CmbGrp → CmbGrp) : (updG s g f).crb = s.crb := rfl
@[simp] theorem updG_test (s : State) (g : Nat) (f : CmbGrp → CmbGrp) : (updG s g f).test = s.test := rfl

/-! ### updRc -/

@[simp] theorem updRc_pending (s : State) (r : Nat) (f : RteEnt → RteEnt) : (updRc s r f).pending = s.pending := rfl
@[simp] theorem updRc_out (s : State) (r : Nat) (f : RteEnt → RteEnt) : (updRc s r f).out = s.out := rfl
@[simp] theorem updRc_ts (s : State) (r : Nat) (f : RteEnt → RteEnt) : (updRc s r f).ts = s.ts := rfl
@[simp] theorem updRc_free (s : State) (r : Nat) (f : RteEnt → RteEnt) : (updRc s r f).free = s.free := rfl
@[simp] theorem updRc_agents (s : State) (r : Nat) (f : RteEnt → RteEnt) : (updRc s r f).agents = s.agents := rfl
@[simp] theorem updRc_apEng (s : State) (r : Nat) (f : RteEnt → RteEnt) : (updRc s r f).apEng = s.apEng := rfl
@[simp] theorem updRc_regs (s : State) (r : Nat) (f : RteEnt → RteEnt) : (updRc s r f).regs = s.regs := rfl
@[simp] theorem updRc_mem (s : State) (r : Nat) (f : RteEnt → RteEnt) : (updRc s r f).mem = s.mem := rfl
@[simp] theorem updRc_parts (s : State) (r : Nat) (f : RteEnt → RteEnt) : (updRc s r f).parts = s.parts := rfl
@[simp] theorem updRc_queues (s : State) (r : Nat) (f : RteEnt → RteEnt) : (updRc s r f).queues = s.queues := rfl
@[simp] theorem updRc_hif (s : State) (r : Nat) (f : RteEnt → RteEnt) : (updRc s r f).hif = s.hif := rfl
@[simp] theorem updRc_cfe (s : State) (r : Nat) (f : RteEnt → RteEnt) : (updRc s r f).cfe = s.cfe := rfl
@[simp] theorem updRc_aut (s : State) (r : Nat) (f : RteEnt → RteEnt) : (updRc s r f).aut = s.aut := rfl
@[simp] theorem updRc_grs (s : State) (r : Nat) (f : RteEnt → RteEnt) : (updRc s r f).grs = s.grs := rfl
@[simp] theorem updRc_tly (s : State) (r : Nat) (f : RteEnt → RteEnt) : (updRc s r f).tly = s.tly := rfl
@[simp] theorem updRc_dis (s : State) (r : Nat) (f : RteEnt → RteEnt) : (updRc s r f).dis = s.dis := rfl
@[simp] theorem updRc_agt (s : State) (r : Nat) (f : RteEnt → RteEnt) : (updRc s r f).agt = s.agt := rfl
@[simp] theorem updRc_codeLoads (s : State) (r : Nat) (f : RteEnt → RteEnt) :
    (updRc s r f).codeLoads = s.codeLoads := rfl
@[simp] theorem updRc_pdm (s : State) (r : Nat) (f : RteEnt → RteEnt) : (updRc s r f).pdm = s.pdm := rfl
@[simp] theorem updRc_chn (s : State) (r : Nat) (f : RteEnt → RteEnt) : (updRc s r f).chn = s.chn := rfl
@[simp] theorem updRc_bau (s : State) (r : Nat) (f : RteEnt → RteEnt) : (updRc s r f).bau = s.bau := rfl
@[simp] theorem updRc_cmb (s : State) (r : Nat) (f : RteEnt → RteEnt) : (updRc s r f).cmb = s.cmb := rfl
@[simp] theorem updRc_held (s : State) (r : Nat) (f : RteEnt → RteEnt) : (updRc s r f).held = s.held := rfl
@[simp] theorem updRc_beam (s : State) (r : Nat) (f : RteEnt → RteEnt) : (updRc s r f).beam = s.beam := rfl
@[simp] theorem updRc_slt (s : State) (r : Nat) (f : RteEnt → RteEnt) : (updRc s r f).slt = s.slt := rfl
@[simp] theorem updRc_fab (s : State) (r : Nat) (f : RteEnt → RteEnt) : (updRc s r f).fab = s.fab := rfl
@[simp] theorem updRc_flt (s : State) (r : Nat) (f : RteEnt → RteEnt) : (updRc s r f).flt = s.flt := rfl
@[simp] theorem updRc_obs (s : State) (r : Nat) (f : RteEnt → RteEnt) : (updRc s r f).obs = s.obs := rfl
@[simp] theorem updRc_mgt (s : State) (r : Nat) (f : RteEnt → RteEnt) : (updRc s r f).mgt = s.mgt := rfl
@[simp] theorem updRc_crb (s : State) (r : Nat) (f : RteEnt → RteEnt) : (updRc s r f).crb = s.crb := rfl
@[simp] theorem updRc_test (s : State) (r : Nat) (f : RteEnt → RteEnt) : (updRc s r f).test = s.test := rfl

/-! ### updBt -/

@[simp] theorem updBt_pending (s : State) (b : Nat) (f : BatchTable → BatchTable) :
    (updBt s b f).pending = s.pending := rfl
@[simp] theorem updBt_out (s : State) (b : Nat) (f : BatchTable → BatchTable) : (updBt s b f).out = s.out := rfl
@[simp] theorem updBt_ts (s : State) (b : Nat) (f : BatchTable → BatchTable) : (updBt s b f).ts = s.ts := rfl
@[simp] theorem updBt_free (s : State) (b : Nat) (f : BatchTable → BatchTable) : (updBt s b f).free = s.free := rfl
@[simp] theorem updBt_agents (s : State) (b : Nat) (f : BatchTable → BatchTable) :
    (updBt s b f).agents = s.agents := rfl
@[simp] theorem updBt_apEng (s : State) (b : Nat) (f : BatchTable → BatchTable) : (updBt s b f).apEng = s.apEng := rfl
@[simp] theorem updBt_regs (s : State) (b : Nat) (f : BatchTable → BatchTable) : (updBt s b f).regs = s.regs := rfl
@[simp] theorem updBt_mem (s : State) (b : Nat) (f : BatchTable → BatchTable) : (updBt s b f).mem = s.mem := rfl
@[simp] theorem updBt_parts (s : State) (b : Nat) (f : BatchTable → BatchTable) : (updBt s b f).parts = s.parts := rfl
@[simp] theorem updBt_queues (s : State) (b : Nat) (f : BatchTable → BatchTable) :
    (updBt s b f).queues = s.queues := rfl
@[simp] theorem updBt_hif (s : State) (b : Nat) (f : BatchTable → BatchTable) : (updBt s b f).hif = s.hif := rfl
@[simp] theorem updBt_cfe (s : State) (b : Nat) (f : BatchTable → BatchTable) : (updBt s b f).cfe = s.cfe := rfl
@[simp] theorem updBt_aut (s : State) (b : Nat) (f : BatchTable → BatchTable) : (updBt s b f).aut = s.aut := rfl
@[simp] theorem updBt_grs (s : State) (b : Nat) (f : BatchTable → BatchTable) : (updBt s b f).grs = s.grs := rfl
@[simp] theorem updBt_tly (s : State) (b : Nat) (f : BatchTable → BatchTable) : (updBt s b f).tly = s.tly := rfl
@[simp] theorem updBt_dis (s : State) (b : Nat) (f : BatchTable → BatchTable) : (updBt s b f).dis = s.dis := rfl
@[simp] theorem updBt_agt (s : State) (b : Nat) (f : BatchTable → BatchTable) : (updBt s b f).agt = s.agt := rfl
@[simp] theorem updBt_codeLoads (s : State) (b : Nat) (f : BatchTable → BatchTable) :
    (updBt s b f).codeLoads = s.codeLoads := rfl
@[simp] theorem updBt_chn (s : State) (b : Nat) (f : BatchTable → BatchTable) : (updBt s b f).chn = s.chn := rfl
@[simp] theorem updBt_bau (s : State) (b : Nat) (f : BatchTable → BatchTable) : (updBt s b f).bau = s.bau := rfl
@[simp] theorem updBt_rte (s : State) (b : Nat) (f : BatchTable → BatchTable) : (updBt s b f).rte = s.rte := rfl
@[simp] theorem updBt_cmb (s : State) (b : Nat) (f : BatchTable → BatchTable) : (updBt s b f).cmb = s.cmb := rfl
@[simp] theorem updBt_held (s : State) (b : Nat) (f : BatchTable → BatchTable) : (updBt s b f).held = s.held := rfl
@[simp] theorem updBt_beam (s : State) (b : Nat) (f : BatchTable → BatchTable) : (updBt s b f).beam = s.beam := rfl
@[simp] theorem updBt_slt (s : State) (b : Nat) (f : BatchTable → BatchTable) : (updBt s b f).slt = s.slt := rfl
@[simp] theorem updBt_fab (s : State) (b : Nat) (f : BatchTable → BatchTable) : (updBt s b f).fab = s.fab := rfl
@[simp] theorem updBt_flt (s : State) (b : Nat) (f : BatchTable → BatchTable) : (updBt s b f).flt = s.flt := rfl
@[simp] theorem updBt_obs (s : State) (b : Nat) (f : BatchTable → BatchTable) : (updBt s b f).obs = s.obs := rfl
@[simp] theorem updBt_mgt (s : State) (b : Nat) (f : BatchTable → BatchTable) : (updBt s b f).mgt = s.mgt := rfl
@[simp] theorem updBt_crb (s : State) (b : Nat) (f : BatchTable → BatchTable) : (updBt s b f).crb = s.crb := rfl
@[simp] theorem updBt_test (s : State) (b : Nat) (f : BatchTable → BatchTable) : (updBt s b f).test = s.test := rfl

/-! ### updV -/

@[simp] theorem updV_pending (s : State) (v : Nat) (f : Vault → Vault) : (updV s v f).pending = s.pending := rfl
@[simp] theorem updV_out (s : State) (v : Nat) (f : Vault → Vault) : (updV s v f).out = s.out := rfl
@[simp] theorem updV_ts (s : State) (v : Nat) (f : Vault → Vault) : (updV s v f).ts = s.ts := rfl
@[simp] theorem updV_free (s : State) (v : Nat) (f : Vault → Vault) : (updV s v f).free = s.free := rfl
@[simp] theorem updV_agents (s : State) (v : Nat) (f : Vault → Vault) : (updV s v f).agents = s.agents := rfl
@[simp] theorem updV_apEng (s : State) (v : Nat) (f : Vault → Vault) : (updV s v f).apEng = s.apEng := rfl
@[simp] theorem updV_regs (s : State) (v : Nat) (f : Vault → Vault) : (updV s v f).regs = s.regs := rfl
@[simp] theorem updV_mem (s : State) (v : Nat) (f : Vault → Vault) : (updV s v f).mem = s.mem := rfl
@[simp] theorem updV_parts (s : State) (v : Nat) (f : Vault → Vault) : (updV s v f).parts = s.parts := rfl
@[simp] theorem updV_queues (s : State) (v : Nat) (f : Vault → Vault) : (updV s v f).queues = s.queues := rfl
@[simp] theorem updV_hif (s : State) (v : Nat) (f : Vault → Vault) : (updV s v f).hif = s.hif := rfl
@[simp] theorem updV_cfe (s : State) (v : Nat) (f : Vault → Vault) : (updV s v f).cfe = s.cfe := rfl
@[simp] theorem updV_aut (s : State) (v : Nat) (f : Vault → Vault) : (updV s v f).aut = s.aut := rfl
@[simp] theorem updV_grs (s : State) (v : Nat) (f : Vault → Vault) : (updV s v f).grs = s.grs := rfl
@[simp] theorem updV_tly (s : State) (v : Nat) (f : Vault → Vault) : (updV s v f).tly = s.tly := rfl
@[simp] theorem updV_dis (s : State) (v : Nat) (f : Vault → Vault) : (updV s v f).dis = s.dis := rfl
@[simp] theorem updV_agt (s : State) (v : Nat) (f : Vault → Vault) : (updV s v f).agt = s.agt := rfl
@[simp] theorem updV_codeLoads (s : State) (v : Nat) (f : Vault → Vault) : (updV s v f).codeLoads = s.codeLoads := rfl
@[simp] theorem updV_pdm (s : State) (v : Nat) (f : Vault → Vault) : (updV s v f).pdm = s.pdm := rfl
@[simp] theorem updV_chn (s : State) (v : Nat) (f : Vault → Vault) : (updV s v f).chn = s.chn := rfl
@[simp] theorem updV_bau (s : State) (v : Nat) (f : Vault → Vault) : (updV s v f).bau = s.bau := rfl
@[simp] theorem updV_rte (s : State) (v : Nat) (f : Vault → Vault) : (updV s v f).rte = s.rte := rfl
@[simp] theorem updV_cmb (s : State) (v : Nat) (f : Vault → Vault) : (updV s v f).cmb = s.cmb := rfl
@[simp] theorem updV_held (s : State) (v : Nat) (f : Vault → Vault) : (updV s v f).held = s.held := rfl
@[simp] theorem updV_beam (s : State) (v : Nat) (f : Vault → Vault) : (updV s v f).beam = s.beam := rfl
@[simp] theorem updV_fab (s : State) (v : Nat) (f : Vault → Vault) : (updV s v f).fab = s.fab := rfl
@[simp] theorem updV_flt (s : State) (v : Nat) (f : Vault → Vault) : (updV s v f).flt = s.flt := rfl
@[simp] theorem updV_obs (s : State) (v : Nat) (f : Vault → Vault) : (updV s v f).obs = s.obs := rfl
@[simp] theorem updV_mgt (s : State) (v : Nat) (f : Vault → Vault) : (updV s v f).mgt = s.mgt := rfl
@[simp] theorem updV_crb (s : State) (v : Nat) (f : Vault → Vault) : (updV s v f).crb = s.crb := rfl
@[simp] theorem updV_test (s : State) (v : Nat) (f : Vault → Vault) : (updV s v f).test = s.test := rfl

/-! ### updPort -/

@[simp] theorem updPort_pending (s : State) (k : Nat) (f : FabPort → FabPort) :
    (updPort s k f).pending = s.pending := rfl
@[simp] theorem updPort_out (s : State) (k : Nat) (f : FabPort → FabPort) : (updPort s k f).out = s.out := rfl
@[simp] theorem updPort_ts (s : State) (k : Nat) (f : FabPort → FabPort) : (updPort s k f).ts = s.ts := rfl
@[simp] theorem updPort_free (s : State) (k : Nat) (f : FabPort → FabPort) : (updPort s k f).free = s.free := rfl
@[simp] theorem updPort_agents (s : State) (k : Nat) (f : FabPort → FabPort) : (updPort s k f).agents = s.agents := rfl
@[simp] theorem updPort_apEng (s : State) (k : Nat) (f : FabPort → FabPort) : (updPort s k f).apEng = s.apEng := rfl
@[simp] theorem updPort_regs (s : State) (k : Nat) (f : FabPort → FabPort) : (updPort s k f).regs = s.regs := rfl
@[simp] theorem updPort_mem (s : State) (k : Nat) (f : FabPort → FabPort) : (updPort s k f).mem = s.mem := rfl
@[simp] theorem updPort_parts (s : State) (k : Nat) (f : FabPort → FabPort) : (updPort s k f).parts = s.parts := rfl
@[simp] theorem updPort_queues (s : State) (k : Nat) (f : FabPort → FabPort) : (updPort s k f).queues = s.queues := rfl
@[simp] theorem updPort_hif (s : State) (k : Nat) (f : FabPort → FabPort) : (updPort s k f).hif = s.hif := rfl
@[simp] theorem updPort_cfe (s : State) (k : Nat) (f : FabPort → FabPort) : (updPort s k f).cfe = s.cfe := rfl
@[simp] theorem updPort_aut (s : State) (k : Nat) (f : FabPort → FabPort) : (updPort s k f).aut = s.aut := rfl
@[simp] theorem updPort_grs (s : State) (k : Nat) (f : FabPort → FabPort) : (updPort s k f).grs = s.grs := rfl
@[simp] theorem updPort_tly (s : State) (k : Nat) (f : FabPort → FabPort) : (updPort s k f).tly = s.tly := rfl
@[simp] theorem updPort_dis (s : State) (k : Nat) (f : FabPort → FabPort) : (updPort s k f).dis = s.dis := rfl
@[simp] theorem updPort_agt (s : State) (k : Nat) (f : FabPort → FabPort) : (updPort s k f).agt = s.agt := rfl
@[simp] theorem updPort_codeLoads (s : State) (k : Nat) (f : FabPort → FabPort) :
    (updPort s k f).codeLoads = s.codeLoads := rfl
@[simp] theorem updPort_pdm (s : State) (k : Nat) (f : FabPort → FabPort) : (updPort s k f).pdm = s.pdm := rfl
@[simp] theorem updPort_chn (s : State) (k : Nat) (f : FabPort → FabPort) : (updPort s k f).chn = s.chn := rfl
@[simp] theorem updPort_bau (s : State) (k : Nat) (f : FabPort → FabPort) : (updPort s k f).bau = s.bau := rfl
@[simp] theorem updPort_rte (s : State) (k : Nat) (f : FabPort → FabPort) : (updPort s k f).rte = s.rte := rfl
@[simp] theorem updPort_cmb (s : State) (k : Nat) (f : FabPort → FabPort) : (updPort s k f).cmb = s.cmb := rfl
@[simp] theorem updPort_held (s : State) (k : Nat) (f : FabPort → FabPort) : (updPort s k f).held = s.held := rfl
@[simp] theorem updPort_beam (s : State) (k : Nat) (f : FabPort → FabPort) : (updPort s k f).beam = s.beam := rfl
@[simp] theorem updPort_slt (s : State) (k : Nat) (f : FabPort → FabPort) : (updPort s k f).slt = s.slt := rfl
@[simp] theorem updPort_flt (s : State) (k : Nat) (f : FabPort → FabPort) : (updPort s k f).flt = s.flt := rfl
@[simp] theorem updPort_obs (s : State) (k : Nat) (f : FabPort → FabPort) : (updPort s k f).obs = s.obs := rfl
@[simp] theorem updPort_mgt (s : State) (k : Nat) (f : FabPort → FabPort) : (updPort s k f).mgt = s.mgt := rfl
@[simp] theorem updPort_crb (s : State) (k : Nat) (f : FabPort → FabPort) : (updPort s k f).crb = s.crb := rfl
@[simp] theorem updPort_test (s : State) (k : Nat) (f : FabPort → FabPort) : (updPort s k f).test = s.test := rfl

/-! ### State.quiet -/

@[simp] theorem State.quiet_pending (s : State) : s.quiet.pending = s.pending := rfl
@[simp] theorem State.quiet_out (s : State) : s.quiet.out = [] := rfl
@[simp] theorem State.quiet_ts (s : State) : s.quiet.ts = s.ts := rfl
@[simp] theorem State.quiet_free (s : State) : s.quiet.free = s.free := rfl
@[simp] theorem State.quiet_agents (s : State) : s.quiet.agents = s.agents := rfl
@[simp] theorem State.quiet_apEng (s : State) : s.quiet.apEng = s.apEng := rfl
@[simp] theorem State.quiet_regs (s : State) : s.quiet.regs = s.regs := rfl
@[simp] theorem State.quiet_mem (s : State) : s.quiet.mem = s.mem := rfl
@[simp] theorem State.quiet_parts (s : State) : s.quiet.parts = s.parts := rfl
@[simp] theorem State.quiet_queues (s : State) : s.quiet.queues = s.queues := rfl
@[simp] theorem State.quiet_hif (s : State) : s.quiet.hif = s.hif := rfl
@[simp] theorem State.quiet_cfe (s : State) : s.quiet.cfe = s.cfe := rfl
@[simp] theorem State.quiet_aut (s : State) : s.quiet.aut = s.aut := rfl
@[simp] theorem State.quiet_grs (s : State) : s.quiet.grs = s.grs := rfl
@[simp] theorem State.quiet_tly (s : State) : s.quiet.tly = s.tly := rfl
@[simp] theorem State.quiet_dis (s : State) : s.quiet.dis = s.dis := rfl
@[simp] theorem State.quiet_agt (s : State) : s.quiet.agt = s.agt := rfl
@[simp] theorem State.quiet_codeLoads (s : State) : s.quiet.codeLoads = s.codeLoads := rfl
@[simp] theorem State.quiet_pdm (s : State) : s.quiet.pdm = s.pdm := rfl
@[simp] theorem State.quiet_chn (s : State) : s.quiet.chn = s.chn := rfl
@[simp] theorem State.quiet_bau (s : State) : s.quiet.bau = s.bau := rfl
@[simp] theorem State.quiet_rte (s : State) : s.quiet.rte = s.rte := rfl
@[simp] theorem State.quiet_cmb (s : State) : s.quiet.cmb = s.cmb := rfl
@[simp] theorem State.quiet_held (s : State) : s.quiet.held = s.held := rfl
@[simp] theorem State.quiet_beam (s : State) : s.quiet.beam = s.beam := rfl
@[simp] theorem State.quiet_slt (s : State) : s.quiet.slt = s.slt := rfl
@[simp] theorem State.quiet_fab (s : State) : s.quiet.fab = s.fab := rfl
@[simp] theorem State.quiet_flt (s : State) : s.quiet.flt = s.flt := rfl
@[simp] theorem State.quiet_mgt (s : State) : s.quiet.mgt = s.mgt := rfl
@[simp] theorem State.quiet_crb (s : State) : s.quiet.crb = s.crb := rfl
@[simp] theorem State.quiet_test (s : State) : s.quiet.test = s.test := rfl

end Sys2Proof.Machine
end

