-- ==== Sys2Proof/WellFormed.lean ====
section
/-!
DEFINITION. Which commands are well formed: operands within the ranges of what they name. A command that is not well
formed names nothing that the block has; its meaning is total all the same.
-/

namespace Sys2Proof

/-- A queue id (chapter 02): 0x0000 to 0x100F. -/
def okQueue (q : Nat) : Bool := decide (q < 0x1010)

/-- A kernel queue id. -/
def okKernel (q : Nat) : Bool := decide (0x1000 ≤ q ∧ q < 0x1010)

/-- A node handle (R63). -/
def okNode (n : Nat) : Bool := decide (n < 2 ^ 24)

/-- A channel or barrier handle. -/
def okChan (c : Nat) : Bool := decide (c < 2 ^ 16)

/-- A partition. -/
def okPart (p : Nat) : Bool := decide (p < 16)

/-- An agent, of at most 64 (R15). -/
def okAgent (a : Nat) : Bool := decide (a < 64)

/-- A core of an agent. -/
def okCore (k : Nat) : Bool := decide (k < 16)

/-- An occupancy return or capacity report (R99). -/
def okPkt (k : OccPkt) : Bool := okCore k.core && okPart k.part

/-- A launch flit (R105). -/
def okLaunch (l : Launch) : Bool := okPart l.part && okNode l.node && decide (l.cls < 5)

/-- A source (R267). -/
def okSrc (x : Src) : Bool := decide (x.block < 4096) && okAgent x.agent && decide (x.unit < 32) && okPart x.part

/-- Well-formed commands. -/
def Instr.wf : Instr → Bool
  | .registerWrite _ => true
  | .counterWrite _ => true
  | .unmappedAccess _ => true
  | .unprivAccess _ => true
  | .axiAtomicWrite _ => true
  | .preReadyAccess _ => true
  | .dbSqTail _ => true
  | .dbCqHead _ => true
  | .fetchTurn => true
  | .ringRecordArrives q recs => okQueue q && decide (1 ≤ recs.length ∧ recs.length ≤ 16)
  | .ringReadError q => okQueue q
  | .fetcherIdle q => okQueue q
  | .fetcherResume q => okQueue q
  | .pad q _ => okQueue q
  | .nop q => okQueue q
  | .fence q => okQueue q
  | .fenceClear q => okQueue q
  | .graphLoad q => okQueue q
  | .graphImageArrives q _ _ => okQueue q
  | .graphLoadComplete q _ => okQueue q
  | .graphLaunch q => okQueue q
  | .launchSlotsFree q => okQueue q
  | .graphActivate h _ q sqIdx internal => okNode h && (internal || okQueue q) && decide (sqIdx < 65536)
  | .sweepComplete h => okNode h
  | .launchEnd h => okNode h
  | .taskSubmit q => okQueue q
  | .signal q => okQueue q
  | .graphRelease q => okQueue q
  | .copyIn q => okQueue q
  | .copyOut q => okQueue q
  | .invalidate q => okQueue q
  | .hostRequestComplete _ => true
  | .chanOpen q => okQueue q
  | .chanClose q => okQueue q
  | .flagSet q => okQueue q
  | .flagSetRelease q => okQueue q
  | .flagWait q => okQueue q
  | .flagWaitSatisfied q => okQueue q
  | .queueConfig q => okKernel q
  | .queueReset q => okKernel q
  | .partitionReset q => okKernel q
  | .partitionSet q => okKernel q
  | .autLogConfirm slot => decide (slot < 8)
  | .keySet q => okKernel q
  | .rknLoad q => okKernel q
  | .rknQuiesceLoad q => okKernel q
  | .quiesceReady q => okKernel q
  | .rknLoadEnd q _ _ => okKernel q
  | .lockedWrite q => okKernel q
  | .debugUnlock q => okKernel q
  | .completionWriteDone _ _ => true
  | .hifQResume _ => true
  | .kqEnable _ => true
  | .kqDisable _ => true
  | .retirement n _ _ _ => okNode n
  | .succListRead _ _ => true
  | .missReturn _ => true
  | .tallyDecrement lane _ => decide (lane < 32)
  | .backlogMove p => okPart p
  | .remoteDec _ => true
  | .drainEnd h => okNode h
  | .dispatchCycle => true
  | .holdStart p => okPart p
  | .occupancyReturn a k => okAgent a && okPkt k
  | .capacityReport a k => okAgent a && okPkt k
  | .sliceRetirement a n _ _ _ => okAgent a && okNode n
  | .pdmPartCtrlWrite _ => true
  | .deadlineSwitchPoint g => decide (1 ≤ g ∧ g < 256)
  | .exitSwitch g => decide (1 ≤ g ∧ g < 256)
  | .stepBoundary b => decide (b < 16)
  | .btPoll b => decide (b < 16)
  | .btEnable _ => true
  | .btDisable _ => true
  | .taskLaunch a l => okAgent a && okLaunch l
  | .kernelDescCheck a n _ => okAgent a && okNode n
  | .layerLaunch a l => okAgent a && okLaunch l
  | .layerSetupDone a => okAgent a
  | .rknNop a => okAgent a
  | .rknEnd a => okAgent a
  | .reckonerDrained a => okAgent a
  | .rknBreak a => okAgent a
  | .rknWait a => okAgent a
  | .rknFeat a => okAgent a
  | .rknJmp a => okAgent a
  | .rknJal a => okAgent a
  | .rknJr a => okAgent a
  | .rknBcc a => okAgent a
  | .rknBcci a => okAgent a
  | .rknAdd a => okAgent a
  | .rknSub a => okAgent a
  | .rknMul a => okAgent a
  | .rknMulhu a => okAgent a
  | .rknAnd a => okAgent a
  | .rknOr a => okAgent a
  | .rknXor a => okAgent a
  | .rknShl a => okAgent a
  | .rknShr a => okAgent a
  | .rknSra a => okAgent a
  | .rknSlt a => okAgent a
  | .rknSltu a => okAgent a
  | .rknMin a => okAgent a
  | .rknMax a => okAgent a
  | .rknMinu a => okAgent a
  | .rknMaxu a => okAgent a
  | .rknAddi a => okAgent a
  | .rknAndi a => okAgent a
  | .rknOri a => okAgent a
  | .rknXori a => okAgent a
  | .rknShli a => okAgent a
  | .rknShri a => okAgent a
  | .rknSrai a => okAgent a
  | .rknSlti a => okAgent a
  | .rknLi a => okAgent a
  | .rknLih a => okAgent a
  | .rknLdU8 a => okAgent a
  | .rknLdU16 a => okAgent a
  | .rknLdU32 a => okAgent a
  | .rknLd64 a => okAgent a
  | .rknLdS8 a => okAgent a
  | .rknLdS16 a => okAgent a
  | .rknLdS32 a => okAgent a
  | .rknSt8 a => okAgent a
  | .rknSt16 a => okAgent a
  | .rknSt32 a => okAgent a
  | .rknSt64 a => okAgent a
  | .rknLoopi a => okAgent a
  | .rknLoop a => okAgent a
  | .rknSetinc a => okAgent a
  | .rknSetincr a => okAgent a
  | .rknRdidx a => okAgent a
  | .rknOpnd a => okAgent a
  | .rknTdld a => okAgent a
  | .rknTdst a => okAgent a
  | .rknTdset a => okAgent a
  | .rknEstart a => okAgent a
  | .rknEcfg a => okAgent a
  | .rknCsend a => okAgent a
  | .csendAnswer a _ _ _ => okAgent a
  | .rknCrecv a => okAgent a
  | .crecvAnswer a _ _ => okAgent a
  | .rknBara a => okAgent a
  | .rknBarw a => okAgent a
  | .rknRld a => okAgent a
  | .rknRst a => okAgent a
  | .rknAtom a => okAgent a
  | .rknInval a => okAgent a
  | .rknRoute a => okAgent a
  | .rknCadd a => okAgent a
  | .requestAnswer a _ _ => okAgent a
  | .hostWordResponse a _ _ _ => okAgent a
  | .rknDbgResume _ => true
  | .rknDbgStep _ => true
  | .agtSpareForce _ => true
  | .standbySwap a => okAgent a
  | .reserve c src _ => okChan c && okSrc src
  | .sendData c src off data _ _ => okChan c && okSrc src && decide (off + data.length ≤ 256 * 256 * 256)
  | .commit c src _ => okChan c && okSrc src
  | .claim c src _ => okChan c && okSrc src
  | .recvData c src off n _ => okChan c && okSrc src && decide (off + n ≤ 256 * 256 * 256)
  | .release c src _ => okChan c && okSrc src
  | .notify c src _ => okChan c && okSrc src
  | .barrierArm b src _ _ => okChan b && okSrc src
  | .barrierArrive b src _ => okChan b && okSrc src
  | .barrierWait b src _ => okChan b && okSrc src
  | .retireNotice n _ _ => okNode n
  | .groupAtomic src _ aop _ lanes => okSrc src && lanes.length == 32 && decide (aop < 16)
  | .routeRequest q => okAgent q.agent && decide (q.entry < 1024)
  | .routingDone _ => true
  | .caddRequest c _ => okAgent c.agent && decide (c.group < 256)
  | .tallyWordWrite g _ p _ => decide (g < 256) && okPart p
  | .cmbGroupValid _ => true
  | .zeroingDone g => decide (g < 256)
  | .slateRead _ _ => true
  | .slateWrite _ off data _ _ => decide (off + data.length ≤ 256)
  | .scrubRead v _ _ => decide (v < 128)
  | .refresh t => decide (t < 16)
  | .tierTempSample t _ => decide (t < 16)
  | .rowRepair v => decide (v < 128)
  | .laneRepair v => decide (v < 128)
  | .vaultCalibration v _ => decide (v < 128)
  | .vspareStart _ => true
  | .vspareTestDone _ => true
  | .vspareChunkCopy errs => errs.length == 8
  | .vspareSwitch => true
  | .slateFillDone _ _ => true
  | .fabRequestReceive k => decide (k < 8)
  | .fabResponse k => decide (k < 8)
  | .fabNack k => decide (k < 8)
  | .fabRetry _ => true
  | .finalWriteRelease _ => true
  | .flitReceive k _ => decide (k < 8)
  | .replayTimeout k => decide (k < 8)
  | .laneFailure k j => decide (k < 8) && decide (j.lane < 5)
  | .lossOfLock k => decide (k < 8)
  | .fabPortEnable _ => true
  | .fabPortDisable _ => true
  | .trainResult k _ => decide (k < 8)
  | .identReceive k _ block port _ => decide (k < 8) && decide (block < 4096) && decide (port < 8)
  | .stopReceive k => decide (k < 8)
  | .resumeReceive k => decide (k < 8)
  | .fabReeq k => decide (k < 8)
  | .phyEqDone k => decide (k < 8)
  | .powerOnReset _ => true
  | .warmReset _ => true
  | .deviceResetSequence => true
  | .pllLock _ => true
  | .pllLockTimeout => true
  | .pllLossOfLock => true
  | .headerVerified _ _ header => header.length == 4096
  | .sectionDigest _ _ => true
  | .build => true
  | .ready => true
  | .discardEnd p => okPart p
  | .abort a n _ => okAgent a && okNode n
  | .progressWindowEnd => true
  | .cycleWalkEnd => true
  | .stopN => true
  | .thermTripN => true
  | .pmbAlertN _ => true
  | .inputGlitch k => decide (k < 5)
  | .globalStopReq _ => true
  | .stopTokenArrive u => decide (u < 96)
  | .allUnitsStopped => true
  | .cutWritten => true
  | .globalStopResume _ => true
  | .allUnitsRunning => true
  | .faultInjectArm _ => true
  | .fltLogRead _ => true
  | .mbxGo _ => true
  | .getHealth _ => true
  | .getSensors _ => true
  | .readLog _ => true
  | .updBegin _ => true
  | .updData _ _ => true
  | .updCommit _ _ => true
  | .updAbort _ => true
  | .updVerifyDone => true
  | .updProgramDone _ => true
  | .deviceReset _ => true
  | .devReset _ => true
  | .entdaa addr => decide (addr < 128)
  | .setEndpointId inst _ eid => decide (inst < 32) && decide (eid < 256)
  | .getEndpointId inst => decide (inst < 32)
  | .getMctpVersionSupport inst type => decide (inst < 32) && decide (type < 256)
  | .getMessageTypeSupport inst => decide (inst < 32)
  | .voltageSample k _ => decide (k < 16)
  | .droop => true
  | .sensorCrossCheck => true
  | .powerMeterTick _ hub => hub.length == 16
  | .pmbusPoll _ _ _ => true
  | .logAppend _ _ => true
  | .logCompact => true
  | .vaultSpareTrigger => true
  | .pageSnap _ => true
  | .pageClear _ => true
  | .obsMsTick evs => evs.length == 16
  | .trCtrlWrite _ => true
  | .trRecordWrite => true
  | .trWriteError => true
  | .blockEnd a core _ => okAgent a && okCore core
  | .groupEnd a core _ _ => okAgent a && okCore core
  | .engDone a core _ _ => okAgent a && okCore core
  | .credit a _ => okAgent a
  | .agentPortOp a m => okAgent a && okCore m.core
  | .dnCredit a => okAgent a
  | .capacityRecord a core _ => okAgent a && okCore core
  | .idcode => true
  | .dbgAccess _ => true
  | .bypass => true
  | .wsBypass _ => true
  | .wsPreload _ _ => true
  | .wsExtest _ => true
  | .wsIntestScan _ _ => true
  | .mbistRun _ _ => true
  | .slateBist _ res => res.length == 128
  | .apAct a core => okAgent a && okCore core
  | .answer a core _ _ _ _ => okAgent a && okCore core
  | .imemScrub a _ _ _ _ _ => okAgent a
  | .inputInactive k => decide (k < 5)
  | .pcrdGrant _ => true

end Sys2Proof
end

