-- ==== Sys2Proof/Tests/Slice0.lean ====
section
/-!
SUPPORT. Small checks of the model: for every statement with hypotheses a state and operands that meet them, clause by clause;
what commands do on small states, with the spec's worked examples where it has some; and a term that each check of
well-formedness refuses.
-/

open Sys2Proof Sys2Proof.Machine
namespace Sys2Proof.Tests
-- One check at a time: checks that wait for one another would each hold a thread.
set_option Elab.async false
/-- The block at Ready, with nothing else set. -/
def ready : State := { State.reset with crb.stage := .ready }

theorem calm_ready : Calm ready := ⟨rfl, rfl, rfl, rfl, rfl, rfl⟩

/-- A 64-bit write from a privileged AXI5 port. -/
def wr (a d : Nat) : Access := { port := .axi true, write := true, addr := BitVec.ofNat 26 a, strb := 0xFF, data := BitVec.ofNat 64 d }

/-- A read from a privileged AXI5 port. -/
def rdAt (a : Nat) : Access := { wr a 0 with write := false }

/-- Whether command `c` at state `s` ends in a next state of which `p` holds. -/
def after (c : Instr) (s : State) (p : State → Bool) : Bool :=
  match exec c s with
  | .next t => p t
  | _ => false

/-- A command with OPCODE `op` and the given fields (byte offset, value), tested and at the front. -/
def cmdOf (op : Nat) (fs : List (Nat × Nat)) : Cmd :=
  { seq := 7, idx := 0, n := 1, body := fs.foldl (fun b f => b + f.2 * 256 ^ f.1) op, checked := true }

/-- User queue 5 fetching, with rings of 16 places, the given commands fetched and the given commands live. -/
def q5with (fetched : List Cmd) (live : List Live) : State :=
  { ready with queues := [(5, { (default : Queue) with
      st := .fetching, sqLog2 := 4, cqLog2 := 4, nodeBase := 64, nodeCount := 64, chanBase := 8, chanCount := 8,
      fetched := fetched, live := live })] }

/-- As `q5with`, for kernel queue 0x100F with its reset registers. -/
def k15with (fetched : List Cmd) (live : List Live) : State :=
  { ready with
    queues := [(0x100F, { (default : Queue) with st := .fetching, fetched := fetched, live := live })]
    regs := [(0x5F0, 0x404)] }

theorem calm_q5with (f : List Cmd) (l : List Live) : Calm (q5with f l) := ⟨calm_ready.1, rfl, rfl, rfl, rfl, rfl⟩
theorem calm_k15with (f : List Cmd) (l : List Live) : Calm (k15with f l) :=
  ⟨(by decide : regBit { ready with regs := [(0x5F0, 0x404)] } 0xc00100 63 = false), rfl, rfl, rfl, rfl, rfl⟩

/-- A value of the given fields (byte offset, value). -/
def fields (fs : List (Nat × Nat)) : Nat := fs.foldl (fun b f => b + f.2 * 256 ^ f.1) 0
/-- Queue 5 idle, with rings of 16 places; `used` of its completion places hold a record. -/
def q5 (used : Nat) : State :=
  { ready with queues := [(5, { (default : Queue) with st := .idle, sqLog2 := 4, cqLog2 := 4, cplTail := used })] }

/-- Doorbells at the last index of the ring and at the first beyond it, on a disabled queue, and before Ready. -/
theorem test_DoorbellWrites :
    busOp (q5 3) (wr 0x2005000 15) = .sqTail 5 ∧ (queue (q5 3) 5).st ≠ .disabled ∧ sqSize (q5 3) 5 = 16 ∧
    busOp ready (wr 0x2005000 15) = .sqTail 5 ∧ (queue ready 5).st = .disabled ∧
    busOp State.reset (wr 0x2005000 15) = .sqTail 5 ∧ busOp (q5 3) { wr 0x2005000 3 with strb := 0x02 } = .sqTail 5 ∧
    busOp (q5 3) (wr 0x2005008 3) = .cqHead 5 ∧ cqUsed (q5 3) 5 = 3 := by decide +kernel

/-- Accesses that reach no register. -/
theorem test_AccessesTurnedAway :
    busOp ready (rdAt 0x300) = .unmapped ∧ regWidth ready 0x300 = none ∧ regWidth ready 0x304 = none ∧
    is64 ready 0x300 = false ∧
    busOp ready { rdAt 0x400000 with port := .axi false } = .unpriv ∧ privileged 0x400000 = true ∧
    privileged 0x2005000 = false ∧ busOp ready { rdAt 0x2005800 with port := .axi false } = .unmapped ∧
    busOp State.reset (wr 0x400000 0) = .preReady ∧ busOp State.reset (rdAt 0x400000) = .preReady ∧
    pageQueue 0x400000 = none := by decide +kernel

/-- Reads, whole writes, half writes and counters. -/
theorem test_RegistersReadAndWritten :
    busOp ready (rdAt 0x0) = .plain ∧ busOp ready (rdAt 0xc00028) = .logRead ∧
    busOp ready { wr 0xc00040 7 with strb := 0x0F } = .plain ∧ splitHalf ready { wr 0xc00040 7 with strb := 0x0F } = true ∧
    is64 ready 0xc00040 = true ∧ busOp ready (wr 0xc00040 7) = .plain ∧ splitHalf ready (wr 0xc00040 7) = false ∧
    busOp ready (wr (Ctr.addr .hifDbIgn) 0) = .counter ∧ counterAt ready (Ctr.addr .hifDbIgn) = some .hifDbIgn ∧
    rwMask ready 0x0 = 0 := by decide +kernel

/-- One register reached by a write: a plain one and a counter. -/
theorem test_OneReg :
    OneReg ready (beatOf ready (wr 0xc00040 7)) 0xc00040 ∧ counterAt ready 0xc00040 = none ∧
    beatMask ready (beatOf ready (wr 0xc00040 7)) 0xc00040 &&& rwMask ready 0xc00040 ≠ 0 ∧
    busOp ready { wr (Ctr.addr .hifDbIgn) 0 with strb := 0x0F } = .counter ∧
    OneReg ready (beatOf ready { wr (Ctr.addr .hifDbIgn) 0 with strb := 0x0F }) (Ctr.addr .hifDbIgn) := by
  unfold OneReg; decide +kernel

/-- HIF_ID reads 0x0003_0200 (chapter 17's example). -/
theorem test_hifId : readReg ready 0 = 0x30200 := by decide +kernel

/-- A doorbell to an enabled queue sets PEND; one to a disabled queue is counted. -/
theorem test_doorbell :
    after (.dbSqTail (wr 0x2005000 9)) (q5 0) (fun t => (queue t 5).tail == 9 && (queue t 5).pend) ∧
    after (.dbSqTail (wr 0x2005000 9)) ready (fun t => !(queue t 5).pend && regGet t (Ctr.addr .hifDbIgn) == 1) := by decide +kernel
/-- Kernel queue 0x1000 stopped, with or without a spilled record. -/
def stopped (spilled : Bool) : State :=
  { ready with
    queues := [(0x1000, { (default : Queue) with st := .stopped, reason := .cplFault })]
    hif.spill := if spilled then [{ (default : CplItem) with q := 0x1000 }] else [] }

/-- Switches of queues: HIF_Q_RESUME at the last queue and beyond it, HIF_KQ_CFG.EN. -/
theorem test_QueueSwitches :
    busOp (stopped true) (wr 0x600 0x1000) = .qResume ∧ isQueue 0x100F = true ∧ isQueue 0x1010 = false ∧
    (queue (stopped true) 0x1000).st = .stopped ∧ (queue ready 0x1000).st ≠ .stopped ∧
    (stopped true).hif.flight.any (fun i => i.q == 0x1000 && i.resumed) = false ∧
    (stopped true).hif.spill.any (·.q == 0x1000) = true ∧ (stopped false).hif.spill.any (·.q == 0x1000) = false ∧
    (queue (stopped false) 0x1000).fetched = [] ∧ (stopped false).cfe.turn.map (·.q) ≠ some 0x1000 ∧
    busOp ready (wr 0x410 0x80000404) = .kqOn 0x1000 ∧ regFld ready (kqAddr 0x1000) 5 0 = 0 ∧
    kqCfgNew ready 0x410 0x80000404 0xFFFFFFFF + 2 ^ 31 = 0x80000404 ∧
    busOp ready (wr 0x410 0x80000411) = .kqOn 0x1000 ∧
    kqCfgNew ready 0x410 0x80000411 0xFFFFFFFF + 2 ^ 31 = 0x80000411 ∧
    busOp { ready with regs := [(0x410, 0x80000404)] } (wr 0x410 0x404) = .kqOff 0x1000 := by decide +kernel

/-- A kernel queue enabled and disabled. -/
theorem test_kqEnable :
    after (.kqEnable (wr 0x410 0x80000404)) ready (fun t => (queue t 0x1000).st == .idle && (queue t 0x1000).phase) ∧
    after (.kqDisable (wr 0x410 0x404)) { ready with regs := [(0x410, 0x80000404)] }
      (fun t => (queue t 0x1000).st == .disabled) := by decide +kernel

/-- A kernel queue without work, disabled. -/
theorem test_QueueSwitches_workless :
    let u := { ready with regs := [(0x410, 0x80000404)] }
    Workless u 0x1000 ∧ kqCfgBad u (beatOf (halfUsed u (wr 0x410 0x404)) (wr 0x410 0x404)).addr
      (beatOf (halfUsed u (wr 0x410 0x404)) (wr 0x410 0x404)).data
      (beatOf (halfUsed u (wr 0x410 0x404)) (wr 0x410 0x404)).mask = false := by
  unfold Workless; decide +kernel
/-- Agent 3 in DEBUG under full debug access. -/
def debugging : State :=
  { ready with
    obs := { ready.obs with dbgLevel := 2, dbgMask := 0xFFFF }
    agt := [(3, { (default : Agent) with rkn := { (default : Rkn) with st := .debug } })] }

/-- Switches of PDM and of the agents. -/
theorem test_UnitSwitches_pdm :
    busOp ready (wr 0x500000 0xFFFF) = .pause ∧
    busOp ready (wr 0x5021E0 0x44801) = .btOn 15 ∧ (bt ready 15).st = .off ∧ (bt ready 15).interrupted = false ∧
    btChecks (regSet ready (btAddr 15) 0x44801) 15 = false ∧
    busOp { ready with regs := [(0x502000, 1)], pdm.bt := [(0, { (default : BatchTable) with st := .idle })] } (wr 0x502000 0) = .btOff 0 ∧
    busOp debugging (wr 0x1030030 1) = .dbgResume 3 ∧ busOp debugging (wr 0x1030030 2) = .dbgStep 3 ∧
    dbgIgnored debugging 3 = false ∧ dbgIgnored ready 3 = true ∧ (rkn debugging 3).atBreak = false ∧
    busOp ready (wr 0x11F0028 0x10000) = .spareForce 31 ∧ (agt ready 31).spareUsed = false := by decide +kernel

/-- A batching table whose checks hold. -/
def batch : State :=
  { ready with
    regs := [(0x502000, 0x44800), (0xa00200, 0x10010)]
    grs.tpl := [(0, { (default : Tpl) with valid := true })] }

/-- A table of partition 0 with rings of 16 places passes the checks of R121. -/
theorem test_btChecks : btChecks (regSet batch (btAddr 0) 0x44801) 0 = true := by decide +kernel

/-- Switches of CMB, SLT and FAB. -/
theorem test_UnitSwitches_memory :
    busOp ready (wr 0x911FE0 0x8000000000000000) = .grpValid 255 ∧ grpValid ready 255 = false ∧
    grpChecks ready 255 = true ∧ (grp ready 255).st = .idle ∧
    busOp ready { wr 0xa02000 0x80007F77 with strb := 0x0F } = .vspare ∧
    busOp ready (wr 0xb001E0 1) = .portOn 7 ∧ (port ready 7).st = .down ∧
    busOp { ready with regs := [(0xb00100, 1)] } (wr 0xb00100 0) = .portOff 0 := by decide +kernel

/-- Control registers of FLT, MGT and OBS. -/
theorem test_StopInjectAndObserve :
    busOp ready (wr 0xc00200 1) = .stopReq ∧ mayStop ready (.axi true) = false ∧ mayStop debugging (.axi true) = true ∧
    busOp ready { wr 0xc00200 2 with port := .mgt } = .stopResume ∧ mayStop ready .mgt = true ∧
    busOp ready (wr 0xc00100 0x8000000000000A01) = .inject ∧ injIds.contains 0x0A01 = true ∧
    injIds.contains 0x0001 = false ∧ mayInject ready .mgt 0x0A01 0 = true ∧ mayInject ready (.axi true) 0x0A01 0 = false ∧
    injTargets ready 0x0A01 = some 32 ∧ busOp ready (wr 0xd00010 1) = .mbxGo ∧ busOp ready (wr 0xd00050 1) = .devReset ∧
    busOp ready (wr 0xe1F0F0 1) = .pageSnap 15 ∧ busOp ready (wr 0xe100F0 2) = .pageClear 0 ∧
    busOp ready (wr 0xe00000 0xFFFF0001) = .trCtrl ∧ regBit ready 0xe00000 0 = false := by decide +kernel

/-- One register reached: PAUSE, FORCE, a group's VALID, a port's EN. -/
theorem test_UnitSwitches_oneReg :
    OneReg ready (beatOf ready (wr 0x500000 0xFFFF)) 0x500000 ∧
    beatMask ready (beatOf ready (wr 0x500000 0xFFFF)) 0x500000 &&& 0xFFFF ≠ 0 ∧
    OneReg ready (beatOf ready (wr 0x11F0028 0x10000)) (agentBase 31 + 0x28) ∧
    counterAt ready (agentBase 31 + 0x28) = none ∧
    beatMask ready (beatOf ready (wr 0x11F0028 0x10000)) (agentBase 31 + 0x28) &&& rwMask ready (agentBase 31 + 0x28) ≠ 0 := by
  unfold OneReg; decide +kernel

/-- The same of a group's VALID and a port's EN. -/
theorem test_UnitSwitches_oneReg' :
    OneReg ready (beatOf ready (wr 0x911FE0 0x8000000000000000)) (grpAddr 255) ∧
    bitOf (mergeBits (regGet ready (grpAddr 255)).toNat (beatVal ready (beatOf ready (wr 0x911FE0 0x8000000000000000)) (grpAddr 255))
      (beatMask ready (beatOf ready (wr 0x911FE0 0x8000000000000000)) (grpAddr 255))) 63 = true ∧
    OneReg ready (beatOf ready (wr 0xb001E0 1)) (portCfg 7) ∧
    (let u := { ready with regs := [(0xb00100, 1)], fab.ports := [(0, { (default : FabPort) with st := .train })] }
     busOp u (wr 0xb00100 0) = .portOff 0 ∧ OneReg u (beatOf u (wr 0xb00100 0)) (portCfg 0) ∧ (port u 0).st ≠ .down ∧
     (port u 0).replay = [] ∧ (port u 0).partials = [] ∧ (port u 0).inBuf = []) := by
  unfold OneReg; decide +kernel

/-- A Reckoner in DEBUG that is stepped over a NOP. -/
theorem test_dbgStep :
    let u := { debugging with agt := [(3, { (default : Agent) with rkn := { (default : Rkn) with st := .debug, imem := [(0, 1)] } })] }
    busOp u (wr 0x1030030 2) = .dbgStep 3 ∧ dbgIgnored u 3 = false ∧ (rkn u 3).atBreak = false ∧ agtShut u 3 = false ∧
    rknWordAt u 3 = 1 := by decide +kernel

/-- The block stopped, with nothing under way. -/
def halted : State :=
  { ready with flt.stop := .stopped, fab.stopped := true, pdm.stopped := true }

/-- A resume with nothing held. -/
theorem test_StopControl_resume :
    busOp halted { wr 0xc00200 2 with port := .mgt } = .stopResume ∧ mayStop halted .mgt = true ∧
    halted.flt.stop = .stopped ∧ halted.flt.heldUp = [] ∧ regBit halted 0xe00000 0 = false ∧ halted.hif.waiting = [] ∧
    halted.chn.chans = [] ∧ halted.rte.ready = [] ∧ halted.agt.canon = true := by decide +kernel
theorem test_StopControl_idle : Unlinked halted ∧ ∀ a, (agt halted a).inbox = [] ∧ (agt halted a).dnQ = [] := by
  refine ⟨?_, fun _ => ⟨rfl, rfl⟩⟩
  unfold Unlinked FabIdle; decide +kernel
/-- Queues with work: user queue 5 with three records, and kernel queue 0x1000 as well. -/
def working (kernel : Bool) : State :=
  { q5with [] [] with
    queues := [(5, { (default : Queue) with st := .fetching, tail := 3, sqLog2 := 4, cqLog2 := 4 })] ++
      (if kernel then [(0x1000, { (default : Queue) with st := .fetching, tail := 1 })] else [])
    regs := [(0x410, 0x404), (0x100000, 4)], cfe.rrNext := 5 }

/-- A fetch turn may go to either kind of queue; the records of a turn. -/
theorem test_QueueFetch_turns :
    (working true).cfe.turn = none ∧ isReady (working true) = true ∧ (working true).flt.stop = .running ∧
    kernelTurn (working true) = some 0x1000 ∧ userTurn (working true) = some 5 ∧
    ((working true).cfe.window.filter id).length = 0 ∧ kernelTurn (working false) = none ∧
    userTurn { working true with queues := (working true).queues.drop 1 } = none ∧
    kernelTurn ready = none ∧ userTurn ready = none := by decide +kernel

/-- A record of 512 bits with OPCODE `op` and record count `n` + 1. -/
def hdrOf (op n : Nat) : Rec64 := BitVec.ofNat 512 (op + 256 * n)

/-- The turn of `working` at queue 5, with the head at `h`. -/
def turn5 (h : Nat) : State :=
  { working false with
    cfe.turn := some { q := 5, recs := 0 }
    queues := [(5, { (default : Queue) with st := .fetching, head := h, tail := 3, sqLog2 := 4, cqLog2 := 4 })] }

theorem test_QueueFetch_records :
    (turn5 0).cfe.turn.map (·.q) = some 5 ∧ hasWork (turn5 0) 5 = true ∧ sqSize (turn5 0) 5 = 16 ∧
    (hdrOf 1 0).toNat % 256 ≠ 0 ∧ (hdrOf 1 0).toNat / 256 % 16 + 1 = 1 ∧
    extraSlot { seq := 0, idx := 0, n := 1, body := recsNat [hdrOf 1 0], checked := false } = 0 ∧
    1 ≤ freeSlots (turn5 0) 5 ∧
    hasWork (turn5 15) 5 = true ∧ (hdrOf 0x12 4).toNat / 256 % 16 + 1 = 5 ∧ 16 < 15 + 5 ∧
    (hdrOf 0 0).toNat % 256 = 0 ∧ lowestReserved (hdrOf 0 0).toNat 0xFF 64 = none ∧
    (queue (turn5 3) 5).head = (queue (turn5 3) 5).tail ∧ (queue (turn5 3) 5).st = .fetching ∧
    (queue (turn5 3) 5).fetched = [] ∧ isKernel 5 = false ∧
    (queue { ready with queues := [(5, { (default : Queue) with st := .idle, pend := true })] } 5).pend = true := by decide +kernel

/-- Three records arrive and the head wraps (R31, R36). -/
theorem test_recordArrives :
    after (.ringRecordArrives 5 [hdrOf 1 0]) (turn5 15) (fun t => (queue t 5).head == 0 && (queue t 5).fetched.length == 1) ∧
    after (.pad 5 (hdrOf 0 0)) (turn5 15) (fun t => (queue t 5).head == 0 && (queue t 5).resv == 0) := by decide +kernel

/-- A completion whose place is the last of the ring, with and without a record. -/
theorem test_CompletionRecord :
    (turn5 0).hif.spill.any (·.q == 5) = false ∧ (cmdOf 1 []).fld 2 0 1 = 0 ∧ (cmdOf 1 [(2, 1)]).fld 2 0 1 = 1 ∧
    (turn5 0).hif.stopped = false := by decide +kernel

theorem test_completionPhase :
    let s : State := { q5with [] [] with queues := [(5, { (default : Queue) with
      st := .fetching, sqLog2 := 4, cqLog2 := 4, cplTail := 15, phase := true, fetched := [cmdOf 1 [(2, 1)]] })] }
    after (.nop 5) s (fun t => (queue t 5).cplTail == 0 && !(queue t 5).phase && t.hif.flight.length == 1) := by decide +kernel

/-- NOP, FENCE (clear or not), INVALIDATE, COPY_IN and COPY_OUT alone at the front of queue 5. -/
theorem test_PlainCommands :
    frontCmd (q5with [cmdOf 1 []] []) 5 1 = some (cmdOf 1 []) ∧ (q5with [cmdOf 1 []] []).hif.spill.any (·.q == 5) = false ∧
    frontCmd (q5with [cmdOf 2 []] []) 5 2 = some (cmdOf 2 []) ∧
    fenceClear (startFront (q5with [cmdOf 2 []] []) 5 (cmdOf 2 [])) 5 7 = true ∧
    fenceClear (startFront (q5with [cmdOf 2 []] [{ cmd := { cmdOf 0x20 [] with seq := 6 }, ended := false, nodes := 0 }]) 5
      (cmdOf 2 [])) 5 7 = false ∧
    frontCmd (q5with [cmdOf 0x22 [(0x10, 64)]] []) 5 0x22 = some (cmdOf 0x22 [(0x10, 64)]) ∧
    frontCmd (q5with [cmdOf 0x20 [(0x18, 64)]] []) 5 0x20 = some (cmdOf 0x20 [(0x18, 64)]) ∧
    frontCmd (q5with [cmdOf 0x21 [(0x18, 64)]] []) 5 0x21 = some (cmdOf 0x21 [(0x18, 64)]) ∧
    (cmdOf 0x21 [(0x18, 64)]).fld 0x18 0 32 = 64 ∧ badRange (q5with [] []) 0 64 = none ∧
    (queue (q5with [] [{ cmd := cmdOf 2 [], ended := false, nodes := 0 }]) 5).live.find?
      (fun l => l.cmd.op == 0x02 && !l.ended) = some { cmd := cmdOf 2 [], ended := false, nodes := 0 } ∧
    fenceClear (q5with [] [{ cmd := cmdOf 2 [], ended := false, nodes := 0 }]) 5 7 = true := by decide +kernel

/-- A command of two records: the second is read behind the header. -/
theorem test_QueueFetch_two :
    (hdrOf 0x10 1).toNat % 256 ≠ 0 ∧ (hdrOf 0x10 1).toNat / 256 % 16 + 1 = 2 ∧
    2 ≤ ((queue (turn5 0) 5).tail + sqSize (turn5 0) 5 - (queue (turn5 0) 5).head) % sqSize (turn5 0) 5 ∧
    1 + extraSlot { seq := 0, idx := 0, n := 2, body := recsNat [hdrOf 0x10 1, 0], checked := false } ≤ freeSlots (turn5 0) 5 ∧
    after (.ringRecordArrives 5 [hdrOf 0x10 1, 0]) (turn5 0)
      (fun t => t.out.any fun o => o == .chiRead (sqBase (turn5 0) 5 + 64) 64) := by decide +kernel
/-- Queue 5 with a channel command at the front; partition 0 has a quota of 8 cells, channel 8 is open or closed. -/
def chan8 (c : Cmd) (o : Bool) : State :=
  { q5with [c] [] with
    parts := [(0, { (default : Part) with cellQuota := 8 })], chn.chans := [(8, { (default : Chan) with open_ := o, epoch := 3 })] }

/-- CHAN_OPEN within the quota, at it and beyond it, and of an open channel; CHAN_CLOSE of both. -/
theorem test_ChannelCommands :
    relocChan (chan8 (cmdOf 0x30 [(8, 8), (0xC, 8), (0x10, 1)]) false) 5 8 = some 8 ∧
    frontCmd (chan8 (cmdOf 0x30 [(8, 8), (0xC, 8), (0x10, 1)]) false) 5 0x30 = some (cmdOf 0x30 [(8, 8), (0xC, 8), (0x10, 1)]) ∧
    (chan (chan8 (cmdOf 0x30 []) false) 8).open_ = false ∧ (chan (chan8 (cmdOf 0x30 []) false) 8).claims.isEmpty = true ∧
    cellsHeld (chan8 (cmdOf 0x30 []) false) 0 + (cmdOf 0x30 [(8, 8), (0xC, 8), (0x10, 1)]).fld 0xC 0 24 = 8 ∧
    ((chan8 (cmdOf 0x30 []) false).parts.look 0).cellQuota = 8 ∧ (cmdOf 0x30 [(0xC, 9)]).fld 0xC 0 24 = 9 ∧
    (chan (chan8 (cmdOf 0x30 []) true) 8).open_ = true ∧
    frontCmd (chan8 (cmdOf 0x31 [(8, 8)]) true) 5 0x31 = some (cmdOf 0x31 [(8, 8)]) := by decide +kernel

/-- An open advances the epoch; a close does so again. -/
theorem test_chanEpoch :
    after (.chanOpen 5) (chan8 (cmdOf 0x30 [(8, 8), (0xC, 8), (0x10, 1)]) false)
      (fun t => (chan t 8).open_ && (chan t 8).epoch == 4) ∧
    after (.chanClose 5) (chan8 (cmdOf 0x31 [(8, 8)]) true) (fun t => !(chan t 8).open_ && (chan t 8).epoch == 4) := by decide +kernel

/-- A flag command at the front: word 8 of partition 0's data region, value 1. -/
def flagSet : Cmd := cmdOf 0x32 [(8, 8), (0x10, 1), (0x18, 1)]
def flagWait : Cmd := cmdOf 0x33 [(8, 8), (0x10, 1), (0x18, 1), (0x1A, 0x1FFF)]
def copyLive : Live := { cmd := { cmdOf 0x20 [(0x18, 64)] with seq := 6 }, ended := false, nodes := 0 }
/-- As `q5with`, with a data region of one unit for partition 0. -/
def q5data (fetched : List Cmd) (live : List Live) : State := { q5with fetched live with regs := [(0xa00200, 0x10000)] }
def waiting5 : State :=
  { q5data [] [{ cmd := flagWait, ended := false, nodes := 0 }] with
    flt.wait := [{ q := 5, seq := 7, setter := 0x1FFF }], mem := [(8, 1)] }

theorem test_FlagCommands :
    frontCmd (q5with [flagSet] []) 5 0x32 = some flagSet ∧ copiesDone (startFront (q5with [flagSet] []) 5 flagSet) 5 7 = true ∧
    copiesDone (startFront (q5with [flagSet] [copyLive]) 5 flagSet) 5 7 = false ∧
    ((queue (q5data [] [{ cmd := flagSet, ended := false, nodes := 0 }]) 5).live.find? (fun l => l.cmd.op == 0x32 && !l.ended &&
      !flagSetSent (q5data [] [{ cmd := flagSet, ended := false, nodes := 0 }]) 5 l.cmd.seq)).isSome = true ∧
    copiesDone (q5data [] [{ cmd := flagSet, ended := false, nodes := 0 }]) 5 7 = true ∧
    frontCmd (q5with [flagWait] []) 5 0x33 = some flagWait ∧
    flagMeets flagWait 1 = true ∧ flagMeets flagWait 0 = false ∧
    waiting5.flt.wait.find? (·.q == 5) = some { q := 5, seq := 7, setter := 0x1FFF } ∧
    liveCmd waiting5 5 7 = some { cmd := flagWait, ended := false, nodes := 0 } ∧
    flagMeets flagWait (memWord waiting5 8).toNat = true := by decide +kernel

/-- The commands alone at the front, and their word in the last place of a region that still holds it. -/
theorem test_FlagCommands_alone :
    Alone (q5data [flagSet] []) 5 0x32 flagSet ∧ Alone (q5data [flagWait] []) 5 0x33 flagWait ∧
    FlagWord (startFront (q5data [flagSet] []) 5 flagSet) 5 flagSet 8 ∧ FlagWord waiting5 5 flagWait 8 ∧
    FlagWord (startFront (q5data [flagWait] []) 5 flagWait) 5 flagWait 8 ∧
    inData (q5data [] []) 0 67108856 8 = true ∧ inData (q5data [] []) 0 67108857 8 = false := by
  unfold Alone FlagWord; decide +kernel

/-- FLAG_SET writes its word; a FLAG_WAIT whose word is not there registers. -/
theorem test_flag :
    after (.flagSet 5) (q5data [flagSet] []) (fun t => memWord t 8 == 1) ∧
    after (.flagWait 5) (q5data [flagWait] []) (fun t => (queue t 5).st == .waiting && t.flt.wait.length == 1) := by decide +kernel

/-- Completion writes that end: with an interrupt, without, and in error; a grant of an outstanding request and of none. -/
def flying (irq : Bool) : State :=
  { q5with [] [] with hif.flight := [{ (default : CplItem) with q := 5, irq := irq }] }
theorem test_CompletionWriteEnds :
    takeAt (flying true).hif.flight 0 = some ({ (default : CplItem) with q := 5, irq := true }, []) ∧
    takeAt (flying false).hif.flight 0 = some ({ (default : CplItem) with q := 5, irq := false }, []) ∧
    (queue (flying true) 5).fetched = [] ∧ (queue (flying true) 5).st ≠ .disabled ∧ (flying true).hif.spill.length < 4096 ∧
    (flying true).flt.devReset = false ∧ retriedOpen (flying true) (.record 0) = true ∧
    retriedOpen (flying true) (.record 1) = false ∧
    liveCmd (q5with [] [copyLive]) 5 6 = some copyLive ∧ copyLive.ended = false ∧ copyLive.cmd.op = 0x20 ∧
    (ready.slt.vaults.any fun e => !e.2.bad.isEmpty) = false ∧ minBy id [128, 64] = some 64 ∧
    inData (q5data [] []) (queue (q5data [] []) 5).part (copyLive.cmd.fld 0x10 0 40) 64 = true ∧
    ((rkn { ready with agt := [(3, { (default : Agent) with rkn := { (default : Rkn) with
      reqs := [{ blankReq .inval 0 with id := 2 }] } })] } 3).reqs.any fun k => k.id == 2 && k.kind == .inval) = true := by decide +kernel

theorem test_completionError :
    after (.completionWriteDone 0 true) (flying true)
      (fun t => (queue t 5).st == .stopped && (queue t 5).reason == .cplFault && t.hif.spill.length == 1) := by decide +kernel
/-- An image of a header and one JOIN, as queue 5 writes it for handles 64 and 65. -/
def image : Bytes :=
  leBytes 256 (fields [(0, 5), (0xB, 1), (0x14, 0xFFFFFF), (0x20, 2), (0x24, 1), (0x40, 65), (0x45, 1)]) ++
  leBytes 256 (fields [(0, 3), (0xC, 1), (0x14, 0xFFFFFF)])

def load : LoadJob := { q := 5, seq := 7, base := 64, count := 2, relocBase := 0, started := false, image := [] }
def loadCmd : Cmd := cmdOf 0x10 [(0x10, 512), (0x14, 64), (0x18, 2)]

/-- GRAPH_LOAD, its image in one piece, and its end. -/
theorem test_GraphLoading :
    frontCmd (q5with [loadCmd] []) 5 0x10 = some loadCmd ∧
    ((List.range 2).any fun i => (nd (q5with [] []) (64 + i)).kind != .free) = false ∧
    ((List.range 2).any fun i => (nd { ready with grs.nodes := [(65, { (default : NodeRec) with kind := .join })] } (64 + i)).kind != .free) = true ∧
    (image.take (256 * load.count)).length = 512 ∧ imageRecs 2 image ≠ [] ∧ nfld ((imageRecs 2 image).headD 0) 0 0 8 = 5 ∧
    imageFault (blockId ready) (load.base - load.relocBase) (imageRecs load.count image) = none ∧
    imageHandle (q5with [] []) 5 (imageRecs load.count image) = none ∧
    imageFault (blockId ready) 63 (imageRecs load.count image) = some 64 := by decide +kernel

/-- A graph at handle 64 with one JOIN at 65, LOADED or in another state. -/
def graph (l : LState) : State :=
  { q5with [] [] with
    grs.nodes := [(64, { (default : NodeRec) with kind := .graph, gen := 4, hdr := { (default : Header) with
                     lstate := l, nodeCount := 2, workCount := 1, cplCount := 1, retired := 1 } }),
                  (65, { (default : NodeRec) with kind := .join, graph := 64, gen := 4, tally := 3 })]
    parts := [(0, { (default : Part) with nodeBase := 64, nodeCount := 64 })] }

def launchCmd : Cmd := cmdOf 0x11 [(8, 64), (0xC, 0xFFFF), (0x10, 9)]
def launchAt (resv : Nat) : State :=
  { graph .loaded with queues := [(5, { (default : Queue) with
      st := .fetching, sqLog2 := 4, cqLog2 := 4, nodeBase := 64, nodeCount := 64, fetched := [launchCmd], resv := resv })] }
def wanting : State :=
  { graph .loaded with queues := [(5, { (default : Queue) with
      st := .fetching, sqLog2 := 4, cqLog2 := 4, nodeBase := 64, nodeCount := 64, want := 14, resv := 1,
      live := [{ cmd := launchCmd, ended := false, nodes := 0 }] })] }

theorem test_GraphLaunching :
    frontCmd (launchAt 1) 5 0x11 = some launchCmd ∧ launchHeader (launchAt 1) 5 launchCmd = some 64 ∧
    (nd (launchAt 1) 64).hdr.cplCount = 1 ∧ 1 + 1 ≤ cqSize (launchAt 1) 5 - 1 ∧ freeSlots (launchAt 14) 5 = 1 ∧
    freeSlots (launchAt 15) 5 = 0 ∧ launchRoom (launchAt 1) 64 = true ∧ (nd (launchAt 1) 64).hdr.lstate = .loaded ∧
    (queue wanting 5).want = 14 ∧ freeSlots wanting 5 = 14 ∧
    ((queue wanting 5).live.reverse.find? fun l => l.cmd.op == 0x11 && !l.ended).isSome = true ∧
    (nd (graph .active) 64).hdr.retired = (nd (graph .active) 64).hdr.workCount ∧
    (nd (graph .active) 64).hdr.cplOut = 0 ∧ (graph .active).grs.sweeping.contains 64 = false ∧
    (nd (graph .active) 64).hdr.src.table = none ∧ (nd (graph .draining) 64).hdr.lstate = .draining ∧
    ((graph .draining).dis.running.any fun x => x.graph == 64 && x.aborted) = false ∧
    (nd (graph .draining) 64).hdr.pend = [] ∧ (nd (graph .loaded) 64).hdr.template = none ∧
    [(64 : Nat)].contains 64 = true := by decide +kernel

/-- Launches that activate in one ac: of a command, once slots are free, and from inside the block; a sweep that ends. -/
theorem test_GraphLaunching_activates :
    Alone (launchAt 1) 5 0x11 launchCmd ∧ Activates (startFront (launchAt 1) 5 launchCmd) 64 ∧
    launchRoom (startFront (launchAt 1) 5 launchCmd) 64 = true ∧
    launchHeader (updQ wanting 5 fun x => { x with want := 0 }) 5 launchCmd = some 64 ∧ (queue wanting 5).fetched = [] ∧
    (nd wanting 64).hdr.lstate = .loaded ∧ launchRoom wanting 64 = true ∧ Activates wanting 64 ∧
    Activates (graph .loaded) 64 ∧ launchRoom (graph .loaded) 64 = true ∧ (nd (graph .loaded) 64).kind = .graph := by
  unfold Alone Activates; decide +kernel
theorem test_sweepComplete :
    let s : State := { graph .loaded with grs.sweeping := [64] }
    s.grs.sweeping.contains 64 = true ∧ s.tly.stopped = false ∧ expCredit s (partOr0 s 64) = true ∧
    intakeOpen { s with tly.stopped := true } (partOr0 s 64) = false := by decide +kernel

/-- A launch from inside the block that ends with no other pending. -/
theorem test_launchEnd_internal :
    let s : State := { graph .active with grs.nodes := [(64, { (default : NodeRec) with kind := .graph, hdr := { (default : Header) with
      lstate := .active, nodeCount := 2, workCount := 1, retired := 1, src := { (default : LaunchSrc) with internal := true } } })] }
    (nd s 64).hdr.src.internal = true ∧ (nd s 64).hdr.pend = [] ∧ (nd s 64).hdr.cplOut = 0 ∧
    (nd s 64).hdr.retired = (nd s 64).hdr.workCount ∧ (nd s 64).hdr.src.table = none ∧ s.grs.sweeping.contains 64 = false ∧
    ((graph .draining).dis.running.any fun x => x.graph == 64 && x.aborted && !sliceOver (graph .draining) x) = false := by decide +kernel

/-- An activation advances the generation and puts the header's carry on TLY's intake (R73). -/
theorem test_activate :
    after (.graphActivate 64 9 5 0 false) (graph .loaded)
      (fun t => (nd t 64).gen == 5 && (nd t 64).hdr.lstate == .active && t.tly.exp.length == 1) := by decide +kernel

/-- A TASK_SUBMIT of a TASK at handle 66 with INIT_TALLY `n`; SIGNAL; GRAPH_RELEASE of a free range. -/
def submit (n : Nat) : Cmd :=
  { cmdOf 0x12 [(1, 4), (8, 66), (0x40, 1), (0x4C, n), (0x54, 0xFFFFFF), (0x6A, 1), (0x70, 1)] with n := 5 }
theorem test_NodeCommands :
    frontCmd (q5with [submit 1] []) 5 0x12 = some (submit 1) ∧ (nd (q5with [] []) 66).kind = .free ∧
    (parseNode 0 ((submit 1).body / 2 ^ 512 % 2 ^ 2048) Config.noNode .waiting).initTally = 1 ∧
    (parseNode 0 ((submit 0).body / 2 ^ 512 % 2 ^ 2048) Config.noNode .waiting).initTally = 0 ∧
    frontCmd (q5with [cmdOf 0x13 [(8, 66), (0xC, 1)]] []) 5 0x13 = some (cmdOf 0x13 [(8, 66), (0xC, 1)]) ∧
    frontCmd (q5with [cmdOf 0x14 [(8, 66), (0xC, 2)]] []) 5 0x14 = some (cmdOf 0x14 [(8, 66), (0xC, 2)]) ∧
    nodeInFlight (nd (q5with [] []) 66) = false := by decide +kernel

theorem test_submit :
    after (.taskSubmit 5) (q5with [submit 1] []) (fun t => (nd t 66).st == .waiting && (nd t 66).tally == 1) ∧
    after (.taskSubmit 5) (q5with [submit 0] []) (fun t => (nd t 66).st == .ready && t.dis.beads.length == 1) := by decide +kernel

/-- TLY with a node issued under generation 4, an expansion entry, a lane operation and a parked one. -/
def tallying : State :=
  { graph .active with
    tly := { (default : Tly) with
      exp := [{ node := 65, gen := 4, header := false, next := none, parked := false }]
      ops := [{ node := 65, w := 2, n := 1, src := .notice, also := [] }]
      miss := [.lane { node := 65, w := 2, n := 1, src := .notice, also := [] }]
      backlog := [(15, [{ node := 65, gen := 4 }])] } }
/-- A standalone node issued under generation 4, its retirement on the Beam behind one of another node. -/
def issued : State :=
  { q5with [] [] with
    grs.nodes := [(66, { (default : NodeRec) with
      kind := .task, gen := 4, st := .issued, graph := Config.noNode, src := { (default : LaunchSrc) with q := 5 } })]
    beam := [.retire 3 false 67 4 .done 0, .retire 4 false 66 4 .done 1] }
theorem test_Lands :
    Lands (isRetire 66 4 .done 1) issued { issued with beam := [.retire 3 false 67 4 .done 0] } ∧
    Lands (isRetire 66 4 .done 0) issued issued ∧ Lands (isRetire 67 4 .done 0) issued { issued with beam := issued.beam.drop 1 } :=
  ⟨⟨rfl, rfl⟩, rfl, ⟨rfl, rfl⟩⟩
theorem test_retirement :
    intakeOpen issued (partOr0 issued 66) = true ∧ isWork (nd issued 66).kind = true ∧ (nd issued 66).gen = 4 ∧
    (armed issued (nd issued 66)).st = .issued ∧ currentGen issued (nd issued 66) 4 = true ∧ (nd issued 66).cpl = false ∧
    isQueue (nd issued 66).src.q = true ∧ regBit issued 0xe00000 0 = false ∧ issued.tly.wait = [] ∧ issued.tly.intake = [] ∧
    expCredit issued (partOr0 issued 66) = true := by decide +kernel
/-- A retirement does not pass an older one of its agent. -/
theorem test_beamOrder :
    after (.retirement 66 4 .done 1) { issued with beam := [.retire 4 false 67 4 .done 0, .retire 4 false 66 4 .done 1] }
      (fun t => (nd t 66).st == .issued && t.beam.length == 2) ∧
    after (.retirement 66 4 .done 1) issued (fun t => (nd t 66).st == .retired && t.beam.length == 1) := by decide +kernel

/-- A list of one local successor, a node that a decrement leaves waiting, and a miss buffer that is full for its partition. -/
theorem test_TallyEngine_lists :
    let u : State := { tallying with tly.last := none, grs.nodes := [(65, { (default : NodeRec) with
      kind := .join, graph := 64, succs := [{ (default : Succ) with node := 66, weight := 2 }], succNext := Config.noNode })] }
    (takeAt u.tly.exp 0 = some ({ node := 65, gen := 4, header := false, next := none, parked := false }, [])) ∧
    (nd u 65).succs = [{ (default : Succ) with node := 66, weight := 2 }] ∧ (nd u 65).succNext = Config.noNode ∧
    u.tly.last = none ∧ missCredit u (partOr0 u 65) = true ∧
    missCredit { u with tly.miss := List.replicate 544 (.lane { node := 65, w := 2, n := 1, src := .notice, also := [] }) }
      (partOr0 u 65) = false := by decide +kernel
theorem test_WaitsFor :
    let u : State := { ready with grs.nodes := [(66, { (default : NodeRec) with
      kind := .task, st := .waiting, tally := 3, initTally := 3, graph := Config.noNode })] }
    WaitsFor u 66 2 ∧ ¬ WaitsFor u 66 3 ∧ intakeOpen u (partOr0 u 66) = true := by
  unfold WaitsFor; decide +kernel
theorem test_TallyEngine :
    tallying.tly.stopped = false ∧ isWork (nd tallying 65).kind = true ∧ currentGen tallying (nd tallying 65) 4 = true ∧
    currentGen tallying (nd tallying 65) 3 = false ∧ (nd tallying 65).st ≠ .issued ∧
    (takeAt tallying.tly.exp 0).isSome = true ∧ (takeFirst (inLane 1) tallying.tly.ops).isSome = true ∧
    isSwitch { node := 65, w := 2, n := 1, src := .notice, also := [] } = false ∧ (takeAt tallying.tly.miss 0).isSome = true ∧
    tallying.tly.backlog.look 15 ≠ [] ∧ beadCredit tallying 15 = true ∧ tallying.tly.ops.any (inLane 1) = true ∧
    tallying.tly.ops.any (inLane 31) = false := by decide +kernel

/-- A decrement below, at and above the tally 3 of a standalone node (R81). -/
def waiting (k : Kind) : State :=
  { ready with grs.nodes := [(66, { (default : NodeRec) with kind := k, st := .waiting, tally := 3, initTally := 3, graph := Config.noNode })] }
theorem test_decrement :
    (nd (applyDec (waiting .task) { node := 66, w := 2, n := 1, src := .notice, also := [] }) 66).tally = 1 ∧
    (nd (applyDec (waiting .task) { node := 66, w := 3, n := 1, src := .notice, also := [] }) 66).st = .ready ∧
    (nd (applyDec (waiting .join) { node := 66, w := 4, n := 1, src := .notice, also := [] }) 66).st = .retired ∧
    regGet (applyDec (waiting .join) { node := 66, w := 4, n := 1, src := .notice, also := [] }) (Ctr.addr .tlyUnderflow) = 1 := by decide +kernel
/-! ### Published test vectors of the algorithms that the spec names -/

/-- RFC 4493, example 1 (AES-CMAC of the empty message) and the key of its examples. -/
def cmacKey : Nat := leNat ([0x2b, 0x7e, 0x15, 0x16, 0x28, 0xae, 0xd2, 0xa6, 0xab, 0xf7, 0x15, 0x88, 0x09, 0xcf, 0x4f, 0x3c])
theorem test_aesCmac :
    aesCmac cmacKey [] = leNat [0xbb, 0x1d, 0x69, 0x29, 0xe9, 0x59, 0x37, 0x28, 0x7f, 0xa3, 0x7d, 0x12, 0x9b, 0x75, 0x67, 0x46] := by decide +kernel

/-- RFC 3394, section 4.1. -/
def wrapped : Nat := leNat [0x1F, 0xA6, 0x8B, 0x0A, 0x81, 0x12, 0xB4, 0x47, 0xAE, 0xF3, 0x4B, 0xD8, 0xFB, 0x5A, 0x7B, 0x82,
  0x9D, 0x3E, 0x86, 0x23, 0x71, 0xD2, 0xCF, 0xE5]
def kek : Nat := leNat ((List.range 16).map (BitVec.ofNat 8))
theorem test_keyUnwrap :
    keyUnwrap kek wrapped = some (leNat ((List.range 16).map fun i => BitVec.ofNat 8 (0x11 * i))) := by decide +kernel

/-- CRC-32C of "123456789" (its check value), and SHA-384 of "abc" (FIPS 180-4's example). -/
theorem test_crc32c : crc32c ([0x31, 0x32, 0x33, 0x34, 0x35, 0x36, 0x37, 0x38, 0x39]) = 0xE3069283 := by decide +kernel
theorem test_sha384 : sha384 [0x61, 0x62, 0x63] =
    0xcb00753f45a35e8bb5a03d699ac65007272c32ab0eded1631a8b605a43ff5bed8086072ba1e7cc2358baeca134c825a7 := by decide +kernel

/-! ### Kernel commands -/

/-- Kernel queue 0x100F with a command at the front, key slot 0 valid, and queue 5 in a state. -/
def kernelAt (c : Cmd) (st : QState) : State :=
  { k15with [c] [] with
    queues := [(5, { (default : Queue) with st := st }),
               (0x100F, { (default : Queue) with st := .fetching, fetched := [c] })]
    aut.slots := [(0, { st := .valid, key := kek, last := 4, logged := 65536 })] }

/-- A critical command under slot 0 with counter `n` and a tag. -/
def critical (op : Nat) (fs : List (Nat × Nat)) (n tag : Nat) : Cmd :=
  let c := cmdOf op (fs ++ [(1, 1), (0x48, n)])
  { c with n := 2, body := c.body + tag * 256 ^ 0x50 }

def unlockCmd : Cmd := critical 0xC5 [(8, 2), (0xA, 0xFFFF)] 5 0xc5d28c67ca9bf0b233136dad57104a8c
def unlockOld : Cmd := critical 0xC5 [(8, 2), (0xA, 0xFFFF)] 4 0x37dc3b065ded69d92f4f07aa58d5d04b
def unlockFar : Cmd := critical 0xC5 [(8, 2), (0xA, 0xFFFF)] 131072 0x76100671eb1347e2db87e5bdabc270f2
def partSetCmd : Cmd := critical 0xC0 [(8, 15)] 5 0xc63b1c8e481cfa7c9cb8839b7a3e05a9
def keySetCmd : Cmd := critical 0xC1 [(8, 1), (0x10, wrapped)] 5 0x93b0831fa0d866fc0d20ad64bca6546f
def keyRevoke : Cmd := critical 0xC1 [(8, 7), (9, 1)] 5 0x7cdc324752c19f2ac74879dac620f00c
def rknLoadCmd : Cmd := critical 0xC2 [(8, 0x80000001), (0x1C, 65536)] 5 0x62d4d43e37fde86fe16a39e6ade7cf31
def quiesceCmd : Cmd := critical 0xC3 [(8, 8), (0x1C, 64)] 5 0x28045a86114dbed614f0ab2add7939c8
def lockedCmd : Cmd := critical 0xC4 [(8, 0x400200), (0x10, 3), (0x18, 0xFF)] 5 0xafd791267085ed6fd4944b382ddfb635

/-- The tags are right: AES-CMAC of record 0 and the first 16 bytes of the extension (R54). -/
theorem test_tag_unlockCmd : authTag kek unlockCmd = extTag unlockCmd := by decide +kernel
theorem test_tag_unlockOld : authTag kek unlockOld = extTag unlockOld := by decide +kernel
theorem test_tag_unlockFar : authTag kek unlockFar = extTag unlockFar := by decide +kernel

theorem test_QueueConfiguration :
    frontCmd (kernelAt (cmdOf 0x80 [(8, 5)]) .disabled) 0x100F 0x80 = some (cmdOf 0x80 [(8, 5)]) ∧
    (queue (kernelAt (cmdOf 0x80 [(8, 5)]) .disabled) 5).st = .disabled ∧
    (queue (kernelAt (cmdOf 0x80 [(8, 5)]) .idle) 5).st ≠ .disabled ∧
    frontCmd (kernelAt (cmdOf 0x81 [(8, 5)]) .idle) 0x100F 0x81 = some (cmdOf 0x81 [(8, 5)]) ∧
    frontCmd (kernelAt (cmdOf 0x82 [(8, 15)]) .idle) 0x100F 0x82 = some (cmdOf 0x82 [(8, 15)]) := by decide +kernel

/-- Resets of a queue without work and of a partition without queues, nodes, channels and tables at work. -/
theorem test_QueueConfiguration_workless :
    Alone (kernelAt (cmdOf 0x81 [(8, 5)]) .idle) 0x100F 0x81 (cmdOf 0x81 [(8, 5)]) ∧
    Workless (startFront (kernelAt (cmdOf 0x81 [(8, 5)]) .idle) 0x100F (cmdOf 0x81 [(8, 5)])) 5 ∧
    (startFront (kernelAt (cmdOf 0x81 [(8, 5)]) .idle) 0x100F (cmdOf 0x81 [(8, 5)])).queues.canon = true ∧
    Alone (kernelAt (cmdOf 0x82 [(8, 15)]) .idle) 0x100F 0x82 (cmdOf 0x82 [(8, 15)]) ∧
    partQueues (startFront (kernelAt (cmdOf 0x82 [(8, 15)]) .idle) 0x100F (cmdOf 0x82 [(8, 15)])) 15 = [] ∧
    (∀ b, b < 16 → btPart ready b = 15 → (bt ready b).st = .off ∧ (bt ready b).interrupted = false ∧ (bt ready b).slots = []) := by
  unfold Alone Workless; decide +kernel

/-- QUEUE_CONFIG makes queue 5 IDLE; QUEUE_RESET makes it DISABLED. -/
theorem test_queueConfig :
    after (.queueConfig 0x100F) (kernelAt (cmdOf 0x80 [(8, 5), (0xB, 1), (0xC, 4), (0xD, 4)]) .disabled)
      (fun t => (queue t 5).st == .idle && (queue t 5).phase && (queue t 5).sqLog2 == 4) ∧
    after (.queueReset 0x100F) (kernelAt (cmdOf 0x81 [(8, 5)]) .idle) (fun t => (queue t 5).st == .disabled) := by decide +kernel

/-- Counters at LAST, above it, and across a multiple of 65,536; an invalid slot. -/
theorem test_CriticalCheck :
    frontCmd (kernelAt unlockCmd .idle) 0x100F 0xC5 = some unlockCmd ∧
    keySlot (kernelAt unlockCmd .idle) 0 = { st := .valid, key := kek, last := 4, logged := 65536 } ∧
    extSlot unlockCmd = 0 ∧ extCounter unlockCmd = 5 ∧ extCounter unlockOld = 4 ∧ (keySlot ready 0).st ≠ .valid ∧
    extCounter unlockCmd / 65536 ≤ 65536 / 65536 ∧ 65536 / 65536 < extCounter unlockFar / 65536 := by decide +kernel

/-- The state after the check of `c` under counter 5, with partitions paused. -/
def passed (c : Cmd) (paused : W64) : State :=
  { startFront (kernelAt c .disabled) 0x100F c with
    aut.slots := [(0, { st := .valid, key := kek, last := 5, logged := 65536 })], regs := [(0x500000, paused), (0x5F0, 0x404)] }
theorem test_CriticalRegisters :
    lateFault (passed partSetCmd 0x8000) 0x100F partSetCmd = none ∧ partQueues (passed partSetCmd 0x8000) 15 = [] ∧
    regBit (passed partSetCmd 0x8000) 0x500000 15 = true ∧ regBit (passed partSetCmd 0) 0x500000 15 = false ∧
    issuedOf (passed partSetCmd 0) 15 = false ∧ lateFault (passed lockedCmd 0) 0x100F lockedCmd = none ∧
    inRow 0x400200 0xa00200 8 16 = false ∧ lateFault (passed unlockCmd 0) 0x100F unlockCmd = none := by decide +kernel

/-- DEBUG_UNLOCK under the right tag opens full debug access; under a repeated counter it does not (R51, R56). -/
theorem test_debugUnlock :
    after (.debugUnlock 0x100F) (kernelAt unlockCmd .idle) (fun t => t.obs.dbgLevel == 2) ∧
    after (.debugUnlock 0x100F) (kernelAt unlockOld .idle)
      (fun t => t.obs.dbgLevel == 0 && regGet t (Ctr.addr .autReplay) == 1) := by decide +kernel

/-- KEY_SET with a key wrapped under slot 0 and with a revocation; a confirmation with one held command or none. -/
def heldFor1 (b : Bool) : State := { ready with aut.held := [{ q := 0x100F, cmd := cmdOf 0xC1 [], slot := 1, installed := b }] }
theorem test_Keys :
    lateFault (passed keySetCmd 0) 0x100F keySetCmd = none ∧ keySetCmd.fld 0x10 0 192 = wrapped ∧ keySetCmd.fld 9 0 1 ≠ 1 ∧
    lateFault (passed keyRevoke 0) 0x100F keyRevoke = none ∧ keyRevoke.fld 9 0 1 = 1 ∧
    (ready.mgt.logQ.any fun r => (r.type == 1 || r.type == 2) && r.key == 1) = false ∧
    ((heldFor1 true).aut.held.filter (·.slot == 1)).length = 1 ∧ ((heldFor1 true).aut.held.filter (·.slot == 0)) = [] := by decide +kernel

/-- Code loads for agents 0 and 31, for a busy one, quiesced, and their end at agent 3. -/
def loading (started : Bool) : State :=
  { k15with [] [{ cmd := cmdOf 0xC3 [(8, 8), (0x1C, 64)], ended := false, nodes := 0 }] with
    agt := [(3, { (default : Agent) with rkn := { (default : Rkn) with st := .loading } })]
    codeLoads := [{ q := 0x100F, seq := 7, mask := 8, started := started }] }
theorem test_CodeLoads :
    lateFault (passed rknLoadCmd 0) 0x100F rknLoadCmd = none ∧
    maskAgents (passed rknLoadCmd 0) 0x80000001 = [0, 31] ∧ (passed rknLoadCmd 0).dis.rknBusy.look 31 = false ∧
    Tab.look (α := Bool) [(31, true)] 31 = true ∧ lateFault (passed quiesceCmd 0) 0x100F quiesceCmd = none ∧
    ((loading false).codeLoads.find? fun l => l.q == 0x100F && !l.started).isSome = true ∧
    (liveCmd (loading false) 0x100F 7).isSome = true ∧ maskAgents (loading false) 8 = [3] ∧ (rkn (loading false) 3).st = .loading ∧
    (takeFirst (fun l => l.q == 0x100F && l.started) (loading true).codeLoads).isSome = true := by decide +kernel
/-- One core with room for 10 blocks, on agent 31 for partition 15 (share 128), and a bead of `n` blocks of that partition. -/
def bead (n : Nat) : Bead :=
  { (default : Bead) with node := 66, graph := Config.noNode, part := 15, prio := 15, regs := 1, groups := 1, blocks := n }
def dispatching (n credit : Nat) : State :=
  { ready with
    regs := [(0x400000, 0x000006720C400100), (0x400178, 128), (0x400278, 0x80000000)]
    grs.nodes := [(66, { (default : NodeRec) with kind := .task, st := .ready, graph := Config.noNode })]
    mgt.rate := 8192
    dis := { (default : Dis) with
      beads := [bead n], cap := [(496, { regs := 10, lmem := 10, groups := 10, blocks := 10 })],
      credit := if credit = 0 then [] else [(15, credit)], meter := 8192 } }

/-- The only bead fits whole, with or without its partition's credit; droop, no beads, and a stopped dispatcher. -/
theorem test_DispatcherCycle :
    (dispatching 2 32).dis.stopped = false ∧ isReady (dispatching 2 32) = true ∧ (dispatching 2 32).dis.droop = 0 ∧
    partOpen (dispatching 2 32) 15 = true ∧ staleBead (dispatching 2 32) (bead 2) = false ∧
    skipBead (dispatching 2 32) (bead 2) = false ∧ unplaceable (dispatching 2 32) (bead 2) = false ∧
    choose (dispatching 2 32) (bead 2) (fun _ => false) = .slice 31 [(0, 2)] ∧ sliceBlocks [(0, 2)] = 2 ∧
    choose (dispatching 11 32) (bead 11) (fun _ => false) = .slice 31 [(0, 10)] ∧ isLayer (bead 2) = false ∧
    isPinned (dispatching 2 32) 15 = false ∧ (nd (dispatching 2 32) (bead 2).node).st = .ready ∧
    unplaceable { dispatching 2 0 with dis.cap := [] } (bead 2) = true := by decide +kernel

/-- The launch leaves and the node is ISSUED. -/
theorem test_dispatch :
    after .dispatchCycle (dispatching 2 32) (fun t => t.dis.beads.isEmpty && (nd t 66).st == .issued &&
      t.dis.meter == 7168 && t.dis.credit.look 15 == 128) ∧
    after .dispatchCycle (dispatching 11 32) (fun t => (t.dis.beads.map (·.next)) == [10]) := by decide +kernel

/-- A head that has failed HOLD_AC ac, below PRE_PRIO (12) and at 15; reports; slices that merge and that end. -/
def failing (prio : Nat) : State :=
  { dispatching 2 0 with dis.beads := [{ bead 2 with prio := prio, fails := 256 }] }
def slicing (out : Nat) (all : Bool) : State :=
  { dispatching 2 0 with dis.slices := [{ node := 66, gen := 0, part := 15, outstanding := out, allIssued := all, halted := false,
                                          peerClosed := false, drops := 0 }] }
theorem test_DispatcherReports :
    holdAc (failing 0) = 256 ∧ regFld (failing 0) 0x400000 27 24 = 12 ∧
    ((failing 11).dis.beads.find? fun b => b.part == 15 && !b.held && decide (holdAc (failing 11) ≤ b.fails) &&
      rodHead (failing 11) 15 b.cls b.prio == some b).isSome = true ∧
    ((failing 12).dis.beads.find? fun b => b.part == 15 && !b.held && decide (holdAc (failing 12) ≤ b.fails) &&
      rodHead (failing 12) 15 b.cls b.prio == some b).isSome = true ∧
    drainTarget (failing 12) { bead 2 with prio := 12 } = some 31 ∧
    ((slicing 1 true).dis.slices.find? fun e => e.node == 66 && e.gen == 0).isSome = true ∧
    ((slicing 2 true).dis.slices.find? fun e => e.node == 66 && e.gen == 0).isSome = true := by decide +kernel

theorem test_sliceRetirement :
    after (.sliceRetirement 31 66 0 .done 3) (slicing 1 true)
      (fun t => t.dis.slices.isEmpty && t.out == [.merged 66 0 .done 3]) ∧
    after (.holdStart 15) (failing 12) (fun t => (t.dis.beads.map (·.drain)) == [some 31]) := by decide +kernel

/-- An armed entry at its switch point, with a free fall-back and with a busy one; a switch in EXIT's lane. -/
def deadline (l : LState) : State :=
  { ready with
    ts := 100
    grs.nodes := [(64, { (default : NodeRec) with kind := .graph, hdr := { (default : Header) with lstate := l } })]
    grs.tpl := [(7, { header := 64, part := 0, valid := true })]
    pdm.dl := [(255, { armed := true, switched := false, at_ := 100, main := 32, fallback := 7, exit_ := 40 })] }
def switching : State := { ready with tly.ops := [{ node := 40, w := 0, n := 0, src := .switch 255, also := [] }] }
/-- A batching table of partition 0, idle with one join, or at a boundary without a member. -/
def table (st : BtState) (joins : Byte) : State :=
  { ready with
    regs := [(0x502000, 0x44800), (0xa00200, 0x10010)]
    mem := [(0x40000000, joins)]
    grs.nodes := [(64, { (default : NodeRec) with kind := .graph, hdr := { (default : Header) with lstate := .loaded } })]
    grs.tpl := [(0, { header := 64, part := 0, valid := true })]
    pdm.bt := [(0, { (default : BatchTable) with st := st })] }
theorem test_DeadlinesAndTables :
    ((deadline .loaded).pdm.dl.look 255).armed = true ∧ fallbackFree (deadline .loaded) 64 = true ∧
    fallbackFree (deadline .draining) 64 = false ∧ ((deadline .loaded).tly.ops.any fun op => op.src == .switch 255) = false ∧
    (switching.tly.ops.find? fun op => op.src == .switch 255).isSome = true ∧
    (takeFirst (inLane (40 % 32)) switching.tly.ops).isSome = true ∧
    btWord (table .idle 1) 0 0 ≠ btWord (table .idle 1) 0 8 ∧ (bt (table .boundary 1) 0).st = .boundary ∧
    stepRoom (table .boundary 1) 0 = true ∧ (bt (table .boundary 0) 0).st = .boundary := by decide +kernel

/-- A switch that EXIT takes: the main launch is ACTIVE, its node at 40 waits, and the fall-back at 64 may activate. -/
def exiting (l : LState) : State :=
  { switching with
    ts := 100
    grs.nodes := [(32, { (default : NodeRec) with kind := .graph, gen := 4, hdr := { (default : Header) with lstate := l } }),
                  (40, { (default : NodeRec) with kind := .join, graph := 32, gen := 4, st := .waiting, tally := 3 }),
                  (64, { (default : NodeRec) with kind := .graph, hdr := { (default : Header) with lstate := .loaded } })]
    grs.tpl := [(7, { header := 64, part := 0, valid := true })], grs.reserved := [64]
    pdm.dl := [(255, { armed := true, switched := false, at_ := 100, main := 32, fallback := 7, exit_ := 40 })] }
theorem test_exitSwitch :
    let u := exiting .active
    let r := armed u (nd u 40)
    let t := detReport (count (updH { updN { u with tly.ops := [] } 40 (fun _ => { r with tally := 1 }) with
        pdm.dl := (u.pdm.dl.upd 255 fun d => { d with armed := false }).upd 255 fun d => { d with switched := true } }
      32 fun h => { h with switched := true }) .pdmFb) (partOr0 u 40) 6 40 40 0
    let s := trRecord t { type := 4, part := partOr0 t 40, cls := 0, gen := r.gen.toNat, node := 40, sub := 255, ts := t.ts,
                          arg1 := BitVec.ofNat 64 7, arg2 := 0 }
    (nd u 32).hdr.lstate = .active ∧ r.st = .waiting ∧ (nd s 64).hdr.lstate = .loaded ∧ Activates s 64 ∧
    (nd (exiting .loaded) 32).hdr.lstate ≠ .active := by
  unfold Activates; decide +kernel
theorem test_exitSwitch_effect :
    after (.exitSwitch 255) (exiting .active) (fun t => (nd t 64).hdr.lstate == .active && t.grs.reserved.isEmpty &&
      regGet t (Ctr.addr .pdmFb) == 1) ∧
    after (.exitSwitch 255) (exiting .loaded) (fun t => (nd t 64).hdr.lstate == .loaded &&
      regGet t (Ctr.addr .pdmLateSwitch) == 1) := by decide +kernel

/-- Batching tables that may move, and reports that arrive. -/
theorem test_DispatcherReports_lands :
    btFault (table .idle 1) 0 = none ∧ btFault (table .boundary 1) 0 = none ∧ (agt (failing 0) 31).held = false ∧
    (∀ k, Lands (isOcc 31 k) (failing 0) (failing 0)) ∧ (∀ k, Lands (· == .cap 31 k) (failing 0) (failing 0)) ∧
    Lands (· == .retire 31 true 66 0 .done 3) (slicing 1 true) (slicing 1 true) :=
  ⟨by decide, by decide, rfl, fun _ => rfl, fun _ => rfl, rfl⟩
/-- A launch of node 66 of partition 0 in generation 1: two blocks on core 1, its kernel descriptor at offset 0. -/
def task : Launch := { (default : Launch) with node := 66, gen := 1, regs := 4, groups := 2, blocks := 2, coreBlocks := [0, 2] }

/-- Partition 0's data region in unit 16, with a kernel descriptor of the given TYPE and its entry 0x200 at its start. -/
def described (type : Byte) : State :=
  { ready with regs := [(0xa00200, 0x10010)], mem := [(0x40000000, type), (0x40000009, 2)] }

/-- Agent 3 with `task`, its descriptor read or not, and the given blocks. -/
def tasked (type : Byte) (checked : Bool) (bs : List Block) : State :=
  { described type with
    agt := [(3, { (default : Agent) with
      portRdy := true, dnCred := 1, tasks := [{ l := task, checked := checked, peerClosed := false, drops := 0 }],
      blocks := bs, groupPairs := [{ core := 1, tag := 9, group := 1, pairs := [{ bar := 8, phase := 2 }] }] })] }
def block (tag : Nat) : Block :=
  { core := 1, tag := tag, node := 66, gen := 1, first := 0, part := 0, groups := 2, index := 0,
    res := launchNeed task, started := true, aborted := false }

theorem test_TaskLaunches :
    (agt (tasked 1 false []) 3).stopped = false ∧
    ((agt (tasked 1 false []) 3).tasks.find? fun t => sameLaunch t.l 66 1 && !t.checked) =
      some { l := task, checked := false, peerClosed := false, drops := 0 } ∧
    Bytes.fld (readPart (tasked 1 false []) 0 0 16).1 0 0 8 = 1 ∧ Bytes.fld (readPart (tasked 1 false []) 0 0 16).1 8 0 64 = 0x200 ∧
    Bytes.fld (readPart (tasked 2 false []) 0 0 16).1 0 0 8 = 2 ∧
    (agt (tasked 1 false []) 3).portRdy = true ∧ (agt (tasked 1 false []) 3).dnQ = [] ∧
    1 ≤ (agt (tasked 1 false []) 3).dnCred ∧ (agt (tasked 1 false []) 3).blocks = [] := by decide +kernel

/-- Blocks 0 and 1 go to core 1; a descriptor of TYPE 2 retires the launch HALTED, in state of reason 3. -/
theorem test_kernelDesc :
    blockCores (tasked 1 false []) 3 task = [(0, 1), (1, 1)] ∧
    after (.kernelDescCheck 3 66 1) (tasked 2 false [])
      (fun t => t.out.contains (.retire 3 false 66 1 .halted 0) && (regFld t (agentBase 3 + 8) 15 8 == 3)) := by decide +kernel

/-- The last block, one of two, and none; groups 1 (live) and 2 (not one). -/
theorem test_BlockEnds :
    isReady (tasked 1 true [block 9]) = true ∧ liveBlock (tasked 1 true [block 9]) 3 1 8 = none ∧
    liveBlock (tasked 1 true [block 9]) 3 1 9 = some (block 9) ∧ (block 9).groups = 2 ∧
    (takeFirst (fun t => sameLaunch t.l 66 1 && t.l.firstBlock == 0 && t.checked) (agt (tasked 1 true []) 3).tasks).isSome = true ∧
    hasBlocks (agt (tasked 1 true []) 3) { l := task, checked := true, peerClosed := false, drops := 0 } = false := by decide +kernel

theorem test_blockEnd :
    after (.blockEnd 3 1 9) (tasked 1 true [block 9]) (fun t => t.out.contains (.retire 3 false 66 1 .done 0)) ∧
    after (.blockEnd 3 1 9) (tasked 1 true [block 9, block 10]) (fun t => t.out.length == 1) ∧
    after (.groupEnd 3 1 9 1) (tasked 1 true [block 9]) (fun t => t.out == [.notice 3 66 1 [{ bar := 8, phase := 2 }]]) ∧
    after (.groupEnd 3 1 9 2) (tasked 1 true [block 9]) (fun t => regGet t (Ctr.agtPortErr 3).addr == 1) := by decide +kernel

/-- Agent 3 with an engine operation of core 1 that returns a value to s4, and a message that needs two credits. -/
def engines (cred : Nat) : State :=
  { ready with agt := [(3, { (default : Agent) with
      portRdy := true, dnCred := cred, dnQ := [.engCfg 1 0 2 0 5],
      blocks := [block 9],
      rkn := { (default : Rkn) with st := .running, launch := some task, ops := [{ core := 1, eng := 0, tag := 5, rd := 4, outside := false, at_ := 0 }],
                                    pend := 0x10 } })] }
theorem test_ClusterReports :
    (agt (engines 0) 3).stopped = false ∧
    takeFirst (fun o => o.core == 1 && o.tag == 5) (rkn (engines 0) 3).ops =
      some ({ core := 1, eng := 0, tag := 5, rd := 4, outside := false, at_ := 0 }, []) ∧
    (rkn (engines 0) 3).st ≠ .aborting ∧ takeFirst (fun o => o.core == 1 && o.tag == 6) (rkn (engines 0) 3).ops = none ∧
    (agt (engines 0) 3).portRdy = true ∧ (agt (engines 0) 4).portRdy = false ∧ dnFlits (.engCfg 1 0 2 0 5) = 1 ∧
    dnFlits (.engCmd 1 0 2 1 7 4 false []) = 2 ∧ isReady (engines 0) = true ∧ isReady { engines 0 with crb.stage := .build } = false ∧
    (agt (engines 0) 3).acts.contains (66, 1) = false := by decide +kernel

theorem test_engDone :
    after (.engDone 3 1 5 (some 77)) (engines 0) (fun t => getS t 3 4 == 77 && !isPend t 3 4 && (rkn t 3).ops.isEmpty) ∧
    after (.dnCredit 3) (engines 0) (fun t => t.out == [.dn 3 (.engCfg 1 0 2 0 5)] && (agt t 3).dnCred == 0) ∧
    after (.capacityRecord 3 15 (default : Res)) (engines 0) (fun t => t.out.length == 1) ∧
    after (.credit 3 1) { engines 0 with agt := [(3, { (default : Agent) with eqUsed := [(0, 16)] })] }
      (fun t => (agt t 3).eqUsed.look 0 == 15) := by decide +kernel

/-- A read of word 8 of the own data region; operations 0 and 7, a wrong FLITS field, scope 3. -/
def opMsg (op : Nat) : OpMsg :=
  { core := 1, tag := 3, op := op, final := false, scope := 0, ord := false, aop := 0, size8 := false, group := 0, btag := 9,
    addr := 8, data := 0, cmp := 0, mask := 0xFF, payload := [], lanes := [], flits := opFlits op 0, reserved := false,
    credit := true }
def opened (h : FabHdr) (got : Option (Nat × W64 × Bytes)) : State :=
  { tasked 1 true [block 9] with agt := [(3, { (default : Agent) with
      portRdy := true, blocks := [block 9],
      ops := [{ core := 1, tag := 3, btag := 9, group := 0, src := default, hdr := h, size8 := false, lanes := [], held := false,
                got := got }] })] }
theorem test_CoreOperations :
    (opMsg 0).op = 0 ∧ 6 < (opMsg 7).op ∧ (opMsg 5).flits = 2 ∧ opFlits 6 9 = 4 ∧ (opMsg 1).flits = opFlits 1 0 ∧
    isReady (tasked 1 true [block 9]) = true ∧ (agt (tasked 1 true [block 9]) 3).stopped = false ∧
    liveBlock (tasked 1 true [block 9]) 3 1 8 = none ∧ liveBlock (tasked 1 true [block 9]) 3 1 9 = some (block 9) ∧
    ((agt (tasked 1 true [block 9]) 3).ops.filter (·.core == 1)).length < 64 ∧
    64 ≤ (List.filter (fun o : CoreOp => o.core == 1) (List.replicate 64 { (default : CoreOp) with core := 1 })).length ∧
    coreMustWait 0 [] { (default : FabHdr) with op := 1 } = false ∧
    coreMustWait 0 [{ (default : CoreOp) with hdr := { (default : FabHdr) with op := 1, ord := true } }]
      { (default : FabHdr) with op := 1 } = true ∧
    (takeFirst (fun o => o.core == 1 && o.tag == 3 && !o.held) (agt (opened { (default : FabHdr) with op := 1 } none) 3).ops).isSome = true ∧
    takeFirst (fun o => o.core == 1 && o.tag == 4 && !o.held) (agt (opened { (default : FabHdr) with op := 1 } none) 3).ops = none := by decide +kernel

/-- A core's read of word 8 of its data region finds the entry's byte; its answer goes out with that value. -/
theorem test_coreRead :
    after (.agentPortOp 3 (opMsg 1)) (tasked 1 true [block 9])
      (fun t => (agt t 3).ops.map (·.got) == [some (0, 0x200, [])]) ∧
    after (.answer 3 1 3 0 0 []) (opened { (default : FabHdr) with op := 1 } (some (0, 0x200, [])))
      (fun t => t.out == [.ans 3 1 3 0 0x200 []] && (agt t 3).ops.isEmpty) := by decide +kernel

/-- A layer on cores 0 and 1, its kernel descriptor at offset 0x100 of its partition; `first` is TD_FIRST of its `n` descriptors. -/
def layer : Launch :=
  { (default : Launch) with node := 66, gen := 1, cls := 4, kdesc := 0x100, arg := 5, blocks := 2, coreBlocks := [1, 1] }
def layerDesc (type n : Nat) : Bytes := leBytes 256 (fields [(0, type), (8, 0x40), (0x18, 1), (0x1A, n), (0x30, 1)])
def settingUp (type n : Nat) (td : Nat) : State :=
  { ready with
    regs := [(0xa00200, 0x10010)]
    mem := memPut (memPut [] 0x40000000 (leBytes 64 td)) 0x40000100 (layerDesc type n)
    agt := [(3, { (default : Agent) with rkn := { (default : Rkn) with st := .setup, launch := some layer, cores := [0, 1] } })] }
/-- FP32, SPACE 1, rank 1, 1 × 4 elements. -/
def td4 : Nat := 2 + 1 * 2 ^ 4 + 1 * 2 ^ 16 + 4 * 2 ^ 32 + 4 * 2 ^ 128

theorem test_LayerLaunches :
    (rkn ready 3).st = .idle ∧ (rkn (settingUp 2 1 td4) 3).st ≠ .idle ∧ (rkn (settingUp 2 1 td4) 3).st = .setup ∧
    (rkn (settingUp 2 1 td4) 3).launch = some layer ∧
    kdCheck (readPart (settingUp 1 1 td4) 0 0x100 256).1 = some 3 ∧ kdCheck (readPart (settingUp 2 1 td4) 0 0x100 256).1 = none ∧
    Bytes.fld (layerDesc 2 1) 0x1A 0 13 = 1 ∧ Bytes.fld (layerDesc 2 1) 0x18 0 12 = 1 ∧
    (loadTds 3 0 2 1 1 (leBytes 64 td4) ready).2 = none ∧
    (loadTds 3 0 2 1 1 (leBytes 64 (td4 - 4 * 2 ^ 128)) ready).2 = some 3 := by decide +kernel

/-- Setup loads the descriptor and runs from ENTRY with ARG in s1; a bad TYPE halts. -/
theorem test_layerSetup :
    after (.layerSetupDone 3) (settingUp 2 1 td4) (fun t => (rkn t 3).st == .running && (rkn t 3).pc == 0x40 &&
      getS t 3 1 == 5 && ((agt t 3).td.look 1).valid) ∧
    after (.layerSetupDone 3) (settingUp 1 1 td4) (fun t => (rkn t 3).st == .halting) ∧
    after (.layerLaunch 3 layer) ready (fun t => (rkn t 3).st == .setup && (rkn t 3).cores == [0, 1]) := by decide +kernel

/-- A stopped agent keeps what arrives; a channel's operation leaves at once; a launch arrives. -/
theorem test_ClusterReports_stopped :
    let u : State := { engines 0 with agt := [(3, { (default : Agent) with stopped := true })] }
    agtShut u 3 = true ∧ agtShut (engines 0) 3 = false ∧ (agt u 3).inbox = [] ∧
    (∀ n ∈ AgtIn.flits (.op (opMsg 1)), n.2 ≤ 16) ∧ (∀ n ∈ AgtIn.flits (.engDone 1 5 none), n.2 ≤ 16) ∧
    after (.engDone 3 1 5 none) u (fun t => (agt t 3).inbox.length == 1) := by decide +kernel
theorem test_CoreOperations_chan :
    (∃ c off, targetOf (tasked 1 true [block 9]) (chanLoc 8 0xFC0000) = .chan c off) ∧ isReady State.reset = false ∧
    chanOff (opMsg 1).addr.toNat = none ∧ barOff (opMsg 1).addr.toNat = none ∧
    Lands (· == .launch 3 task) (engines 0) (engines 0) := by
  refine ⟨⟨8, 0xFC0000, ?_⟩, ?_, ?_, ?_, rfl⟩
  all_goals decide +kernel
/-- Agent 3's Reckoner running a layer on cores 0 and 1, with word `w` at PC 0 and the given registers. -/
def running (w : Nat) (regs : Tab W64) : State :=
  { ready with agt := [(3, { (default : Agent) with
      portRdy := true, dnCred := 2,
      rkn := { (default : Rkn) with st := .running, launch := some layer, cores := [0, 1], imem := [(0, BitVec.ofNat 64 w)],
                                    sreg := regs } })] }

/-- An instruction word of layouts R, I and B: opcode, RD, RS1, RS2 or IMM. -/
def insW (op d r1 r2 imm : Nat) : Nat := op + d * 2 ^ 8 + r1 * 2 ^ 13 + r2 * 2 ^ 18 + imm * 2 ^ 32

/-- ADD s31, s1, s2 with s1 = 2^64 − 1 and s2 = 64: every register form runs on these registers (R149, R150). -/
theorem test_ScalarArithmetic :
    (∀ code ∈ [0x10, 0x1F], AtIns (running (insW code 31 1 2 0) [(1, 0xFFFFFFFFFFFFFFFF), (2, 64)]) 3 code (insW code 31 1 2 0) ∧
      insW code 31 1 2 0 &&& maskR = insW code 31 1 2 0) ∧
    isPend (running 0 []) 3 31 = false ∧ isPend (running 0 []) 3 0 = false ∧
    (∀ code ∈ [0x20, 0x27, 0x24, 0x26], AtIns (running (insW code 31 1 0 63) [(1, 5)]) 3 code (insW code 31 1 0 63) ∧
      insW code 31 1 0 63 &&& maskI = insW code 31 1 0 63) ∧
    bitsOf (insW 0x24 31 1 0 63) 63 38 = 0 ∧ rs1 (insW 0x28 4 0 0 0xFFFFFFFF) = 0 ∧
    AtIns (running (insW 0x28 4 0 0 0xFFFFFFFF) []) 3 0x28 (insW 0x28 4 0 0 0xFFFFFFFF) ∧
    AtIns (running (insW 0x29 4 0 0 7) []) 3 0x29 (insW 0x29 4 0 0 7) := by
  unfold AtIns; decide +kernel

/-- Sums wrap, MULHU takes the upper half, shifts use the low 6 bits, comparisons and MIN are signed or not as named. -/
def regForm (op : Nat) (c : Instr) (v : W64) : Prop :=
  after c (running (insW op 31 1 2 0) [(1, 0xFFFFFFFFFFFFFFFF), (2, 65)]) (fun t => getS t 3 31 == v && (rkn t 3).pc == 8)
theorem test_regForms :
    regForm 0x10 (.rknAdd 3) 64 ∧ regForm 0x11 (.rknSub 3) 0xFFFFFFFFFFFFFFBE ∧ regForm 0x12 (.rknMul 3) 0xFFFFFFFFFFFFFFBF ∧
    regForm 0x13 (.rknMulhu 3) 64 ∧ regForm 0x14 (.rknAnd 3) 65 ∧ regForm 0x15 (.rknOr 3) 0xFFFFFFFFFFFFFFFF ∧
    regForm 0x16 (.rknXor 3) 0xFFFFFFFFFFFFFFBE ∧ regForm 0x17 (.rknShl 3) 0xFFFFFFFFFFFFFFFE ∧
    regForm 0x18 (.rknShr 3) 0x7FFFFFFFFFFFFFFF ∧ regForm 0x19 (.rknSra 3) 0xFFFFFFFFFFFFFFFF ∧ regForm 0x1A (.rknSlt 3) 1 ∧
    regForm 0x1B (.rknSltu 3) 0 ∧ regForm 0x1C (.rknMin 3) 0xFFFFFFFFFFFFFFFF ∧ regForm 0x1D (.rknMax 3) 65 ∧
    regForm 0x1E (.rknMinu 3) 65 ∧ regForm 0x1F (.rknMaxu 3) 0xFFFFFFFFFFFFFFFF := by
  unfold regForm; decide +kernel

def immForm (op : Nat) (c : Instr) (imm : Nat) (v : W64) : Prop :=
  after c (running (insW op 1 (if op < 0x28 then 1 else 0) 0 imm) [(1, 0xFFFFFFFFFFFFFFF0)]) (fun t => getS t 3 1 == v)
theorem test_immForms :
    immForm 0x20 (.rknAddi 3) 0xFFFFFFFF 0xFFFFFFFFFFFFFFEF ∧ immForm 0x21 (.rknAndi 3) 0x80000000 0xFFFFFFFF80000000 ∧
    immForm 0x22 (.rknOri 3) 5 0xFFFFFFFFFFFFFFF5 ∧ immForm 0x23 (.rknXori 3) 0xFFFFFFFF 15 ∧ immForm 0x24 (.rknShli 3) 60 0 ∧
    immForm 0x25 (.rknShri 3) 63 1 ∧ immForm 0x26 (.rknSrai 3) 63 0xFFFFFFFFFFFFFFFF ∧ immForm 0x27 (.rknSlti 3) 0xFFFFFFF1 1 ∧
    immForm 0x28 (.rknLi 3) 0x80000000 0xFFFFFFFF80000000 ∧ immForm 0x29 (.rknLih 3) 7 0x7FFFFFFF0 := by
  unfold immForm; decide +kernel

/-- The last byte and the last word of DMEM, one past its end, and a misaligned word. -/
def dmemAt (w : Nat) (r1 : W64) : State :=
  let s := running w [(1, r1), (2, 0x8182838485868788)]
  updR s 3 fun r => { r with dmem := [(262136, 0x80), (262143, 0xFE)] }
theorem test_LoadsStoresAndHalts :
    AtIns (dmemAt (insW 0x30 4 1 0 1) 262142) 3 0x30 (insW 0x30 4 1 0 1) ∧ insW 0x30 4 1 0 1 &&& maskI = insW 0x30 4 1 0 1 ∧
    AtIns (dmemAt (insW 0x3B 0 1 2 0) 262136) 3 0x3B (insW 0x3B 0 1 2 0) ∧
    insW 0x3B 0 1 2 0 &&& (maskI + maskBits 22 18) = insW 0x3B 0 1 2 0 ∧ rd (insW 0x3B 0 1 2 0) = 0 ∧
    isPend (dmemAt 0 0) 3 1 = false ∧ 262143 + 1 ≤ 262144 ∧ 262136 + 8 ≤ 262144 ∧ 262141 % 8 ≠ 0 ∧
    262144 < 262144 + 8 ∧ 262144 % 8 = 0 ∧
    (agt (running 0x37 []) 3).stopped = false ∧ (rkn (running 0x37 []) 3).st = .running ∧ rknWordAt (running 0x37 []) 3 = 0x37 ∧
    rknOpcode 0x37 = false ∧ rknOpcode 0 = false ∧ insW 0x10 0 0 0 1 &&& maskR ≠ insW 0x10 0 0 0 1 ∧
    isPend (updR (running 0x10 []) 3 fun r => { r with pend := 2 }) 3 1 = true := by
  unfold AtIns; decide +kernel

theorem test_loads :
    after (.rknLdU8 3) (dmemAt (insW 0x30 4 1 0 1) 262142) (fun t => getS t 3 4 == 0xFE) ∧
    after (.rknLdS8 3) (dmemAt (insW 0x34 4 1 0 0) 262136) (fun t => getS t 3 4 == 0xFFFFFFFFFFFFFF80) ∧
    after (.rknLdU16 3) (dmemAt (insW 0x31 4 1 0 0xFFFFFFFE) 262144) (fun t => getS t 3 4 == 0xFE00) ∧
    after (.rknLdS16 3) (dmemAt (insW 0x35 4 1 0 0) 262142) (fun t => getS t 3 4 == 0xFFFFFFFFFFFFFE00) ∧
    after (.rknLdU32 3) (dmemAt (insW 0x32 4 1 0 0) 262140) (fun t => getS t 3 4 == 0xFE000000) ∧
    after (.rknLdS32 3) (dmemAt (insW 0x36 4 1 0 0) 262140) (fun t => getS t 3 4 == 0xFFFFFFFFFE000000) ∧
    after (.rknLd64 3) (dmemAt (insW 0x33 4 1 0 0) 262136) (fun t => getS t 3 4 == 0xFE00000000000080) ∧
    after (.rknLd64 3) (dmemAt (insW 0x33 4 1 0 0) 262140) (fun t => (rkn t 3).halt.map (·.reason) == some 7) ∧
    after (.rknLdU8 3) (dmemAt (insW 0x30 4 1 0 0) 262144) (fun t => (rkn t 3).halt.map (·.reason) == some 5) := by decide +kernel
theorem test_stores :
    after (.rknSt8 3) (dmemAt (insW 0x38 0 1 2 0) 7) (fun t => leNat (dmemRead (rkn t 3).dmem 0 16) == 0x88 * 256 ^ 7) ∧
    after (.rknSt16 3) (dmemAt (insW 0x39 0 1 2 0) 6) (fun t => leNat (dmemRead (rkn t 3).dmem 0 16) == 0x8788 * 256 ^ 6) ∧
    after (.rknSt32 3) (dmemAt (insW 0x3A 0 1 2 0) 4) (fun t => leNat (dmemRead (rkn t 3).dmem 0 16) == 0x85868788 * 256 ^ 4) ∧
    after (.rknSt64 3) (dmemAt (insW 0x3B 0 1 2 0) 262136)
      (fun t => leNat (dmemRead (rkn t 3).dmem 262136 8) == 0x8182838485868788) := by decide +kernel
/-- A word with an opcode that R150 does not list, reserved bits, and a pending source. -/
theorem test_readStage :
    after (.rknNop 3) (running 0 []) (fun t => (rkn t 3).halt.map (·.reason) == some 1 && (rkn t 3).st == .halting) ∧
    after (.rknAdd 3) (running (insW 0x10 4 1 2 1) []) (fun t => (rkn t 3).halt.map (·.reason) == some 1) ∧
    after (.rknAdd 3) (updR (running (insW 0x10 4 1 2 0) []) 3 fun r => { r with pend := 2 })
      (fun t => regGet t (Ctr.rknStallReg 3).addr == 1 && (rkn t 3).pc == 0) := by decide +kernel
/-- `running`, with engine operations and requests outstanding, loops in force and debug open for partition 0. -/
def busy (w : Nat) : State :=
  updR { running w [(1, 0x40)] with obs.dbgLevel := 2, obs.dbgMask := 1 } 3 fun r =>
    { r with ops := [{ core := 1, eng := 2, tag := 5, rd := 0, outside := false, at_ := 0 }], depth := 1, reqs := [default],
             loops := [(0, { count := 3, idx := 1, start := 0, stop := 0 })] }

theorem test_ControlInstructions :
    AtIns (running 1 []) 3 1 1 ∧ AtIns (running 2 []) 3 2 2 ∧ 1 &&& maskN = 1 ∧ AtIns (busy 3) 3 3 3 ∧
    debugFull (busy 3) (rknPart (busy 3) 3) = true ∧ debugFull (running 3 []) (rknPart (running 3 []) 3) = false ∧
    AtIns (busy (4 + 15 * 2 ^ 8)) 3 4 (4 + 15 * 2 ^ 8) ∧ Clear (busy (4 + 15 * 2 ^ 8)) 3 (insWait 3 (busy (4 + 15 * 2 ^ 8)) (4 + 15 * 2 ^ 8)) ∧
    ((rkn (busy 4) 3).ops.any fun o => bitOf 15 o.eng && ((List.range 2).map (physCore (busy 4) 3)).contains o.core) = true ∧
    ((rkn (busy 4) 3).ops.any fun o => bitOf 11 o.eng && ((List.range 2).map (physCore (busy 4) 3)).contains o.core) = false ∧
    (rkn (busy 4) 3).reqs ≠ [] ∧
    AtIns (running (insW 5 4 0 0 3) []) 3 5 (insW 5 4 0 0 3) ∧ insW 5 4 0 0 3 &&& maskI = insW 5 4 0 0 3 ∧
    AtIns (running (insW 8 0 0 0 (8 * 2 ^ 16)) []) 3 8 (insW 8 0 0 0 (8 * 2 ^ 16)) ∧
    insW 8 0 0 0 (8 * 2 ^ 16) &&& maskRT = insW 8 0 0 0 (8 * 2 ^ 16) ∧ bitsOf (insW 8 0 0 0 (8 * 2 ^ 16)) 63 48 = 8 ∧
    AtIns (running (insW 9 31 0 0 (0xFFF8 * 2 ^ 16)) []) 3 9 (insW 9 31 0 0 (0xFFF8 * 2 ^ 16)) ∧
    AtIns (busy (insW 0xA 0 1 0 0)) 3 0xA (insW 0xA 0 1 0 0) ∧ (getS (busy 0) 3 1).toNat % 8 = 0 ∧ (getS (busy 0) 3 1).toNat < 2 ^ 16 ∧
    AtIns (busy (insW 0xB 9 1 2 (8 * 2 ^ 16))) 3 0xB (insW 0xB 9 1 2 (8 * 2 ^ 16)) ∧
    insW 0xB 9 1 2 (8 * 2 ^ 16) &&& maskB = insW 0xB 9 1 2 (8 * 2 ^ 16) ∧
    AtIns (busy (insW 0xC 5 1 0 (8 * 2 ^ 16 + 64))) 3 0xC (insW 0xC 5 1 0 (8 * 2 ^ 16 + 64)) := by
  unfold AtIns Clear; decide +kernel

theorem test_control :
    after (.rknNop 3) (running 1 []) (fun t => (rkn t 3).pc == 8 && regGet t (Ctr.rknInstr 3).addr == 1) ∧
    after (.rknNop 3) (busy 1) (fun t => (rkn t 3).pc == 0 && loopIdx (rkn t 3) 0 == 2) ∧
    after (.rknEnd 3) (running 2 []) (fun t => (rkn t 3).st == .ending) ∧
    after (.rknBreak 3) (busy 3) (fun t => (rkn t 3).st == .debug) ∧
    after (.rknBreak 3) (running 3 []) (fun t => (rkn t 3).halt.map (·.reason) == some 8) ∧
    after (.rknWait 3) (busy (4 + 4 * 2 ^ 8)) (fun t => (rkn t 3).pc == 0 && regGet t (Ctr.rknStallSb 3).addr == 1) ∧
    after (.rknWait 3) (running (4 + 4 * 2 ^ 8) []) (fun t => (rkn t 3).pc == 8) ∧
    after (.rknFeat 3) (running (insW 5 4 0 0 3) []) (fun t => getS t 3 4 == 0x203) := by decide +kernel
theorem test_branches :
    after (.rknJmp 3) (busy (insW 8 0 0 0 (8 * 2 ^ 16))) (fun t => (rkn t 3).pc == 8 && (rkn t 3).depth == 0) ∧
    after (.rknJal 3) (running (insW 9 31 0 0 (0xFFF8 * 2 ^ 16)) []) (fun t => (rkn t 3).pc == 0xFFF8 && getS t 3 31 == 8) ∧
    after (.rknJr 3) (busy (insW 0xA 0 1 0 0)) (fun t => (rkn t 3).pc == 0x40) ∧
    after (.rknBcc 3) (running (insW 0xB 2 1 2 (64 * 2 ^ 16)) [(1, 0xFFFFFFFFFFFFFFFF)]) (fun t => (rkn t 3).pc == 64) ∧
    after (.rknBcc 3) (running (insW 0xB 4 1 2 (64 * 2 ^ 16)) [(1, 0xFFFFFFFFFFFFFFFF)]) (fun t => (rkn t 3).pc == 8) ∧
    after (.rknBcci 3) (running (insW 0xC 0 1 0 (64 * 2 ^ 16 + 0xFFFF)) [(1, 0xFFFFFFFFFFFFFFFF)]) (fun t => (rkn t 3).pc == 64) := by decide +kernel

/-- LOOPI with counts 3 and 0, LOOP, SETINC with a negative stride and SETINCR, RDIDX of a level that is not active. -/
def loopi (n : Nat) : Nat := 0x40 + n * 2 ^ 32 + 16 * 2 ^ 48
theorem test_LoopsAndDescriptors :
    AtIns (running (loopi 3) []) 3 0x40 (loopi 3) ∧ Clear (running (loopi 3) []) 3 (insLoopi 3 (running (loopi 3) []) (loopi 3)) ∧
    Clear (running (loopi 0) []) 3 (insLoopi 3 (running (loopi 0) []) (loopi 0)) ∧
    BitVec.ofNat 32 (bitsOf (loopi 0) 47 32) = 0 ∧
    AtIns (running (0x41 + 2 ^ 13 + 16 * 2 ^ 48) [(1, 2)]) 3 0x41 (0x41 + 2 ^ 13 + 16 * 2 ^ 48) ∧
    Clear (running (0x41 + 2 ^ 13 + 16 * 2 ^ 48) [(1, 2)]) 3
      (insLoop 3 (running (0x41 + 2 ^ 13 + 16 * 2 ^ 48) [(1, 2)]) (0x41 + 2 ^ 13 + 16 * 2 ^ 48)) ∧
    (0x42 + 7 * 2 ^ 8 + 7 * 2 ^ 11 + (2 ^ 40 - 1) * 2 ^ 24) &&& (maskBits 13 0 + maskBits 63 24) =
      0x42 + 7 * 2 ^ 8 + 7 * 2 ^ 11 + (2 ^ 40 - 1) * 2 ^ 24 ∧
    (0x43 + 31 * 2 ^ 14) &&& maskBits 18 0 = 0x43 + 31 * 2 ^ 14 ∧ (0x44 + 7 * 2 ^ 13) &&& maskBits 15 0 = 0x44 + 7 * 2 ^ 13 ∧
    ((rkn (busy 0) 3).loops.look 0).stop = 0 ∧ ((rkn (busy 0) 3).loops.look 0).idx + 1 < ((rkn (busy 0) 3).loops.look 0).count ∧
    (rkn (running 1 []) 3).depth = 0 := by
  unfold AtIns Clear; decide +kernel

theorem test_loops :
    after (.rknLoopi 3) (running (loopi 3) []) (fun t => (rkn t 3).depth == 1 && (rkn t 3).pc == 8 &&
      (rkn t 3).loops.look 0 == { count := 3, idx := 0, start := 8, stop := 16 }) ∧
    after (.rknLoopi 3) (running (loopi 0) []) (fun t => (rkn t 3).depth == 0 && (rkn t 3).pc == 24) ∧
    after (.rknLoop 3) (running (0x41 + 2 ^ 13 + 16 * 2 ^ 48) [(1, 2)]) (fun t => ((rkn t 3).loops.look 0).count == 2) ∧
    after (.rknSetinc 3) (running (0x42 + 7 * 2 ^ 8 + 7 * 2 ^ 11 + (2 ^ 40 - 1) * 2 ^ 24) [])
      (fun t => (rkn t 3).incs.look 7 == { stride := -1, level := 7 }) ∧
    after (.rknSetincr 3) (running (0x43 + 2 ^ 14 + 2 ^ 8) [(1, 12)]) (fun t => (rkn t 3).incs.look 1 == { stride := 12, level := 0 }) ∧
    after (.rknRdidx 3) (busy (0x44 + 4 * 2 ^ 8)) (fun t => getS t 3 4 == 1) ∧
    after (.rknRdidx 3) (busy (0x44 + 4 * 2 ^ 8 + 7 * 2 ^ 13)) (fun t => getS t 3 4 == 0) := by decide +kernel

/-- Entry 1 holds `td4`, DMEM holds `td4` at 64 and a descriptor without columns at 128. -/
def described3 (w : Nat) (regs : Tab W64) : State :=
  updR (updA (running w regs) 3 fun x => { x with td := [(1, { valid := true, part := 0, bits := BitVec.ofNat 512 td4 })] }) 3
    fun r => { r with dmem := memPut (memPut [] 64 (leBytes 64 td4)) 128 (leBytes 64 (td4 - 4 * 2 ^ 32)) }
def tdld (op h d : Nat) : Nat := op + h * 2 ^ 32 + d * 2 ^ 48
/-- TDSET of FIELD `f` from s4. -/
def tdset (f h : Nat) : Nat := 0x4B + 4 * 2 ^ 8 + f * 2 ^ 24 + h * 2 ^ 32
theorem test_Descriptors :
    (0x48 + 3 * 2 ^ 8 + 4095 * 2 ^ 16 + 255 * 2 ^ 28) &&& maskBits 35 0 = 0x48 + 3 * 2 ^ 8 + 4095 * 2 ^ 16 + 255 * 2 ^ 28 ∧
    bitsOf (0x48 + 3 * 2 ^ 8 + 4095 * 2 ^ 16) 10 10 = 0 ∧ bitsOf (0x48 + 2 ^ 10 + 31 * 2 ^ 11) 10 10 = 1 ∧
    AtIns (described3 (tdld 0x49 4095 64) []) 3 0x49 (tdld 0x49 4095 64) ∧
    Clear (described3 (tdld 0x49 4095 64) []) 3 (insTdld 3 (described3 (tdld 0x49 4095 64) []) (tdld 0x49 4095 64)) ∧
    Clear (described3 (tdld 0x4A 1 192) []) 3 (insTdst 3 (described3 (tdld 0x4A 1 192) []) (tdld 0x4A 1 192)) ∧
    usableTd (described3 0 []) 3 1 = some (BitVec.ofNat 512 td4) ∧
    Clear (described3 (tdset 0 1) [(4, 64)]) 3 (insTdset 3 (described3 (tdset 0 1) [(4, 64)]) (tdset 0 1)) ∧
    tdCheck (BitVec.ofNat 512 td4) 2 = none ∧ tdCheck (BitVec.ofNat 512 (td4 - 4 * 2 ^ 32)) 2 = some 3 := by
  unfold AtIns Clear; decide +kernel

theorem test_descriptors :
    after (.rknOpnd 3) (running (0x48 + 3 * 2 ^ 8 + 4095 * 2 ^ 16 + 255 * 2 ^ 28) [])
      (fun t => (rkn t 3).slots.look 3 == some { handle := 4095, mask := 255 }) ∧
    after (.rknTdld 3) (described3 (tdld 0x49 4095 64) []) (fun t => ((agt t 3).td.look 4095).bits == BitVec.ofNat 512 td4) ∧
    after (.rknTdld 3) (described3 (tdld 0x49 1 128) [])
      (fun t => !((agt t 3).td.look 1).valid && (rkn t 3).halt.map (·.reason) == some 3) ∧
    after (.rknTdst 3) (described3 (tdld 0x4A 1 192) []) (fun t => leNat (dmemRead (rkn t 3).dmem 192 64) == td4) ∧
    after (.rknTdset 3) (described3 (tdset 0 1) [(4, 64)]) (fun t => tdBase ((agt t 3).td.look 1).bits == 64) := by decide +kernel
/-- The Reckoner with entries 1 (FP32, 1 × 4, Slate) and 2 in slots 0 to 2, engines on every core, and partition 0 in place.
`used` is the use of core 0's engine 2, `acq` an acquire outstanding, `n` more requests. -/
def entry (d : Nat) : TdEntry := { valid := true, part := 0, bits := BitVec.ofNat 512 d }
def i32 (rows cols base : Nat) : Nat :=
  4 + 1 * 2 ^ 4 + 1 * 2 ^ 6 + rows * 2 ^ 16 + cols * 2 ^ 32 + base * 2 ^ 64 + cols * 2 ^ 128 + rows * 2 ^ 160 + 4 * cols * 2 ^ 256
def starting (w used n : Nat) (acq : Bool) (regs : Tab W64) : State :=
  let s := { running w regs with
    regs := [(0x700100, 0x100000000), (0xa00200, 0x10010)]
    parts := [(0, { (default : Part) with chanCount := 16 })] }
  updR (updA s 3 fun x => { x with
    eng := 0xFFFFFFFFFFFFFFFF, eqUsed := if used = 0 then [] else [(2, used)], dnCred := 16,
    td := [(1, entry td4), (2, entry (i32 8 1 256)), (3, entry (i32 8 2 512))] }) 3
    fun r => { r with slots := [(0, some { handle := 1, mask := 0 }), (1, some { handle := 2, mask := 0 }), (2, some { handle := 1, mask := 0 })],
                      reqs := (if acq then [{ (default : RknReq) with kind := .rld, acquire := true }] else []) ++
                        List.replicate n default, nextReq := 7 }

/-- ESTART of function 0x30 on core 0; ECFG of engine 2. -/
def estart : Nat := 0x50 + 2 * 2 ^ 8 + 0x30 * 2 ^ 16 + 4 * 2 ^ 24 + 1 * 2 ^ 48
def ecfg : Nat := 0x51 + 2 * 2 ^ 8 + 9 * 2 ^ 16 + 4 * 2 ^ 24 + 1 * 2 ^ 48
theorem test_EngineStarts :
    AtIns (starting estart 0 0 false []) 3 0x50 estart ∧ Clear (starting estart 0 0 false []) 3 (insEstart 3 (starting estart 0 0 false []) estart) ∧
    Clear (starting estart 0 0 true []) 3 (insEstart 3 (starting estart 0 0 true []) estart) ∧
    acquireHolds (starting estart 0 0 true []) 3 = true ∧ acquireHolds (starting estart 0 0 false []) 3 = false ∧
    startCores (starting estart 0 0 false []) 3 estart = [0] ∧ creditsFree (starting estart 16 0 false []) 3 2 [0] = false ∧
    creditsFree (starting estart 15 0 false []) 3 2 [0] = true ∧ sbReady (starting estart 0 0 false []) 3 [] = true ∧
    sbReady (updR (starting estart 0 0 false []) 3 fun r => { r with sb := List.replicate 64 default }) 3
      [({ space := 1, core := 0, lo := 0, hi := 16, write := true }, none)] = false ∧
    AtIns (starting ecfg 0 0 false []) 3 0x51 ecfg ∧ Clear (starting ecfg 0 0 false []) 3 (insEcfg 3 (starting ecfg 0 0 false []) ecfg) ∧
    (agt (starting estart 0 0 false []) 3).dnQ = [] ∧ 2 ≤ (agt (starting estart 0 0 false []) 3).dnCred := by
  unfold AtIns Clear; decide +kernel

theorem test_starts :
    after (.rknEstart 3) (starting estart 0 0 false []) (fun t => (agt t 3).eqUsed.look 2 == 1 && (rkn t 3).ops.length == 1 &&
      (rkn t 3).sb.map (fun e => (e.lo, e.hi, e.write)) == [(0, 16, true)] && (rkn t 3).pc == 8) ∧
    after (.rknEstart 3) (starting estart 16 0 false []) (fun t => (rkn t 3).pc == 0 && regGet t (Ctr.rknStallQ 3).addr == 1) ∧
    after (.rknEcfg 3) (starting ecfg 0 0 false []) (fun t => t.out.length == 1 && (rkn t 3).pc == 8) := by decide +kernel

/-- CSEND and CRECV of slot 0 on channel 15, BARA and BARW of barrier 0, RLD and RST of word 8, ATOM, INVAL of one line. -/
def chanW (op : Nat) : Nat := op + 4 * 2 ^ 8 + 15 * 2 ^ 32
def routeW : Nat := 0x68 + 4 * 2 ^ 8 + 3 * 2 ^ 20
def caddW : Nat := 0x69 + 4 * 2 ^ 8 + 3 * 2 ^ 20
theorem test_Requests :
    AtIns (starting (chanW 0x58) 0 0 false []) 3 0x58 (chanW 0x58) ∧
    Clear (starting (chanW 0x58) 0 0 false []) 3 (insChan true 3 (starting (chanW 0x58) 0 0 false []) (chanW 0x58)) ∧
    Accepts (starting (chanW 0x58) 0 31 false []) 3 [] ∧ 32 ≤ (rkn (starting 0 0 32 false []) 3).reqs.length ∧
    Clear (starting (chanW 0x59) 0 0 false []) 3 (insChan false 3 (starting (chanW 0x59) 0 0 false []) (chanW 0x59)) ∧
    Clear (starting 0x5A 0 0 false []) 3 (insBar false 3 (starting 0x5A 0 0 false []) 0x5A) ∧
    Clear (starting 0x5B 0 0 false []) 3 (insBar true 3 (starting 0x5B 0 0 false []) 0x5B) ∧
    Clear (starting (insW 0x60 4 1 0 8) 0 0 false []) 3 (insWord false 3 (starting (insW 0x60 4 1 0 8) 0 0 false []) (insW 0x60 4 1 0 8)) ∧
    Clear (starting (insW 0x61 0 1 2 8) 0 0 false []) 3 (insWord true 3 (starting (insW 0x61 0 1 2 8) 0 0 false []) (insW 0x61 0 1 2 8)) ∧
    Clear (starting (insW 0x62 4 1 2 0) 0 0 false []) 3 (insAtom 3 (starting (insW 0x62 4 1 2 0) 0 0 false []) (insW 0x62 4 1 2 0)) ∧
    Clear (starting (insW 0x63 0 1 2 0) 0 0 false [(1, 64), (2, 64)]) 3
      (insInval 3 (starting (insW 0x63 0 1 2 0) 0 0 false [(1, 64), (2, 64)]) (insW 0x63 0 1 2 0)) := by
  unfold AtIns Clear Accepts; decide +kernel

/-- Router entry 0 in HASH mode with one expert, 8 tokens and LIST_CAP 8, over combine group 0 of 8 tokens and 4 columns. -/
def routes : Tab W64 :=
  [(0x810000, 0x8000000000000000), (0x810008, 8 + 8 * 2 ^ 24 + 8 * 2 ^ 48), (0x910000, 0x8000000800040000)]
def offering (w x y : Nat) : State :=
  let s := starting w 0 0 false []
  updR (updA { s with regs := s.regs.take 1 ++ routes ++ s.regs.drop 1 } 3 fun x => { x with td := x.td ++ [(4, entry (i32 1 1 1024))] }) 3
    fun r => { r with slots := [(0, some { handle := BitVec.ofNat 64 x, mask := 0 }), (1, some { handle := BitVec.ofNat 64 y, mask := 0 })] }
theorem test_RoutesAndCombines :
    AtIns (offering routeW 2 3) 3 0x68 routeW ∧ Clear (offering routeW 2 3) 3 (insRoute 3 (offering routeW 2 3) routeW) ∧
    AtIns (offering caddW 1 4) 3 0x69 caddW ∧ Clear (offering caddW 1 4) 3 (insCadd 3 (offering caddW 1 4) caddW) ∧
    Accepts (offering routeW 2 3) 3 ((opnds (offering routeW 2 3) 3 3).map fun o => reqClaim (offering routeW 2 3) 3 o true) := by
  unfold AtIns Clear Accepts; decide +kernel

theorem test_routeAndCadd :
    after (.rknRoute 3) (offering routeW 2 3) (fun t =>
      (t.out.map fun o => match o with | .route q => (q.tile.base, q.list.base, q.tile.rows) | _ => default) == [(256, 512, 8)]) ∧
    after (.rknCadd 3) (offering caddW 1 4) (fun t =>
      (t.out.map fun o => match o with | .cadd q => (q.tile.base, q.tok.base, q.wt) | _ => default) == [(0, 1024, none)]) ∧
    after (.rknRoute 3) (offering routeW 2 2) (fun t => (rkn t 3).halt.map (·.reason) == some 3) := by decide +kernel

theorem test_requests :
    after (.rknCsend 3) (starting (chanW 0x58) 0 0 false []) (fun t => isPend t 3 4 && (rkn t 3).reqs.map (·.target) == [15] &&
      (t.out.map fun o => match o with | .unitOp _ 7 h _ _ => (h.op, h.loc, h.data) | _ => default) == [(3, 0xC00000F7FFFF0, 16)]) ∧
    after (.rknCrecv 3) (starting (chanW 0x59) 0 0 false []) (fun t =>
      (t.out.map fun o => match o with | .unitOp _ 7 h _ _ => (h.op, h.loc, h.data) | _ => default) == [(3, 0xC00000FFC0000, 16)]) ∧
    after (.rknBara 3) (starting 0x5A 0 0 false []) (fun t =>
      (t.out.map fun o => match o with | .unitOp _ 7 h _ _ => (h.op, h.loc) | _ => default) == [(3, 0xC010000000008)]) ∧
    after (.rknBarw 3) (starting 0x5B 0 0 false []) (fun t =>
      (t.out.map fun o => match o with | .unitOp _ 7 h _ _ => (h.op, h.loc) | _ => default) == [(3, 0xC010000000010)]) ∧
    after (.rknRst 3) (starting (insW 0x61 0 1 2 8) 0 0 false [(2, 77)]) (fun t => memWord t 0x40000008 == 77) ∧
    after (.rknRld 3) (starting (insW 0x60 4 1 0 8) 0 0 false []) (fun t => (rkn t 3).reqs.map (·.got) == [some 0] && isPend t 3 4) ∧
    after (.rknAtom 3) (starting (insW 0x62 4 1 2 0) 0 0 false [(1, 8), (2, 5)]) (fun t => memWord t 0x40000008 == 5) ∧
    after (.rknInval 3) (starting (insW 0x63 0 1 2 0) 0 0 false [(1, 64), (2, 64)]) (fun t => t.out == [.chiClean 64 64]) := by decide +kernel

/-- Requests that have left: id 7 of a kind, at a stage. -/
def asked (k : ReqKind) (sent resends : Nat) (host : Bool) : State :=
  { updR (starting 0 0 0 false []) 3 fun r => { r with
      pend := 0x10, reqs := [{ (default : RknReq) with
        id := 7, kind := k, rd := 4, target := 15, sent := sent, resends := resends, host := host, td := BitVec.ofNat 512 td4 }] } with
    chn.chans := [(15, { (default : Chan) with claims := [(3, some { (default : Pkt) with len := 4, cells := [0], blocks := [0] })] })]
    mem := [(64, 9)]
    hif.words := [{ agent := 3, req := 7, op := 0, part := 0, addr := 64, data := 0, cmp := 0 }] }
def ended (st : RknState) : State :=
  { ready with agt := [(3, { (default : Agent) with rkn := { (default : Rkn) with st := st, launch := some layer, cores := [0, 1] } })] }

theorem test_ReckonerAnswers :
    (∀ k ∈ [ReqKind.rld, .rst, .atom, .inval, .cadd, .route],
      ((rkn (asked k 0 0 false) 3).reqs.find? fun q => q.id == 7 && !q.held && !q.host && q.kind != .csend && q.kind != .crecv).isSome = true) ∧
    ((rkn (asked .rld 0 0 false) 3).reqs.find? fun q => q.id == 8 && !q.held && !q.host && q.kind != .csend && q.kind != .crecv) = none ∧
    ((rkn (asked .csend 0 0 false) 3).reqs.find? fun q => q.id == 7 && q.kind == .csend && !q.held).isSome = true ∧
    ((rkn (asked .crecv 0 0 false) 3).reqs.find? fun q => q.id == 7 && q.kind == .crecv).isSome = true ∧
    bitsOf (3 * 2 ^ 36 + 4) 35 32 = 0 ∧ bitsOf (3 * 2 ^ 36 + 4) 40 36 = 3 ∧
    ((chan (asked .crecv 0 0 false) 15).claims.look 3).isSome = true ∧ bitsOf (2 ^ 33) 35 32 ≠ 0 ∧
    (takeFirst (fun w => w.agent == 3 && w.req == 7) (asked .rld 0 0 true).hif.words).isSome = true ∧
    ((rkn (asked .rld 0 0 true) 3).reqs.find? fun q => q.id == 7 && q.host).isSome = true ∧
    (rkn (ended .ending) 3).st = .ending ∧ (rkn (ended .halting) 3).st = .halting ∧ (rkn (ended .aborting) 3).st = .aborting ∧
    (rkn (ended .ending) 3).ops = [] ∧ (rkn (ended .ending) 3).reqs = [] := by decide +kernel

theorem test_answers :
    after (.requestAnswer 3 7 42) (asked .atom 0 0 false) (fun t => getS t 3 4 == 42 && !isPend t 3 4 && (rkn t 3).reqs.isEmpty) ∧
    after (.requestAnswer 3 8 42) (asked .atom 0 0 false) (fun t => regGet t (Ctr.addr .fltLateAns) == 1) ∧
    after (.csendAnswer 3 7 0 []) (asked .csend 0 0 false) (fun t => t.out.length == 1 && (rkn t 3).reqs.map (·.sent) == [3]) ∧
    after (.finalWriteRelease (.rkn 3 7)) (asked .csend 3 0 false) (fun t => (rkn t 3).reqs.map (·.sent) == [1] &&
      (t.out.map fun o => match o with | .unitOp _ 7 h _ _ => (h.op, h.loc, h.final) | _ => default) == [(2, 0xC00000F7FFFF8, true)]) ∧
    after (.csendAnswer 3 7 1 []) (asked .csend 1 2 false) (fun t => (rkn t 3).reqs.map (·.resends) == [3]) ∧
    after (.csendAnswer 3 7 1 []) (asked .csend 1 3 false) (fun t => t.flt.last.id == 0xB02) ∧
    after (.crecvAnswer 3 7 (3 * 2 ^ 36 + 4)) (asked .crecv 0 0 false) (fun t => getS t 3 4 == 4 && memByte t 0x40000000 == 9) ∧
    after (.hostWordResponse 3 7 5 false) (asked .rld 0 0 true) (fun t => getS t 3 4 == 5) ∧
    after (.hostWordResponse 3 7 5 true) (asked .rld 0 0 true) (fun t => t.flt.last.id == 0x103) ∧
    after (.reckonerDrained 3) (ended .ending) (fun t => (rkn t 3).st == .idle && t.out.contains (.retire 3 false 66 1 .done 0)) ∧
    after (.reckonerDrained 3) (ended .aborting) (fun t => (rkn t 3).st == .idle && t.out.length == 2) := by decide +kernel

/-- A send whose writes are performed or not, a barrier's answer, a halted layer that has drained. -/
theorem test_ReckonerAnswers_order :
    let u := asked .csend 3 0 false
    let v := updR u 3 fun r => { r with writes := [(15, 0)], line := [7] }
    lineBlocks u 3 7 (blockId u) = false ∧ ownWritesOpen u 3 = false ∧ ownWritesOpen v 3 = true ∧
    agtSeqFull u 3 16 (rknPart u 3) = false ∧ bitOf (5 : W64).toNat 63 = false ∧
    ((rkn (asked .bara 0 0 false) 3).reqs.find? fun q => q.id == 7 && !q.held && !q.host && q.kind != .csend && q.kind != .crecv).isSome = true ∧
    (rkn (ended .ending) 3).halt = none ∧ (∀ x ∈ (rkn u 3).reqs, x.held = false) ∧
    ((rkn (updR (ended .halting) 3 fun r => { r with halt := some { reason := 7, addr := 0, inj := false } }) 3).halt.map (·.reason)) = some 7 ∧
    after (.reckonerDrained 3) (updR (ended .halting) 3 fun r => { r with halt := some { reason := 7, addr := 8, inj := false } })
      (fun t => regFld t (agentBase 3 + 8) 15 8 == 7 && (rkn t 3).st == .idle) := by decide +kernel

/-- A swap requested at an idle Reckoner, asked for again after it, and at a running one. -/
def swapping (st : RknState) (used : Bool) : State :=
  { ready with agt := [(3, { (default : Agent) with
      swapReq := true, spareUsed := used, rkn := { (default : Rkn) with st := st, imem := [(0, 1)], imemS := [(0, 2)] } })] }
theorem test_Standby :
    (agt (swapping .idle false) 3).swapReq = true ∧ (rkn (swapping .idle false) 3).st = .idle ∧
    (agt (swapping .idle false) 3).spareUsed = false ∧ (rkn (swapping .running false) 3).st ≠ .idle ∧
    (agt (swapping .idle true) 3).spareUsed = true ∧ (agt ready 3).swapReq = false ∧ (agt ready 3).stopped = false ∧
    after (.standbySwap 3) (swapping .idle false) (fun t => (rkn t 3).imem == [(0, 2)] && (agt t 3).spareUsed && t.mgt.logQ.length == 1) ∧
    after (.imemScrub 3 0 0 false false true) ready (fun t => t.flt.last.id == 0x902 && (agt t 3).swapReq) := by decide +kernel
/-! ### Words that the published programs of chapter 06 give -/
theorem test_publishedWords :
    after (.rknSetinc 3) (running 0x0000000100000842 []) (fun t => (rkn t 3).incs.look 0 == { stride := 0x100, level := 1 }) ∧
    after (.rknSetinc 3) (running 0x0000018000000A42 []) (fun t => (rkn t 3).incs.look 2 == { stride := 0x18000, level := 1 }) ∧
    after (.rknOpnd 3) (running 0x0000000060020148 []) (fun t => (rkn t 3).slots.look 1 == some { handle := 2, mask := 6 }) ∧
    after (.rknLoopi 3) (running 0x0158000300000040 []) (fun t => (rkn t 3).loops.look 0 == { count := 3, idx := 0, start := 8, stop := 0x158 }) ∧
    after (.rknLi 3) (running 0x3A83126F00000528 []) (fun t => getS t 3 5 == 0x3A83126F) ∧
    after (.rknBcc 3) (running 0x023000000014C70B [(5, 0x3A83126F), (6, 0x3A000000)]) (fun t => (rkn t 3).pc == 0x230) ∧
    after (.rknBcc 3) (running 0x023000000014C70B [(5, 0x3A83126F), (6, 0x3F800000)]) (fun t => (rkn t 3).pc == 8) ∧
    startIllegal (bitsOf 0x0001000007010050 9 8) (bitsOf 0x0001000007010050 23 16) (bitsOf 0x0001000007010050 27 24)
      (bitsOf 0x0001000007010050 31 28) (bitsOf 0x0001000007010050 36 32) = false ∧
    startIllegal (bitsOf 0x0001000604210150 9 8) (bitsOf 0x0001000604210150 23 16) (bitsOf 0x0001000604210150 27 24)
      (bitsOf 0x0001000604210150 31 28) (bitsOf 0x0001000604210150 36 32) = false := by decide +kernel

/-- Core 2 of agent 4, of partition 3, which owns channel 0x240, opened drop-newest with DEPTH 2 and CELL_QUOTA 9 at EPOCH 7. -/
def sender : Src := { block := 0, agent := 4, unit := 2, part := 3, node := 66, gen := 1, group := 0 }
def channel (h : Chan) (sends : List OpenSend) : State :=
  { ready with
    regs := [(0xa00120, 0x10001)]
    mem := [(67110976, 5), (67115975, 6)]
    parts := [(3, { (default : Part) with nodeBase := 64, nodeCount := 64, chanBase := 0x240, chanCount := 16 })]
    chn := { (default : Chn) with chans := [(0x240, h)], sends := sends, cells := 4096 } }
def held2 : Chan :=
  { (default : Chan) with open_ := true, dropNewest := true, part := 3, epoch := 7, quota := 9, depth := 2, packets := 2, used := 6, queue := 5 }
def granted (bad : Bool) : OpenSend :=
  { chan := 0x240, src := sender, len := 5000, need := 3, granted := true, epoch := 7, cells := [1, 2, 3], bad := bad, blocks := [] }

theorem test_ChannelSend :
    chanAllowed (channel held2 []) 0x240 sender = true ∧ chanAllowed (channel held2 []) 0x23F sender = false ∧
    opCredit (channel held2 []) (.reserve 0x240 sender 5000) = true ∧ (5000 + 64 + 2047) / 2048 = 3 ∧
    (channel { held2 with open_ := false } []).chn.stopped = false ∧ (chan (channel { held2 with open_ := false } []) 0x240).open_ = false ∧
    (chan (channel { held2 with quota := 2 } []) 0x240).quota < 3 ∧ fitsChan held2 3 = false ∧
    fitsChan { held2 with packets := 1, used := 6 } 3 = true ∧ fitsChan { held2 with packets := 1, used := 7 } 3 = false ∧
    ((channel held2 [{ granted false with granted := false }]).chn.sends.any fun e => e.chan == 0x240 && !e.granted) = true ∧
    ((channel held2 [granted false]).chn.sends.any fun e => e.chan == 0x240 && sameSrc e.src sender) = true ∧
    ((channel held2 [granted false]).chn.sends.find? fun e => e.chan == 0x240 && sameSrc e.src sender && e.granted) = some (granted false) ∧
    4864 < (granted false).len ∧ (channel held2 [granted false]).chn.inverted.look 0x240 = none ∧
    takeFirst (fun e => e.chan == 0x240 && sameSrc e.src sender && e.granted) (channel held2 [granted true]).chn.sends = some (granted true, []) ∧
    held2.lastSrc = none ∧ held2.notifyEn = false := by decide +kernel

/-- Steps 2 and 4 of the published example: a commit, and a reservation that is dropped at DEPTH 2. -/
theorem test_dropNewest :
    after (.commit 0x240 sender 7) (channel held2 [granted false]) (fun t => (chan t 0x240).list.map (·.len) == [5000] &&
      t.out == [.answer sender (ansCommit 0x240) 0]) ∧
    after (.reserve 0x240 sender 5000) (channel held2 []) (fun t => (chan t 0x240).tailGap == 1 && (chan t 0x240).drops == 1 &&
      t.out == [.answer sender (ansReserve 0x240) 1]) ∧
    after (.sendData 0x240 sender 4864 [1, 2] 3 true) (channel held2 [granted false])
      (fun t => (t.chn.sends.map (·.blocks)) == [[19]] && memRead t (67108864 + 6144 + 832) 2 == [1, 2] && memByte t 67115975 == 0) ∧
    after (.sendData 0x240 sender 0 [1] 1 false) (channel held2 [granted false])
      (fun t => (t.chn.sends.map (·.bad)) == [true] && t.flt.last.id == 0xB01) := by decide +kernel

/-- A packet at the head, with a gap before it or without; slot 30 claimed. -/
def packet (gap : Nat) : Pkt :=
  { len := 5000, gap := gap, epoch := 7, cells := [1, 2, 3], seq := 1, ts := 0, src := sender, blocks := [0, 19] }
def listed (gap : Nat) : Chan := { held2 with list := [packet gap], claims := [(30, some (packet 0))], packets := 2 }
theorem test_ChannelReceive :
    opCredit (channel (listed 0) []) (.claim 0x240 sender 0) = true ∧ chanAllowed (channel (listed 0) []) 0x240 sender = true ∧
    claimItem (listed 0) 5000 = some (5000, { listed 0 with list := [], claims := [(0, some (packet 0)), (30, some (packet 0))] }) ∧
    claimItem { held2 with tailGap := 2 } 0 = some (2 + 2 ^ 32, held2) ∧ claimItem held2 0 = none ∧
    freeSlot (listed 0) = some 0 ∧ (listed 0).list = [packet 0] ∧ (packet 0).gap = 0 ∧ 4999 < (packet 0).len ∧
    (listed 0).claims.look 30 = some (packet 0) ∧ bitOf (2 ^ 24 + 127) 24 = true ∧ ownsNode (channel held2 []) 3 127 = true ∧
    ownsNode (channel held2 []) 3 128 = false ∧ bitOf 127 24 = false := by decide +kernel

theorem test_claims :
    after (.claim 0x240 sender 4999) (channel (listed 0) []) (fun t => t.out == [.answer sender (ansClaim 0x240) (5000 + 2 ^ 33)]) ∧
    after (.claim 0x240 sender 0) (channel (listed 2) []) (fun t => t.out == [.answer sender (ansClaim 0x240) (2 + 2 ^ 32)]) ∧
    after (.recvData 0x240 sender (0x800000 + 30 * 0x40000 + 4999) 2 false) (channel (listed 0) [])
      (fun t => t.out == [.readData sender [6, 0]]) ∧
    after (.release 0x240 sender 30) (channel (listed 0) []) (fun t => (chan t 0x240).claims == [] && (chan t 0x240).packets == 1) ∧
    after (.notify 0x240 sender (2 ^ 24 + 127)) (channel held2 []) (fun t => (chan t 0x240).notifyEn && (chan t 0x240).notifyNode == 127) := by decide +kernel

/-- Partition 3 owns barriers 16 and 17; group 0 of node 66 arrives at barrier 16 of EXPECTED 4 with 3 arrived and 3 waiting. -/
def barrier (bound : Bool) (arrived : Nat) : State :=
  { channel held2 [] with
    regs := [(0x700118, 0x200000010), (0xa00120, 0x10001)]
    bau.bars := [(16, { (default : Bar) with bound := bound, genSet := true, gen := 1, node := 66, expected := 4, arrived := arrived })]
    bau.waits := List.replicate 3 { bar := 16, phase := 0, src := sender } }
theorem test_Barriers :
    barAllowed (barrier false 0) 16 sender = true ∧ barAllowed (barrier false 0) 17 sender = true ∧ barAllowed (barrier false 0) 18 sender = false ∧
    (bar (barrier false 0) 16).bound = false ∧ ownsNode (barrier false 0) 3 66 = true ∧ (bar (barrier true 0) 16).bound = true ∧
    barMatches (barrier true 3) 16 sender = true ∧ barMatches (barrier true 3) 16 { sender with gen := 2 } = false ∧
    ((barrier false 0).bau.bars.filter fun e => e.2.bound && e.2.node == 66).length < 4 ∧
    (bar (barrier true 3) 16).expected ≤ (bar (barrier true 3) 16).arrived + 1 ∧
    (bar (barrier true 2) 16).arrived + 1 < (bar (barrier true 2) 16).expected ∧
    opCredit (barrier true 3) (.wait 16 sender 0) = true ∧ (bar (barrier true 3) 16).phase = 0 ∧
    ((barrier true 3).bau.bars.filter fun e => e.2.bound && e.2.node == 66).map (·.1) = [16] ∧
    (bar (barrier true 3) 16).genSet = true ∧ 1 < (bar (barrier true 3) 16).expected := by decide +kernel

/-- The published example: the fourth group retires without a pair, so EXPECTED falls to 3 and the barrier is released. -/
theorem test_barrierExample :
    after (.retireNotice 66 1 []) (barrier true 3) (fun t => (bar t 16).phase == 1 && (bar t 16).expected == 3 &&
      t.out == List.replicate 3 (.answer sender (ansWait 16) 3) && regGet t (Ctr.addr .bauLowerRel) == 1) ∧
    after (.barrierArrive 16 sender none) (barrier true 3) (fun t => (bar t 16).phase == 1 && t.out.length == 4) ∧
    after (.barrierArrive 16 sender (some 0)) (barrier true 3) (fun t => regGet t (Ctr.addr .bauDup) == 1) ∧
    after (.barrierArm 17 sender (66 + 4 * 2 ^ 24) true) (barrier true 3) (fun t => (bar t 17).bound && (bar t 17).expected == 4) := by decide +kernel

/-- The published group atomic: lanes 0–15 add 1 to X, which holds 100, and lanes 16–31 to Y, which holds 0. -/
def counters : State := { described 0 with mem := [(0x40000008, 100)] }
def lanes : List Lane := (List.range 32).map fun i => { active := true, addr := if i < 16 then 8 else 16, opnd := 1, cmp := 0 }
def adder : Src := { (default : Src) with agent := 4 }
theorem test_GroupAtomics :
    counters.bau.stopped = false ∧
    (((List.range 32).zip lanes).filter (·.2.active)).all (fun e => laneFate counters 0 0 8 e.2.addr != .remote e.2.addr.toNat) = true ∧
    signedOf 8 (2 ^ 63) < signedOf 8 0 ∧
    after (.groupAtomic adder 0 0 true lanes) counters (fun t => memWord t 0x40000008 == 116 && memWord t 0x40000010 == 16 &&
      regGet t (Ctr.addr .bauLane) == 32 && regGet t (Ctr.addr .bauRmw) == 2 &&
      (t.out.map fun o => match o with | .readData _ b => (b.headD 0, b.getD 120 0, b.getD 128 0, b.getD 248 0) | _ => default)
        == [(100, 115, 0, 15)]) := by decide +kernel

/-- Data that the Slate takes; a notice that arrives; lanes of this block and of another. -/
theorem test_ChannelSend_stored :
    (storePayload (writeDone (channel held2 [granted false]) sender 0x240 4864) (granted false) 4864 [1, 2]).2 = true ∧
    ((channel (listed 0) []).slt.vaults.any fun e => !e.2.bad.isEmpty) = false ∧
    (pktRead (channel (listed 0) []) (packet 0) 0 1).1 = [5] ∧
    ((((List.range 32).zip lanes).filter (·.2.active)).filterMap fun e => match laneFate counters 0 0 8 e.2.addr with
      | .remote a => some (a, e)
      | _ => none) = [] ∧
    laneFate counters 0 0 8 (BitVec.ofNat 64 (5 * 2 ^ 52 + 8)) = .remote (5 * 2 ^ 52 + 8) := by decide +kernel
theorem test_Barriers_notice : Lands (isNotice 66 1 []) (barrier true 3) (barrier true 3) ∧
    ((barrier false 3).bau.bars.any fun e => e.2.bound && e.2.node == 66) = false := ⟨rfl, by decide⟩
/-- The published MoE layer: router entry 40 of partition 5 (SCORE, NORM, E = 4, k = 2, CAP 2, 6 tokens, LIST_CAP 4, PAD 2) over
combine group 7, here with one column in FP32 and without residual. Scores stand at offset 0, lists at offset 4096. -/
def router (ents : List (Nat × RteEnt)) (grps : List (Nat × CmbGrp)) : State :=
  { ready with
    regs := [(0x810500, 0x8000000507110305), (0x810508, 6 + 2 * 2 ^ 24 + 4 * 2 ^ 48), (0x810518, 0x10000 * 2 ^ 40),
             (0x9100E0, 0x8000000600010542), (0x9100F8, 8192 + 66 * 2 ^ 40), (0xa00228, 0x10010)]
    mem := memPut [] 0x40000000 ([0x3F400000, 0, 0x3E800000, 0, 0x3F000000, 0x3F000000, 0, 0, 0x3F200000, 0, 0, 0x3EC00000].flatMap (leBytes 4))
    rte.ents := ents, cmb.grps := grps }
def routed (first : Nat) : RouteReq :=
  { (default : RouteReq) with
    agent := 9, req := 2, part := 5, entry := 40, first := first
    tile := { fmt := 2, space := 1, core := 0, base := 0, stride := 16, rows := 3, cols := 4 }
    list := { fmt := 4, space := 1, core := 0, base := 4096, stride := 8, rows := 16, cols := 2 } }
def activeAt (n : Nat) : RteEnt := { (default : RteEnt) with st := .active, next := n }
def routingOf (n : Nat) : State :=
  { router [(40, activeAt 3)] [(7, { st := .opened, done := 0 })] with
    agt := [(9, { (default : Agent) with rkn := { (default : Rkn) with reqs := [{ blankReq .route 0 with id := 2 }] } })]
    rte.routing := List.replicate n { (default : Routing) with req := routed 0, placed := 5, dropped := 1, table := [(2, 2), (2, 1)] } }

theorem test_BatchRouting :
    (router [] []).rte.stopped = false ∧ opCredit (router [] []) (.route (routed 0)) = true ∧ (rc (router [] []) 40).st ≠ .active ∧
    (grp (router [] []) (rcGroup (router [] []) 40)).st = .idle ∧ rcGroup (router [] []) 40 = 7 ∧ rteRoom (router [] []) 40 = true ∧
    rteRoom (routingOf 1) 40 = false ∧ (rc (routingOf 1) 40).st = .active ∧ (rc (routingOf 1) 40).next = 3 ∧
    (routed 3).first = 3 ∧ 3 < (routed 6).first ∧ (routed 2).first < 3 ∧
    (takeAt (routingOf 1).rte.routing 0).isSome = true ∧
    (rc (router [] []) 40).cnt.look 0 < rcCap (router [] []) 40 ∧
    rcCap (router [] []) 40 ≤ (rc (router [(40, { (default : RteEnt) with cnt := [(0, 2)] })] []) 40).cnt.look 0 ∧
    rcUsable (router [] []) 40 5 = true := by decide +kernel

/-- Its published outcome: rank choices, e0 full at token 2, and the answer with 5 placed and 1 dropped. -/
theorem test_topK :
    topK [0x3F000000, 0x3F000000, 0, 0] 2 [] = [0, 1] ∧ topK [0, 0x3F000000, 0, 0x3F000000] 2 [] = [1, 3] ∧
    topK [0, 0x3E800000, 0x3F400000, 0] 2 [] = [2, 1] := by decide +kernel
theorem test_routeExample :
    after (.routeRequest (routed 0)) (router [] []) (fun t =>
      (t.rte.routing.map fun x => (x.placed, x.dropped, x.skipped)) == [(5, 1, 0)] && (rc t 40).next == 3 &&
      (rc t 40).cnt == [(0, 2), (1, 1), (2, 1), (3, 1)] && leNat (memRead t 0x40001000 8) == 0x3F40000000000000) ∧
    after (.routeRequest (routed 3)) (router [] []) (fun t => t.rte.held.length == 1 && regGet t (Ctr.addr .rteHold) == 1) ∧
    after (.routingDone 0) (routingOf 1) (fun t => (t.out.map fun o => match o with | .answer _ _ v => v | _ => 0) == [0x100000005] &&
      leNat (dmemRead (rkn t 9).dmem 0x10000 16) == 0x20002 + 0x10002 * 2 ^ 64) := by decide +kernel

/-- Group 7 OPEN with token 2 ROUTED and TALLY 1 or 2; zeroing. -/
def combining (tally : Nat) (st : GrpState) : State :=
  { router [] [(7, { st := st, done := 0 })] with
    mem := memPut (memPut [] 0x40000000 (leBytes 4 0x3F800000)) (0x40000000 + 8192 + 6 * 128 + 8) (leBytes 4 (tally + 2 ^ 24)) }
def cadd (word : Nat) : CaddReq :=
  { (default : CaddReq) with
    agent := 9, req := 2, part := 5, group := 7
    tile := { fmt := 2, space := 1, core := 0, base := 0, stride := 4, rows := 1, cols := 1 }
    tok := { fmt := 4, space := 0, core := 0, base := 0, stride := 4, rows := 1, cols := 1 }
    tokData := leBytes 4 word }
theorem test_Combining :
    (combining 1 .opened).cmb.stopped = false ∧ (cadd 2).group = 7 ∧ (cadd 2).wt = none ∧
    bitOf 2 31 = false ∧ bitsOf 2 30 24 = 0 ∧ 2 < grpTokens (combining 1 .opened) 7 ∧ strayTok (tokRec (combining 1 .opened) 7 2) = false ∧
    tokRec (combining 1 .opened) 7 2 % 2 ^ 24 = 1 ∧ (grp (combining 1 .opened) 7).st = .opened ∧
    grpTokens (combining 1 .opened) 7 ≤ 6 ∧ strayTok (tokRec (combining 1 .opened) 7 5) = true ∧ bitOf 0x80FFFFFF 31 = true ∧
    grpValid (combining 1 .opened) 7 = true ∧ grpPart (combining 1 .opened) 7 = 5 ∧ (grp (combining 1 .zeroing) 7).st = .zeroing ∧
    1 < tokRec (combining 2 .opened) 7 2 % 2 ^ 24 := by decide +kernel

theorem test_combine :
    after (.tallyWordWrite 7 2 5 1) (combining 2 .opened) (fun t => tokRec t 7 2 == 1 + 2 ^ 24) ∧
    after (.tallyWordWrite 7 2 5 1) (combining 1 .opened) (fun t => tokRec t 7 2 == 3 * 2 ^ 24 && (grp t 7).done == 1) ∧
    after (.tallyWordWrite 7 6 5 1) (combining 1 .opened) (fun t => regGet t (Ctr.addr .cmbStray) == 1) ∧
    after (.caddRequest (cadd 2) 0) (combining 2 .opened) (fun t => tokRec t 7 2 == 1 + 2 ^ 24 &&
      (t.out.map fun o => match o with | .answer _ _ v => v | _ => 0) == [1] && leNat (memRead t (imageAt t 7 2) 128) == 2 ^ 300) ∧
    after (.zeroingDone 7) (combining 1 .zeroing) (fun t => (grp t 7).st == .idle && tokRec t 7 2 == 0) := by decide +kernel

/-- The published K8 encodings (value × 2^e, working value, saturating, strict), the FP32x3 split and the Long Sum. -/
theorem test_k8 :
    (fmtEnc 3 (.fin 13 (-2)) false).1 = 0x4D ∧ (fmtEnc 3 (.fin 5 (-4)) false).1 = 0x32 ∧ (fmtEnc 3 (.fin (-13) 0) false).1 = 0xDD ∧
    (fmtEnc 3 (.fin 17 (-1)) false).1 = 0x58 ∧ (fmtEnc 3 (.fin 244 0) true).1 = 0x7F ∧ (fmtEnc 3 (.fin 250 0) false).1 = 0x7F ∧
    (fmtEnc 3 (.fin 250 0) true).1 = 0x80 ∧ (fmtEnc 3 (.fin 1 (-11)) false).1 = 0 ∧ (fmtEnc 3 .nan false).1 = 0x80 := by decide +kernel

/-- The published split of 0x3FAA_AAAB into three BF16 pieces. -/
theorem test_fp32Pieces :
    (List.range 3).map (fun k => ieeeEnc 8 7 (fp32Piece k (fmtVal 2 0x3FAAAAAB))) = [0x3FAA, 0x3BAA, 0x37AB] := by decide +kernel
/-- The published Long Sum: 2^24, 1 and −2^24 in two orders. -/
theorem test_longSum :
    lsVal (([0x4B800000, 0x3F800000, 0xCB800000].foldl (fun l x => (lsAdd l (fmtVal 2 x)).1) default)) = .fin (2 ^ 300) (-300) ∧
    lsVal (([0x4B800000, 0xCB800000, 0x3F800000].foldl (fun l x => (lsAdd l (fmtVal 2 x)).1) default)) = .fin (2 ^ 300) (-300) ∧
    ((([0x4B800000].foldl (fun l x => (lsAdd l (fmtVal 2 x)).1) default)).value = BitVec.ofNat 640 (2 ^ 324)) := by decide +kernel

/-- A routing whose request stands, with nothing that waits; the records and images of group 7. -/
theorem test_BatchRouting_ends :
    ((rkn (routingOf 1) 9).reqs.any fun q => q.id == 2 && q.kind == .route) = true ∧ agtShut (routingOf 1) 9 = false ∧
    (routingOf 1).rte.ready = [] ∧ (routingOf 1).rte.held = [] ∧ (router [] []).rte.held = [] ∧
    cmbShut (combining 1 .opened) = false ∧ inData (combining 1 .opened) 5 (recordOff (combining 1 .opened) 7 2) 4 = true ∧
    inData (combining 1 .opened) 5 (recordOff (combining 1 .opened) 7 6) 4 = true ∧
    ((combining 1 .opened).slt.vaults.any fun e => !e.2.bad.isEmpty) = false ∧
    inData (combining 1 .zeroing) 5 (imageOff (combining 1 .zeroing) 7 0) (grpBytes (combining 1 .zeroing) 7) = true := by decide +kernel
theorem test_Routing_lands : Lands (isRoute (routed 0)) (router [] []) (router [] []) ∧
    Lands (isCadd (cadd 2)) (combining 1 .opened) (combining 1 .opened) := ⟨rfl, rfl⟩
/-- The published place of Slate address 0x1_4000_0100: vault 81, row 170, tier 10, bank 5, column 2. -/
theorem test_slatePlace :
    vaultOf 0x140000100 = 81 ∧ vaultBlock 0x140000100 = 170 * 1024 + 10 * 64 + 5 * 8 + 2 := by decide +kernel

/-- Partition 0's region; vault `v` with the given bad blocks (its map is the identity for the vaults tested). -/
def slate (bad : List Nat) : State :=
  { described 1 with
    regs := [(0xa00200, 0x10010), (0xa00300, 0x80000E10), (0xa00308, 0x1008)], slt.filled := true
    slt.vmap := (List.range 119).map fun i => (i + 1, i + 1)
    slt.vaults := [(64, { (default : Vault) with bad := bad, laneQ := [130], rowQ := [34952] })]
    grs.nodeCap := 1000 }
theorem test_SlateReadsAndWrites :
    (slate []).slt.stopped = false ∧ slateAddr (slate []) (.data 0 0) = some 0x40000000 ∧ vaultOf 0x40000000 = 64 ∧
    vaultBlock 0x40000000 = 34952 ∧ physOf (slate []) 64 34952 = 64 ∧
    (readBlock (slate []) 64 34952 { ces := [(0, 127)], fails := 2 }).2 = true ∧
    (readBlock (slate []) 64 34952 { ces := [], fails := 3 }).2 = false ∧
    (readBlock (slate [34952]) 64 34952 { ces := [], fails := 0 }).2 = false ∧
    ownerOf (slate []) (.data 0 0) = some 0 ∧ ownerOf (slate []) (.node 999) = none ∧ slateAddr (slate []) (.node 999) ≠ none ∧
    slateAddr (slate []) (.node 1000) = none ∧ slateAddr (slate []) (.data 0 (64 * 2 ^ 20)) = none ∧
    slateAddr (slate []) (.data 0 (64 * 2 ^ 20 - 1)) ≠ none ∧ slateAddr (slate []) (.system (840 * 2 ^ 26)) = none ∧
    34952 ∈ (vault (slate [34952]) 64).bad ∧ 34952 ∉ (vault (slate []) 64).bad ∧ (vault (slate []) 64).bad.length < 64 ∧
    64 ≤ (vault (slate (List.range 64)) 64).bad.length ∧ 34952 ∉ (vault (slate (List.range 64)) 64).bad ∧
    (leBytes 256 7).length = 256 ∧ (leBytes 8 7).length ≠ 256 := by decide +kernel

theorem test_slateRequests :
    after (.slateRead (.data 0 9) { ces := [], fails := 2 }) (slate [])
      (fun t => (t.out.map fun o => match o with | .slate _ ok b => (ok, leNat (b.take 16)) | _ => default) == [(true, 1 + 2 * 256 ^ 9)] &&
        regGet t (Ctr.addr .sltReread) == 2 && regGet t (Ctr.addr .sltCe) == 1) ∧
    after (.slateRead (.data 0 0) { ces := [], fails := 3 }) (slate []) (fun t => t.flt.last.id == 0xF02 && t.flt.last.cls == .up &&
      (vault t 64).bad == [34952] && t.out.contains (.slate 8 false [])) ∧
    after (.slateWrite (.data 0 0) 0 (leBytes 256 7) true { ces := [], fails := 0 }) (slate [34952])
      (fun t => memWord t 0x40000000 == 7 && (vault t 64).bad == []) ∧
    after (.slateWrite (.data 0 0) 8 [9] true { ces := [], fails := 0 }) (slate [34952]) (fun t => memWord t 0x40000008 == 0x200) ∧
    after (.slateWrite (.data 0 0) 8 [9] true { ces := [], fails := 0 }) (slate []) (fun t => memWord t 0x40000008 == 0x209) ∧
    after (.slateRead (.data 0 (64 * 2 ^ 20)) { ces := [], fails := 0 }) (slate []) (fun t => t.flt.last.id == 0xF01) := by decide +kernel

/-- Scrub's last block and its first, refresh's last row, temperatures where the ranges meet. -/
def scrubbing (at_ : Nat) : State :=
  { slate [] with slt.vaults := [(64, { (default : Vault) with scrubAt := at_ })], slt.refresh2x := 1 }
theorem test_VaultsKeptAndRepaired :
    regBit (scrubbing 1835007) 0xa00300 31 = true ∧ (scrubbing 0).slt.filled = true ∧ (vault (scrubbing 0) 64).role ≠ .retired ∧
    (vault (scrubbing 1835007) 64).scrubAt = 1835007 ∧ (readBlock (scrubbing 0) 64 0 { ces := [(0, 1)], fails := 0 }).2 = true ∧
    (readBlock (scrubbing 0) 64 0 { ces := [], fails := 3 }).2 = false ∧ 0 ∉ (vault (scrubbing 0) 64).bad ∧
    reading (slate []) 15 840 (neighbours 15) = 840 ∧ reading (slate []) 15 841 (neighbours 15) = 841 ∧
    (vault (slate []) 64).rowQ = [34952] ∧ (vault (slate []) 64).rowsUsed.look (bankKey 34952) < 32 ∧
    32 ≤ Tab.look (α := Nat) [(8, 32)] (bankKey 34952) ∧ (vault (slate []) 64).laneQ = [130] ∧
    (vault (slate []) 64).lanesUsed.look 1 < 2 ∧ (slate []).flt.stop = .running ∧ (vault (slate []) 64).role = .active ∧
    130 ∉ (vault (scrubbing 0) 64).laneQ := by decide +kernel

theorem test_scrubAndRefresh :
    after (.scrubRead 64 { ces := [(0, 1)], fails := 0 } false) (scrubbing 1835007)
      (fun t => (vault t 64).scrubAt == 0 && regGet t (Ctr.addr .sltScrubFix) == 1 && !t.slt.scrubActive) ∧
    after (.scrubRead 64 { ces := [], fails := 3 } false) (scrubbing 5) (fun t => t.flt.last.id == 0xF03 && (vault t 64).bad == [5]) ∧
    after (.refresh 15) { slate [] with slt.filled := true, slt.refreshAt := [(15, 1791)] } (fun t => t.slt.refreshAt.look 15 == 0) ∧
    after (.tierTempSample 0 680) (scrubbing 0) (fun t => t.slt.refresh2x == 1) ∧
    after (.tierTempSample 0 655) (scrubbing 0) (fun t => t.slt.refresh2x == 0) ∧
    after (.tierTempSample 1 681) (scrubbing 0) (fun t => t.slt.refresh2x == 3) ∧
    after (.tierTempSample 15 841) (scrubbing 0) (fun t => t.flt.last.id == 0xF04 && t.slt.hot == 0x8000) ∧
    after (.tierTempSample 15 840) (scrubbing 0) (fun t => t.flt.last.id == 0) := by decide +kernel
theorem test_repairs :
    after (.rowRepair 64) (slate []) (fun t => (vault t 64).rowQ == [] && (vault t 64).rowMap.look 34952 == 1 && t.mgt.logQ.length == 1) ∧
    after (.laneRepair 64) (slate []) (fun t => (vault t 64).laneQ == [] && (vault t 64).lanesUsed.look 1 == 1) ∧
    after (.vaultCalibration 64 [(1, 2), (15, 0)]) { slate [] with crb.stage := .slateInit }
      (fun t => (vault t 64).laneQ == [130, 1920]) ∧
    after (.vaultCalibration 64 [(15, 0)]) (slate []) (fun t => (vault t 64).laneQ == [130]) ∧
    isReady { slate [] with crb.stage := .slateInit } = false ∧
    (firstFrom (fun m => !((vault (slate []) 64).rowMap.any fun e => bankKey e.1 == 8 && e.2 == m)) 1 32) = some 1 ∧
    (firstFrom (fun m => !((vault (slate []) 64).laneMap.any fun e => e.1 / 128 == 1 && e.2 == m)) 1 2) = some 1 := by decide +kernel

/-- The spare-in of logical vault 37 by vault 120, before its last chunk. -/
def sparing (st : VsState) : State :=
  { slate [] with slt.vs := st, slt.vsLogical := 37, slt.vsTarget := 120, slt.cursor := 1835000
                  slt.vaults := [(120, { (default : Vault) with role := .target })] }
theorem test_SpareIn :
    (sparing .test).slt.vs = .test ∧ (sparing .copy).slt.vs = .copy ∧ (sparing .switch).slt.vs = .switch ∧
    (sparing .copy).slt.stopped = false ∧ (sparing .copy).slt.vmap.look 37 = 37 ∧ 1835008 ≤ 1835000 + 8 ∧
    after (.vspareTestDone true) (sparing .test) (fun t => t.slt.vs == .copy && t.slt.cursor == 0) ∧
    after (.vspareTestDone false) (sparing .test) (fun t => t.slt.vs == .failed && (vault t 120).role == .retired) ∧
    after (.vspareChunkCopy [{ ces := [], fails := 3 }]) (sparing .copy) (fun t => t.slt.vs == .switch && (vault t 120).bad == [1835000]) ∧
    after .vspareSwitch (sparing .switch) (fun t => t.slt.vmap.look 37 == 120 && (vault t 37).role == .retired &&
      (vault t 120).role == .active && t.mgt.logQ.length == 2) := by decide +kernel

/-- A node block is its record, read and written; blocks of the target's bad-block table in a copy. -/
theorem test_slateNode :
    after (.slateWrite (.node 5) 0 (nodeBytes { slate [] with grs.nodes := [(9, { (default : NodeRec) with
        kind := .join, graph := Config.noNode, tally := 3 })] } 9) true { ces := [], fails := 0 }) (slate [])
      (fun t => (nd t 5).kind == .join && (nd t 5).tally == 3) ∧ (leBytes 256 7).length = 256 ∧ 256 % 256 = 0 ∧
    (readBlock (sparing .copy) 37 1835000 { ces := [], fails := 0 }).2 = true ∧
    (readBlock (sparing .copy) 37 1835000 { ces := [], fails := 3 }).2 = false ∧
    1835000 ∉ (vault (sparing .copy) 120).bad ∧ (vault (sparing .copy) 120).bad.length < 64 := by decide +kernel
/-- Block 0x7A3 of the published example: partition 2 owns node 0x5000 and unit 16, admits block 0x012 under tag 0x3C01, and
routes 0x012 over port 2. Port 6 holds the headers `hs`; `o` is the outstanding table. -/
def hall (hs : List FabHdr) (o : Tab (Option OutEnt)) : State :=
  { ready with
    regs := [(0xa00210, 0x10010), (0xb00000, 0x7A3), (0xb00010, 0x0010000000000100), (0xb00018, 0x81000),
             (0xb00410, 0x8000001200123C01), (0xb10048, 4)]
    parts := [(2, { (default : Part) with nodeBase := 0x5000, nodeCount := 16 })]
    grs.nodes := [(0x5000, { (default : NodeRec) with kind := .task, st := .waiting, tally := 3, initTally := 3, graph := Config.noNode })]
    mem := [(0x40000008, 7)]
    fab.outst := o
    fab.ports := [(2, { (default : FabPort) with st := .up, peerReady := true, tx := [(2, 8), (19, 8)] }),
                  (6, { (default : FabPort) with st := .up, peerReady := true, inBuf := hs })] }
/-- A partner's operation `op` at local address `loc`, and this block's own request 0x417 of agent 3's Reckoner or of TLY. -/
def asks (op loc : Nat) : FabHdr :=
  { (default : FabHdr) with op := op, srcPart := 2, dstBlock := 0x7A3, srcBlock := 0x012, hops := 14, hallTag := 0x3C01, txn := 0x417,
                            loc := loc, data := 9, mask := 0xFF }
def own (who : Requester) (due : Option W64) : OutEnt :=
  { hdr := { asks 3 8 with dstBlock := 0x012, srcBlock := 0x7A3 }, who := who, retries := 1, due := due, aborted := false, failed := false,
    counted := false }
def word8 : Nat := 2 * 2 ^ 40 + 8

theorem test_PartnerRequests :
    (hall [asks 1 word8] []).fab.stopped = false ∧ isReady (hall [] []) = true ∧ responseWaits (hall [] []) = false ∧
    (takeIn (hall [asks 1 word8] []) 6 (fun h => vcOf h.op == 0)).isSome = true ∧ (0xC ≤ (asks 0xC 0).op) ∧
    isWrite (asks 1 0) = false ∧ malformed (asks 1 0) = false ∧ malformed { asks 2 0 with final := true } = false ∧
    requestPart (hall [] []) (asks 1 0x900000000000) = none ∧ requestPart (hall [] []) (asks 1 word8) = some 2 ∧
    requestPart (hall [] []) (asks 7 0x5000) = some 2 ∧ admits (hall [] []) 2 (asks 1 word8) = true ∧
    admits (hall [] []) 2 { asks 1 word8 with hallTag := 0x3C02 } = false ∧
    admits (hall [] []) 2 { asks 1 word8 with srcBlock := 0x013 } = false ∧
    targetOf (hall [] []) word8 = .data 2 8 ∧ misaligned (asks 1 word8) 9 = true ∧
    targetOf (hall [] []) (0xC010000000000 + 64) = .bar 1 0 ∧ unitFull (hall [] []) (asks 1 word8) = false ∧
    bauShut { hall [] [] with bau.stopped := true } = true ∧ inData (hall [] []) 2 8 8 = true ∧
    ((hall [] []).slt.vaults.any fun e => !e.2.bad.isEmpty) = false ∧ (asks 2 word8).mask.toNat % 256 = 255 ∧
    malformed { asks 1 0 with ord := true } = false ∧ malformed { asks 3 0 with ord := true } = true ∧
    isWrite (asks 3 0) = false ∧ isWrite (asks 2 0) = true := by decide +kernel
theorem test_unitFull : unitFull { hall [] [] with bau.stopped := true } (asks 1 word8) = true ∧
    after (.fabRequestReceive 6) { hall [asks 1 word8] [] with bau.stopped := true } (fun t => t.out == [] &&
      (port t 6).inBuf.length == 1) ∧
    after (.fabRequestReceive 6) (hall [asks 1 (0xC010000000000 + 64)] []) (fun t => regGet t (Ctr.addr .fabDenied) == 1) := by decide +kernel

/-- A whole-block write of 256 bytes of 1 with the CRC-32C `crc`, and one of its words 0 and 2 alone. -/
def wholeBlock (crc mask : Nat) : FabHdr :=
  { asks 5 (2 * 2 ^ 40 + 256) with payload := List.replicate 256 1, dcrc := BitVec.ofNat 32 crc, mask := BitVec.ofNat 32 mask }
set_option maxRecDepth 100000 in
theorem test_blockWrites :
    after (.fabRequestReceive 6) (hall [wholeBlock (crc32c (List.replicate 256 1)) 0xFFFFFFFF] [])
      (fun t => memWord t 0x400001F8 == 0x0101010101010101 && regGet t (Ctr.addr .sltWrCrc) == 0) ∧
    after (.fabRequestReceive 6) (hall [wholeBlock (crc32c (List.replicate 256 1) ^^^ 1) 0xFFFFFFFF] [])
      (fun t => memWord t 0x400001F8 == 0 && regGet t (Ctr.addr .sltWrCrc) == 1) ∧
    after (.fabRequestReceive 6) (hall [wholeBlock 0 5] [])
      (fun t => memWord t 0x40000100 == 0x0101010101010101 && memWord t 0x40000108 == 0 &&
        memWord t 0x40000110 == 0x0101010101010101 && regGet t (Ctr.addr .sltWrCrc) == 0) := by decide +kernel

theorem test_partnerRequest :
    after (.fabRequestReceive 6) (hall [asks 1 word8] []) (fun t => (t.out.map fun o => match o with
      | .fab h => (h.op, h.data, h.txn) | _ => default).contains (9, 7, 0x417)) ∧
    after (.fabRequestReceive 6) (hall [asks 2 word8] []) (fun t => memWord t 0x40000008 == 9) ∧
    after (.fabRequestReceive 6) (hall [{ asks 7 0x5000 with data := 1 }] [])
      (fun t => regGet t (Ctr.addr .tlyRemoteIn) == 1 && (nd t 0x5000).tally == 2) ∧
    after (.fabRequestReceive 6) (hall [{ asks 1 word8 with hallTag := 0 }] []) (fun t => regGet t (Ctr.addr .fabDenied) == 1 &&
      (t.out.map fun o => match o with | .fab h => (h.op, h.data) | _ => default).contains (0xB, 4)) := by decide +kernel

/-- Answers to entry 0x417, and entries due at 100 while the time is 100 and 99. -/
def answers (op code : Nat) (who : Requester) : State := hall [{ asks op 8 with data := BitVec.ofNat 64 code }] [(0x417, some (own who none))]
def dueAt (now : W64) (who : Requester) : State := { hall [] [(0x417, some (own who (some 100)))] with ts := now }
theorem test_FabricAnswers :
    (takeIn (answers 9 5 .tly) 6 (fun h => decide (8 ≤ h.op ∧ h.op ≤ 0xA))).isSome = true ∧
    (takeIn (answers 0xB 2 .tly) 6 (fun h => h.op == 0xB)).isSome = true ∧
    outEnt (answers 9 5 .tly) 0x417 = some (own .tly none) ∧ outEnt (hall [] []) 0x417 = none ∧ (own .tly none).aborted = false ∧
    (own .tly none).failed = false ∧ outEnt (dueAt 100 .tly) 0x417 = some (own .tly (some 100)) ∧
    (100 : W64) ≤ (dueAt 100 .tly).ts ∧ (dueAt 99 .tly).ts < 100 ∧ (own (.rkn 3 7) none).who ≠ .tly ∧
    retryFull (answers 9 5 .tly) (asks 9 8) = false ∧ retryFull (answers 0xB 2 .tly) { asks 0xB 8 with data := 2 } = false ∧
    retrySpacing (hall [] []) 1 = 256 ∧ retrySpacing (hall [] []) 2 = 512 ∧ retrySpacing (hall [] []) 99 = 0x100000 := by decide +kernel

theorem test_fabIdle : FabIdle (hall [] []) ∧ FabIdle (answers 0xB 2 .tly) := by
  unfold FabIdle; decide +kernel
/-- Partition 2's 1,024 places of the retry queue (32 of its own and the 512 shared) all held: an answer that must wait stays in the
input buffer. -/
def retriesHeld : State := { answers 0xB 2 .tly with
  fab.outst := (0x417, some (own .tly none)) :: (List.range 544).map fun n => (0x800 + n, some (own .tly (some 100))) }
set_option maxRecDepth 100000 in
theorem test_retryFull : retryFull retriesHeld { asks 0xB 8 with data := 2 } = true ∧
    after (.fabNack 6) retriesHeld (fun t => (port t 6).inBuf.length == 1 && (outEnt t 0x417).map (·.retries) == some 1) := by decide +kernel

/-- A NACK TRY_LATER (2) of a second attempt waits 512 qc, as in the published example; LINK_LOST (6) and UNREACHABLE (7). -/
theorem test_fabAnswer :
    after (.fabNack 6) (answers 0xB 2 .tly) (fun t => (outEnt t 0x417).map (fun e => (e.retries, e.due)) == some (2, some 512)) ∧
    after (.fabNack 6) (answers 0xB 6 .tly) (fun t => t.flt.last.id == 0x1002 && outEnt t 0x417 == none) ∧
    after (.fabNack 6) (answers 0xB 7 (.rkn 3 7)) (fun t => t.flt.last.id == 0x1001 && outEnt t 0x417 == none) ∧
    after (.fabResponse 6) (answers 8 0 .tly) (fun t => outEnt t 0x417 == none && t.flt.last.id == 0) ∧
    after (.fabResponse 6) (hall [asks 8 0] []) (fun t => regGet t (Ctr.addr .fabOrphanRsp) == 1) ∧
    after (.fabRetry 0x417) (dueAt 100 .tly) (fun t => regGet t (Ctr.addr .tlyRemoteRetry) == 1 && (outEnt t 0x417).map (·.due) == some none) ∧
    after (.fabRetry 0x417) (dueAt 99 .tly) (fun t => regGet t (Ctr.addr .tlyRemoteRetry) == 0) := by decide +kernel

/-- A sequence of core 1 of agent 4 to block 0x012 with `n` writes unacknowledged and a flagged final write held. -/
def final1 : FabHdr := { asks 2 8 with dstBlock := 0x012, srcBlock := 0x7A3, srcAgent := 4, srcUnit := 1, final := true }
def finalHeld : HeldWrite := { order := 5, hdr := final1, who := .core 4 1 3 }
def sequence (n : Nat) : State :=
  { hall [] [] with fab.seqs := [{ srcAgent := 4, srcUnit := 1, srcPart := 2, dst := 0x012, unacked := n, finals := 0,
                                   queue := none, held := [finalHeld] }] }
theorem test_FinalWrites :
    (sequence 1).fab.stopped = false ∧
    (sequence 1).fab.seqs.find? (fun e => e.srcAgent == 4 && e.srcUnit == 1 && e.srcPart == 2 && e.queue == none && e.dst == 0x012) =
      some { srcAgent := 4, srcUnit := 1, srcPart := 2, queue := none, dst := 0x012, unacked := 1, finals := 0,
             held := [finalHeld] } ∧
    isFinal final1 = true ∧ mayLand (sequence 1) 5 final1 (.core 4 1 3) = false ∧
    mayLand (sequence 0) 5 final1 (.core 4 1 3) = true ∧ agtShut (sequence 1) 4 = false ∧ isWrite final1 = true ∧
    ((seqDone (sequence 1) { final1 with final := false } (.core 4 1 3)).fab.seqs.map (·.unacked)) = [0] ∧
    after (.finalWriteRelease (.fab 4 1 2 0x012)) (sequence 1) (fun t => (t.fab.seqs.map (·.held.length)) == [1]) ∧
    (seqDrain [finalHeld] (sequence 1)).1 = [finalHeld] ∧ (seqDrain [finalHeld] (sequence 0)).1 = [] := by decide +kernel

/-- Flits of port 6: a NULL flit (KIND 3) with ACK 4,095, control flits (KIND 2, STOP) with SEQ 0 and 1, with a good CRC and a bad
one, and one whose KIND does not fit its virtual channel. -/
def flitBits (vc kind seq cmd : Nat) (good : Bool) : BitVec 2176 :=
  let x := cmd + (seq + 4095 * 2 ^ 16 + (vc + kind * 4) * 2 ^ 32 + 3 * 2 ^ 40) * 256 ^ 256
  BitVec.ofNat 2176 (x + (crc32c (leBytes 268 x) + (if good then 0 else 1)) % 2 ^ 32 * 2 ^ 96 * 256 ^ 256)
set_option maxRecDepth 100000 in
theorem test_flitFields :
    (flitOf (flitBits 2 2 1 2 true)).crcOk = true ∧ (flitOf (flitBits 2 2 1 2 true)).seq = 1 ∧ (flitOf (flitBits 2 2 1 2 true)).ack = 4095 ∧
    (flitOf (flitBits 2 2 1 2 true)).kind = 2 ∧ (flitOf (flitBits 2 2 1 2 true)).cvc = 3 := by decide +kernel
set_option maxRecDepth 100000 in
theorem test_flitCrc : (flitOf (flitBits 2 2 1 2 false)).crcOk = false := by decide +kernel
set_option maxRecDepth 100000 in
theorem test_FlitsArrive :
    (port (hall [] []) 6).st = .up ∧ flitForm { flitOf (flitBits 2 2 0 2 true) with crcOk := true } = true ∧
    flitForm { flitOf (flitBits 1 2 0 2 true) with crcOk := true } = false ∧
    flitForm { flitOf (flitBits 0 3 0 0 true) with crcOk := true } = true ∧
    flitForm { flitOf (flitBits 0 1 0 0 true) with crcOk := true } = true ∧
    flitFollows (port (hall [] []) 6) (flitOf (flitBits 2 2 0 2 true)) = true ∧
    flitFollows (port (hall [] []) 6) (flitOf (flitBits 0 1 0 0 true)) = false ∧
    (port (takeTrailer (hall [] []) 6 { flitOf (flitBits 2 2 0 2 true) with crcOk := true }) 6).rxNext = 0 ∧
    (port (hall [] []) 6).nakSent = false := by decide +kernel
set_option maxRecDepth 100000 in
theorem test_flits :
    after (.flitReceive 6 (flitBits 2 2 0 2 true)) (hall [] []) (fun t => (port t 6).peerStopped && (port t 6).rxNext == 1) ∧
    after (.flitReceive 6 (flitBits 2 2 1 2 true)) (hall [] []) (fun t => !(port t 6).peerStopped && t.out == [.nullFlit 6 4095 true]) := by decide +kernel

/-- A flit as it leaves is read back as it was: a header in slot 0, its ACK, no credits and a good CRC. -/
def wired : List Flit := (flitWire 7 { seq := 5, vc := 0, body := .ops [final1], flits := 1 } (0, 16, 0)).map fun b =>
  flitOf (BitVec.ofNat 2176 (leNat b))
set_option maxRecDepth 100000 in
theorem test_flitWire : Machine.hdrOf (leNat (hdrBytes final1)) = final1 ∧
    (wired.map fun f => (f.seq, f.ack, f.vc, f.kind, f.slots, f.crcOk)) = [(5, 7, 0, 0, 1, true)] ∧
    wired.map flitHdrs = [[final1]] := by decide +kernel

/-- Port 6 with a flit that waits since 0 while REPLAY_QC is 4,096; its lanes and states. -/
def waits (now : W64) (n : Nat) : State :=
  { hall [] [] with
    ts := now
    fab.ports := [(6, { (default : FabPort) with
      st := .up, txSeq := 1, replay := [{ seq := 0, vc := 2, body := .null, flits := 1 }], replays := List.replicate n now })] }
def linkAt (st : LinkState) (fails : Nat) : State :=
  { hall [] [] with
    regs := [(0xb00018, 0x81000), (0xb001c0, 0x04010000)]
    fab.ports := [(6, { (default : FabPort) with st := st, lanes := 15, trainFails := fails, failedLanes := 16, peerBlock := 0x100,
                                                 peerPort := 3, trained := true })] }
theorem test_LinksAndPorts :
    (port (waits 4096 0) 6).st = .up ∧ max 1 (regFld (waits 4096 0) 0xb00018 15 0) ≤ ((waits 4096 0).ts - (port (waits 4096 0) 6).lastAdvance).toNat ∧
    ((waits 4095 0).ts - (port (waits 4095 0) 6).lastAdvance).toNat < max 1 (regFld (waits 4095 0) 0xb00018 15 0) ∧
    regFld (waits 0 0) 0xb00018 23 16 = 8 ∧ (port (linkAt .up 0) 6).lanes.getLsbD 0 = true ∧ laneCount (~~~(16 ||| 1 : BitVec 5)) = 3 ∧
    laneCount (~~~(16 ||| 3 : BitVec 5)) = 2 ∧ (port (linkAt .train 0) 6).st = .train ∧
    max 1 (regFld (linkAt .train 3) (0xb00100 + 0x20 * 6) 31 24) = 4 ∧ 4 ≤ (port (linkAt .train 3) 6).trainFails + 1 ∧
    (port (linkAt .train 2) 6).trainFails + 1 < 4 ∧ regFld (linkAt .ident 0) (0xb00100 + 0x20 * 6) 19 8 = 0x100 ∧
    (port (linkAt .ident 0) 6).st = .ident ∧ (port (linkAt .retrain 0) 6).st = .retrain ∧ (port (linkAt .retrain 0) 6).trained = true ∧
    regFld (linkAt .up 0) (0xb00100 + 0x20 * 6) 47 32 < 1 ∧ usable (hall [] []) 2 = true ∧
    (linkAt .up 0).fab.ports.any (·.2.eqReq) = false ∧ (0x100 : Nat) ≠ blockId (linkAt .up 0) := by decide +kernel

theorem test_links :
    after (.replayTimeout 6) (waits 4096 0) (fun t => regGet t (Ctr.addr .fabReplay) == 1 && t.out.length == 1) ∧
    after (.replayTimeout 6) (waits 4095 0) (fun t => t.out == []) ∧
    after (.replayTimeout 6) (waits 4096 8) (fun t => (port t 6).st == .retrain) ∧
    after (.laneFailure 6 ⟨0, 1⟩) (linkAt .up 0) (fun t => (port t 6).st == .retrain && (port t 6).degraded && (port t 6).lanes == 14) ∧
    after (.laneFailure 6 ⟨0, 0⟩) (linkAt .up 0) (fun t => (port t 6).st == .up && (port t 6).lanes == 15) ∧
    after (.trainResult 6 3) (linkAt .train 3) (fun t => (port t 6).st == .dead && t.flt.last.id == 0x1004) ∧
    after (.trainResult 6 3) (linkAt .train 2) (fun t => (port t 6).st == .train && (port t 6).trainFails == 3) ∧
    after (.trainResult 6 15) (linkAt .train 2) (fun t => (port t 6).st == .ident) := by decide +kernel
theorem test_ports :
    after (.identReceive 6 true 0x100 3 0) (linkAt .ident 0) (fun t => (port t 6).st == .up && (port t 6).peerReady) ∧
    after (.identReceive 6 true 0x101 3 0) (linkAt .ident 0) (fun t => (port t 6).st == .dead && t.flt.log.length == 2) ∧
    after (.identReceive 6 true 0x100 2 0) (linkAt .retrain 0) (fun t => (port t 6).st == .dead) ∧
    after (.lossOfLock 6) (linkAt .up 0) (fun t => (port t 6).st == .retrain) ∧
    after (.stopReceive 6) (linkAt .up 0) (fun t => (port t 6).peerStopped) ∧
    after (.identReceive 6 true 0x100 3 0) (linkAt .up 0) (fun t => (port t 6).st == .up && (port t 6).peerReady) ∧
    after (.resumeReceive 6) (updPort (linkAt .up 0) 6 fun p => { p with peerStopped := true })
      (fun t => !(port t 6).peerStopped) ∧
    after (.phyEqDone 6) (updPort (linkAt .up 0) 6 fun p => { p with eqReq := true }) (fun t => !(port t 6).eqReq) ∧
    after (.fabReeq 6) (linkAt .up 0) (fun t => t.out == [.eqReq 6] && (port t 6).eqReq) ∧
    after (.fabReeq 6) (linkAt .retrain 0) (fun t => t.out == []) := by decide +kernel

/-- The block at a stage and reset kind, with the reset inputs at the levels of `level`. -/
def boot (st : Stage) (kind level : Nat) : State :=
  { State.reset with crb.stage := st, crb.kind := kind, flt.level := BitVec.ofNat 5 level }
def locked (st : Stage) (root stby onStby : Bool) : State :=
  { boot st 0 31 with crb.rootLock := root, crb.stbyLock := stby, crb.onStby := onStby, ts := 9 }
def devReset : State := { boot .ready 0 31 with flt.devReset := true, flt.resetSource := 2, ts := 9 }

theorem test_Resets :
    (boot .ready 0 31).flt.level.getLsbD 0 = true ∧ (boot .ready 0 31).flt.level.getLsbD 1 = true ∧
    noClock (boot .ready 0 31) = false ∧ (boot .ready 0 31).crb.stage ≠ .reset ∧ (boot .reset 0 31).crb.stage = .reset ∧
    clocked (boot .reset 0 31) = false ∧ clocked { boot .reset 1 31 with crb.rootLock := true } = true ∧
    (boot .ready 0 28).flt.level.getLsbD 0 = false ∧ (boot .ready 0 28).flt.level.getLsbD 1 = false ∧
    devReset.flt.devReset = true ∧ devReset.dis.running = [] ∧ devReset.hif.flight = [] ∧ ready.flt.devReset = false ∧
    (boot .reset 0 31).test.testMode = false ∧ (boot .reset 0 31).crb.kind = 0 ∧ (boot .reset 1 31).crb.kind ≠ 0 ∧
    { boot .reset 1 31 with crb.rootLock := true }.crb.rootLock = true ∧ ready.flt.resumable = false ∧
    { ready with flt.resumable := true }.flt.resumable = true := by decide +kernel

theorem test_reset :
    after (.powerOnReset false) { devReset with mem := [(4, 4)] } (fun t => t.mem == [] && t.ts == 0 && t.crb.stage == .reset) ∧
    after (.warmReset false) { devReset with mem := [(4, 4)] } (fun t => t.mem == [(4, 4)] && t.ts == 9 && t.crb.kind == 1) ∧
    after (.powerOnReset true) (boot .reset 0 30) (fun t => t.crb.stage == .clocks) ∧
    after (.warmReset true) { boot .reset 1 29 with crb.rootLock := true } (fun t => t.crb.stage == .header) ∧
    after .deviceResetSequence devReset (fun t => t.crb.kind == 2 && t.crb.source == 2 && t.ts == 9) := by decide +kernel

theorem test_Clocks :
    pllsRun (boot .clocks 0 31) = true ∧ pllsRun (boot .reset 0 29) = true ∧ (locked .reset false true false).crb.stage = .reset ∧ (boot .clocks 0 31).crb.stage = .clocks ∧ (boot .clocks 0 31).crb.stbyLock = false ∧
    (boot .ready 0 31).crb.stage ≠ .clocks ∧ (boot .ready 0 31).crb.stbyLock = false ∧ noClock (boot .ready 0 31) = false ∧
    (locked .clocks false true false).crb.stbyLock = true ∧ (locked .ready true true false).crb.rootLock = true ∧
    (locked .ready true true false).crb.onStby = false ∧ (locked .ready true true true).crb.onStby = true := by decide +kernel

theorem test_plls :
    after (.pllLock true) (locked .clocks false false false) (fun t => t.crb.stage == .header && t.ts == 9) ∧
    after .pllLockTimeout (locked .clocks false true false) (fun t => t.crb.stage == .header && t.flt.last.id == 0x1401) ∧
    after .pllLockTimeout (locked .clocks false false false) (fun t => t.crb.stage == .failed && t.crb.failCode == 1) ∧
    after .pllLockTimeout (locked .reset false true false) (fun t => t.crb.stage == .reset && t.crb.onStby) ∧
    after (.pllLock true) (locked .reset false false false) (fun t => t.crb.stage == .reset && t.crb.rootLock) ∧
    after .pllLossOfLock (locked .ready true true false) (fun t => t.crb.onStby && t.crb.stage == .ready) := by decide +kernel

/-- A block whose fuses accept key slot 1, and a header of the right magic with a VERSION, a count of agents and a key slot. -/
def fused (st : Stage) (revoked : Nat) : State :=
  { boot st 0 31 with
    crb.otp.programmed := 2
    crb.otp.revoked := BitVec.ofNat 4 revoked
    crb.otp.digest := [(1, sha384 (List.replicate 96 0))] }
def headerOf (version agents : Nat) : Bytes :=
  leBytes 4 0x44524F4B ++ leBytes 8 version ++ leBytes 4 0x10000 ++ leBytes 2 0 ++ leBytes 2 3 ++ [BitVec.ofNat 8 agents]

theorem test_headerFail :
    (fused .header 0).crb.stage = .header ∧ Bytes.fld [] 0 0 32 ≠ 0x44524F4B ∧ headerFail (fused .header 0) [] = some 4 ∧
    Bytes.fld (headerOf 2 32) 4 0 16 ≠ 1 ∧ headerFail (fused .header 0) (headerOf 2 32) = some 5 ∧
    headerFail (fused .header 0) (headerOf 1 16) = some 5 ∧ headerFail (fused .header 2) (headerOf 1 32) = some 6 ∧
    headerFail (fused .header 0) (headerOf 1 32) = some 7 := by decide +kernel

/-- TRIMS of one word: word 0 takes 10 bits. -/
def trims (v : Nat) : Bytes := leBytes 4 2 ++ leBytes 4 1 ++ List.replicate 8 0 ++ leBytes 4 v
def section2 (v : Nat) : BootSec := { type := 2, off := 0x1000, len := 20, digest := sha384 (Bytes.slice (trims v) 0 20) }
def sections (st : Stage) (l : List BootSec) : State := { boot st 0 31 with crb.secs := l }

theorem test_BootImage (v : Nat) :
    (sections .slateInit [section2 v]).crb.secs = section2 v :: [] ∧ (sections .slateInit [section2 v]).crb.stage = .slateInit ∧
    (section2 v).type ≤ 2 ∧ sha384 (Bytes.slice (trims v) 0 (section2 v).len) = (section2 v).digest ∧
    (sections .load [section2 v]).crb.stage = .load := ⟨rfl, rfl, Nat.le_refl 2, rfl, rfl⟩
theorem test_sectionFail :
    sha384 (Bytes.slice (trims 7) 0 20) ≠ { section2 7 with digest := 0 }.digest ∧
    sectionFail { sections .slateInit [section2 0x3FF] with crb.bytesRead := 0x1014 } 2 (Bytes.slice (trims 0x3FF) 0 20) = none ∧
    sectionFail { sections .slateInit [section2 0x400] with crb.bytesRead := 0x1014 } 2 (Bytes.slice (trims 0x400) 0 20)
      = some 0xA := by decide +kernel
theorem test_section :
    after (.sectionDigest true (trims 0x3FF)) (sections .slateInit [section2 0x3FF]) (fun t => trim t 0 == 0x3FF) ∧
    after (.sectionDigest true (trims 0x400)) (sections .slateInit [section2 0x400]) (fun t => t.crb.failCode == 0xA) ∧
    after (.sectionDigest true (trims 0x3FF)) (sections .slateInit [{ section2 0x3FF with digest := 0 }])
      (fun t => t.crb.failCode == 9) ∧
    after (.headerVerified true false []) (fused .header 0) (fun t => t.crb.failCode == 3) := by decide +kernel

/-- A TEMPLATES section without a template, before a QUEUES section: it is staged at 0xC00_0000 + OFFSET, and the agents leave
reset after it if they have not. -/
def templates : Bytes := leBytes 4 9 ++ List.replicate 12 0
def section9 : BootSec := { type := 9, off := 0x2000, len := 16, digest := sha384 (Bytes.slice templates 0 16) }
theorem test_templates :
    tplSecOk (Bytes.slice templates 0 16) = true ∧ 5 < ({ section9 with type := 0xA } : BootSec).type ∧
    ((sections .load []).slt.vaults.any fun e => !e.2.bad.isEmpty) = false ∧
    after (.sectionDigest true templates) (sections .load [section9, { section9 with type := 0xA }])
      (fun t => t.crb.secType == 0xA && t.crb.tplSec == templates && t.mem == [(0xC002000, 9)] && (agt t 3).portRdy) := by decide +kernel

/-- The image at the end of SLATE_INIT, with LOAD's first section next; at BUILD; and with a kernel queue of its own. -/
def filling : State := sections .slateInit [{ section2 0 with type := 3 }]
def queueEntry (q : Nat) : Bytes := leBytes 4 q ++ [4, 4] ++ List.replicate 42 0
def queueSection (l : List Nat) : Bytes := leBytes 4 0xA ++ leBytes 4 l.length ++ List.replicate 8 0 ++ l.flatMap queueEntry
def building (nodes : Nat) (built : Bool) (kind : Nat) (l : List Nat) : State :=
  { boot .build kind 31 with crb.nodes := nodes, crb.built := built, crb.queueSec := queueSection l }

theorem test_fill :
    filling.crb.stage = .slateInit ∧ filling.crb.kind = 0 ∧ 2 < ((filling.crb.secs.head?).map (·.type)).getD 0 := by decide +kernel
theorem test_fillDone :
    after (.slateFillDone [] []) { filling with mem := [(8, 8)] } (fun t => t.crb.stage == .load && t.mem == []) ∧
    after (.slateFillDone [(3, 7)] []) filling (fun t => (vault t 3).bad == [7] && (vault t 3).rowQ == [rowKey 7] &&
      regGet t (Ctr.addr .sltUe) == 1) ∧
    after (.slateFillDone ((List.range 65).map fun b => (0, b)) []) { filling with slt.vmap := [(5, 0)] }
      (fun t => t.crb.stage == .failed && t.crb.failCode == 0xC) := by decide +kernel

theorem test_BootEnds :
    (building 0x100 false 0 []).crb.built = false ∧ (buildSteps (building 0x101 false 0 [])).isRight = false ∧
    (buildSteps (building 0x100 false 0 [])).isRight = true ∧ (∀ k, k < 8 → (port (building 0x100 true 0 []) k).st ≠ .up) ∧
    (building 0x100 true 0 []).agt = [] ∧ (building 0x100 true 0 []).crb.built = true ∧
    imageQueues (building 0x100 true 1 [0x1003]) = [0x1003] ∧
    (openEntries [] (building 0x100 true 0 []) (secEntries [] 16)).isSome = true := by decide +kernel
theorem test_ready :
    after .build (building 0x101 false 0 []) (fun t => t.crb.stage == .failed && t.crb.failCode == 0xB) ∧
    after .build { building 0x100 false 0 [] with crb.queueSec := queueSection [0x1003, 0x1003] }
      (fun t => t.crb.failCode == 0xB && t.crb.secType == 0xA) ∧
    after .build (building 0x100 false 0 []) (fun t => t.crb.built && t.crb.stage == .build) ∧
    after .ready (building 0x100 true 1 [0x1003])
      (fun t => isReady t && (queue t 0x1003).st == .idle && (t.hif.flight.map (·.q)) == [0x1003]) ∧
    after .ready (building 0x100 true 0 [0x1003]) (fun t => isReady t && t.hif.flight == []) := by decide +kernel

/-- A pending doorbell of a queue that the image enables, and of one that it does not. -/
def rung (tail : Nat) : State := { ready with queues := [(5, { (default : Queue) with sqLog2 := 4, pend := true, tail := tail })] }
theorem test_pendingDoorbell :
    (queue (rung 3) 5).pend = true ∧ (queue (rung 3) 5).tail < sqSize (rung 3) 5 ∧ 5 ∉ ([] : List Nat) ∧
    sqSize (rung 16) 5 ≤ (queue (rung 16) 5).tail ∧ checkPending [5] (rung 3) 5 = rung 3 ∧
    (queue (checkPending [5] (rung 16) 5) 5).pend = false := by decide +kernel

/-- A fault of a class. -/
def rec (cls : FClass) (part : Nat) : FaultRec := { id := 0x0601, cls := cls, inj := false, part := part, detail := 5, ts := 0 }
def stopping (st : StopState) (units : List Nat) : State := { ready with flt.stop := st, flt.stoppedUnits := units }

theorem test_FaultTaken :
    ready.flt.log.length < 64 ∧ 64 ≤ (List.replicate 64 (rec .c 0)).length ∧ (rec .c 0).cls = .c ∧ (rec .up 0).cls = .up ∧
    (rec .ud 0).cls = .ud ∧ isReady (recordFault (boot .load 0 31) (rec .up 3)) = false ∧
    isReady (recordFault ready (rec .up 3)) = true ∧ (recordFault ready (rec .up 3)).flt.devReset = false ∧
    (recordFault (stopping .saving []) (rec .up 3)).flt.stop ≠ .running ∧ (recordFault ready (rec .up 3)).flt.stop = .running ∧
    (recordFault { ready with flt.discarding := [(3, true)] } (rec .up 3)).flt.discarding.look 3 = true ∧
    (recordFault ready (rec .up 3)).flt.discarding.look 3 = false := by decide +kernel

theorem test_heldFault :
    memByte (takeFault (stopping .stopped []) (rec .up 3)) 0xC = 8 ∧ (recordFault ready (rec .ud 0)).crb.fault = 0x0601 ∧
    (recordFault State.reset (rec .ud 0)).crb.fault = 0x0601 := by decide +kernel
theorem test_fault :
    (takeFault ready (rec .up 3)).flt.discarding = [(3, true)] ∧
    (takeFault (stopping .saving []) (rec .up 3)).flt.heldUp = [(3, true)] ∧
    (takeFault ready (rec .ud 0)).flt.devReset = true ∧ (takeFault ready (rec .c 0)).flt.irqStat = 1 ∧
    regGet (takeFault { ready with flt.discarding := [(3, true)] } (rec .up 3)) (Ctr.addr .fltMerge) = 1 := by decide +kernel

/-- Agent 0's Reckoner in a state, with the launch of node 5, generation 2. -/
def layer5 (st : RknState) : State :=
  { ready with agt := [(0, { (default : Agent) with
      dnQ := [.engCmd 4 1 9 0 0 0 false []], rkn := { (default : Rkn) with st := st, launch := some { (default : Launch) with node := 5, gen := 2 } } })] }
def runsSlice (p : Nat) : State := { ready with dis.running := [{ (default : Running) with part := p }], flt.discarding := [(3, true)] }

theorem test_DiscardsAndAborts :
    ready.grs.nodes.any (fun e => e.2.kind == .graph && (e.2.hdr.lstate == .active || e.2.hdr.lstate == .draining) &&
      partOr0 ready e.1 == 3) = false ∧ (runsSlice 3).dis.running.any (·.part == 3) = true ∧
    issuedOf (runsSlice 3) 3 = true ∧ issuedOf (runsSlice 4) 3 = false ∧ agtShut ready 0 = false ∧
    (runsSlice 4).dis.running.any (·.part == 3) = false ∧ ready.flt.devReset = false ∧ (agt ready 0).stopped = false ∧
    (rkn ready 0).launch = none ∧ (rkn (layer5 .running) 0).launch = some { (default : Launch) with node := 5, gen := 2 } ∧
    sameLaunch { (default : Launch) with node := 5, gen := 2 } 5 2 = true ∧ (rkn (layer5 .running) 0).st = .running ∧
    sameLaunch { (default : Launch) with node := 5, gen := 2 } 5 3 = false ∧ (rkn (layer5 .loading) 0).st = .loading := by decide +kernel

theorem test_DiscardsAndAborts_lands :
    Lands (isAbort 0 5 2) (layer5 .running) (layer5 .running) ∧
    Lands (isAbort 0 5 2) { layer5 .running with beam := [.abort 0 0 0 5 2] } (layer5 .running) := ⟨rfl, rfl, rfl⟩
theorem test_discard :
    after (.discardEnd 3) { runsSlice 4 with flt.devReset := true } (fun t => t.flt.discarding == [(3, true)]) ∧
    after (.discardEnd 3) (runsSlice 4) (fun t => t.flt.discarding == []) ∧
    after (.discardEnd 3) (runsSlice 3) (fun t => t.flt.discarding == [(3, true)]) ∧
    after (.abort 0 5 2) (layer5 .running) (fun t => (rkn t 0).st == .aborting && (agt t 0).dnQ == []) ∧
    after (.abort 0 5 3) (layer5 .running) (fun t => (rkn t 0).st == .running) := by decide +kernel

/-- User queue 5 with a live COPY_IN, the hang check on with a limit of 2 windows, and the queue's stall count. -/
def hangs (n : Nat) (live : List Live) : State :=
  { q5with [] live with regs := [(0xc00040, BitVec.ofNat 64 (2 ^ 40 + 2 * 2 ^ 32 + 8))], flt.stall := [(5, n)] }
def busyWith : List Live := [{ cmd := cmdOf 0x20 [], ended := false, nodes := 0 }]

theorem test_ProgressWindows :
    (hangs 1 busyWith).flt.stop = .running ∧ isReady (hangs 1 busyWith) = true ∧ regBit (hangs 1 busyWith) 0xc00040 40 = true ∧
    regBit { ready with regs := [(0xc00040, 8)] } 0xc00040 40 = false ∧ (stopping .saving []).flt.stop ≠ .running ∧ isReady State.reset = false ∧
    regBit (hangs 1 busyWith) 0xc00100 63 = false ∧ 2 = max 1 (regFld (hangs 1 busyWith) 0xc00040 39 32) ∧
    windowCounts (hangs 1 []) 5 = false ∧ windowCounts (hangs 1 busyWith) 5 = true ∧ progressed (hangs 1 busyWith) 5 = false ∧
    progressed { hangs 1 busyWith with flt.progressed := [(5, true)] } 5 = true ∧
    min 255 ((hangs 1 busyWith).flt.stall.look 5 + 1) = 2 ∧ min 255 ((hangs 0 busyWith).flt.stall.look 5 + 1) ≠ 2 := by decide +kernel

theorem test_window :
    after .progressWindowEnd (hangs 1 busyWith) (fun t => t.flt.lastUd.id == 0x1101 && t.flt.lastUd.detail == 5) ∧
    after .progressWindowEnd (hangs 0 busyWith) (fun t => t.flt.last.id == 0 && t.flt.stall == [(5, 1)]) ∧
    after .progressWindowEnd (hangs 1 []) (fun t => t.flt.stall == []) := by decide +kernel

/-- The published example: queues 0x102 and 0x105 each wait on a flag that the other would set. -/
def flagWaits : Queue :=
  { (default : Queue) with st := .fetching, live := [{ cmd := cmdOf 0x33 [], ended := false, nodes := 0 }], cqLog2 := 4 }
def crossed (setter : Nat) : State :=
  { ready with
    queues := [(0x102, flagWaits), (0x105, flagWaits)]
    flt.wait := [{ q := 0x102, seq := 7, setter := 0x105 }, { q := 0x105, seq := 7, setter := setter }]
    flt.walks := [0x105] }

theorem test_CycleWalks :
    (crossed 0x102).flt.walks = 0x105 :: [] ∧ cycleOf { crossed 0x102 with flt.walks := [] } 0x105 = some [0x105, 0x102] ∧
    cycleOf { crossed 0x103 with flt.walks := [] } 0x105 = none ∧ ready.flt.walks = [] ∧
    (crossed 0x102).flt.wait.find? (·.q == 0x105) = some { q := 0x105, seq := 7, setter := 0x102 } := by decide +kernel
theorem test_cycleWalk :
    after .cycleWalkEnd (crossed 0x102) (fun t => t.flt.cycLen == 2 && t.flt.cycQ == [0x105, 0x102] && (queue t 0x102).st == .stopped && (queue t 0x105).st == .stopped) ∧
    after .cycleWalkEnd (crossed 0x103) (fun t => t.flt.cycLen == 0 && (queue t 0x102).st == .fetching) := by decide +kernel

theorem test_Inputs :
    (boot .ready 0 31).flt.level.getLsbD 2 = true ∧ (boot .ready 0 31).flt.level.getLsbD 3 = true ∧
    (boot .ready 0 31).flt.level.getLsbD 4 = true ∧ { ready with mgt.running := true }.mgt.running = true ∧
    ready.mgt.running = false ∧ (boot .ready 0 3).flt.level.getLsbD 2 = false ∧ (boot .ready 0 3).flt.level.getLsbD 3 = false ∧
    (boot .ready 0 3).flt.level.getLsbD 4 = false := by decide +kernel
theorem test_input :
    after .stopN (boot .ready 0 31) (fun t => t.flt.stop == .stopping && t.flt.stopSource == 0) ∧
    after .thermTripN (boot .ready 0 31) (fun t => t.flt.lastUd.id == 0x1202 && t.flt.devReset) ∧
    after .stopN (boot .ready 0 27) (fun t => t.flt.stop == .running) ∧
    after (.inputGlitch 3) ready (fun t => t.flt.irqStat == 8) ∧
    after (.inputInactive 2) (boot .ready 0 27) (fun t => t.flt.level == 31) := by decide +kernel

def allUnits : List Nat := [1, 2, 5, 6, 7, 0xB, 0xC, 0xD, 0xE, 0xF, 0x10, 0x13] ++ (List.range 32).map (32 + ·)

theorem test_GlobalStop :
    isReady State.reset = false ∧ isReady (stopping .saving []) = true ∧ (stopping .saving []).flt.stop ≠ .running ∧
    ready.flt.stop = .running ∧ 5 ∉ (stopping .stopping []).flt.stoppedUnits ∧ 5 ∈ (stopping .stopping [5]).flt.stoppedUnits ∧
    (stopUnits ++ (List.range (agentCount ready)).map (32 + ·)).all (stopping .stopping allUnits).flt.stoppedUnits.contains = true ∧
    (stopUnits ++ (List.range (agentCount ready)).map (32 + ·)).all (stopping .stopping [5]).flt.stoppedUnits.contains = false ∧
    tlyStopped { stopping .stopping allUnits with tly.stopped := true } = true ∧
    fabHalted { stopping .stopping allUnits with fab.stopped := true } = true ∧ fabHalted ready = false ∧
    (stopping .resuming []).flt.heldUp = [] ∧ (stopping .resuming []).cfe.turn = none ∧ (stopping .resuming []).queues = [] ∧
    agentCount ready = 32 := by decide +kernel

/-- The stop from its request to the Cut, on the states between: requests before Ready and in another state only count. -/
theorem test_stop :
    stopRequest State.reset 1 = count State.reset .crbBootIgn ∧ (stopRequest ready 1).flt.stop = .stopping ∧
    after (.stopTokenArrive 5) (stopping .stopping []) (fun t => t.tly.stopped && t.flt.stoppedUnits == [5]) ∧
    after (.stopTokenArrive 33) (stopping .stopping []) (fun t => (agt t 1).stopped && (rkn t 1).st == .stopped) ∧
    after .allUnitsStopped { stopping .stopping allUnits with tly.stopped := true, fab.stopped := true, ts := 9 }
      (fun t => t.flt.stop == .saving && t.flt.stoppedTs == 9) ∧
    after (.stopTokenArrive 6) (stopping .stopping []) (fun t => t.dis.stopped && t.flt.stoppedUnits == [6]) ∧
    after .allUnitsRunning (stopping .resuming []) (fun t => t.flt.stop == .running) ∧
    after .allUnitsRunning { stopping .resuming [] with flt.heldUp := [(3, true)] }
      (fun t => t.flt.discarding == [(3, true)] && t.flt.heldUp == []) := by decide +kernel

/-- A request with OP `op`, TAG 9 and a payload, and where it comes from; the block that serves it, in a state of an update. -/
def request (op len : Nat) (p : Bytes) : Bytes := leBytes 2 op ++ leBytes 2 len ++ leBytes 4 9 ++ leBytes 8 0 ++ p
def viaPort (m : Bytes) : MgtIn := .i3c 0x7F m
def served (u : UpdState) (own : Bool) : State :=
  { ready with mgt.running := true, mgt.i3cAddr := some 9, mgt.upd := u, mgt.updPort := own, mgt.updLen := 0x100, mgt.eid := 8 }
/-- STATUS of the one message that the block sends. -/
def statusSent (t : State) : Nat := match t.out with
  | .mctp m :: _ => m.fld 1 0 8
  | _ => 99

theorem test_ManagementMessages :
    mgtRequest (served .idle true) (viaPort (request 1 0 [])) = some (request 1 0 []) ∧
    (∀ t d, viaPort (request 1 0 []) = .i3c t d → t = 0x7F) ∧ mgtOps.contains ((request 4 0 []).fld 0 0 8) = false ∧
    zeroBytes (request 1 0 []) 8 15 = true ∧ recovering (served .idle true) = false ∧
    ([1, 2, 3, 0x20].all fun op => mgtOps.contains ((request op 0 []).fld 0 0 8) && (request op 0 []).fld 0 0 8 == op &&
      (request op 4 []).fld 2 0 16 == 4 && (request op 0 []).fld 2 0 16 == 0 &&
      mgtRequest (served .idle true) (viaPort (request op 4 [])) == some (request op 4 [])) = true :=
  ⟨rfl, fun _ _ h => by cases h; rfl, by decide, by decide, by decide, by decide +kernel⟩

theorem test_message :
    after (.getHealth (viaPort (request 1 0 []))) (served .idle true) (fun t => statusSent t == 0) ∧
    after (.getHealth (viaPort (request 1 4 []))) (served .idle true) (fun t => statusSent t == 2) ∧
    after (.getSensors (viaPort (request 4 0 []))) (served .idle true) (fun t => statusSent t == 1) ∧
    after (.deviceReset (viaPort (request 0x20 0 []))) (served .idle true) (fun t => t.flt.devReset && statusSent t == 0) := by decide +kernel

/-- The requests of an update: 256 bytes for a staged image of 256 bytes. -/
def begin (n : Nat) : Bytes := request 0x10 4 (leBytes 4 n)
def block256 : Bytes := request 0x11 260 (leBytes 4 0 ++ List.replicate 256 5)

theorem test_Updates :
    [begin 0x100, block256, request 0x12 0 [], request 0x13 0 []].all (fun m =>
      mgtRequest (served .receiving true) (viaPort m) == some m && zeroBytes m 8 15) = true ∧
    recovering (served .receiving true) = false ∧ (∀ m t d, viaPort m = .i3c t d → t = 0x7F) ∧
    (begin 0x100).fld 0 0 8 = 0x10 ∧ (begin 0x100).fld 2 0 16 = 4 ∧ (reqPayload (begin 0x100)).fld 0 0 32 = 0x100 ∧
    updBusy (served .idle true).mgt.upd = false ∧ updBusy (served .receiving true).mgt.upd = true ∧
    block256.fld 0 0 8 = 0x11 ∧ block256.fld 2 0 16 = 260 ∧ (reqPayload block256).fld 0 0 32 + 256 ≤ 0x100 ∧
    (served .receiving true).mgt.updPort = isPortMsg (viaPort block256) ∧
    (request 0x12 0 []).fld 0 0 8 = 0x12 ∧ (request 0x13 0 []).fld 0 0 8 = 0x13 ∧
    (List.range (0x100 / 256)).all (served .receiving true).mgt.updMap.look = false ∧
    (List.range (0x100 / 256)).all { served .receiving true with mgt.updMap := [(0, true)] }.mgt.updMap.look = true ∧
    (served .verifying true).mgt.upd = .verifying ∧ (served .committing true).mgt.upd = .committing := by
  refine ⟨by decide +kernel, rfl, fun _ _ _ h => by cases h; rfl, ?_⟩
  decide +kernel

theorem test_update :
    after (.updBegin (viaPort (begin 0x100))) (served .idle true) (fun t => t.mgt.upd == .receiving && statusSent t == 0) ∧
    after (.updBegin (viaPort (begin 0x100))) (served .receiving false) (fun t => statusSent t == 6) ∧
    after (.updBegin (viaPort (begin 0x100))) (served .receiving true) (fun t => statusSent t == 3) ∧
    after (.updCommit (viaPort (request 0x12 0 [])) true) (served .receiving true) (fun t => statusSent t == 2) ∧
    after (.updAbort (viaPort (request 0x13 0 []))) (served .verifying true) (fun t => t.mgt.upd == .idle && statusSent t == 0) ∧
    after .updVerifyDone (served .verifying true) (fun t => t.mgt.updFail == 4 && statusSent t == 4) ∧
    after (.updProgramDone true) (served .committing true) (fun t => t.mgt.upd == .committed && statusSent t == 0) := by decide +kernel

theorem test_ManagementPort :
    clocked (locked .ready true false false) = true ∧ (locked .ready true false false).crb.stage ≠ .reset ∧
    mctpUp (served .idle true) = true ∧ (1 % 4 ≤ 1 ∧ 8 ≤ 8 % 256 ∧ 254 % 256 ≠ 255) ∧ (2 ≤ 3 % 4 ∧ 7 % 256 < 8 ∧ 255 % 256 = 255) := by decide +kernel
theorem test_endpoint :
    after (.setEndpointId 1 0 8) (served .idle true) (fun t => t.mgt.eid == 8 && statusSent t == 1) ∧
    after (.setEndpointId 1 0 7) { served .idle true with mgt.eid := 9 } (fun t => t.mgt.eid == 9) ∧
    after (.entdaa 0x52) (locked .reset true false false) (fun t => t.mgt.i3cAddr == none && t.out == []) ∧
    after (.entdaa 0x52) (locked .ready true false false) (fun t => t.mgt.i3cAddr == some 0x52) := by decide +kernel

/-- The block with its firmware running at a time, and a rail out of tolerance since a time. -/
def metering (now : W64) (since : Option W64) : State :=
  { served .idle true with ts := now, mgt.voltSince := [(3, since)], mgt.rate := 4096 }

theorem test_SensorsAndPower :
    (metering 0 none).mgt.running = true ∧ 1500 = ((1500 : Int) + signedBits 10 ((metering 0 none).crb.trims.look (32 + 3))).toNat ∧
    (railRange 3).1 ≤ 1455 ∧ 1545 ≤ (railRange 3).2 ∧ 1454 < (railRange 3).1 ∧ (railRange 3).2 < 1546 ∧
    (metering 0 none).mgt.voltSince.look 3 = none ∧ (metering 1650000 (some 1)).mgt.voltSince.look 3 = some 1 ∧
    ((1650000 : W64) - 1).toNat < 1650000 ∧ 1650000 ≤ ((1650001 : W64) - 1).toNat ∧ isReady (metering 0 none) = true ∧
    powerOver { metering 0 none with mgt.est := 2 * watt, regs := [(0xd00020, 1)] } = true ∧ powerOver (metering 0 none) = false ∧
    powerLow (metering 0 none) = true ∧ powerLow { metering 0 none with mgt.est := watt, regs := [(0xd00020, 1)] } = false ∧
    pmbListed (metering 0 none) 0 = false ∧ pmbListed { metering 0 none with regs := [(0xd00180, 0x80)] } 0 = true := by decide +kernel
theorem test_sensors :
    after (.voltageSample 3 1454) (metering 1650001 (some 1)) (fun t => t.flt.lastUd.id == 0x1201 && t.flt.lastUd.detail == 3) ∧
    after (.voltageSample 3 1454) (metering 1650000 (some 1)) (fun t => t.flt.last.id == 0) ∧
    after (.voltageSample 3 1455) (metering 1650001 (some 1)) (fun t => t.mgt.voltSince.look 3 == none) ∧
    after (.powerMeterTick default []) (metering 0 none) (fun t => t.mgt.rate == 4096 + 128 && regGet t (Ctr.addr .mgtCapAct) == 1) ∧
    after (.powerMeterTick default []) { metering 0 none with flt.stop := .stopped, mgt.est := 5 }
      (fun t => t.mgt.rate == 4096 && t.mgt.est == 5) ∧
    after (.pmbusPoll 3500 10 []) { metering 7 none with regs := [(0xd00180, 0x80)] } (fun t => t.mgt.busSince == some 7) := by decide +kernel

/-- A log with a waiting record and the head's sector open, and one whose head has moved 16 times. -/
def aRecord : LogRec := { type := 0xA, seq := 1, boot := 1, ts := 0, key := 5, body := 5 }
def logging (moved : Nat) (st : SecState) : State :=
  { served .idle true with mgt.logQ := [aRecord], mgt.head := 2, mgt.sectors := [(2, { st := st, erases := 1, recs := 3 })], mgt.moved := moved }
/-- Logical vault 4 on physical vault 4 is worn, and vault 120 is spare. -/
def worn (en : Nat) (vs : VsState) : State :=
  { served .idle true with
    regs := [(0xd00038, BitVec.ofNat 64 (en * 2 ^ 16 + 100))]
    slt.vs := vs
    slt.vmap := (List.range 119).map fun v => (v + 1, v + 1)
    slt.vaults := [(4, { (default : Vault) with bad := List.range 48 }), (120, { (default : Vault) with role := .spare })] }

theorem test_LogAndSpares :
    (logging 0 .journal).mgt.logQ = aRecord :: [] ∧ headOpen (logging 0 .journal) = true ∧ ready.mgt.logQ = [] ∧
    (logging 16 .journal).mgt.running = true ∧ 16 ≤ (logging 16 .journal).mgt.moved ∧ (logging 0 .journal).mgt.moved < 16 ∧
    1 = (liveLog (logging 16 .journal)).length / 1024 + 1 ∧ (copyForward 1 (logging 16 .journal) []).2.length = 1 ∧
    (List.range 120).find? (vaultWorn (worn 1 .idle)) = some 4 ∧ (List.range 120).find? (vaultWorn ready) = none ∧
    (List.range 128).find? (fun v => (vault (worn 1 .idle) v).role == .spare) = some 120 ∧
    regBit (worn 1 .idle) 0xd00038 16 = true ∧ (worn 1 .idle).flt.stop = .running ∧ isReady (worn 1 .idle) = true ∧
    (worn 1 .copy).slt.vs = .copy ∧ (worn 1 .idle).slt.vs = .idle := by decide +kernel
theorem test_log :
    after (.logAppend true true) (logging 0 .journal) (fun t => t.mgt.log == [aRecord] && (t.mgt.sectors.look 2).recs == 4) ∧
    after (.logAppend false true) (logging 0 .journal) (fun t => t.mgt.log == [] && (t.mgt.sectors.look 2).st == .retired) ∧
    after .logCompact (logging 16 .journal) (fun t => t.mgt.moved == 0 && t.mgt.head == 3 && (t.mgt.sectors.look 2).st == .free) ∧
    after .logCompact { logging 16 .journal with flt.stop := .stopped } (fun t => t.mgt.moved == 16 && t.mgt.head == 2) ∧
    after .vaultSpareTrigger { worn 1 .idle with flt.stop := .stopped } (fun t => t.slt.vs == .idle) ∧
    after .vaultSpareTrigger (worn 1 .idle) (fun t => t.slt.vs == .test && t.slt.vsLogical == 4 && t.slt.vsTarget == 120) ∧
    after .vaultSpareTrigger (worn 0 .idle) (fun t => t.slt.vs == .idle) := by decide +kernel

/-- A trace on, with a buffered record, the ring's tail and the software's head. -/
def aTrace : TrRec := { type := 1, part := 0, cls := 0, gen := 0, node := 5, sub := 0, ts := 9, arg1 := 0, arg2 := 0 }
def tracing (tail head : Nat) : State :=
  { ready with regs := [(0xe00000, 1), (0xe00010, 8), (0xe00018, BitVec.ofNat 64 head)], obs.buf := [aTrace], obs.tail := tail }

theorem test_Observability :
    isReady (tracing 0 0) = true ∧ (tracing 0 0).obs.buf = aTrace :: [] ∧ (tracing 0 0).obs.stopped = false ∧
    regBit (tracing 0 0) 0xe00000 0 = true ∧ 1 = ((tracing 0 0).obs.tail + 1) % trSize (tracing 0 0) ∧
    0 = ((tracing 255 0).obs.tail + 1) % trSize (tracing 255 0) ∧ (1 : Nat) ≠ regFld (tracing 0 0) 0xe00018 23 0 ∧
    0 = regFld (tracing 255 0) 0xe00018 23 0 ∧ ready.obs.buf = [] ∧
    { ready with obs.writing := true }.obs.writing = true ∧ ready.obs.writing = false := by decide +kernel
theorem test_trace :
    after .trRecordWrite (tracing 0 0) (fun t => t.obs.tail == 1 && t.obs.buf == []) ∧
    after .trRecordWrite (tracing 255 9) (fun t => t.obs.tail == 0 && !t.obs.phase) ∧
    after .trRecordWrite (tracing 255 0) (fun t => t.obs.tail == 255 && t.obs.buf == [aTrace]) ∧
    after .trWriteError { tracing 0 0 with obs.writing := true } (fun t => t.obs.buf == [] && !regBit t 0xe00000 0) ∧
    after (.obsMsTick []) { ready with mgt.est := 30000000 } (fun t => t.obs.energyFrac == 10000000) := by decide +kernel

/-- A DBG_ACCESS of 64 bits of an address, and the block at a debug level for some partitions. -/
def probe (write : Bool) (a d : Nat) : BitVec 96 := BitVec.ofNat 96 (a + b2n write * 2 ^ 26 + 2 ^ 27 + d * 2 ^ 32)
def probing (level mask : Nat) : State := { ready with obs.dbgLevel := level, obs.dbgMask := BitVec.ofNat 16 mask }
def underTest (tm : Bool) : State := { boot .reset 0 31 with test.testMode := tm }

theorem test_TapInstructions :
    dbgAllowed (probing 0 0xFFFF) (dbgBeat (probe false 0x140 0)).addr.toNat (dbgBeat (probe false 0x140 0)).write = false ∧
    dbgAllowed (probing 2 0xFFFF) (dbgBeat (probe true 0xe00050 0)).addr.toNat (dbgBeat (probe true 0xe00050 0)).write = true ∧
    (dbgBeat (probe true 0xe00050 0)).write = true ∧ (dbgBeat (probe false 0xe00050 0)).write = false ∧
    dbgAllowed (probing 2 0xFFFF) (dbgBeat (probe false 0xe00050 0)).addr.toNat (dbgBeat (probe false 0xe00050 0)).write = true ∧
    isReady State.reset = false ∧ isReady (probing 2 0xFFFF) = true ∧ (probing 0 0).obs.dbgLevel = 0 ∧
    (probing 1 8).obs.dbgLevel = 1 ∧ (probing 2 0).obs.dbgLevel = 2 ∧ (probing 1 8).obs.dbgMask.getLsbD 3 = true ∧
    pagePart 0xe13000 = some 3 ∧ (probing 2 0xFFFF).obs.dbgMask = 0xFFFF := by decide +kernel

/-- Agent 0's Reckoner in DEBUG, of a partition opened at level full: an address of its window that holds no register reaches what the
free map places there, and nothing where the Reckoner runs. -/
def inDebug (st : RknState) : State :=
  { probing 2 0xFFFF with agt := [(0, { (default : Agent) with rkn := { (default : Rkn) with
      st := st, launch := some (default : Launch), sreg := [(7, 77)] } })] }
theorem test_dbgPlace :
    (∀ p, Config.rknPlace 0x8000 = some p → dbgPlace (inDebug .debug) (dbgBeat (probe false 0x1008000 0)) = some (0, p)) ∧
    dbgPlace (inDebug .running) (dbgBeat (probe false 0x1008000 0)) = none ∧
    dbgPlace (probing 2 0xFFFF) (dbgBeat (probe false 0xe00050 0)) = none ∧
    rknPeek (inDebug .debug) 0 (.sreg 7) = 77 ∧ rknPeek (rknPoke (inDebug .debug) 0 5 (.sreg 7)) 0 (.sreg 7) = 5 ∧
    rknPeek (rknPoke (inDebug .debug) 0 5 (.dmem 3)) 0 (.dmem 3) = 5 :=
  ⟨fun _ h => congrArg (Option.map (Prod.mk 0)) h, by decide, by decide, by decide, by decide, by decide⟩

/-- IDCODE has PART 0x5674 and revision 3; a read of HIF_ID leaves its value for the next scan, as the other way round a
write at observe is DENIED and counted. -/
theorem test_tap :
    after .idcode { ready with test.mfr := 0x13D } (fun t => match t.out with
      | [.dr 32 v] => v == 0x3567427B
      | _ => false) ∧
    after (.dbgAccess (probe false 0 0)) (probing 1 0xFFFF) (fun t => t.test.dbg.toNat / 2 ^ 32 == 0x00030200 && bitsOf t.test.dbg.toNat 31 28 == 0) ∧
    after (.dbgAccess (probe true 0xe00050 0)) (probing 1 0xFFFF)
      (fun t => bitsOf t.test.dbg.toNat 31 28 == 1 && regGet t (Ctr.addr .obsUnpriv) == 1) := by decide +kernel

theorem test_WrapperInstructions :
    (if (underTest false).crb.stage = .reset then { underTest false with test.testMode := true } else underTest false).test.testMode = true ∧
    (if ready.crb.stage = .reset then { ready with test.testMode := true } else ready).test.testMode = false ∧
    after (.wsExtest true) { underTest false with test.boundary := 5 } (fun t => t.out == [.boundary 5]) ∧
    after (.wsExtest true) { ready with test.boundary := 5 } (fun t => t.out == [.dr 1 0]) ∧
    after (.wsPreload false 7) ready (fun t => t.test.boundary == 7 && t.test.wir == 1) := by decide +kernel

/-! ### The block as a whole -/

theorem test_Step : clocked State.reset = false ∧ clocked (locked .ready true false false) = true ∧
    clocked (locked .header true false false) = true ∧ isReady (locked .header true false false) = false := by decide +kernel
theorem test_step :
    (match step { locked .ready true false false with pending := [.inputGlitch 3, .bypass] } with
      | .next t => t.pending == [.bypass] && t.flt.irqStat == 8
      | _ => false) = true ∧
    (match step (locked .ready true false false) with
      | .next t => t.ts == 10
      | _ => false) = true := by decide +kernel

def bypassed : State := emit { ready with test := { ready.test with ir := 0xFF } } (.dr 1 0)
theorem test_WhatFollows : Settled bypassed ∧ Ends .bypass ready bypassed ∧ Becomes .bypass ready bypassed ∧
    bypassed.pending = ready.pending ∧ bypassed.agents = ready.agents ∧ Calm ready ∧ ready.quiet = ready ∧
    { ready with flt.raised := [rec .c 0] }.flt.raised = [rec .c 0] ∧ Settled (bootFault (takeFault ready (rec .c 0)) (rec .c 0)) :=
  ⟨⟨rfl, rfl, rfl, rfl, rfl⟩, ends_act _ _ _ _ _ (fun _ => rfl) (fun _ => rfl),
    becomes_keeps _ _ _ _ _ (fun _ => rfl) (fun _ => rfl) ⟨rfl, rfl, rfl, rfl, rfl, rfl, rfl⟩, rfl, rfl, calm_ready, rfl, rfl,
    ⟨rfl, rfl, rfl, rfl, rfl⟩⟩

/-- On the Beam of the state `issued` the older packet goes elsewhere; where both are of one agent, TLY's waits behind it. -/
theorem test_WhatFollows_beam :
    takeFirst (isRetire 66 4 .done 1) issued.beam = some (.retire 4 false 66 4 .done 1, [.retire 3 false 67 4 .done 0]) ∧
    (∀ x ∈ issued.beam.takeWhile (fun y => !isRetire 66 4 .done 1 y), x.beam ≠ (Out.retire 4 false 66 4 .done 1).beam) ∧
    (∃ x ∈ [Out.retire 4 false 67 4 .done 0, .retire 4 false 66 4 .done 1].takeWhile (fun y => !isRetire 66 4 .done 1 y),
      x.beam = (Out.retire 4 false 66 4 .done 1).beam) ∧
    after (.occupancyReturn 4 { (default : OccPkt) with core := 3 }) { ready with
        beam := [.occ 4 default 0 1, .occ 4 { (default : OccPkt) with core := 3 } 0 1] } (fun t => t.beam.length == 2) ∧
    (underWay { ready with out := [.retire 4 false 67 4 .done 0, .dr 1 0] }).beam = [.retire 4 false 67 4 .done 0] := by decide +kernel

/-- A step with a fault in it leaves none waiting. -/
theorem test_NoFaultWaits : ready.flt.raised = [] ∧
    (match step { ready with pending := [.thermTripN] } with
      | .next t => t.flt.raised == []
      | _ => false) = true := by decide +kernel

theorem test_SlateBytes : Memory.wf [(5, 9)] = true ∧ (4 < 5 ∨ 5 + 1 ≤ 4) ∧
    memRead (memWrite { ready with mem := [(5, 9)] } 6 [1, 0, 3]) 5 5 = [9, 1, 0, 3, 0] ∧
    (memWrite { ready with mem := [(5, 9)] } 5 [0]).mem = [] := by decide +kernel
theorem test_SlateInterleave : (56371445759 < 56371445760 ∧ vaultOf 56371445759 = 119 ∧ vaultBlock 56371445759 = 1835007) ∧
    vaultOf 0 < 119 := by decide +kernel
theorem test_Counters : (Ctr.obsUnpriv).bits ≤ 64 ∧ (regGet (count ready .obsUnpriv) (Ctr.addr .obsUnpriv)).toNat = 1 ∧
    (regGet { ready with regs := [(Ctr.addr .obsUnpriv, BitVec.ofNat 64 (2 ^ (Ctr.obsUnpriv).bits - 1))] } (Ctr.addr .obsUnpriv)).toNat
      = 2 ^ (Ctr.obsUnpriv).bits - 1 := by decide +kernel

/-- HIF_FEAT of the published example: 32 agents and 7 spare vaults. -/
theorem test_feat : hifFeat { ready with slt.vaults := (List.range 7).map fun v => (v + 121, { (default : Vault) with role := .spare }) }
    = 0x0310080778101020 := by decide +kernel
/-- No row of the table has bits: no word spells a command, and withFetchWord changes nothing. -/
theorem test_words : decodeTableWord 64 0x140 = none ∧ ready.withFetchWord 64 0x140 = ready := ⟨rfl, rfl⟩

/-! ### Well-formed commands -/

/-- Each check refuses a term outside its range, and takes the last one inside it. -/
theorem test_wf : (Instr.nop 0x100F).wf = true ∧ (Instr.nop 0x1010).wf = false ∧ (Instr.lockedWrite 0x1000).wf = true ∧
    (Instr.lockedWrite 0xFFF).wf = false ∧ (Instr.drainEnd 0xFFFFFF).wf = true ∧ (Instr.drainEnd 0x1000000).wf = false ∧
    (Instr.discardEnd 15).wf = true ∧ (Instr.discardEnd 16).wf = false ∧ (Instr.rknNop 63).wf = true ∧ (Instr.rknNop 64).wf = false ∧
    (Instr.apAct 0 15).wf = true ∧ (Instr.apAct 0 16).wf = false ∧ (Instr.inputGlitch 4).wf = true ∧ (Instr.inputGlitch 5).wf = false ∧
    (Instr.autLogConfirm 8).wf = false ∧ (Instr.tallyDecrement 32 default).wf = false ∧ (Instr.exitSwitch 0).wf = false ∧
    (Instr.exitSwitch 255).wf = true ∧ (Instr.btPoll 16).wf = false ∧ (Instr.zeroingDone 256).wf = false ∧
    (Instr.scrubRead 128 default default).wf = false ∧ (Instr.refresh 16).wf = false ∧ (Instr.fabNack 8).wf = false ∧
    (Instr.laneFailure 7 ⟨5, 1⟩).wf = false ∧ (Instr.laneFailure 7 ⟨4, 0xFFFF⟩).wf = true ∧ (Instr.stopTokenArrive 96).wf = false ∧ (Instr.entdaa 128).wf = false ∧
    (Instr.getEndpointId 32).wf = false := by decide +kernel
theorem test_wf_fields :
    okChan 0xFFFF = true ∧ okChan 0x10000 = false ∧ okPkt { (default : OccPkt) with core := 16 } = false ∧
    okLaunch { (default : Launch) with cls := 5 } = false ∧ okSrc { (default : Src) with unit := 32 } = false ∧
    okSrc { (default : Src) with block := 4095, agent := 63, unit := 31, part := 15 } = true := by decide +kernel
theorem test_wf_lengths :
    (Instr.ringRecordArrives 5 []).wf = false ∧ (Instr.vspareChunkCopy []).wf = false ∧ (Instr.obsMsTick []).wf = false ∧
    (Instr.powerMeterTick default []).wf = false ∧ (Instr.slateBist true []).wf = false ∧ (Instr.headerVerified true true []).wf = false := by decide +kernel

end Sys2Proof.Tests
end

section
/-!
PROOFS. Register accesses: what a counter holds, which command an access is, the beat that takes effect, and how an access
ends; with them the statements on counters and on register accesses are settled.
-/

namespace Sys2Proof.Machine

open Sys2Proof

/-! ### Counters (R5) -/

/-- A register reads as what was written to it last. -/
@[simp] theorem regGet_regSet_same (s : State) (a : Nat) (v : W64) : regGet (regSet s a v) a = v :=
  Tab.look_put_same s.regs a v

/-- A counter of at most 64 bits rises by what it counts, up to all ones. -/
theorem toNat_regGet_countN (s : State) (c : Ctr) (n : Nat) (h : c.bits ≤ 64) :
    (regGet (countN s c n) c.addr).toNat = min ((regGet s c.addr).toNat + n) (2 ^ c.bits - 1) := by
  have hpow : 2 ^ c.bits ≤ 2 ^ 64 := Nat.pow_le_pow_right (by decide) h
  have hfit : min ((regGet s c.addr).toNat + n) (2 ^ c.bits - 1) < 2 ^ 64 := by omega
  unfold countN
  rw [regGet_regSet_same, BitVec.toNat_ofNat]
  exact Nat.mod_eq_of_lt hfit

/-- A counter at all ones stays there. -/
theorem toNat_regGet_count_full (s : State) (c : Ctr) (h : c.bits ≤ 64)
    (hf : (regGet s c.addr).toNat = 2 ^ c.bits - 1) : (regGet (count s c) c.addr).toNat = 2 ^ c.bits - 1 := by
  unfold count
  rw [toNat_regGet_countN s c 1 h, hf]
  exact Nat.min_eq_right (Nat.le_add_right _ 1)

/-! ### Answers -/

/-- Where nothing has been sent, what is sent stands alone. -/
theorem emit_first {s : State} (h : s.out = []) (o : Out) : emit s o = { s with out := [o] } := by
  unfold emit
  rw [h]
  rfl

/-- A read is answered with its data. -/
theorem answerBus_read {s : State} {x : Access} (hp : x.port ≠ .dbg) (hw : x.write = false) (ho : s.out = []) (d : W64) :
    answerBus s x d = answered s d := by
  rw [answerBus_port hp, hw]
  exact emit_first ho _

/-- An access that carries no data, read or write, is answered with zero. -/
theorem answerBus_zero {s : State} {x : Access} (hp : x.port ≠ .dbg) (ho : s.out = []) : answerBus s x 0 = answered s 0 := by
  rw [answerBus_port hp, ite_self]
  exact emit_first ho _

/-! ### How a command of an access ends -/

/-- A command that performs accesses of kind `k` by `f` ends in what `f` leaves, where that keeps what waits. -/
theorem becomes_access {i : Instr} {l : List Touch} {u v : State} {x : Access} {k : BusOp} {pick : State → BusOp → Option State}
    (hi : ∀ s, exec i s = .next (act l (fun s => onPort s x (pick s)) s)) (hp : x.port ≠ .dbg) (hk : busOp u x = k)
    (hv : u.out = [] → (pick u k).getD u = v) (hw : Keeps u v) : Becomes i u v :=
  becomes_sends i l _ u v hi (fun _ ho => (onPort_of_busOp hp hk (pick u)).trans (hv ho)) hw

/-- A command that performs accesses of kind `k` ends in what `finish` makes of the access' effect. -/
theorem ends_access {i : Instr} {l : List Touch} {u v : State} {x : Access} {k : BusOp} {pick : State → BusOp → Option State}
    (hi : ∀ s, exec i s = .next (act l (fun s => onPort s x (pick s)) s)) (hp : x.port ≠ .dbg) (hk : busOp u x = k)
    (hv : (pick u k).getD u = v) : Ends i u v :=
  ends_act i l _ u v hi fun _ => (onPort_of_busOp hp hk (pick u)).trans hv

/-! ### Accesses that reach no register (R12, R324, R372, R394) -/

theorem becomes_unmapped {u : State} {x : Access} (hp : x.port ≠ .dbg) (hk : busOp u x = .unmapped) :
    Becomes (.unmappedAccess x) u (answered (count u .hifUnmapped) 0) :=
  becomes_access (fun _ => rfl) hp hk (fun ho => answerBus_zero hp ho) (.refl u)

theorem becomes_unpriv {u : State} {x : Access} (hp : x.port ≠ .dbg) (hk : busOp u x = .unpriv) :
    Becomes (.unprivAccess x) u (answered (count u .obsUnpriv) 0) :=
  becomes_access (fun _ => rfl) hp hk (fun ho => answerBus_zero hp ho) (.refl u)

theorem becomes_preReady_write {u : State} {x : Access} (hp : x.port ≠ .dbg) (hk : busOp u x = .preReady)
    (hw : x.write = true) : Becomes (.preReadyAccess x) u (answered (count u .crbBootIgn) 0) :=
  becomes_access (fun _ => rfl) hp hk
    (fun ho => by
      show onPreReady u x = _
      unfold onPreReady
      rw [if_pos hw]
      exact answerBus_zero hp ho) (.refl u)

theorem becomes_preReady_read {u : State} {x : Access} (hp : x.port ≠ .dbg) (hk : busOp u x = .preReady)
    (hw : x.write = false) : Becomes (.preReadyAccess x) u (answered u (earlyRead u (Access.word x))) :=
  becomes_access (fun _ => rfl) hp hk
    (fun ho => by
      show onPreReady u x = _
      unfold onPreReady
      rw [if_neg (by simp [hw])]
      exact answerBus_read hp hw ho _) (.refl u)

/-- A write with AWATOP not zero performs no access: SLVERR, and counted. -/
theorem becomes_atomicWrite {u : State} {x : Access} {p : Bool} (hp : x.port = .axi p) :
    Becomes (.axiAtomicWrite x) u { count u .hifUnmapped with out := [.axi true 0] } :=
  becomes_sends _ [] (fun s => atomicWrite s x) u _ (fun _ => rfl)
    (fun _ ho => by
      unfold atomicWrite
      rw [hp]
      exact emit_first (s := count u .hifUnmapped) ho _) (.refl u)

/-! ### The beat that takes effect (R13) -/

/-- The beat of an access lies at its word. -/
@[simp] theorem beatOf_addr (u : State) (x : Access) : (beatOf u x).addr = Access.word x := by
  unfold beatOf
  dsimp only
  cases u.hif.half.look (Access.word x) with
  | none => rfl
  | some held => dsimp only; split <;> rfl

/-- The high half of a 64-bit register alone brings the held low half along. -/
theorem beatOf_held {u : State} {x : Access} {lo : BitVec 32} {st : BitVec 4}
    (hh : u.hif.half.look (Access.word x) = some (lo, st)) (h64 : is64 u (Access.word x) = true)
    (hlow : x.strb.toNat % 16 = 0) (hhigh : x.strb.toNat / 16 ≠ 0) :
    beatOf u x = { addr := Access.word x, data := lo.toNat + x.data.toNat / 2 ^ 32 * 2 ^ 32,
                   strb := st.toNat + x.strb.toNat } := by
  unfold beatOf
  simp [hh, h64, hlow, hhigh]

/-- An access to all 8 bytes is taken whole, whatever half is held. -/
theorem beatOf_whole (u : State) {x : Access} (hs : x.strb = 0xFF) :
    beatOf u x = { addr := Access.word x, data := x.data.toNat, strb := 0xFF } := by
  unfold beatOf
  cases hh : u.hif.half.look (Access.word x) <;> simp [hs, hh]

/-- An access to all 8 bytes leaves no half held. -/
theorem splitHalf_whole (u : State) {x : Access} (hs : x.strb = 0xFF) : splitHalf u x = false := by
  unfold splitHalf
  simp [hs]

/-- A beat where no register starts touches none. -/
theorem touched_none {u : State} {b : Beat} (h64 : is64 u b.addr = false) (hlow : regWidth u b.addr = none)
    (hhigh : regWidth u (b.addr + 4) = none) : touched u b = [] := by
  unfold touched
  simp [h64, hlow, hhigh]

/-! ### Which accesses reach no register (R12, R324, R372) -/

theorem busOp_preReady {u : State} {x : Access} {p : Bool} (hp : x.port = .axi p) (hr : isReady u = false)
    (hq : pageQueue (Access.word x) = none) : busOp u x = .preReady := by
  unfold busOp
  simp [hp, hr, hq]

theorem busOp_unpriv {u : State} {x : Access} (hp : x.port = .axi false) (hr : isReady u = true)
    (ha : privileged (Access.word x) = true) : busOp u x = .unpriv := by
  unfold busOp
  simp [hp, hr, ha]

theorem busOp_unmapped {u : State} {x : Access} {p : Bool} (hp : x.port = .axi p) (hr : isReady u = true)
    (ha : p = true ∨ privileged (Access.word x) = false) (h64 : is64 u (Access.word x) = false)
    (hlow : regWidth u (Access.word x) = none) (hhigh : regWidth u (Access.word x + 4) = none) :
    busOp u x = .unmapped := by
  have hopen : (!p && privileged (Access.word x)) = false := by
    rcases ha with h | h <;> simp [h]
  have htouch : ∀ b : Beat, b.addr = Access.word x → touched u b = [] := fun b hb =>
    touched_none (by rwa [hb]) (by rwa [hb]) (by rwa [hb])
  unfold busOp
  simp [hp, hr, hopen, htouch]

/-! ### Reads (R11, R329, R394) -/

/-- A read of any word but the one that samples a channel's state gives the word's value and changes nothing. -/
theorem becomes_read {u : State} {x : Access} (hp : x.port ≠ .dbg) (hw : x.write = false) (hk : busOp u x = .plain)
    (ha : (beatOf u x).addr ≠ 0x600240) :
    Becomes (.registerWrite x) u (answered u (readWord u (Access.word x))) :=
  becomes_access (fun _ => rfl) hp hk
    (fun ho => by
      show onPlain u x = _
      have hread : busRead u (Access.word x) = (readWord u (Access.word x), u) := by
        unfold busRead
        rw [if_neg (by simpa using ha)]
      unfold onPlain
      simp only [hw, Bool.not_false, if_true, beatOf_addr, hread]
      exact answerBus_read hp hw ho _) (.refl u)

/-- A read of FLT_LOG gives the oldest record and removes it. -/
theorem becomes_logRead {u : State} {x : Access} (hp : x.port ≠ .dbg) (hw : x.write = false) (hk : busOp u x = .logRead) :
    Becomes (.fltLogRead x) u
      { answered u (BitVec.ofNat 64 (readReg u 0xc00028)) with flt.log := u.flt.log.tail } :=
  becomes_access (fun _ => rfl) hp hk
    (fun ho => answerBus_read (s := { u with flt.log := u.flt.log.tail }) hp hw ho _) (.refl u)

/-! ### Writes of a register (R11, R13, R371) -/

/-- The low half of a 64-bit register alone is held, and nothing else changes. -/
theorem becomes_halfHeld {u : State} {x : Access} (hp : x.port ≠ .dbg) (hk : busOp u x = .plain)
    (hs : splitHalf u x = true) :
    Becomes (.registerWrite x) u
      { answered u 0 with
          hif.half := u.hif.half.put (Access.word x) (some (x.data.setWidth 32, x.strb.setWidth 4)) } :=
  becomes_access (fun _ => rfl) hp hk
    (fun ho => by
      show onPlain u x = _
      have hw : x.write = true := by
        simp only [splitHalf, Bool.and_eq_true] at hs
        exact hs.1.1.1.1
      unfold onPlain
      simp only [hw, hs, Bool.not_true, Bool.false_eq_true, if_false, if_true]
      exact answerBus_zero (s := { u with
        hif.half := u.hif.half.put (Access.word x) (some (x.data.setWidth 32, x.strb.setWidth 4)) }) hp ho) (.refl u)

/-- A plain write, unless its half is held, brings its beat to the registers. -/
theorem onPlain_write {u : State} {x : Access} (hp : x.port ≠ .dbg) (hw : x.write = true) (hs : splitHalf u x = false) :
    onPlain u x = emit (writeBeat (halfUsed u x) x.port (beatOf u x)) (.axi false 0) := by
  unfold onPlain
  simp only [hw, hs, Bool.not_true, Bool.false_eq_true, if_false]
  exact writing_port u x _ hp

theorem onCounter_write {u : State} {x : Access} (hp : x.port ≠ .dbg) :
    onCounter u x = emit (writeBeat (halfUsed u x) x.port (beatOf u x)) (.axi false 0) :=
  writing_port u x _ hp

/-- A write of a counter takes its strobed bytes. -/
theorem writeReg_counter {u : State} {a : Nat} {c : Ctr} (p : Port) (v m : Nat) (hc : counterAt u a = some c) :
    writeReg u p a v m = regSet u a (BitVec.ofNat 64 (mergeBits (regGet u a).toNat v m % 2 ^ c.bits)) := by
  unfold writeReg
  rw [hc]

/-- A register of the store holds the written value in the bits that software may write. -/
theorem regGet_plainWrite (u : State) (a v m : Nat) :
    regGet (plainWrite u a v m) a =
      BitVec.ofNat 64 (mergeBits (regGet u a).toNat v (m &&& (rwMask u a ||| openLock u a))) := by
  unfold plainWrite
  dsimp only
  split
  · rename_i hnone
    rw [hnone, mergeBits_none, BitVec.ofNat_toNat, BitVec.setWidth_eq]
  · exact regGet_regSet_same u a _

/-- From Ready on, a register without RW bits takes no write. -/
theorem plainWrite_readOnly {u : State} {a : Nat} (v m : Nat) (hr : isReady u = true) (hm : rwMask u a = 0) :
    plainWrite u a v m = u := by
  unfold plainWrite openLock
  simp [hr, hm]

/-! ### A beat to one register -/

/-- A register write that uses up a held half reaches the same registers, and locks stand as they were. -/
theorem oneReg_halfUsed {u : State} {x : Access} {b : Beat} {a : Nat} (h : OneReg u b a) : OneReg (halfUsed u x) b a := h

/-- A register write whose beat sets the one register at `a` to `w` leaves that, with the half used up and the answer. -/
theorem emit_regSet_halfUsed {u : State} (x : Access) (a : Nat) (w : W64) (ho : u.out = []) :
    emit (regSet (halfUsed u x) a w) (.axi false 0) = { wrote u x with regs := u.regs.put a w } :=
  emit_first (s := regSet (halfUsed u x) a w) ho _

/-- A plain write to one register with RW fields writes those that it covers. -/
theorem becomes_rwWritten {u : State} {x : Access} {a : Nat} (hp : x.port ≠ .dbg) (hw : x.write = true)
    (hk : busOp u x = .plain) (hs : splitHalf u x = false) (h1 : OneReg u (beatOf u x) a) (hc : counterAt u a = none)
    (hm : beatMask u (beatOf u x) a &&& rwMask u a ≠ 0) :
    Becomes (.registerWrite x) u { wrote u x with regs := u.regs.put a (rwWritten u (beatOf u x) a) } :=
  becomes_access (fun _ => rfl) hp hk
    (fun ho => by
      show onPlain u x = _
      rw [onPlain_write hp hw hs, writeBeat_rw (u := halfUsed u x) x.port (oneReg_halfUsed h1) hc hm]
      exact emit_regSet_halfUsed x a _ ho) (.refl u)

/-- A write to one counter gives it the bytes that it covers. -/
theorem becomes_counterWritten {u : State} {x : Access} {a : Nat} {c : Ctr} (hp : x.port ≠ .dbg)
    (hk : busOp u x = .counter) (h1 : OneReg u (beatOf u x) a) (hc : counterAt u a = some c) :
    Becomes (.counterWrite x) u
      { wrote u x with
          regs := u.regs.put a
            (BitVec.ofNat 64 (mergeBits (regGet u a).toNat (beatVal u (beatOf u x) a) (beatMask u (beatOf u x) a)
              % 2 ^ c.bits)) } :=
  becomes_access (fun _ => rfl) hp hk
    (fun ho => by
      show onCounter u x = _
      rw [onCounter_write hp, writeBeat_counter (u := halfUsed u x) x.port (oneReg_halfUsed h1) hc]
      exact emit_regSet_halfUsed x a _ ho) (.refl u)

/-! ### The statements -/

/-- Settles O6: the counter's new value fits its register. -/
theorem countersSaturate : Obligations.CountersSaturate := by
  intro s c n hb
  exact ⟨toNat_regGet_countN s c n hb, toNat_regGet_count_full s c hb, rfl, rfl, rfl⟩

/-- Settles O8, by the command that the access is. -/
theorem accessesTurnedAway : Obligations.AccessesTurnedAway := by
  refine ⟨fun u x hp => ?_, fun u x p hx => ?_⟩
  · exact ⟨becomes_unmapped hp, becomes_unpriv hp, becomes_preReady_write hp, becomes_preReady_read hp,
      fun _ => becomes_atomicWrite⟩
  · refine ⟨busOp_preReady hx, fun hr hf => ?_, busOp_unmapped hx⟩
    subst hf
    exact busOp_unpriv hx hr

/-- Settles O9: reads, the two halves of a 64-bit register, and the registers that a beat reaches. -/
theorem registersReadAndWritten : Obligations.RegistersReadAndWritten := by
  refine ⟨fun u x hp hw => ?reads, fun u x hp => ?halves, fun u x hp hw => ?writes⟩
  case reads =>
    exact ⟨becomes_read hp hw, becomes_logRead hp hw⟩
  case halves =>
    exact ⟨becomes_halfHeld hp, fun _ _ => beatOf_held, fun hs => ⟨splitHalf_whole u hs, beatOf_whole u hs⟩⟩
  case writes =>
    refine ⟨fun hk hs => ends_access (fun _ => rfl) hp hk (onPlain_write hp hw hs),
      fun hk => ends_access (fun _ => rfl) hp hk (onCounter_write hp), fun _ v m _ => writeReg_counter x.port v m,
      regGet_plainWrite u, fun _ v m => plainWrite_readOnly v m, fun b a hb h1 => ?_⟩
    subst hb
    exact ⟨fun hk hs => becomes_rwWritten hp hw hk hs h1, fun _ hk => becomes_counterWritten hp hk h1⟩

end Sys2Proof.Machine
end

section
/-!
PROOFS. How a command ends: what `Ends` and `Becomes` say of it, a single fault that FLT takes, and packets that keep their
order on the Beam; with them the statement that every command completes is settled.
-/

namespace Sys2Proof.Machine

open Sys2Proof

/-! ### What a command ends in (R329) -/

/-- What a command sent before is no part of what the next one does. -/
theorem act_quiet (l : List Touch) (f : State → State) (s : State) : act l f s.quiet = act l f s := rfl

/-- What ends a command depends only on the state once its faults are taken. -/
theorem finish_congr {v w : State} (h : takeFaults 4 v = takeFaults 4 w) : finish v = finish w := by
  unfold finish
  rw [h]

/-- A single fault is taken, and where it raises no further one FLT is done. -/
theorem takeFaults_single (n : Nat) {v w : State} {f : FaultRec} (hf : v.flt.raised = [f])
    (hw : bootFault (takeFault { v with flt.raised := [] } f) f = w) (hr : w.flt.raised = []) :
    takeFaults (n + 1) v = w := by
  have hone : takeFaults (n + 1) v = takeFaults n (bootFault (takeFault { v with flt.raised := [] } f) f) := by
    rw [takeFaults, hf]
    rfl
  rw [hone, hw, takeFaults_idle n w hr]

/-- A command that raised one fault ends as that fault leaves it, where nothing waits after. -/
theorem finish_single {v w : State} {f : FaultRec} (hf : v.flt.raised = [f])
    (hw : bootFault (takeFault { v with flt.raised := [] } f) f = w) (hs : Settled w) : finish v = underWay w := by
  have hr : w.flt.raised = [] := hs.1
  have hsame : takeFaults 4 v = takeFaults 4 w := by
    rw [takeFaults_single 3 hf hw hr, takeFaults_idle 4 w hr]
  rw [finish_congr hsame, finish_idle w hs]

/-! ### Order on the Beam (R18) -/

/-- A packet with none older of its class, source and destination before it may arrive. -/
theorem lands_first {is : Out → Bool} {u : State} {o : Out} {rest : List Out} (h : takeFirst is u.beam = some (o, rest))
    (hb : ∀ x ∈ u.beam.takeWhile (fun y => !is y), x.beam ≠ o.beam) : Lands is u { u with beam := rest } := by
  unfold Lands
  rw [h]
  refine ⟨?_, rfl⟩
  rw [List.any_eq_false]
  intro x hx
  rw [beq_iff_eq]
  exact hb x hx

/-- A packet behind an older one of its class, source and destination does not arrive. -/
theorem arrives_behind {is : Out → Bool} {u : State} {o : Out} {rest : List Out} (h : takeFirst is u.beam = some (o, rest))
    (hb : ∃ x ∈ u.beam.takeWhile (fun y => !is y), x.beam = o.beam) (ok : Bool) (f : State → State) :
    arrives u ok is f = u := by
  obtain ⟨x, hx, hxo⟩ := hb
  have hany : ((u.beam.takeWhile fun y => !is y).any fun y => y.beam == o.beam) = true :=
    List.any_eq_true.mpr ⟨x, hx, beq_iff_eq.mpr hxo⟩
  unfold arrives
  cases ok with
  | false => rfl
  | true =>
    rw [h]
    exact if_pos hany

/-- A command that delivers a packet leaves the state while the packet stands behind an older one. -/
theorem becomes_behind {i : Instr} {l : List Touch} {ok : State → Bool} {is : Out → Bool} {f : State → State → State}
    {u : State} {o : Out} {rest : List Out} (hi : ∀ s, exec i s = .next (act l (fun s => arrives s (ok s) is (f s)) s))
    (h : takeFirst is u.beam = some (o, rest)) (hb : ∃ x ∈ u.beam.takeWhile (fun y => !is y), x.beam = o.beam) :
    Becomes i u u :=
  becomes_keeps i l _ u u hi (fun _ => arrives_behind h hb (ok u) (f u)) (.refl u)

/-! ### The statement -/

/-- Every command ends in a next state that keeps the waiting commands and N, whatever was sent before. -/
theorem exec_next (i : Instr) (s : State) :
    ∃ t, exec i s = .next t ∧ t.pending = s.pending ∧ t.agents = s.agents ∧ exec i s.quiet = .next t := by
  obtain ⟨l, f, hi⟩ := exec_act i
  refine ⟨act l f s, hi s, act_pending l f s, act_agents l f s, ?_⟩
  rw [hi, act_quiet]

/-- Settles O2: each command is an effect within `act`; what follows it is read off `finish`, and the order of packets off
`arrives`. -/
theorem everyCommandCompletes : Obligations.EveryCommandCompletes := by
  refine ⟨exec_next, finish_idle, fun _ _ _ => becomes_of_ends, fun _ _ _ h => h,
    fun _ _ _ hf hw => finish_single hf hw.symm, fun _ => rfl, fun u is o rest h => ⟨lands_first h, fun hb => ?_⟩⟩
  refine ⟨fun n gen res drops his => ?retirement, fun a k his => ?occupancy, fun a n gen his => ?abort⟩
  all_goals subst his
  case retirement => exact becomes_behind (f := fun _ s => retirement s n gen res drops) (fun _ => rfl) h hb
  case occupancy => exact becomes_behind (f := fun _ s => occReturn s a k) (fun _ => rfl) h hb
  case abort => exact becomes_behind (f := fun _ s => abortFlit s a n gen) (fun _ => rfl) h hb

end Sys2Proof.Machine
end

section
/-!
PROOFS. Fetching from a submission ring: the turn that CFE grants, the fetcher's states, and the records that arrive; with
them the statement on fetching is settled.
-/

namespace Sys2Proof.Machine

open Sys2Proof

/-! ### Fetch turns (R37, R38) -/

/-- Queue `q` has the turn, and the record at its head is read (R37, R38). -/
def turnGranted (s : State) (q : Nat) : State :=
  ringRead { s with
    cfe.turn := some { q := q, recs := 0 },
    cfe.window := ((!isKernel q) :: s.cfe.window).take 15,
    cfe.rrNext := if isKernel q then s.cfe.rrNext else (q + 1) % 0x1000 } q 0 1

/-- A kernel queue's turn leaves the round-robin order as it is. -/
theorem turnGranted_kernel {u : State} {k : Nat} (hk : isKernel k = true) (ho : u.out = []) :
    turnGranted u k =
      { u with
          cfe := { turn := some { q := k, recs := 0 }, window := (false :: u.cfe.window).take 15, rrNext := u.cfe.rrNext },
          out := [.chiRead (sqBase u k + 64 * (queue u k).head) 64] } := by
  unfold turnGranted ringRead
  rw [emit_first (by exact ho), hk]
  rfl

/-- A user queue's turn moves the round-robin order behind it. -/
theorem turnGranted_user {u : State} {w : Nat} (hw : isKernel w = false) (ho : u.out = []) :
    turnGranted u w =
      { u with
          cfe := { turn := some { q := w, recs := 0 }, window := (true :: u.cfe.window).take 15, rrNext := (w + 1) % 0x1000 },
          out := [.chiRead (sqBase u w + 64 * (queue u w).head) 64] } := by
  unfold turnGranted ringRead
  rw [emit_first (by exact ho), hw]
  rfl

section
variable {u : State} (ht : u.cfe.turn = none) (hr : isReady u = true) (hs : u.flt.stop = .running)
include ht hr hs

/-- A block that is Ready, runs and has no turn under way may grant one. -/
theorem turn_open : ¬((u.cfe.turn.isSome || !isReady u || u.flt.stop != .running) = true) := by
  rw [ht, hr, hs]
  decide

theorem fetchTurn_kernel {k : Nat} (hk : kernelTurn u = some k)
    (hw : userTurn u = none ∨ min 16 (regFld u 0x100000 4 0) ≤ (u.cfe.window.filter id).length) :
    fetchTurn u = turnGranted u k := by
  unfold fetchTurn
  rw [if_neg (turn_open ht hr hs), hk]
  cases hu : userTurn u with
  | none => rfl
  | some w =>
    have hle := hw.resolve_left (by rw [hu]; exact Option.some_ne_none w)
    simp only [if_neg (Nat.not_lt.mpr hle)]
    rfl

theorem fetchTurn_user {w : Nat} (hw : userTurn u = some w)
    (hk : kernelTurn u = none ∨ (u.cfe.window.filter id).length < min 16 (regFld u 0x100000 4 0)) :
    fetchTurn u = turnGranted u w := by
  unfold fetchTurn
  rw [if_neg (turn_open ht hr hs), hw]
  cases hu : kernelTurn u with
  | none => rfl
  | some k =>
    have hlt := hk.resolve_left (by rw [hu]; exact Option.some_ne_none k)
    simp only [if_pos hlt]
    rfl

theorem fetchTurn_none (hk : kernelTurn u = none) (hw : userTurn u = none) : fetchTurn u = u := by
  unfold fetchTurn
  rw [if_neg (turn_open ht hr hs), hk, hw]

end

/-! ### The fetcher (R36, R44) -/

/-- The fetcher of a queue with nothing more covered is IDLE. -/
theorem becomes_fetcherIdle {u : State} {q : Nat} (hf : (queue u q).st = .fetching)
    (hn : (queue u q).head = (queue u q).tail ∨ (queue u q).found = true) :
    Becomes (.fetcherIdle q) u { u with queues := u.queues.upd q fun k => { k with st := .idle, found := false } } :=
  becomes_keeps _ [(1, none)] (fun s => fetcherIdle s q) u _ (fun _ => rfl) (fun _ => if_pos ⟨hf, hn⟩) (keeps_updQ u q _)

/-- The fetcher that finds PEND set in IDLE fetches again. -/
theorem becomes_fetcherResume {u : State} {q : Nat} (hi : (queue u q).st = .idle) (hp : (queue u q).pend = true)
    (hr : isReady u = true) (hd : isKernel q = true ∨ u.flt.discarding.look (queue u q).part = false) :
    Becomes (.fetcherResume q) u
      { u with queues := u.queues.upd q fun k => { k with st := .fetching, pend := false } } :=
  becomes_keeps _ [(1, none)] (fun s => fetcherResume s q) u _ (fun _ => rfl)
    (fun _ => if_pos ⟨hi, hp, hr, hd.imp_right fun h => by rw [h]; rfl⟩) (keeps_updQ u q _)

/-- A failed ring read of the queue that has the turn raises its fault. -/
theorem ends_ringReadError {u : State} {q : Nat} (hf : (queue u q).st = .fetching) (ht : u.cfe.turn.map (·.q) = some q) :
    Ends (.ringReadError q) u (raise u 0x0101 .ud 0 q) :=
  ends_act _ [(1, none)] (fun s => ringReadError s q) u _ (fun _ => rfl) fun hc => by
    unfold ringReadError
    rw [if_pos ⟨hf, ht⟩, calm_inj hc]
    rfl

/-! ### Records that arrive (R31, R32, R33, R36, R59) -/

section
variable {u : State} {q n size : Nat} {hdr : Rec64} {recs : List Rec64}

/-- The queue that has the turn and work takes its records. -/
theorem turn_takes (ht : u.cfe.turn.map (·.q) = some q) (hw : hasWork u q = true) :
    ¬(((u.cfe.turn.map (·.q)) != some q || !hasWork u q) = true) := by
  rw [ht, hw]
  simp

/-- A command that the ring holds and the tail covers is taken, where its slots are free. -/
theorem recordArrives_command (hc : Calm u) (ht : u.cfe.turn.map (·.q) = some q) (hw : hasWork u q = true)
    (hsz : size = sqSize u q) (hn : n = hdr.toNat / 256 % 16 + 1) (hop : hdr.toNat % 256 ≠ 0) (hfit : n ≤ size)
    (hend : (queue u q).head + n ≤ size) (hcov : n ≤ ((queue u q).tail + size - (queue u q).head) % size)
    (hlen : n ≤ (hdr :: recs).length) {c : Cmd}
    (hcmd : c = { seq := (queue u q).seq, idx := (queue u q).head, n := n, body := recsNat ((hdr :: recs).take n),
                  checked := false }) (hslots : 1 + extraSlot c ≤ freeSlots u q) :
    recordArrives u q (hdr :: recs) =
      afterRecords (settleQ (progress (wordCount
        { u with
            queues := u.queues.upd q fun k => { k with
              head := ((queue u q).head + n) % size, seq := (queue u q).seq + 1,
              resv := k.resv + (1 + extraSlot c), fetched := k.fetched ++ [c] },
            out := if n = 1 then u.out else u.out ++ [.chiRead (sqBase u q + 64 * ((queue u q).head + 1)) (64 * (n - 1))] }
        q 0) q) q) q n := by
  subst hsz hcmd
  have hring : ¬(sqSize u q < n ∨ sqSize u q < (queue u q).head + n) := by omega
  unfold recordArrives
  rw [if_neg (turn_takes ht hw)]
  simp only [calm_inj hc, Bool.false_eq_true, if_false, ← hn, if_neg hop, if_neg hring, if_neg (Nat.not_lt.mpr hcov),
    if_neg (Nat.not_lt.mpr hlen)]
  split
  · rw [if_neg (Nat.not_lt.mpr hslots)]
    rfl
  · exact if_neg (Nat.not_lt.mpr hslots)

/-- A header whose command runs past the ring's end is refused, and the queue stops for RESYNC. -/
theorem recordArrives_resync (hc : Calm u) (ht : u.cfe.turn.map (·.q) = some q) (hw : hasWork u q = true)
    (hsz : size = sqSize u q) (hn : n = hdr.toNat / 256 % 16 + 1) (hop : hdr.toNat % 256 ≠ 0)
    (hring : size < n ∨ size < (queue u q).head + n) :
    recordArrives u q (hdr :: recs) =
      endTurn (stopQueue (refuse (wordCount
        { u with queues := u.queues.upd q fun k => { k with seq := (queue u q).seq + 1, resv := k.resv + 1 } } q 0) q
          { seq := (queue u q).seq, idx := (queue u q).head, n := 1, body := hdr.toNat, checked := false } 0x10 1)
        q .resync) := by
  subst hsz
  unfold recordArrives
  rw [if_neg (turn_takes ht hw)]
  simp only [calm_inj hc, Bool.false_eq_true, if_false, ← hn, if_neg hop, if_pos hring]
  rfl

/-- A PAD record is taken alone, whatever stands behind it. -/
theorem recordArrives_pad (hc : Calm u) (ht : u.cfe.turn.map (·.q) = some q) (hw : hasWork u q = true)
    (hop : hdr.toNat % 256 = 0) :
    recordArrives u q (hdr :: recs) = afterRecords (settleQ (padArrives u q hdr) q) q 1 := by
  unfold recordArrives
  rw [if_neg (turn_takes ht hw)]
  simp only [calm_inj hc, Bool.false_eq_true, if_false, if_pos hop]

/-- A PAD whose reserved bits are clear moves the head to 0 and gives its slot back. -/
theorem padArrives_clear (hz : lowestReserved hdr.toNat 0xFF 64 = none) :
    padArrives u q hdr =
      updQ (progress (wordCount
        { u with queues := u.queues.upd q fun k => { k with
            head := 0, seq := (queue u q).seq + 1, resv := k.resv + 1 } } q 0) q)
        q fun k => { k with resv := k.resv - 1 } := by
  unfold padArrives
  simp only [hz]
  rfl

end

/-! ### The statement -/

/-- Settles O13: the three kinds of fetch turn, the fetcher's moves, and the three kinds of header that arrive. -/
theorem queueFetch : Obligations.QueueFetch := by
  refine ⟨fun u users ht hr hs hu => ?turns, fun u q => ?fetcher, fun u q n size hdr recs ht hw hsz hn => ?records⟩
  case turns =>
    subst hu
    refine ⟨fun k hk hkern hwant => ?_, fun w hw huser hwant => ?_, fun hk hw => ?_⟩
    · exact becomes_sends _ _ fetchTurn u _ (fun _ => rfl)
        (fun _ ho => (fetchTurn_kernel ht hr hs hk hwant).trans (turnGranted_kernel hkern ho)) (.refl u)
    · exact becomes_sends _ _ fetchTurn u _ (fun _ => rfl)
        (fun _ ho => (fetchTurn_user ht hr hs hw hwant).trans (turnGranted_user huser ho)) (.refl u)
    · exact becomes_keeps _ _ fetchTurn u _ (fun _ => rfl) (fun _ => fetchTurn_none ht hr hs hk hw) (.refl u)
  case fetcher => exact ⟨becomes_fetcherIdle, becomes_fetcherResume, ends_ringReadError⟩
  case records =>
    refine ⟨fun hop hfit hend hcov hlen c hcmd hslots => ?_, fun hop hring => ?_, fun hop hz => ?_⟩
    · exact ends_act _ _ (fun s => recordArrives s q (hdr :: recs)) u _ (fun _ => rfl) fun hc =>
        recordArrives_command hc ht hw hsz hn hop hfit hend hcov hlen hcmd hslots
    · exact ends_act _ _ (fun s => recordArrives s q (hdr :: recs)) u _ (fun _ => rfl) fun hc =>
        recordArrives_resync hc ht hw hsz hn hop hring
    · refine ends_act _ _ (fun s => if hdr.toNat % 256 = 0 then recordArrives s q [hdr] else s) u _ (fun _ => rfl)
        fun hc => ?_
      rw [if_pos hop, recordArrives_pad hc ht hw hop, padArrives_clear hz]

end Sys2Proof.Machine
end

section
/-!
PROOFS. Register writes that reach a queue: doorbells, HIF_Q_RESUME, and the switch of a kernel queue; with them the
statements on doorbells and on the queues' switches are settled.
-/

namespace Sys2Proof.Machine

open Sys2Proof

/-! ### A write that takes effect (R13, R394) -/

/-- A register write whose effect `f`, with the held half used up, leads to `w` ends in `w` with the answer sent. -/
theorem becomes_writing {i : Instr} {l : List Touch} {u : State} {x : Access} {k : BusOp}
    {pick : State → BusOp → Option State} (f : State → State) (w : State)
    (hi : ∀ s, exec i s = .next (act l (fun s => onPort s x (pick s)) s)) (hp : x.port ≠ .dbg) (hk : busOp u x = k)
    (hf : pick u k = some (writing u x f)) (hw : f (halfUsed u x) = w) (ho : w.out = u.out) (hk' : Keeps u w) :
    Becomes i u { w with out := [.axi false 0] } :=
  becomes_access hi hp hk
    (fun hu => by
      rw [hf, Option.getD_some, writing_port u x f hp, hw]
      exact emit_first (ho.trans hu) _) hk'

/-! ### Doorbells (R34, R35, R325) -/

/-- A tail doorbell is taken with both low strobes, before Ready always, and from Ready on within the ring of an enabled
queue. -/
theorem dbSqTail_eq (s : State) (q v strb : Nat) :
    dbSqTail s q v strb =
      if strb % 4 = 3 ∧ (isReady s = false ∨ ((queue s q).st ≠ .disabled ∧ v % 2 ^ 16 < sqSize s q)) then
        updQ s q fun k => { k with tail := v % 2 ^ 16, pend := true }
      else count s .hifDbIgn := by
  unfold dbSqTail
  by_cases hs : strb % 4 = 3
  · cases hr : isReady s with
    | false => simp [hs]
    | true =>
      by_cases ht : (queue s q).st = .disabled ∨ sqSize s q ≤ v % 2 ^ 16
      · rw [if_neg (by omega), if_neg (by decide), if_pos ht, if_neg]
        rintro ⟨_, h | ⟨hd, hlt⟩⟩
        · exact absurd h (by decide)
        · exact ht.elim hd (Nat.not_le.mpr hlt)
      · rw [if_neg (by omega), if_neg (by decide), if_neg ht, if_pos]
        rw [not_or, Nat.not_le] at ht
        exact ⟨hs, Or.inr ht⟩
  · rw [if_pos hs, if_neg fun h => hs h.1]

/-- A head doorbell is taken with both low strobes, from Ready on, between the head and the completion tail. -/
theorem dbCqHead_eq (s : State) (q v strb : Nat) :
    dbCqHead s q v strb =
      if strb % 4 = 3 ∧ isReady s = true ∧ (queue s q).st ≠ .disabled ∧ v % 2 ^ 16 < cqSize s q ∧
          (v % 2 ^ 16 + cqSize s q - (queue s q).cplHead) % cqSize s q ≤ cqUsed s q then
        updQ s q fun k => { k with cplHead := v % 2 ^ 16 }
      else count s .hifDbIgn := by
  unfold dbCqHead
  dsimp only
  by_cases hopen : strb % 4 ≠ 3 ∨ (!isReady s) = true ∨ (queue s q).st = .disabled
  · rw [if_pos hopen, if_neg]
    rintro ⟨hs, hr, hd, _⟩
    rw [hr] at hopen
    exact hopen.elim (fun h => h hs) fun h => h.elim (by decide) hd
  · rw [if_neg hopen]
    simp only [not_or, ne_eq, Decidable.not_not, Bool.not_eq_true', Bool.not_eq_false] at hopen
    obtain ⟨hs, hr, hd⟩ := hopen
    by_cases hplace : cqSize s q ≤ v % 2 ^ 16 ∨
        cqUsed s q < (v % 2 ^ 16 + cqSize s q - (queue s q).cplHead) % cqSize s q
    · rw [if_pos hplace, if_neg]
      rintro ⟨_, _, _, hlt, hle⟩
      exact hplace.elim (Nat.not_le.mpr hlt) (Nat.not_lt.mpr hle)
    · rw [if_neg hplace, if_pos]
      rw [not_or, Nat.not_le, Nat.not_lt] at hplace
      exact ⟨hs, hr, hd, hplace⟩

theorem becomes_sqTail {u : State} {x : Access} {q : Nat} (hp : x.port ≠ .dbg) (hk : busOp u x = .sqTail q) :
    Becomes (.dbSqTail x) u
      (if x.strb.toNat % 4 = 3 ∧ (isReady u = false ∨
          ((queue u q).st ≠ .disabled ∧ x.data.toNat % 2 ^ 16 < sqSize u q)) then
        { wrote u x with queues := u.queues.upd q fun k => { k with tail := x.data.toNat % 2 ^ 16, pend := true } }
      else count (wrote u x) .hifDbIgn) := by
  have heq := dbSqTail_eq (halfUsed u x) q (x.data.toNat % 2 ^ 32) (x.strb.toNat % 16)
  rw [strobe_low, Nat.mod_mod_of_dvd _ (by decide)] at heq
  split
  case isTrue h =>
    exact becomes_writing (fun s => dbSqTail s q _ _) (updQ (halfUsed u x) q _)
      (fun _ => rfl) hp hk rfl (heq.trans (if_pos h)) rfl (.refl u)
  case isFalse h =>
    exact becomes_writing (fun s => dbSqTail s q _ _) (count (halfUsed u x) .hifDbIgn)
      (fun _ => rfl) hp hk rfl (heq.trans (if_neg h)) rfl (.refl u)

theorem becomes_cqHead {u : State} {x : Access} {q : Nat} (hp : x.port ≠ .dbg) (hk : busOp u x = .cqHead q) :
    Becomes (.dbCqHead x) u
      (if x.strb.toNat % 4 = 3 ∧ isReady u = true ∧ (queue u q).st ≠ .disabled ∧ x.data.toNat % 2 ^ 16 < cqSize u q ∧
          (x.data.toNat % 2 ^ 16 + cqSize u q - (queue u q).cplHead) % cqSize u q ≤ cqUsed u q then
        { wrote u x with queues := u.queues.upd q fun k => { k with cplHead := x.data.toNat % 2 ^ 16 } }
      else count (wrote u x) .hifDbIgn) := by
  have heq := dbCqHead_eq (halfUsed u x) q (x.data.toNat % 2 ^ 32) (x.strb.toNat % 16)
  rw [strobe_low, Nat.mod_mod_of_dvd _ (by decide)] at heq
  split
  case isTrue h =>
    exact becomes_writing (fun s => dbCqHead s q _ _) (updQ (halfUsed u x) q _)
      (fun _ => rfl) hp hk rfl (heq.trans (if_pos h)) rfl (.refl u)
  case isFalse h =>
    exact becomes_writing (fun s => dbCqHead s q _ _) (count (halfUsed u x) .hifDbIgn)
      (fun _ => rfl) hp hk rfl (heq.trans (if_neg h)) rfl (.refl u)

/-! ### HIF_Q_RESUME (R60, R61) -/

theorem qResume_ignored {s : State} {q : Nat}
    (h : isQueue q = false ∨ (queue s q).st ≠ .stopped ∨ s.hif.flight.any (fun i => i.q == q && i.resumed) = true) :
    qResume s q = count s .hifCtrlIgn := by
  unfold qResume
  refine if_pos ?_
  simp only [Bool.or_eq_true, Bool.not_eq_true', bne_iff_ne]
  rwa [or_assoc]

section
variable {s : State} {q : Nat} (hq : isQueue q = true) (hs : (queue s q).st = .stopped)
  (hf : s.hif.flight.any (fun i => i.q == q && i.resumed) = false)
include hq hs hf

/-- A STOPPED queue none of whose records is on its way may resume. -/
theorem qResume_taken :
    qResume s q = if s.hif.spill.any (·.q == q) then resumeSpill s q
      else settleQ (updQ s q fun k => { k with st := runState s q, reason := .none }) q := by
  unfold qResume
  refine if_neg ?_
  rw [hq, hs, hf]
  decide

theorem qResume_spilled (h : s.hif.spill.any (·.q == q) = true) : qResume s q = resumeSpill s q := by
  rw [qResume_taken hq hs hf, if_pos h]

/-- With no record spilled and no command fetched the queue only runs again. -/
theorem qResume_runs (h : s.hif.spill.any (·.q == q) = false) (hn : (queue s q).fetched = [])
    (ht : s.cfe.turn.map (·.q) ≠ some q) :
    qResume s q = updQ s q fun k => { k with st := runState s q, reason := .none } := by
  rw [qResume_taken hq hs hf, h, if_neg (by decide), settleQ_empty _ q (by rw [queue_updQ_same]; exact hn)]
  exact if_neg fun hl => ht hl.1

end

/-- A resume that is ignored is counted. -/
theorem becomes_qResume_ignored {u : State} {x : Access} {q : Nat} (hp : x.port ≠ .dbg) (hk : busOp u x = .qResume)
    (hq : q = (x.data.toNat &&& strobeBits x.strb.toNat) % 2 ^ 13)
    (h : isQueue q = false ∨ (queue u q).st ≠ .stopped ∨ u.hif.flight.any (fun i => i.q == q && i.resumed) = true) :
    Becomes (.hifQResume x) u (count (wrote u x) .hifCtrlIgn) := by
  subst hq
  exact becomes_writing (fun s => qResume s _) (count (halfUsed u x) .hifCtrlIgn) (fun _ => rfl) hp hk rfl
    (qResume_ignored h) rfl (.refl u)

/-- The spilled records of a queue are sent again, oldest first, before the answer. -/
theorem becomes_qResume_spilled {u : State} {x : Access} {q : Nat} (hp : x.port ≠ .dbg) (hk : busOp u x = .qResume)
    (hq : q = (x.data.toNat &&& strobeBits x.strb.toNat) % 2 ^ 13) (h1 : isQueue q = true)
    (h2 : (queue u q).st = .stopped) (h3 : u.hif.flight.any (fun i => i.q == q && i.resumed) = false)
    (h4 : u.hif.spill.any (·.q == q) = true) (again : List CplItem)
    (ha : again = (u.hif.spill.filter (·.q == q)).map fun i => { i with resumed := true }) :
    Becomes (.hifQResume x) u
      { wrote u x with
          hif.flight := u.hif.flight ++ again,
          out := again.map (fun i => .cplWrite (cqBase u q + 32 * i.slot) (cplBytes i.record)) ++ [.axi false 0] } :=
  becomes_access (fun _ => rfl) hp hk
    (fun ho => by
      show onQResume u x = _
      unfold onQResume
      rw [writing_port u x _ hp, ← hq, qResume_spilled (s := halfUsed u x) h1 h2 h3 h4]
      subst ha
      unfold resumeSpill emits emit
      rw [show (halfUsed u x).out = [] from ho]
      rfl) (.refl u)

theorem becomes_qResume_runs {u : State} {x : Access} {q : Nat} (hp : x.port ≠ .dbg) (hk : busOp u x = .qResume)
    (hq : q = (x.data.toNat &&& strobeBits x.strb.toNat) % 2 ^ 13) (h1 : isQueue q = true)
    (h2 : (queue u q).st = .stopped) (h3 : u.hif.flight.any (fun i => i.q == q && i.resumed) = false)
    (h4 : u.hif.spill.any (·.q == q) = false) (h5 : (queue u q).fetched = []) (h6 : u.cfe.turn.map (·.q) ≠ some q) :
    Becomes (.hifQResume x) u
      { wrote u x with queues := u.queues.upd q fun k => { k with st := runState u q, reason := .none } } := by
  subst hq
  exact becomes_writing (fun s => qResume s _) (updQ (halfUsed u x) _ _) (fun _ => rfl) hp hk rfl
    (qResume_runs (s := halfUsed u x) h1 h2 h3 h4 h5 h6) rfl (.refl u)

/-! ### HIF_KQ_CFG.EN (R30, R48, R49) -/

/-- The ring sizes that `cfg` gives are legal, and the bases of queue `q` aligned (R30). -/
def KqLegal (s : State) (q : Nat) (cfg : W64) : Prop :=
  4 ≤ bitsOf cfg.toNat 4 0 ∧ bitsOf cfg.toNat 4 0 ≤ 16 ∧ 4 ≤ bitsOf cfg.toNat 12 8 ∧ bitsOf cfg.toNat 12 8 ≤ 16 ∧
    regFld s (kqAddr q) 5 0 = 0 ∧ regFld s (kqAddr q + 8) 4 0 = 0

/-- The state with kernel queue `q` enabled: empty and IDLE, without records of an earlier life. -/
def kqFresh (s : State) (q a : Nat) (cfg : W64) : State :=
  { s with
      regs := s.regs.put a cfg,
      queues := s.queues.upd q fun k => { (default : Queue) with st := .idle, phase := true, seq := k.seq },
      hif := { s.hif with spill := s.hif.spill.filter (·.q != q), flight := s.hif.flight.filter (·.q != q),
                          waiting := s.hif.waiting.filter (·.q != q) } }

/-- A field of a register just set is the field of its value. -/
theorem regFld_regSet_same (s : State) (a : Nat) (v : W64) (hi lo : Nat) :
    regFld (regSet s a v) a hi lo = bitsOf v.toNat hi lo := by
  unfold regFld regSet
  rw [Tab.look_put_same]

section
variable {s : State} {q : Nat} {b : Beat} {cfg : W64}
  (hcfg : cfg = BitVec.ofNat 64 (kqCfgNew s b.addr b.data b.mask + 2 ^ 31))
include hcfg

theorem kqEnable_legal (h : KqLegal s q cfg) : kqEnable s q b = kqFresh s q b.addr cfg := by
  obtain ⟨h1, h2, h3, h4, h5, h6⟩ := h
  unfold kqEnable
  simp only [← hcfg, regFld_regSet_same, h1, h2, h3, h4, h5, h6]
  rfl

theorem kqEnable_illegal (h : ¬ KqLegal s q cfg) : kqEnable s q b = count s .hifCtrlIgn := by
  unfold kqEnable
  simp only [← hcfg, regFld_regSet_same]
  refine if_pos ?_
  simp only [Bool.not_eq_true', Bool.and_eq_false_iff, decide_eq_false_iff_not, beq_eq_false_iff_ne]
  unfold KqLegal at h
  omega

end

theorem becomes_kqEnable {u : State} {x : Access} {q : Nat} (hp : x.port ≠ .dbg) (hk : busOp u x = .kqOn q) {b : Beat}
    {cfg : W64} (hb : b = beatOf (halfUsed u x) x)
    (hcfg : cfg = BitVec.ofNat 64 (kqCfgNew u b.addr b.data b.mask + 2 ^ 31)) :
    (KqLegal u q cfg → Becomes (.kqEnable x) u (kqFresh (wrote u x) q b.addr cfg)) ∧
      (¬ KqLegal u q cfg → Becomes (.kqEnable x) u (count (wrote u x) .hifCtrlIgn)) := by
  subst hb
  exact ⟨fun h => becomes_writing (fun s => kqEnable s q (beatOf s x)) (kqFresh (halfUsed u x) q _ cfg) (fun _ => rfl) hp hk
      rfl (kqEnable_legal (s := halfUsed u x) hcfg h) rfl (.refl u),
    fun h => becomes_writing (fun s => kqEnable s q (beatOf s x)) (count (halfUsed u x) .hifCtrlIgn) (fun _ => rfl) hp hk
      rfl (kqEnable_illegal (s := halfUsed u x) hcfg h) rfl (.refl u)⟩

@[simp] theorem queue_regSet (s : State) (a : Nat) (v : W64) (q : Nat) : queue (regSet s a v) q = queue s q := rfl

/-- A discard of a queue leaves it DISABLED, without PEND (R49). -/
theorem discardQueue_disabled (s : State) (q st : Nat) :
    (queue (discardQueue s q st) q).st = .disabled ∧ (queue (discardQueue s q st) q).pend = false := by
  unfold discardQueue
  dsimp only
  rw [queue_updQ_same]
  exact ⟨rfl, rfl⟩

/-- A number less its bit 31 has that bit clear, and so has its low half. -/
theorem bitOf_cleared (n : Nat) : bitOf (BitVec.ofNat 64 (n - n / 2 ^ 31 % 2 * 2 ^ 31)).toNat 31 = false := by
  unfold bitOf
  rw [BitVec.toNat_ofNat, beq_eq_false_iff_ne]
  omega

/-- A kernel queue whose EN is cleared is DISABLED, and EN reads 0. -/
theorem kqDisable_off (s : State) (q : Nat) (b : Beat) :
    (queue (kqDisable s q b) q).st = .disabled ∧ regBit (kqDisable s q b) b.addr 31 = false := by
  unfold kqDisable
  constructor
  · rw [queue_regSet]
    exact (discardQueue_disabled _ q 0x30).1
  · unfold regBit regSet
    rw [Tab.look_put_same]
    exact bitOf_cleared _

/-- Clearing EN of a kernel queue without work only turns it off. -/
theorem kqDisable_workless {s : State} {q : Nat} {b : Beat} (hb : kqCfgBad s b.addr b.data b.mask = false)
    (hw : Workless s q) {n : Nat} (hn : n = kqCfgNew s b.addr b.data b.mask) :
    kqDisable s q b =
      regSet (updQ s q fun k => { k with st := .disabled, reason := .none, pend := false, want := 0, found := false })
        b.addr (BitVec.ofNat 64 (n - n / 2 ^ 31 % 2 * 2 ^ 31)) := by
  subst hn
  unfold kqDisable
  simp only [hb, Bool.false_eq_true, if_false, discardQueue_workless s q 0x30 hw]

/-! ### The statements -/

/-- Settles O7: a doorbell either takes its index or is counted. -/
theorem doorbellWrites : Obligations.DoorbellWrites :=
  ⟨fun _ _ _ hp hk => becomes_sqTail hp hk, fun _ _ _ hp hk => becomes_cqHead hp hk⟩

/-- Settles O10: a resume by what stands in the spill, and both settings of a kernel queue's EN. -/
theorem queueSwitches : Obligations.QueueSwitches := by
  refine ⟨fun u x q hp hk hq => ⟨becomes_qResume_ignored hp hk hq, fun h1 h2 h3 =>
      ⟨fun h4 => becomes_qResume_spilled hp hk hq h1 h2 h3 h4 _ rfl, becomes_qResume_runs hp hk hq h1 h2 h3⟩⟩,
    fun u x q hp => ⟨fun hk b cfg hb hcfg => becomes_kqEnable hp hk hb hcfg, fun hk => ⟨?_, kqDisable_off u q, ?_⟩⟩⟩
  · exact ends_access (fun _ => rfl) hp hk (writing_port u x (fun s => kqDisable s q (beatOf s x)) hp)
  · intro b n hb hbad hw hn
    subst hb
    exact becomes_writing (fun s => kqDisable s q (beatOf s x)) (regSet (updQ (halfUsed u x) q _) _ _) (fun _ => rfl) hp hk
      rfl (kqDisable_workless (s := halfUsed u x) hbad hw hn) rfl (.refl u)

end Sys2Proof.Machine
end

section
/-!
PROOFS. Completions: the record that one leaves, and how completion writes and the other host transactions end; with them the
statements on the completion record and on the ends of completion writes are settled.
-/

namespace Sys2Proof.Machine

open Sys2Proof

/-! ### The record of a completion (R42, R43, R58, R59) -/

/-- A queue written to the table is what is read there. -/
theorem queue_put_same (s : State) (q : Nat) (k : Queue) : queue { s with queues := s.queues.put q k } q = k :=
  Tab.look_put_same s.queues q k

/-- A command that is DONE and asks for no record gives its slot back. -/
theorem complete_silent (s : State) (q d : Nat) {c : Cmd} {k : Queue} (hc : c.fld 2 0 1 = 0)
    (hk : k = mapLive (queue s q) c.seq fun l => { l with ended := true }) :
    complete s q c 0 d = { s with queues := (s.queues.put q k).upd q fun k => { k with resv := k.resv - 1 } } := by
  subst hk
  unfold complete
  dsimp only
  rw [hc, if_neg (by decide)]
  rfl

/-- A record of a command whose queue has none spilled goes to the host at the next place of the ring, under the phase of
its pass. -/
theorem produceRecord_sent (s : State) (q : Nat) (r : CplRec) (irq : Bool) (seq : Nat)
    (hsp : s.hif.spill.any (·.q == q) = false) (hst : s.hif.stopped = false) (h30 : r.status ≠ 0x30)
    (h31 : r.status ≠ 0x31) (r' : CplRec)
    (hr : r' = { r with queue := q, ts := s.ts, phase := (queue s q).phase, spilled := false }) :
    produceRecord s q r irq false seq =
      { wordCount s q 1 with
          queues := s.queues.upd q fun k => { k with
            cplTail := ((queue s q).cplTail + 1) % cqSize s q,
            phase := if ((queue s q).cplTail + 1) % cqSize s q = 0 then !k.phase else k.phase, resv := k.resv - 1 },
          hif.flight := s.hif.flight ++ [{ q := q, slot := (queue s q).cplTail, record := r', irq := irq, node := false,
                                           gen := 0, seq := seq, resumed := false }],
          out := s.out ++ [.cplWrite (cqBase s q + 32 * (queue s q).cplTail) (cplBytes r')] } := by
  subst hr
  unfold produceRecord
  simp only [Bool.false_eq_true, if_false, beq_eq_false_iff_ne.mpr h30, beq_eq_false_iff_ne.mpr h31, Bool.or_false,
    Bool.false_and]
  rw [if_neg (by rw [show (wordCount (updQ s q _) q 1).hif = s.hif from rfl, hsp]; decide),
    if_neg (by rw [show (wordCount (updQ s q _) q 1).hif = s.hif from rfl, hst]; decide)]
  rfl

/-- A command that leaves a record: its slot is used, and the record is on its way. -/
theorem complete_record (s : State) (q st d : Nat) (c : Cmd) {k : Queue} (hsp : s.hif.spill.any (·.q == q) = false)
    (hst : s.hif.stopped = false) (hk : k = mapLive (queue s q) c.seq fun l => { l with ended := true })
    (h30 : st ≠ 0x30) (h31 : st ≠ 0x31) (hc : st ≠ 0 ∨ c.fld 2 0 1 = 1) (r : CplRec)
    (hr : r = { status := st, opcode := c.op, queue := q, tag := c.fld 4 0 32, sqIndex := c.idx, detail := d % 2 ^ 32,
                ts := s.ts, node := 0, phase := k.phase, spilled := false }) :
    complete s q c st d =
      (let s1 : State := { s with queues := s.queues.put q k }
       let next := (k.cplTail + 1) % cqSize s1 q
       { wordCount s q 1 with
           queues := s1.queues.upd q fun k => { k with
             cplTail := next, phase := if next = 0 then !(k.phase) else k.phase, resv := k.resv - 1 },
           hif.flight := s.hif.flight ++ [{ q := q, slot := k.cplTail, record := r, irq := c.fld 2 1 1 = 1, node := false,
                                            gen := 0, seq := c.seq, resumed := false }],
           out := s.out ++ [.cplWrite (cqBase s1 q + 32 * k.cplTail) (cplBytes r)] }) := by
  have hq : queue { s with queues := s.queues.put q k } q = k := queue_put_same s q k
  have hup : updQ s q (fun u => mapLive u c.seq fun l => { l with ended := true }) = { s with queues := s.queues.put q k } := by
    rw [hk]
    rfl
  unfold complete
  rw [hup]
  dsimp only
  rw [if_pos (by simpa using hc),
    produceRecord_sent { s with queues := s.queues.put q k } q _ _ c.seq hsp hst h30 h31 r (by rw [hr, hq]), hq]
  rfl

/-! ### Completion writes (R58, R60, R340, R392, R395) -/

@[simp] theorem queue_progress (s : State) (p q : Nat) : queue (progress s p) q = queue s q := by
  unfold progress
  split <;> rfl

section
variable {u : State} {k : Nat} {x : CplItem} {rest : List CplItem} (ht : takeAt u.hif.flight k = some (x, rest))
include ht

/-- A completion write that ends takes its item off the flight; its queue is tested again. -/
theorem completionWriteDone_eq (hc : Calm u) (err : Bool) :
    completionWriteDone u k err =
      settleQ (if err then cplFailed { u with hif.flight := rest } x false else cplWritten { u with hif.flight := rest } x)
        x.q := by
  unfold completionWriteDone
  rw [ht]
  dsimp only
  rw [if_neg (calm_not_armed (u := { u with hif.flight := rest }) hc 0x0102 _)]

variable (hr : x.resumed = false) (hn : x.node = false)
include hr hn

/-- The write of a command's own record is progress of its queue, behind its interrupt if it asks for one. -/
theorem becomes_written (hf : (queue u x.q).fetched = []) {v : State}
    (hv : u.out = [] → (if x.irq then emit { u with hif.flight := rest } (.irqQ (intVec u x.q))
      else { u with hif.flight := rest }) = v) (hk : Keeps u v) (hq : queue v x.q = queue u x.q) :
    Becomes (.completionWriteDone k false) u (leaveTurn (progress v x.q) x.q) :=
  becomes_sends _ _ (fun s => completionWriteDone s k false) u _ (fun _ => rfl)
    (fun hc ho => by
      have hw : cplWritten { u with hif.flight := rest } x = progress v x.q := by
        unfold cplWritten
        simp only [hr, hn, Bool.false_eq_true, if_false, ← hv ho]
        rfl
      rw [completionWriteDone_eq ht hc, if_neg (by decide), hw,
        settleQ_empty _ _ (by rw [queue_progress, hq]; exact hf)])
    ((hk.trans (keeps_progress v x.q)).trans (keeps_leaveTurn _ _))

omit ht in
/-- The failed write of a record that finds room in the spill stops its queue. -/
theorem cplFailed_spilled (hd : u.flt.devReset = false) (hs : (queue u x.q).st ≠ .disabled)
    (hl : u.hif.spill.length < 4096) :
    cplFailed { u with hif.flight := rest } x false =
      stopQueue (count { u with hif := { u.hif with
        flight := rest, spill := u.hif.spill ++ [{ x with record := { x.record with spilled := true } }] } } .hifSpill)
        x.q .cplFault := by
  have hsp : spillItem { u with hif.flight := rest } x =
      count { u with hif := { u.hif with
        flight := rest, spill := u.hif.spill ++ [{ x with record := { x.record with spilled := true } }] } } .hifSpill :=
    if_neg (Nat.not_le.mpr hl)
  unfold cplFailed
  simp only [hd, hr, hn, hsp, Bool.false_eq_true, if_false]
  exact if_neg hs

end

theorem becomes_resent {u : State} {r : Retried} (h : retriedOpen u r = true) :
    Becomes (.pcrdGrant r) u { u with out := [.resend r] } :=
  becomes_sends _ [] (fun s => resendRequest s r) u _ (fun _ => rfl)
    (fun _ ho => (if_pos h).trans (emit_first ho _)) (.refl u)

theorem becomes_notResent {u : State} {r : Retried} (h : retriedOpen u r = false) : Becomes (.pcrdGrant r) u u :=
  becomes_keeps _ [] (fun s => resendRequest s r) u _ (fun _ => rfl) (fun _ => if_neg (by rw [h]; decide)) (.refl u)

/-! ### The last transaction of a command (R396, R423) -/

section
variable {u : State} {q seq : Nat} {data : Bytes} {l : Live} (hl : liveCmd u q seq = some l) (he : l.ended = false)
include hl he

/-- Where no block of the Slate is bad, every line of a COPY_IN is stored and the command completes. -/
theorem hostDone_copyIn (hc : Calm u) (hop : l.cmd.op = 0x20) (hbad : (u.slt.vaults.any fun e => !e.2.bad.isEmpty) = false)
    (hst : u.slt.stopped = false) {a n : Nat} (ha : a = copySlate u q l.cmd) (hn : n = l.cmd.fld 0x18 0 32 / 64)
    (hin : isKernel q = true ∨ inData u (queue u q).part (l.cmd.fld 0x10 0 40) (64 * n) = true) :
    hostDone u q seq data [] =
      complete (slateBlocks (storeLines u a [] n 0 (Bytes.slice data 0 (64 * n))) q a (64 * n)) q l.cmd 0 0 := by
  have hrange : (if isKernel q then none else partRange u (queue u q).part (l.cmd.fld 0x10 0 40) (64 * n)) = none := by
    rcases hin with hk | hi
    · rw [if_pos hk]
    · rw [partRange_in hc hi, ite_self]
  have hcopy : copyBlocks u a (64 * n) [] = (u, []) := if_neg (by rw [hbad]; decide)
  subst ha hn
  unfold hostDone
  simp only [hl, he, hop, hst, hrange, hcopy, Bool.false_eq_true, if_false, if_true, minBy]

/-- The end of a COPY_OUT or an INVALIDATE: DONE, or HOST_MEMORY at the lowest failed line. -/
theorem hostDone_plain (hop : l.cmd.op = 0x21 ∨ l.cmd.op = 0x22) (errs : List Nat) :
    hostDone u q seq data errs =
      match minBy id errs with
      | some o => complete (count u .cfeRefuse) q l.cmd 0x18 o
      | none => complete u q l.cmd 0 0 := by
  have hne : l.cmd.op ≠ 0x20 := by omega
  unfold hostDone
  simp only [hl, he, hne, hop, Bool.false_eq_true, if_false, if_true] <;> rfl

end

/-- How the last transaction of a command ends. -/
theorem ends_hostDone {u v : State} {q seq : Nat} {data : Bytes} {errs : List Nat}
    (h : Calm u → hostDone u q seq data errs = v) :
    Ends (.hostRequestComplete (.command q seq data errs)) u (settleQ v q) :=
  ends_act _ [(1, none)] (fun s => hostComplete s (.command q seq data errs)) u _ (fun _ => rfl)
    fun hc => congrArg (settleQ · q) (h hc)

/-! ### The statements -/

/-- Settles O14: a completion without a record, and one with it. -/
theorem completionRecord : Obligations.CompletionRecord := by
  intro u q st d c k hsp hk
  refine ⟨fun hst hc => ?_, fun hs h30 h31 hc r hr => complete_record u q st d c hsp hs hk h30 h31 hc r hr⟩
  subst hst
  exact complete_silent u q d hc hk

/-- Settles O15: completion writes by what their item is, and the last transactions by their command. -/
theorem completionWriteEnds : Obligations.CompletionWriteEnds := by
  refine ⟨fun u k x rest ht => ⟨fun hr hn hi hf => ?_, fun hr hn hi hf => ?_, fun hr hn hd hs hl => ?_,
    fun r => becomes_resent, fun r => becomes_notResent⟩, fun u q seq data l hl he => ⟨?_, fun hop => ⟨?_, ?_⟩, ?_⟩⟩
  · have hsent := fun ho : u.out = [] => emit_first (s := { u with hif.flight := rest }) ho (.irqQ (intVec u x.q))
    exact becomes_written ht hr hn hf (fun ho => (if_pos hi).trans (hsent ho)) (.refl u) rfl
  · exact becomes_written ht hr hn hf (fun _ => by rw [hi]; rfl) (.refl u) rfl
  · exact ends_act _ [(1, none)] (fun s => completionWriteDone s k true) u _ (fun _ => rfl)
      fun hc => by rw [completionWriteDone_eq ht hc, if_pos rfl, cplFailed_spilled hr hn hd hs hl]
  · exact fun hop hbad a n ha hn hst hin =>
      ends_hostDone fun hc => hostDone_copyIn hl he hc hop hbad hst ha hn hin
  · exact ends_hostDone fun _ => hostDone_plain hl he hop []
  · intro errs o ho
    exact ends_hostDone fun _ => by rw [hostDone_plain hl he hop errs, ho]
  · intro a i h
    exact ends_act _ [(1, none)] (fun s => hostComplete s (.inval a i)) u _ (fun _ => rfl) fun _ => if_pos h

end Sys2Proof.Machine
end

section
/-!
PROOFS. Plain commands and flag commands of a queue: NOP, FENCE, INVALIDATE and the copies, FLAG_SET and FLAG_WAIT; with them
the statements on plain commands and on flag commands are settled.
-/

namespace Sys2Proof.Machine

open Sys2Proof

/-! ### A command alone at the front -/

/-- A command alone at its queue's front whose effect fetches nothing leaves none fetched. -/
theorem alone_start {u v : State} {q op : Nat} {c : Cmd} (h : Alone u q op c) (hk : Keeps u v)
    (hq : (queue v q).fetched = (queue (startFront u q c) q).fetched) : Keeps u v ∧ (queue v q).fetched = [] :=
  ⟨hk, hq.trans (start_fetched u q op c h)⟩

/-- A command that has started leaves a calm state calm. -/
theorem calm_startFront {u : State} (hc : Calm u) (q : Nat) (c : Cmd) : Calm (startFront u q c) := hc

theorem doInvalidate_host {w : State} {q : Nat} {c : Cmd} (ht : c.fld 8 0 64 + c.fld 0x10 0 32 ≤ Config.hostTop) :
    doInvalidate w q c = emit w (.chiClean (c.fld 8 0 64) (c.fld 0x10 0 32)) := by
  unfold doInvalidate
  rw [if_neg (Nat.not_lt.mpr ht)]

theorem doCopyIn_host {w : State} {q : Nat} {c : Cmd} (ht : c.fld 8 0 64 + c.fld 0x18 0 32 ≤ Config.hostTop) :
    doCopyIn w q c = emit w (.chiRead (c.fld 8 0 64) (c.fld 0x18 0 32)) := by
  unfold doCopyIn
  rw [if_neg (Nat.not_lt.mpr ht)]

theorem keeps_slateBlocks (s : State) (q a n : Nat) : Keeps s (slateBlocks s q a n) := by
  unfold slateBlocks
  split
  · exact .refl s
  · exact keeps_pageCount _ _ _ _

/-- A COPY_OUT of readable blocks within host memory writes what they hold. -/
theorem doCopyOut_reads {w : State} (hc : Calm w) {q : Nat} {c : Cmd}
    (ht : c.fld 8 0 64 + c.fld 0x18 0 32 ≤ Config.hostTop) (hb : badRange w (copySlate w q c) (c.fld 0x18 0 32) = none) :
    doCopyOut w q c = emit (slateBlocks w q (copySlate w q c) (c.fld 0x18 0 32))
      (.chiWrite (c.fld 8 0 64) (memRead w (copySlate w q c) (c.fld 0x18 0 32))) := by
  unfold doCopyOut
  rw [if_neg (Nat.not_lt.mpr ht)]
  simp only [calm_injPart hc, Bool.and_false, Bool.false_eq_true, if_false, hb]

/-! ### FENCE (R61) -/

/-- A waiting FENCE whose queue has nothing fetched behind it completes, and the queue fetches again. -/
theorem fenceDone_clear {u : State} {q : Nat} {l : Live} (hf : (queue u q).fetched = [])
    (hs : u.hif.spill.any (·.q == q) = false)
    (hl : (queue u q).live.find? (fun l => l.cmd.op == 0x02 && !l.ended) = some l)
    (hc : fenceClear u q l.cmd.seq = true) {v : State}
    (hv : v = updQ u q fun k => { k with st := if k.st = .waiting then .fetching else k.st }) :
    fenceDone u q = leaveTurn (complete v q l.cmd 0 0) q := by
  have hfv : (queue v q).fetched = [] := by rw [hv, queue_updQ_same]; exact hf
  have hsv : v.hif.spill.any (·.q == q) = false := by rw [hv]; exact hs
  unfold fenceDone
  simp only [hl, hc, if_true, ← hv]
  exact settleQ_empty _ q ((complete_fetched v q l.cmd 0 0 hsv).trans hfv)

/-! ### The statement -/

/-- Settles O16, by the opcode. -/
theorem plainCommands : Obligations.PlainCommands := by
  intro u q c w hw
  subst hw
  have hk : Keeps u (startFront u q c) := keeps_startFront u q c
  refine ⟨fun h => ?nop, fun h hf => ?fence, fun h hf => ?wait, fun h ht => ?inval, fun h ht => ?copyIn,
    fun h ht hb => ?copyOut, fun l hf hs hl hc => ?clear⟩
  case nop => exact becomes_alone (fun _ => rfl) h (fun _ => rfl) (alone_complete h hk rfl rfl 0 0)
  case fence => exact becomes_alone (fun _ => rfl) h (fun _ => if_pos hf) (alone_complete h hk rfl rfl 0 0)
  case wait =>
    exact becomes_alone (v := updQ (startFront u q c) q _) (fun _ => rfl) h (fun _ => if_neg (by rw [hf]; decide))
      (alone_start h hk (by rw [queue_updQ_same]))
  case inval =>
    exact becomes_alone (v := emit (startFront u q c) _) (fun _ => rfl) h (fun _ => doInvalidate_host ht)
      (alone_start h hk rfl)
  case copyIn =>
    exact becomes_alone (v := emit (startFront u q c) _) (fun _ => rfl) h (fun _ => doCopyIn_host ht)
      (alone_start h hk rfl)
  case copyOut =>
    have hreads := fun hu : Calm u => doCopyOut_reads (calm_startFront hu q c) ht hb
    exact becomes_alone (fun _ => rfl) h hreads
      (alone_start h (hk.trans (keeps_slateBlocks _ q _ _)) (congrArg Queue.fetched (queue_blocks _ q _ _ q)))
  case clear =>
    exact becomes_keeps _ [(1, none), (2, none)] (fun s => fenceDone s q) u _ (fun _ => rfl)
      (fun _ => fenceDone_clear hf hs hl hc rfl)
      (((keeps_updQ u q _).trans (keeps_complete _ q l.cmd 0 0 hs)).trans (keeps_leaveTurn _ q))

/-! ### FLAG_SET and FLAG_WAIT (R46, R277, R280) -/

/-- A FLAG_SET waits for its queue's earlier copies. -/
theorem doFlagSet_waits {w : State} {q : Nat} {c : Cmd} (h : copiesDone w q c.seq = false) : doFlagSet w q c = w := by
  unfold doFlagSet
  rw [h, if_neg (by decide)]

/-- The word `x` written at `a`, with the release of its scope. -/
def released (u : State) (a x scope : Nat) : State := setTag (memWrite u a (leBytes 8 x)) a scope (blockId u) 0 31

@[simp] theorem queue_released (u : State) (a x scope q : Nat) : queue (released u a x scope) q = queue u q := rfl

theorem keeps_released (u : State) (a x scope : Nat) : Keeps u (released u a x scope) := .refl u

theorem spill_released (u : State) (a x scope : Nat) : (released u a x scope).hif.spill = u.hif.spill := rfl

theorem flagWrite_released {u : State} (hc : Calm u) {q : Nat} {c : Cmd} {a : Nat} (h : FlagWord u q c a) :
    flagWrite u q c = complete (released u a (c.fld 0x10 0 64) (c.fld 0x18 0 2)) q c 0 0 := flagWrite_here hc h

theorem flagHere_of_flagWord {u : State} {q : Nat} {c : Cmd} {a : Nat} (h : FlagWord u q c a) : flagHere u c = true :=
  beq_iff_eq.mpr h.1

theorem fetched_flagRegister (s : State) (q : Nat) (c : Cmd) :
    (queue (flagRegister s q c) q).fetched = (queue s q).fetched := by
  unfold flagRegister
  rw [queue_updQ_same]
  rfl

/-- The flag word of this block is read, and by it a FLAG_WAIT ends or registers. -/
theorem doFlagWait_here {w : State} (hc : Calm w) {q : Nat} {c : Cmd} {a : Nat} (h : FlagWord w q c a) {v : State}
    (hv : v = acquireCheck w (tagWord w a) (c.fld 0x18 0 2) 0 31) :
    doFlagWait w q c =
      if flagMeets c (memWord w a).toNat then endFlag v q c.seq 0 0 else flagRegister v q c := by
  unfold doFlagWait
  rw [if_pos (flagHere_of_flagWord h), flagRead_here hc h, ← hv]

theorem flagSatisfied_met {u : State} (hc : Calm u) {q a : Nat} {e : WaitEnt} {l : Live}
    (he : u.flt.wait.find? (·.q == q) = some e) (hl : liveCmd u q e.seq = some l) (hw : FlagWord u q l.cmd a)
    (hm : flagMeets l.cmd (memWord u a).toNat = true) :
    flagSatisfied u q = settleQ (endFlag (acquireCheck u (tagWord u a) (l.cmd.fld 0x18 0 2) 0 31) q e.seq 0 0) q := by
  have hst : u.slt.stopped = false := by
    obtain ⟨_, _, _, hst, _⟩ := hw
    exact hst
  unfold flagSatisfied
  simp only [he, hl, flagHere_of_flagWord hw, hst, flagRead_here hc hw, hm]
  rfl

/-- A command at the front ends in what its effect leaves, its queue tested again. -/
theorem ends_front {i : Instr} {l : List Touch} {u v : State} {q op : Nat} {c : Cmd} {f : State → Cmd → State}
    (hi : ∀ s, exec i s = .next (act l (fun s => runCmd s q op f) s)) (h : frontCmd u q op = some c)
    (hf : Calm u → f (startFront u q c) c = v) : Ends i u (settleQ v q) :=
  ends_act i l (fun s => runCmd s q op f) u _ hi fun hc => by
    unfold runCmd
    rw [h]
    exact congrArg (settleQ · q) (hf hc)

/-- Settles O18: a FLAG_SET that is due, or waits, or is released; a FLAG_WAIT on a word that satisfies it, or does not, or
comes to. -/
theorem flagCommands : Obligations.FlagCommands := by
  intro u q c w a hw hs
  subst hw
  have hk : Keeps u (startFront u q c) := keeps_startFront u q c
  refine ⟨fun h hd hf => ?due, fun h hd => ?waits, fun l hl hd hf => ?released, fun h hf hm => ?met,
    fun h hf hm v hv => ?registers, fun e l he hl hf hm => ?satisfied⟩
  case due =>
    exact becomes_alone (v := complete (released (startFront u q c) a _ _) q c 0 0) (fun _ => rfl) h
      (fun hc => (if_pos hd).trans (flagWrite_released (calm_startFront hc q c) hf))
      (alone_complete h (hk.trans (keeps_released _ a _ _)) (spill_released _ a _ _)
        (congrArg Queue.fetched (queue_released _ a _ _ q)) 0 0)
  case waits =>
    exact becomes_alone (fun _ => rfl) h (fun _ => doFlagSet_waits hd) (alone_start h hk rfl)
  case released =>
    refine becomes_keeps _ [(1, none)] (fun s => flagSetRelease s q) u _ (fun _ => rfl) (fun hc => ?_)
      ((keeps_released u a _ _).trans (keeps_complete _ q l.cmd 0 0 hs))
    unfold flagSetRelease
    rw [hl]
    exact (if_pos hd).trans (flagWrite_released hc hf)
  case met =>
    exact ends_front (fun _ => rfl) h.1 fun hc =>
      (doFlagWait_here (calm_startFront hc q c) hf rfl).trans (if_pos hm)
  case registers =>
    subst hv
    exact becomes_alone (v := flagRegister (acquireCheck _ _ _ 0 31) q c) (fun _ => rfl) h
      (fun hc => (doFlagWait_here (calm_startFront hc q c) hf rfl).trans (if_neg (by rw [hm]; decide)))
      (alone_start h ((hk.trans (keeps_acquireCheck _ _ _ _ _)).trans (.refl _))
        ((fetched_flagRegister _ q c).trans (congrArg Queue.fetched (queue_acquireCheck _ _ _ _ _ q))))
  case satisfied =>
    exact ends_act _ [(1, none)] (fun s => flagSatisfied s q) u _ (fun _ => rfl) fun hc => flagSatisfied_met hc he hl hf hm

end Sys2Proof.Machine
end

section
/-!
PROOFS. Channel commands: CHAN_OPEN and CHAN_CLOSE, and what a close leaves of its channel; with them the statement on channel
commands is settled.
-/

namespace Sys2Proof.Machine

open Sys2Proof

/-- Refusing the command after operations that keep what waits and the queue's fetched commands. -/
theorem alone_refuse {u v : State} {q op : Nat} {c d : Cmd} (h : Alone u q op c) (hk : Keeps u v)
    (hs : v.hif.spill = u.hif.spill) (hq : (queue v q).fetched = (queue (startFront u q c) q).fetched) (st dt : Nat) :
    Keeps u (refuse v q d st dt) ∧ (queue (refuse v q d st dt) q).fetched = [] :=
  alone_complete (v := count v .cfeRefuse) h (hk.trans (keeps_count v _)) hs hq st dt

/-! ### CHAN_OPEN and CHAN_CLOSE (R47, R177) -/

section
variable {w : State} {q : Nat} {c : Cmd} {ch : Nat} (hr : relocChan w q (c.fld 8 0 16) = some ch)
include hr

theorem doChanOpen_closed {p : Nat} (hp : p = (if isKernel q then (partOfChan w ch).getD 0 else (queue w q).part))
    (ho : (chan w ch).open_ = false) (hcl : (chan w ch).claims.isEmpty = true) :
    doChanOpen w q c =
      if (w.parts.look p).cellQuota < cellsHeld w p + c.fld 0xC 0 24 then refuse w q c 0x17 0
      else complete (openChan w ch p q (c.fld 0xC 0 24) (c.fld 0x10 0 16) (c.fld 0xA 0 2 = 1)) q c 0 0 := by
  subst hp
  unfold doChanOpen
  simp only [hr, ho, hcl, Bool.not_true, Bool.or_self, Bool.false_eq_true, if_false]

theorem doChanOpen_open (ho : (chan w ch).open_ = true) : doChanOpen w q c = refuse w q c 0x16 0 := by
  unfold doChanOpen
  simp only [hr, ho, Bool.true_or, if_true]

theorem doChanClose_eq :
    doChanClose w q c = if (chan w ch).open_ then complete (closeChan w ch) q c 0 0 else complete w q c 0 1 := by
  unfold doChanClose
  rw [hr]

end

/-! ### What a close leaves (R177, R178, R182) -/

/-- A channel after its close, but for the counts of its packets. -/
def closedChan (h : Chan) (packets used closedDisc : Nat) : Chan :=
  { h with open_ := false, epoch := h.epoch + 1, packets := packets, used := used, list := [], tailGap := 0,
           notifyEn := false, gapTaken := false, closedDisc := closedDisc }

/-- Cells that a close of channel `c` frees. -/
def freedCells (s : State) (c : Nat) : List Nat :=
  (chan s c).list.flatMap (·.cells) ++ ((s.chn.sends.filter (·.chan == c)).filter (·.granted)).flatMap (·.cells)

/-- A close changes its channel, drops its waiting senders and claims, and in memory the freed cells' link entries only. -/
theorem closeChan_form (s : State) (c : Nat) : ∃ n k d t,
    (closeChan s c).chn = { s.chn with
      sends := s.chn.sends.filter (·.chan != c), claims := s.chn.claims.filter (·.chan != c), taken := t,
      chans := s.chn.chans.put c (closedChan (chan s c) n k d) } ∧
    (Memory.wf s.mem = true → ∀ a, (∀ x ∈ freedCells s c, a < linkBase s + 4 * x ∨ linkBase s + 4 * x + 4 ≤ a) →
      memByte (closeChan s c) a = memByte s a) := by
  obtain ⟨f, m, hf, hm⟩ := freeCells_form (freedCells s c) { s with
    chn.sends := s.chn.sends.filter (·.chan != c), chn.claims := s.chn.claims.filter (·.chan != c) }
  unfold closeChan
  unfold freedCells at hf hm ⊢
  simp only [hf]
  unfold countClosed updC
  simp only [Tab.upd_upd]
  exact ⟨_, _, _, _, rfl, fun hw a ha => (hm hw).2 a ha⟩

theorem chan_closeChan (s : State) (c : Nat) : ∃ n k d, chan (closeChan s c) c = closedChan (chan s c) n k d := by
  obtain ⟨n, k, d, t, h, _⟩ := closeChan_form s c
  refine ⟨n, k, d, ?_⟩
  unfold chan
  rw [h]
  exact Tab.look_put_same s.chn.chans c _

/-! ### The statement -/

/-- Settles O17: both commands by the state of their channel, and what a close leaves. -/
theorem channelCommands : Obligations.ChannelCommands := by
  refine ⟨fun u q c w ch p hw hr hp => ?commands, fun u ch => ?closed⟩
  case commands =>
    subst hw
    have hk : Keeps u (startFront u q c) := keeps_startFront u q c
    refine ⟨fun h ho hcl => ⟨fun hq => ?_, fun hq => ?_⟩, fun h ho => ?_, fun h ho => ?_, fun h ho => ?_⟩
    · exact becomes_alone (fun _ => rfl) h (fun _ => (doChanOpen_closed hr hp ho hcl).trans (if_neg (Nat.not_lt.mpr hq)))
        (alone_complete (v := openChan (startFront u q c) ch p q _ _ _) h (hk.trans (keeps_updC _ ch _)) rfl rfl 0 0)
    · exact becomes_alone (fun _ => rfl) h (fun _ => (doChanOpen_closed hr hp ho hcl).trans (if_pos hq))
        (alone_refuse h hk rfl rfl 0x17 0)
    · exact becomes_alone (fun _ => rfl) h (fun _ => doChanOpen_open hr ho) (alone_refuse h hk rfl rfl 0x16 0)
    · exact becomes_alone (fun _ => rfl) h (fun _ => (doChanClose_eq hr).trans (if_neg (by rw [ho]; decide)))
        (alone_complete h hk rfl rfl 0 1)
    · exact ends_front (fun _ => rfl) h.1 fun _ => (doChanClose_eq hr).trans (if_pos ho)
  case closed =>
    obtain ⟨n, k, d, t, hch, hmem⟩ := closeChan_form u ch
    obtain ⟨n', k', d', hc⟩ := chan_closeChan u ch
    rw [hc, hch]
    exact ⟨rfl, rfl, rfl, rfl, rfl, rfl, rfl, rfl, hmem⟩

end Sys2Proof.Machine
end

section
/-!
PROOFS. The authenticator's check of a critical command, and what it leads to; with it the statement on the check is settled.
-/

namespace Sys2Proof.Machine

open Sys2Proof

/-! ### The check (R54, R56) -/

/-- The critical commands all start with the authenticator's check. -/
theorem exec_critical {i : Instr} {q op : Nat}
    (h : (i, op) ∈ [(Instr.partitionSet q, 0xC0), (.keySet q, 0xC1), (.rknLoad q, 0xC2), (.rknQuiesceLoad q, 0xC3),
                    (.lockedWrite q, 0xC4), (.debugUnlock q, 0xC5)]) :
    ∀ s, exec i s = .next (act [(1, none), (2, none)] (fun s => runCmd s q op fun s c => autCheck s q c) s) := by
  simp only [List.mem_cons, Prod.mk.injEq, List.not_mem_nil, or_false] at h
  rcases h with ⟨rfl, rfl⟩ | ⟨rfl, rfl⟩ | ⟨rfl, rfl⟩ | ⟨rfl, rfl⟩ | ⟨rfl, rfl⟩ | ⟨rfl, rfl⟩
  all_goals exact fun _ => rfl

section
variable {u w : State} {q : Nat} {c : Cmd} (hc : Calm u) (hw : w = startFront u q c)
include hc hw

/-- The slot is not valid, may not set keys, or the tag is wrong. -/
theorem autCheck_fails (h : (keySlot w (extSlot c)).st ≠ .valid ∨ (c.op = 0xC1 ∧ extSlot c ≠ 0) ∨
      authTag (keySlot w (extSlot c)).key c ≠ extTag c) : autCheck w q c = authFail w q c :=
  (authenticate_calm hc hw).trans (if_pos h)

/-- A command that is authentic is tested for its counter. -/
theorem autCheck_authentic (hv : (keySlot w (extSlot c)).st = .valid) (hk : c.op = 0xC1 → extSlot c = 0)
    (ht : authTag (keySlot w (extSlot c)).key c = extTag c) :
    autCheck w q c =
      if extCounter c ≤ (keySlot w (extSlot c)).last.toNat then
        refuse { count w .autReplay with hif.irqStat := w.hif.irqStat ||| 2 } q c 0x13 0
      else if (keySlot w (extSlot c)).logged / 65536 < extCounter c / 65536 then
        holdFor (logRecord { w with aut.slots := w.aut.slots.upd (extSlot c) fun k =>
          { k with last := BitVec.ofNat 64 (extCounter c) } } 1 (extSlot c) (extCounter c)) q c (extSlot c) false
      else runCritical { w with aut.slots := w.aut.slots.upd (extSlot c) fun k =>
          { k with last := BitVec.ofNat 64 (extCounter c) } } q c := by
  refine (authenticate_calm hc hw).trans (if_neg ?_)
  rintro (h | ⟨ho, h⟩ | h)
  · exact h hv
  · exact h (hk ho)
  · exact h ht

end

/-- The authenticator raises its interrupt and counts: nothing that waits changes, nor any queue. -/
theorem alone_critical {u : State} {q op : Nat} {c : Cmd} (h : Alone u q op c) (k : Ctr) (st : Nat) :
    Keeps u (refuse { count (startFront u q c) k with hif.irqStat := u.hif.irqStat ||| 2 } q c st 0) ∧
      (queue (refuse { count (startFront u q c) k with hif.irqStat := u.hif.irqStat ||| 2 } q c st 0) q).fetched = [] :=
  alone_refuse (v := { count (startFront u q c) k with hif.irqStat := u.hif.irqStat ||| 2 }) h
    ((keeps_startFront u q c).trans (.refl _)) rfl rfl st 0

/-! ### The statement -/

/-- Settles O20: by whether the command is authentic, and its counter new. -/
theorem criticalCheck : Obligations.CriticalCheck := by
  intro u q c w k i op hi h hw hk
  have hop : c.op = op := frontCmd_op h.1
  subst hk hw hop
  refine ⟨fun hbad => ?fails, fun hv hs ht => ⟨fun hr => ?replay, fun hn hl v hv' => ?held⟩⟩
  case fails =>
    exact becomes_alone (exec_critical hi) h (fun hc => autCheck_fails hc rfl hbad) (alone_critical h .autFail 0x12)
  case replay =>
    exact becomes_alone (exec_critical hi) h (fun hc => (autCheck_authentic hc rfl hv hs ht).trans (if_pos hr))
      (alone_critical h .autReplay 0x13)
  case held =>
    subst hv'
    exact becomes_alone (exec_critical hi) h
      (fun hc => ((autCheck_authentic hc rfl hv hs ht).trans (if_neg (Nat.not_le.mpr hn))).trans (if_pos hl))
      (alone_start h ((keeps_startFront u q c).trans (.refl _)) rfl)

end Sys2Proof.Machine
end

section
/-!
PROOFS. Configuration and resets of queues and partitions, and the critical commands that write registers and resources; with
them the statement on the configuration of queues is settled.
-/

namespace Sys2Proof.Machine

open Sys2Proof

/-! ### QUEUE_CONFIG and QUEUE_RESET (R48, R49) -/

theorem doQueueConfig_disabled {w : State} {q t : Nat} {c : Cmd} (ht : t = c.fld 8 0 13)
    (h : (queue w t).st = .disabled) :
    doQueueConfig w q c = complete (clearWords
      { forgetRecords w t with queues := w.queues.put t (configured c (queue w t).seq) } t) q c 0 0 := by
  subst ht
  unfold doQueueConfig
  exact if_neg (not_not_intro h)

theorem doQueueConfig_enabled {w : State} {q t : Nat} {c : Cmd} (ht : t = c.fld 8 0 13)
    (h : (queue w t).st ≠ .disabled) : doQueueConfig w q c = refuse w q c 0x16 0 := by
  subst ht
  unfold doQueueConfig
  exact if_pos h

theorem doQueueReset_eq (w : State) (q : Nat) {t : Nat} {c : Cmd} (ht : t = c.fld 8 0 13) :
    doQueueReset w q c = complete (discardQueue w t 0x30) q c 0 0 := by
  rw [ht, doQueueReset]

theorem doQueueReset_workless {w : State} {q t : Nat} {c : Cmd} (ht : t = c.fld 8 0 13) (h : Workless w t) :
    doQueueReset w q c = complete (updQ w t fun k =>
      { k with st := .disabled, reason := .none, pend := false, want := 0, found := false }) q c 0 0 := by
  rw [doQueueReset_eq w q ht, discardQueue_workless w t 0x30 h]

/-- Another queue's records stay as they are while one queue's are changed. -/
theorem fetched_updQ (s : State) (q t : Nat) (f : Queue → Queue) (hc : s.queues.canon = true)
    (hf : ∀ k, (f k).fetched = k.fetched) : (queue (updQ s t f) q).fetched = (queue s q).fetched := by
  by_cases h : q = t
  · subst h
    rw [queue_updQ_same]
    exact hf _
  · exact congrArg Queue.fetched (Tab.look_upd_ne s.queues t q f hc h)

theorem alone_updQ {u : State} {q op : Nat} {c : Cmd} (h : Alone u q op c) (t : Nat) (f : Queue → Queue)
    (hc : (startFront u q c).queues.canon = true) (hf : ∀ k, (f k).fetched = k.fetched) :
    Keeps u (complete (updQ (startFront u q c) t f) q c 0 0) ∧
      (queue (complete (updQ (startFront u q c) t f) q c 0 0) q).fetched = [] :=
  alone_complete (v := updQ (startFront u q c) t f) h ((keeps_startFront u q c).trans (keeps_updQ _ t f)) rfl
    (fetched_updQ _ q t f hc hf) 0 0

/-! ### PARTITION_RESET (R49) -/

theorem keeps_partDiscard (s : State) (t : Nat) : Keeps s (fabDiscard (cmbDiscard (rteDiscard s t) t) t) := .refl s

theorem queue_partDiscard (s : State) (t q : Nat) : queue (fabDiscard (cmbDiscard (rteDiscard s t) t) t) q = queue s q := rfl

theorem spill_partDiscard (s : State) (t : Nat) :
    (fabDiscard (cmbDiscard (rteDiscard s t) t) t).hif.spill = s.hif.spill := rfl

theorem alone_partDiscard {u : State} {q op : Nat} {c : Cmd} (h : Alone u q op c) (t : Nat) :
    Keeps u (complete (fabDiscard (cmbDiscard (rteDiscard (startFront u q c) t) t) t) q c 0 0) ∧
      (queue (complete (fabDiscard (cmbDiscard (rteDiscard (startFront u q c) t) t) t) q c 0 0) q).fetched = [] :=
  alone_complete h ((keeps_startFront u q c).trans (keeps_partDiscard _ t)) (spill_partDiscard _ t)
    (congrArg Queue.fetched (queue_partDiscard _ t q)) 0 0

/-- No operation waits for a credit in a calm state. -/
theorem calm_held {u : State} (hc : Calm u) : u.held = [] := by
  obtain ⟨_, _, hh, _⟩ := hc
  exact hh

theorem dropHeld_none {s : State} (h : s.held = []) (t : Nat) : dropHeld s t = s := by
  unfold dropHeld
  rw [h, List.filter_nil, ← h]

/-- Where nobody's channels are picked, none is reset. -/
theorem resetChans_none {s : State} {pick : Chan → Bool} (h : ∀ e ∈ s.chn.chans, pick e.2 = false) :
    resetChans s pick = s := by
  unfold resetChans
  rw [filter_none fun e he => by rw [h e he, Bool.and_false]]
  rfl

/-- A partition without queues, nodes and channels has only its routes, groups and requests discarded. -/
theorem discardPart_workless {s : State} {t : Nat} (st : Nat) (silent : Nat → Bool) (hh : s.held = [])
    (hq : partQueues s t = []) (hn : ∀ e ∈ s.grs.nodes, partOr0 s e.1 ≠ t) (hc : ∀ e ∈ s.chn.chans, e.2.part ≠ t) :
    discardPart s t st silent = fabDiscard (cmbDiscard (rteDiscard s t) t) t := by
  have hall : discardAll s (fun h _ => partOr0 s h == t) (fun n _ => partOr0 s n == t) st = s :=
    discardAll_none s _ _ st fun e he => ⟨beq_eq_false_iff_ne.mpr (hn e he), beq_eq_false_iff_ne.mpr (hn e he)⟩
  unfold discardPart
  simp only [hq, List.foldl_nil, hall, dropHeld_none hh,
    resetChans_none (pick := (·.part == t)) fun e he => beq_eq_false_iff_ne.mpr (hc e he)]

/-- A partition whose batch tables are off and empty has none reset. -/
theorem btReset_none {s : State} {t : Nat}
    (h : ∀ b, b < 16 → btPart s b = t → (bt s b).st = .off ∧ (bt s b).interrupted = false ∧ (bt s b).slots = []) :
    btReset s t = s := by
  unfold btReset
  refine foldl_same _ _ _ fun b hb => if_neg ?_
  rintro ⟨hp, hw⟩
  obtain ⟨h1, h2, h3⟩ := h b (List.mem_range.mp hb) hp
  rcases hw with hw | hw | hw
  · exact hw h1
  · rw [h2] at hw
    exact absurd hw (by decide)
  · exact hw h3

theorem doPartitionReset_eq (w : State) (q : Nat) {t : Nat} {c : Cmd} (ht : t = c.fld 8 0 4) :
    doPartitionReset w q c = complete (btReset (discardPart w t 0x31 fun _ => false) t) q c 0 0 := by
  rw [ht, doPartitionReset]

theorem doPartitionReset_workless {w : State} {q t : Nat} {c : Cmd} (ht : t = c.fld 8 0 4) (hh : w.held = [])
    (hq : partQueues w t = []) (hn : ∀ e ∈ w.grs.nodes, partOr0 w e.1 ≠ t) (hc : ∀ e ∈ w.chn.chans, e.2.part ≠ t)
    (hb : ∀ b, b < 16 → btPart w b = t → (bt w b).st = .off ∧ (bt w b).interrupted = false ∧ (bt w b).slots = []) :
    doPartitionReset w q c = complete (fabDiscard (cmbDiscard (rteDiscard w t) t) t) q c 0 0 := by
  rw [doPartitionReset_eq w q ht, discardPart_workless 0x31 _ hh hq hn hc,
    btReset_none (s := fabDiscard (cmbDiscard (rteDiscard w t) t) t) hb]

/-! ### PARTITION_SET, LOCKED_WRITE and DEBUG_UNLOCK (R50, R109, R247, R422) -/

/-- A critical command that passes the check ends in what it does, its queue tested again. -/
theorem ends_passed {i : Instr} {u w v x : State} {q op : Nat} {c : Cmd}
    (hi : ∀ s, exec i s = .next (act [(1, none), (2, none)] (fun s => startCritical s q op) s))
    (hw : w = startFront u q c) (hp : Passed w q c v) (hf : frontCmd u q op = some c)
    (hx : (if c.op = 0xC0 then doPartitionSet v q c
      else if c.op = 0xC1 then doKeySet v q c
      else if c.op = 0xC2 then doRknLoad v q c
      else if c.op = 0xC3 then doRknQuiesce v q c
      else if c.op = 0xC4 then doLockedWrite v q c
      else doDebugUnlock v q c) = x) : Ends i u (settleQ x q) :=
  ends_act i [(1, none), (2, none)] (fun s => startCritical s q op) u _ hi fun hc => by
    rw [run_passed hc hw hp hf, hx]

theorem doPartitionSet_free {v : State} {q p : Nat} {c : Cmd} (hp : p = c.fld 8 0 4) (hq : partQueues v p = [])
    (hr : regBit v 0x500000 p = true) (hi : issuedOf v p = false)
    (hn : (v.grs.nodes.any fun e => e.2.kind != .free && ownsNode v p e.1) = false) :
    doPartitionSet v q c = complete (setPartition v c) q c 0 0 := by
  subst hp
  unfold doPartitionSet
  simp only [hq, hr, hi, hn]
  exact if_neg (by decide)

theorem doPartitionSet_busy {v : State} {q p : Nat} {c : Cmd} (hp : p = c.fld 8 0 4)
    (h : partQueues v p ≠ [] ∨ regBit v 0x500000 p = false) : doPartitionSet v q c = refuse v q c 0x16 0 := by
  subst hp
  unfold doPartitionSet
  refine if_pos ?_
  rcases h with h | h
  · have hne : (partQueues v (c.fld 8 0 4)).isEmpty = false := by simpa using h
    rw [hne]
    rfl
  · rw [h]
    simp

theorem doLockedWrite_open {v : State} {q a : Nat} {c : Cmd} (ha : a = c.fld 8 0 26) (h : inRow a 0xa00200 8 16 = false) :
    doLockedWrite v q c = complete (maskedWrite v a (c.fld 0x10 0 64) (c.fld 0x18 0 64)) q c 0 0 := by
  subst ha
  unfold doLockedWrite
  simp only [h, Bool.false_and, Bool.false_eq_true, if_false]

/-! ### The statement -/

/-- Settles O19: the commands on queues and partitions, and the critical ones that are authentic. -/
theorem queueConfiguration : Obligations.QueueConfiguration := by
  refine ⟨fun u q c w t hw => ?queues, fun u q c w v hw hp => ?critical⟩
  case queues =>
    subst hw
    refine ⟨fun h ht => ⟨fun hd k hkc => ?_, fun hd => ?_⟩, fun h ht => ?_, fun h ht hwl hcan => ?_,
      fun h ht hq hn hch hb => ?_, fun h ht => ?_⟩
    · subst hkc
      exact ends_front (fun _ => rfl) h fun _ => doQueueConfig_disabled ht hd
    · exact ends_front (fun _ => rfl) h fun _ => doQueueConfig_enabled ht hd
    · exact ⟨ends_front (fun _ => rfl) h fun _ => doQueueReset_eq _ q ht, discardQueue_disabled _ t 0x30⟩
    · exact becomes_alone (fun _ => rfl) h (fun _ => doQueueReset_workless ht hwl)
        (alone_updQ h t _ hcan fun _ => rfl)
    · exact becomes_alone (fun _ => rfl) h
        (fun hc => doPartitionReset_workless (w := startFront u q c) ht (calm_held hc) hq hn hch hb) (alone_partDiscard h t)
    · exact ends_front (fun _ => rfl) h fun _ => doPartitionReset_eq _ q ht
  case critical =>
    refine ⟨fun p hpc h hq hr hi hn r hrc => ?_, fun p hpc h hb => ?_, fun a ha h hin => ?_, fun h => ?_⟩
    · subst hrc
      refine ends_passed (fun _ => rfl) hw hp h ?_
      rw [if_pos (frontCmd_op h), doPartitionSet_free hpc hq hr hi hn, hpc]
      rfl
    · refine ends_passed (fun _ => rfl) hw hp h ?_
      rw [if_pos (frontCmd_op h), doPartitionSet_busy hpc hb]
    · refine ends_passed (fun _ => rfl) hw hp h ?_
      rw [frontCmd_op h]
      exact doLockedWrite_open ha hin
    · refine ends_passed (fun _ => rfl) hw hp h ?_
      rw [frontCmd_op h]
      rfl

end Sys2Proof.Machine
end

section
/-!
PROOFS. KEY_SET and the confirmation of its log record, and the loads of a Reckoner's code; with them the statement on keys and
code loads is settled.
-/

namespace Sys2Proof.Machine

open Sys2Proof

/-! ### Authentic commands on keys and code -/

section
variable {u w v x : State} {q : Nat} {c : Cmd} (hw : w = startFront u q c) (hp : Passed w q c v)
include hw hp

theorem ends_keySet (hf : frontCmd u q 0xC1 = some c) (hx : doKeySet v q c = x) : Ends (.keySet q) u (settleQ x q) :=
  ends_passed (fun _ => rfl) hw hp hf (by rw [frontCmd_op hf, if_neg (by decide), if_pos rfl, hx])

theorem ends_rknLoad (hf : frontCmd u q 0xC2 = some c) (hx : doRknLoad v q c = x) : Ends (.rknLoad q) u (settleQ x q) :=
  ends_passed (fun _ => rfl) hw hp hf (by rw [frontCmd_op hf, if_neg (by decide), if_neg (by decide), if_pos rfl, hx])

theorem ends_rknQuiesceLoad (hf : frontCmd u q 0xC3 = some c) (hx : doRknQuiesce v q c = x) :
    Ends (.rknQuiesceLoad q) u (settleQ x q) :=
  ends_passed (fun _ => rfl) hw hp hf
    (by rw [frontCmd_op hf, if_neg (by decide), if_neg (by decide), if_neg (by decide), if_pos rfl, hx])

end

/-! ### KEY_SET (R56, R57) -/

section
variable {v : State} {q i : Nat} {c : Cmd} (hi : i = c.fld 8 0 3)
include hi

theorem doKeySet_revokes (h : c.fld 9 0 1 = 1) :
    doKeySet v q c = holdFor (logRecord
      { v with aut.slots := v.aut.slots.upd i fun k => { k with st := .revoked, key := 0 } } 2 i (2 ^ 128)) q c i true := by
  subst hi
  exact if_pos h

theorem doKeySet_installs (h : c.fld 9 0 1 ≠ 1) {k : Nat}
    (hk : keyUnwrap (keySlot v 0).key (c.fld 0x10 0 192) = some k) :
    doKeySet v q c = holdFor (logRecord
      { v with aut.slots := v.aut.slots.put i { st := .valid, key := k, last := 0, logged := 0 } } 2 i k) q c i true := by
  subst hi
  unfold doKeySet
  simp only [if_neg h, hk]

end

theorem doKeySet_fails {v : State} {q : Nat} {c : Cmd} (h : c.fld 9 0 1 ≠ 1)
    (hk : keyUnwrap (keySlot v 0).key (c.fld 0x10 0 192) = none) : doKeySet v q c = authFail v q c := by
  unfold doKeySet
  simp only [if_neg h, hk]

/-! ### The confirmation of a log record (R56, R57) -/

/-- The counter of slot `i` that the log gives. -/
def loggedCounter (u : State) (i : Nat) : Nat :=
  match loggedFor u i with
  | some r => if r.type = 1 then r.body else 0
  | none => (keySlot u i).logged

/-- Slot `i` has its logged counter, and AUT holds no command for it any more. -/
def confirmed (u : State) (i : Nat) : State :=
  { u with aut := { held := u.aut.held.filter (·.slot != i),
                    slots := u.aut.slots.upd i fun k => { k with logged := loggedCounter u i } } }

theorem keeps_confirmed (u : State) (i : Nat) : Keeps u (confirmed u i) := .refl u

/-- A held command goes on, and its queue is tested again. -/
def goesOn (s : State) (h : HeldCrit) : State :=
  if h.installed then settleQ (complete s h.q h.cmd 0 0) h.q else settleQ (runCritical s h.q h.cmd) h.q

theorem autConfirm_eq {u : State} {i : Nat}
    (h : (u.mgt.logQ.any fun r => (r.type == 1 || r.type == 2) && r.key == i) = false) :
    autConfirm u i = (u.aut.held.filter (·.slot == i)).foldl goesOn (confirmed u i) := by
  unfold autConfirm
  refine if_neg ?_
  rw [h]
  decide

/-! ### Code loads (R142, R143, R144, R396) -/

/-- Whatever is done to each agent, the loads under way stay as they are. -/
theorem codeLoads_foldl (l : List Nat) (f : State → Nat → State) (hf : ∀ s a, (f s a).codeLoads = s.codeLoads) (s : State) :
    (l.foldl f s).codeLoads = s.codeLoads := by
  induction l generalizing s with
  | nil => rfl
  | cons a r ih => exact (ih (f s a)).trans (hf s a)

theorem codeLoads_enterLoading (s : State) (a : Nat) : (enterLoading s a).codeLoads = s.codeLoads := by
  unfold enterLoading
  split <;> rfl

theorem codeReachable_host {c : Cmd} (h : c.fld 0x10 0 64 + c.fld 0x1C 0 17 ≤ Config.hostTop) : codeReachable c = true :=
  decide_eq_true h

section
variable {v : State} {q : Nat} {c : Cmd} {agents : List Nat} (ha : agents = maskAgents v (c.fld 8 0 64))
include ha

theorem doRknLoad_busy (h : ∃ a ∈ agents, v.dis.rknBusy.look a = true) : doRknLoad v q c = refuse v q c 0x15 0 := by
  subst ha
  exact if_pos (List.any_eq_true.mpr h)

section
variable (hr : c.fld 0x10 0 64 + c.fld 0x1C 0 17 ≤ Config.hostTop)
include hr

theorem doRknLoad_idle (h : ∀ a ∈ agents, v.dis.rknBusy.look a = false) :
    doRknLoad v q c = startLoad
      { agents.foldl (fun s a => updR s a fun r => { r with st := .loading }) v with
        codeLoads := v.codeLoads ++ [codeLoad q c true] } c := by
  subst ha
  unfold doRknLoad
  simp only [any_false h, codeReachable_host hr, Bool.not_true, Bool.false_eq_true, if_false]
  rw [codeLoads_foldl _ (fun s a => updR s a _) fun _ _ => rfl]

theorem doRknQuiesce_reachable :
    doRknQuiesce v q c =
      { agents.foldl (fun s a => enterLoading (updA s a fun x => { x with held := true }) a) v with
        codeLoads := v.codeLoads ++ [codeLoad q c false] } := by
  subst ha
  unfold doRknQuiesce
  simp only [codeReachable_host hr, Bool.not_true, Bool.false_eq_true, if_false]
  rw [codeLoads_foldl _ (fun s a => enterLoading (updA s a _) a) fun _ _ => codeLoads_enterLoading _ _]

end

end

/-- Once every Reckoner of a quiescing load is LOADING, its code is read. -/
theorem quiesceReady_all {u : State} {q : Nat} {l : CodeLoad} {x : Live}
    (hl : (u.codeLoads.find? fun l => l.q == q && !l.started) = some l) (hx : liveCmd u q l.seq = some x)
    (ha : ∀ a ∈ maskAgents u l.mask.toNat, (rkn u a).st = .loading) :
    quiesceReady u q = startLoad
      { u with codeLoads := updFirst (fun l => l.q == q && !l.started) (fun l => { l with started := true }) u.codeLoads }
      x.cmd := by
  unfold quiesceReady
  simp only [hl, hx]
  exact if_pos (List.all_eq_true.mpr fun a h => beq_iff_eq.mpr (ha a h))

/-- A Reckoner that is LOADING leaves for IDLE. -/
theorem leaveLoading_loading {r : Rkn} (h : r.st = .loading) : leaveLoading r = { r with st := .idle } := by
  unfold leaveLoading
  rw [h]
  rfl

/-- Only the entry's value counts in an update of it. -/
theorem upd_congr_look {α : Type} [Inhabited α] [DecidableEq α] (t : Tab α) (k : Nat) {f g : α → α}
    (h : f (t.look k) = g (t.look k)) : t.upd k f = t.upd k g := congrArg (t.put k) h

/-- The Reckoner of agent `a` has its code of `n` bytes at `off` and is IDLE, nobody's hold upon it any more. -/
def coded (t : Tab Agent) (a off n : Nat) (data : Bytes) : Tab Agent :=
  (t.upd a fun y => { y with held := false }).upd a fun y => { y with rkn := { y.rkn with
    st := .idle,
    imem := putWords (n / 8) (off / 8) (Bytes.slice data 0 n) y.rkn.imem,
    imemS := putWords (n / 8) (off / 8) (Bytes.slice data 0 n) y.rkn.imemS } }

/-- The read of one Reckoner's code ends: the code is written, and the command completes. -/
theorem loadEnd_one {u : State} {q a : Nat} {l : CodeLoad} {rest : List CodeLoad} {x : Live} (data : Bytes)
    (hl : takeFirst (fun l => l.q == q && l.started) u.codeLoads = some (l, rest)) (hx : liveCmd u q l.seq = some x)
    (ha : maskAgents u l.mask.toNat = [a]) (ho : (rest.any fun y => y.mask.getLsbD a) = false)
    (hs : (rkn u a).st = .loading) :
    loadEnd u q data [] =
      complete { u with codeLoads := rest, agt := coded u.agt a (x.cmd.fld 0x18 0 16) (x.cmd.fld 0x1C 0 17) data }
        q x.cmd 0 0 := by
  have hfree : (u.agt.upd a fun y => { y with held := y.held && false }) = u.agt.upd a fun y => { y with held := false } :=
    upd_congr_look u.agt a (by rw [Bool.and_false])
  unfold loadEnd
  simp only [hl, hx, ha, List.foldl_cons, List.foldl_nil, ho, List.isEmpty_nil, if_true, minBy, Bool.false_eq_true, if_false]
  unfold updR updA coded
  simp only [hfree]
  rw [upd_congr_look _ a]
  rw [Tab.look_upd_same, leaveLoading_loading (by exact hs)]

/-! ### The statement -/

/-- Settles O21: KEY_SET and the confirmations it waits for, and the two loads of code up to the end of the read. -/
theorem keysAndCodeLoads : Obligations.KeysAndCodeLoads := by
  refine ⟨fun u q c w v i hw => ⟨fun hp h hi => ?keys, fun hlog n s' hn hs' => ?confirm⟩,
    fun u q c w v agents hw => ⟨fun hp ha hr => ?loads, fun l x hl hx ha => ?ready,
      fun l rest x data a hl hx ha ho hs => ?done⟩⟩
  case keys =>
    refine ⟨fun hrev v' hv' => ?_, fun k hset hk v' hv' => ?_, fun hset hk => ?_⟩
    · subst hv'
      exact ends_keySet hw hp h (doKeySet_revokes hi hrev)
    · subst hv'
      exact ends_keySet hw hp h (doKeySet_installs hi hset hk)
    · exact ends_keySet hw hp h (doKeySet_fails hset hk)
  case confirm =>
    have hconf : s' = confirmed u i := by
      rw [hs', hn]
      rfl
    subst hconf
    refine ⟨fun hnone => ?_, fun h hone hin => ?_, fun h hone hin => ?_⟩
    · exact becomes_keeps _ [] (fun s => autConfirm s i) u _ (fun _ => rfl)
        (fun _ => by rw [autConfirm_eq hlog, hnone]; rfl) (keeps_confirmed u i)
    · refine ends_act _ [] (fun s => autConfirm s i) u _ (fun _ => rfl) fun _ => ?_
      rw [autConfirm_eq hlog, hone]
      exact if_pos hin
    · refine ends_act _ [] (fun s => autConfirm s i) u _ (fun _ => rfl) fun _ => ?_
      rw [autConfirm_eq hlog, hone]
      exact if_neg (by rw [hin]; decide)
  case loads =>
    exact ⟨fun h hidle => ends_rknLoad hw hp h (doRknLoad_idle ha hr hidle),
      fun h hbusy => ends_rknLoad hw hp h (doRknLoad_busy ha hbusy),
      fun h => ends_rknQuiesceLoad hw hp h (doRknQuiesce_reachable ha hr)⟩
  case ready =>
    exact becomes_keeps _ [] (fun s => quiesceReady s q) u _ (fun _ => rfl) (fun _ => quiesceReady_all hl hx ha) (.refl u)
  case done =>
    exact ends_act _ [(1, none)] (fun s => loadEnd s q data []) u _ (fun _ => rfl)
      fun _ => loadEnd_one data hl hx ha ho hs

end Sys2Proof.Machine
end

section
/-!
PROOFS. Launches of a graph: the command, launches that wait for slots, activations, sweeps and the ends of a launch; with them the
statement on launching graphs is settled.
-/

namespace Sys2Proof.Machine

open Sys2Proof

/-! ### Activation (R73) -/

/-- The entry that carries an activated graph's header to the expander. -/
def headerCarry (u : State) (h : Nat) : ExpEntry :=
  { node := h, gen := (nd u h).gen + 1, header := true, next := none, parked := false }

/-- A graph's record under its next generation, active, with nothing counted yet. -/
def activeRec (arg : W64) (src : LaunchSrc) (r : NodeRec) : NodeRec :=
  { r with
    gen := r.gen + 1, arg := arg,
    hdr := { r.hdr with lstate := .active, src := src, retired := 0, drops := 0, cplOut := 0, peerClosed := false,
                        switched := false, sweep := false } }

/-- The graph at `h`, of a template that no deadline watches, once it is activated and before its carry is offered. -/
def launched (u : State) (h : Nat) (arg : W64) (src : LaunchSrc) : State :=
  { u with
    grs.nodes := u.grs.nodes.upd h (activeRec arg src),
    grs.table := if u.grs.table.contains h then u.grs.table else u.grs.table ++ [h],
    pdm.dl := u.pdm.dl.foldUpd fun _ d => if d.main = h then default else d }

/-- Where no template watches the graph, only its earlier deadline goes. -/
theorem dlArm_none {s : State} {h : Nat} (ht : (nd s h).hdr.template = none) :
    dlArm s h = { s with pdm.dl := s.pdm.dl.foldUpd fun _ d => if d.main = h then default else d } := by
  unfold nd at ht
  unfold dlArm nd
  simp only [ht]

/-- An activation without a sweep offers the graph's carry to TLY. -/
theorem activate_offers {u : State} {h : Nat} (hs : (nd u h).hdr.sweep = false) (ht : (nd u h).hdr.template = none)
    (arg : W64) (src : LaunchSrc) :
    activate u h arg src = tlyOffer (launched u h arg src) (.carry (headerCarry u h)) := by
  unfold activate
  simp only [hs, Bool.false_eq_true, if_false]
  rw [dlArm_none (by simpa [nd, updN, Tab.look_upd_same] using ht)]
  unfold pushHeader
  simp only [nd, updN, Tab.look_upd_same]
  rfl

/-- What TLY is offered changes TLY only. -/
theorem tlyOffer_form (s : State) (i : TlyItem) : ∃ t, tlyOffer s i = { s with tly := t } := by
  unfold tlyOffer
  split
  · cases i with
    | dec op => exact ⟨_, rfl⟩
    | carry e =>
      unfold tlyTake
      dsimp only
      split <;> exact ⟨_, rfl⟩
  · exact ⟨_, rfl⟩

/-- An item that the intake does not take waits before it. -/
theorem tlyOffer_closed {s : State} {i : TlyItem} (h : intakeOpen s (itemPart s i) = false) :
    tlyOffer s i = { s with tly.wait := s.tly.wait ++ [i] } := by
  unfold tlyOffer
  rw [h, if_neg (by decide)]

/-- A launched graph is in the launch table. -/
theorem launched_listed (u : State) (h : Nat) (arg : W64) (src : LaunchSrc) :
    (launched u h arg src).grs.table.contains h = true := by
  show (if u.grs.table.contains h then u.grs.table else u.grs.table ++ [h]).contains h = true
  split
  case isTrue hin => exact hin
  case isFalse => simp

theorem nd_launched (u : State) (h : Nat) (arg : W64) (src : LaunchSrc) :
    nd (launched u h arg src) h = activeRec arg src (nd u h) := Tab.look_upd_same u.grs.nodes h _

/-- In a calm state the carry finds its place at once. -/
theorem activate_calm {u : State} (hc : Calm u) {h : Nat} (ha : Activates u h) (arg : W64) (src : LaunchSrc) :
    activate u h arg src = activated u h arg src := by
  obtain ⟨_, _, _, _, hwait, hintake⟩ := hc
  exact activate_now hwait hintake ha arg src

theorem keeps_activated (u : State) (h : Nat) (arg : W64) (src : LaunchSrc) : Keeps u (activated u h arg src) := .refl u

/-! ### GRAPH_LAUNCH (R59, R72) -/

/-- The source of a launch by command `c` of queue `q`. -/
def cmdSource (q : Nat) (c : Cmd) : LaunchSrc :=
  { q := q, sqIdx := c.idx, internal := false, seq := c.seq, main := none, table := none }

/-- The queue with the slots reserved that the nodes of command `c` need. -/
def slotsReserved (k : Nat) (c : Cmd) (x : Queue) : Queue :=
  { (mapLive x c.seq fun l => { l with nodes := k }) with resv := x.resv + k }

/-- A launch of a LOADED graph with room in the launch table activates it. -/
theorem startLaunch_loaded {s : State} {h : Nat} (hl : (nd s h).hdr.lstate = .loaded) (hr : launchRoom s h = true)
    (arg : W64) (src : LaunchSrc) : startLaunch s h arg src = some (activate s h arg src) := by
  unfold startLaunch
  dsimp only
  rw [hl]
  exact if_pos (by rw [hr, Bool.or_true])

theorem launchNow_loaded {w : State} {h : Nat} (hl : (nd w h).hdr.lstate = .loaded) (hr : launchRoom w h = true) (q : Nat)
    (c : Cmd) :
    launchNow w q c h =
      activate (updQ w q (slotsReserved (nd w h).hdr.cplCount c)) h (BitVec.ofNat 64 (c.fld 0x10 0 64)) (cmdSource q c) := by
  unfold launchNow
  dsimp only
  rw [startLaunch_loaded (s := updQ w q _) hl hr]
  rfl

theorem doGraphLaunch_wants {w : State} {q h : Nat} {c : Cmd} (hh : launchHeader w q c = some h)
    (hc : 1 + (nd w h).hdr.cplCount ≤ cqSize w q - 1) (hf : freeSlots w q < (nd w h).hdr.cplCount) :
    doGraphLaunch w q c = updQ w q fun x => { x with want := (nd w h).hdr.cplCount } := by
  unfold doGraphLaunch
  simp only [hh, if_neg (Nat.not_lt.mpr hc), if_pos hf]

theorem doGraphLaunch_now {w : State} {q h : Nat} {c : Cmd} (hh : launchHeader w q c = some h)
    (hc : 1 + (nd w h).hdr.cplCount ≤ cqSize w q - 1) (hf : (nd w h).hdr.cplCount ≤ freeSlots w q) :
    doGraphLaunch w q c = launchNow w q c h := by
  unfold doGraphLaunch
  simp only [hh, if_neg (Nat.not_lt.mpr hc), if_neg (Nat.not_lt.mpr hf)]

/-- A launch that waits goes on once its queue has the slots it wants. -/
theorem launchSlots_free {u : State} {q h : Nat} {l : Live} (hw : (queue u q).want ≠ 0)
    (hf : (queue u q).want ≤ freeSlots u q)
    (hl : ((queue u q).live.reverse.find? fun l => l.cmd.op == 0x11 && !l.ended) = some l)
    (hh : launchHeader (updQ u q fun x => { x with want := 0 }) q l.cmd = some h) :
    launchSlots u q = settleQ (launchNow (updQ u q fun x => { x with want := 0 }) q l.cmd h) q := by
  unfold launchSlots
  dsimp only
  rw [if_neg (not_or.mpr ⟨hw, Nat.not_lt.mpr hf⟩), hl]
  dsimp only
  rw [hh]

/-- The slots are reserved as the queue stops wanting them. -/
theorem updQ_reserved (u : State) (q k : Nat) (c : Cmd) :
    updQ (updQ u q fun x => { x with want := 0 }) q (slotsReserved k c) =
      updQ u q fun x => { (mapLive x c.seq fun l => { l with nodes := k }) with want := 0, resv := x.resv + k } := by
  unfold updQ
  rw [Tab.upd_upd]
  rfl

/-! ### Ends of a launch (R73, R76, R90) -/

theorem graphActivate_loaded {u : State} {h : Nat} (hk : (nd u h).kind = .graph) (hl : (nd u h).hdr.lstate = .loaded)
    (hr : launchRoom u h = true) (arg : W64) (q i : Nat) (b : Bool) :
    graphActivate u h arg q i b =
      activate u h arg { q := q, sqIdx := i, internal := b, main := none, table := none,
                         seq := ((queue u q).live.find? fun l => l.cmd.idx == i && !l.ended).elim 0 (·.cmd.seq) } := by
  unfold graphActivate
  refine if_pos ?_
  rw [hk, hl, hr]
  rfl

theorem nextLaunch_none {u : State} {h : Nat} (hp : (nd u h).hdr.pend = []) :
    nextLaunch u h =
      { updH u h (fun x => { x with lstate := .loaded }) with grs.table := u.grs.table.filter (· != h) } := by
  unfold nextLaunch
  rw [hp]

section
variable {u : State} {h : Nat} (hk : (nd u h).kind = .graph)
include hk

theorem launchEnd_over (hl : (nd u h).hdr.lstate = .active) (hr : (nd u h).hdr.retired = (nd u h).hdr.workCount)
    (hc : (nd u h).hdr.cplOut = 0) (hs : u.grs.sweeping.contains h = false) (ht : (nd u h).hdr.src.table = none) :
    launchEnd u h = nextLaunch (dlDisarm (completeLaunch u (nd u h).hdr.src
      (launchStatus (nd u h).hdr).1 (launchStatus (nd u h).hdr).2) h) h := by
  unfold launchEnd
  dsimp only
  rw [if_pos (by simp only [hk, hl, hr, hc, hs, beq_self_eq_true, Bool.not_false, Bool.and_self]), ht]

theorem drainEnd_over (hl : (nd u h).hdr.lstate = .draining)
    (hr : (u.dis.running.any fun x => x.graph == h && x.aborted && !sliceOver u x) = false) :
    drainEnd u h = nextLaunch { u with dis.running := u.dis.running.filter fun x => !(x.graph == h && x.aborted) } h := by
  unfold drainEnd
  simp only [hk, hl, hr]
  rfl

end

/-- An internal launch reports to no queue. -/
theorem completeLaunch_internal {src : LaunchSrc} (h : src.internal = true) (s : State) (st d : Nat) :
    completeLaunch s src st d = s := if_pos h

theorem sweepComplete_carries {u : State} {h : Nat} (hc : Calm u) (hs : u.grs.sweeping.contains h = true)
    (hst : u.tly.stopped = false) (he : expCredit u (partOr0 u h) = true) :
    sweepComplete u h = carried { u with grs.sweeping := u.grs.sweeping.filter (· != h) }
      { node := h, gen := (nd u h).gen, header := true, next := none, parked := false } := by
  obtain ⟨_, _, _, _, hw, hi⟩ := hc
  unfold sweepComplete
  rw [if_pos hs]
  exact tlyOffer_carry (u := { u with grs.sweeping := u.grs.sweeping.filter (· != h) }) hw hi hst _ he

/-! ### The statement -/

/-- What a launch by a command leaves of its queue's fetched commands. -/
theorem fetched_launched (u : State) (q h k : Nat) (c : Cmd) (arg : W64) (src : LaunchSrc) :
    (queue (activated (updQ u q (slotsReserved k c)) h arg src) q).fetched = (queue u q).fetched := by
  rw [queue_activated, queue_updQ_same]
  rfl

/-- Settles O23: the launch by its slots, activations and ends, and what `activate` leaves of a header. -/
theorem graphLaunching : Obligations.GraphLaunching := by
  refine ⟨fun u q c w h k hw => ⟨fun ha hh hk hc => ?command, fun l hwant hfree hl hh => ?waiting,
      fun arg i b src hg hl hr hs => ?activation, fun hs hst he => ?sweep, fun hg hl hr hc hs ht => ?launchEnd,
      fun hg hl hr v hv => ?drainEnd, nextLaunch_none⟩, fun u h arg src hs ht => ?header⟩
  case command =>
    subst hk hw
    have hkeep : Keeps u (startFront u q c) := keeps_startFront u q c
    refine ⟨fun hf => ?_, fun hf hl hr v src hv hsrc => ?_⟩
    · exact becomes_alone (v := updQ (startFront u q c) q _) (fun _ => rfl) ha (fun _ => doGraphLaunch_wants hh hc hf)
        (alone_start ha (hkeep.trans (keeps_updQ _ q _)) (by rw [queue_updQ_same]))
    · subst hv hsrc
      have hnow := (doGraphLaunch_now hh hc hf).trans (launchNow_loaded hl hr q c)
      refine ⟨ends_front (fun _ => rfl) ha.1 fun _ => hnow, fun hact => ?_⟩
      exact becomes_alone (fun _ => rfl) ha
        (fun hcalm => hnow.trans (activate_calm (u := updQ (startFront u q c) q _) hcalm hact _ _))
        (alone_start ha ((hkeep.trans (keeps_updQ _ q _)).trans (keeps_activated _ h _ _)) (fetched_launched _ q h _ c _ _))
  case waiting =>
    refine ⟨ends_act _ _ (fun s => launchSlots s q) u _ (fun _ => rfl) fun _ => launchSlots_free hwant hfree hl hh,
      fun hf hload hroom hact hk => ?_⟩
    subst hk
    have hnow := launchNow_loaded (w := updQ u q fun x => { x with want := 0 }) hload hroom q l.cmd
    have hfetched : (queue (updQ u q fun x => { x with want := 0 }) q).fetched = [] := by
      rw [queue_updQ_same]
      exact hf
    rw [← updQ_reserved]
    refine becomes_keeps _ _ (fun s => launchSlots s q) u _ (fun _ => rfl) (fun hc => ?_) (keeps_leaveTurn (activated _ h _ _) q)
    rw [launchSlots_free hwant hfree hl hh, hnow,
      activate_calm (u := updQ (updQ u q _) q _) hc hact]
    exact settleQ_empty _ q ((fetched_launched _ q h _ l.cmd _ _).trans hfetched)
  case activation =>
    subst hs
    exact ⟨ends_act _ _ (fun s => graphActivate s h arg q i b) u _ (fun _ => rfl)
        fun _ => graphActivate_loaded hg hl hr arg q i b,
      fun hact => becomes_keeps _ _ (fun s => graphActivate s h arg q i b) u _ (fun _ => rfl)
        (fun hc => (graphActivate_loaded hg hl hr arg q i b).trans (activate_calm hc hact _ _))
        (keeps_activated u h _ _)⟩
  case sweep =>
    exact becomes_keeps _ _ (fun s => sweepComplete s h) u _ (fun _ => rfl) (fun hcalm => sweepComplete_carries hcalm hs hst he)
      (.refl u)
  case launchEnd =>
    have hend := launchEnd_over hg hl hr hc hs ht
    refine ⟨ends_act _ _ (fun s => launchEnd s h) u _ (fun _ => rfl) fun _ => hend, fun hin hp => ?_⟩
    refine becomes_keeps _ _ (fun s => launchEnd s h) u _ (fun _ => rfl) (fun _ => ?_) (.refl u)
    rw [hend, completeLaunch_internal hin, nextLaunch_none (u := dlDisarm u h) hp]
    rfl
  case drainEnd =>
    subst hv
    have hend := drainEnd_over hg hl hr
    refine ⟨ends_act _ _ (fun s => drainEnd s h) u _ (fun _ => rfl) fun _ => hend, fun hp => ?_⟩
    refine becomes_keeps _ _ (fun s => drainEnd s h) u _ (fun _ => rfl) (fun _ => ?_) (.refl u)
    refine hend.trans ((nextLaunch_none ?_).trans rfl)
    exact hp
  case header =>
    obtain ⟨t, hform⟩ := tlyOffer_form (launched u h arg src) (.carry (headerCarry u h))
    have heq := activate_offers hs ht arg src
    have hnd : nd (activate u h arg src) h = nd (launched u h arg src) h := by rw [heq, hform]; rfl
    rw [hnd, nd_launched]
    refine ⟨rfl, rfl, rfl, rfl, rfl, rfl, rfl, ?_, fun e he => ?_, ?_, ?_⟩
    · rw [heq, hform]
      exact launched_listed u h arg src
    · subst he
      refine ⟨fun hw hi hst hx => ?_, fun hcl => ?_⟩
      · rw [heq, tlyOffer_carry (u := launched u h arg src) hw hi hst (headerCarry u h) hx]
        rfl
      · rw [heq, tlyOffer_closed (s := launched u h arg src) (i := .carry (headerCarry u h)) hcl]
        exact ⟨rfl, rfl⟩
    · rw [heq, hform]
      rfl
    · rw [heq, hform]
      rfl

end Sys2Proof.Machine
end

section
/-!
PROOFS. Loading a graph: the command, image bytes that arrive, and the end of the load; with them the statement on loading graphs is
settled.
-/

namespace Sys2Proof.Machine

open Sys2Proof

/-! ### GRAPH_LOAD (R71, R396) -/

/-- The load that command `c` of queue `q` starts, before any of its image has arrived. -/
def loadOf (w : State) (q : Nat) (c : Cmd) : LoadJob :=
  { q := q, seq := c.seq, base := relocBase w q + c.fld 0x14 0 24, count := c.fld 0x18 0 24, relocBase := relocBase w q,
    started := false, image := [] }

/-- A load of a range that is free, and that no load has taken, takes it and reads the image from the host. -/
theorem doGraphLoad_free {w : State} {q : Nat} {c : Cmd}
    (hl : (w.grs.loads.any fun j => overlaps (loadOf w q c).base (loadOf w q c).count j.base j.count) = false)
    (hn : ((List.range (loadOf w q c).count).any fun i => (nd w ((loadOf w q c).base + i)).kind != .free) = false)
    (ht : c.fld 8 0 64 + c.fld 0x10 0 32 ≤ Config.hostTop) :
    doGraphLoad w q c =
      emit { w with grs.loads := w.grs.loads ++ [loadOf w q c] } (.chiRead (c.fld 8 0 64) (c.fld 0x10 0 32)) := by
  unfold doGraphLoad
  dsimp only [loadOf] at hl hn ⊢
  rw [hl, hn, if_neg (by decide), if_neg (Nat.not_lt.mpr ht)]

/-- A load of a range with a record that is not FREE is refused. -/
theorem doGraphLoad_inUse {w : State} {q : Nat} {c : Cmd}
    (hn : ((List.range (loadOf w q c).count).any fun i => (nd w ((loadOf w q c).base + i)).kind != .free) = true) :
    doGraphLoad w q c = refuse w q c 0x16 0 := by
  unfold doGraphLoad
  dsimp only [loadOf] at hn ⊢
  rw [hn, if_pos (Bool.or_true _)]

/-! ### The image (R70, R71) -/

section
variable {u : State} {q seq : Nat} {j : LoadJob} (hj : (u.grs.loads.find? fun j => j.q == q && j.seq == seq) = some j)
include hj

/-- Image bytes behind a header are stored record by record, from the first record that was not complete before. -/
theorem storeImage_stores {data img : Bytes} (hi : img = (j.image ++ data).take (256 * j.count))
    (hr : imageRecs (img.length / 256) img ≠ [])
    (hs : j.started = true ∨ nfld ((imageRecs (img.length / 256) img).headD 0) 0 0 8 = 5) :
    storeImage u q seq data =
      ((List.range (imageRecs (img.length / 256) img).length).drop (j.image.length / 256)).foldl
        (fun s i => storeRecord s { j with image := img, started := true } i ((imageRecs (img.length / 256) img).getD i 0))
        { u with grs.loads := updFirst (fun x => x.q == q && x.seq == seq)
                   (fun _ => { j with image := img, started := true }) u.grs.loads } := by
  have hstores : ¬(imageRecs (img.length / 256) img = [] ∨
      ((!j.started) = true ∧ nfld ((imageRecs (img.length / 256) img).headD 0) 0 0 8 ≠ 5)) := by
    rintro (hnone | ⟨hst, hkind⟩)
    · exact hr hnone
    · rcases hs with h | h
      · rw [h] at hst
        exact absurd hst (by decide)
      · exact hkind h
  subst hi
  unfold storeImage
  rw [hj]
  exact if_neg hstores

/-- A complete image without a fault ends its load with success. -/
theorem graphLoadEnd_loaded (hl : j.image.length = 256 * j.count)
    (hf : imageFault (blockId u) (j.base - j.relocBase) (imageRecs j.count j.image) = none)
    (hh : imageHandle u q (imageRecs j.count j.image) = none) : graphLoadEnd u q seq = endLoad u j 0 0 := by
  unfold graphLoadEnd
  simp only [hj, hl, ne_eq, not_true_eq_false, if_false, hf, hh]

/-- The first fault of a complete image ends its load. -/
theorem graphLoadEnd_fault (hl : j.image.length = 256 * j.count) {o : Nat}
    (hf : imageFault (blockId u) (j.base - j.relocBase) (imageRecs j.count j.image) = some o) :
    graphLoadEnd u q seq = endLoad u j 0x10 (2 ^ 31 + o) := by
  unfold graphLoadEnd
  simp only [hj, hl, ne_eq, not_true_eq_false, if_false, hf]

end

/-! ### The statement -/

/-- Settles O22: the command by its range, then the bytes that arrive and the end of the load. -/
theorem graphLoading : Obligations.GraphLoading := by
  intro u q c w base n hw hb hn
  subst hb hn hw
  have hkeep : Keeps u (startFront u q c) := keeps_startFront u q c
  refine ⟨fun ha hl hfree ht => ?taken, fun ha huse => ?inUse, fun seq data j img hj hi hr hs => ?image,
    fun seq j hj _ hlen => ⟨fun hf hh => ?loaded, fun o hf => ?fault⟩⟩
  case taken =>
    exact becomes_alone (fun _ => rfl) ha (fun _ => doGraphLoad_free hl hfree ht)
      (alone_start ha (hkeep.trans (.refl _)) rfl)
  case inUse =>
    exact becomes_alone (v := refuse (startFront u q c) q c 0x16 0) (fun _ => rfl) ha (fun _ => doGraphLoad_inUse huse)
      (alone_refuse ha hkeep rfl rfl 0x16 0)
  case image =>
    exact ends_act _ _ (fun s => graphImage s q seq data) u _ (fun _ => rfl)
      fun _ => congrArg (settleQ · q) (storeImage_stores hj hi hr hs)
  case loaded =>
    exact ends_act _ _ (fun s => graphLoadEnd s q seq) u _ (fun _ => rfl) fun _ => graphLoadEnd_loaded hj hlen hf hh
  case fault =>
    exact ends_act _ _ (fun s => graphLoadEnd s q seq) u _ (fun _ => rfl) fun _ => graphLoadEnd_fault hj hlen hf

end Sys2Proof.Machine
end

section
/-!
PROOFS. TLY at work: retirements, the expander, lanes, the miss buffer, the backlog and remote decrements; with them the statement on
the tally engine is settled.
-/

namespace Sys2Proof.Machine

open Sys2Proof

/-! ### Retirements (R82, R83, R91) -/

/-- The slice of node `n` under generation `gen` runs no more. -/
def sliceGone (v : State) (n : Nat) (gen : BitVec 16) : State :=
  { v with dis.running := v.dis.running.filter fun x => !(x.node == n && x.gen == gen && !x.aborted) }

/-- The retirement of a work node that finished, by the generation it carries and the state of its node. -/
theorem retirement_done {v : State} {n : Nat} (ho : intakeOpen v (partOr0 v n) = true) (hk : isWork (nd v n).kind = true)
    (gen : BitVec 16) (drops : Nat) :
    retirement v n gen .done drops =
      if currentGen v (nd v n) gen = true then
        if (armed v (nd v n)).st = .issued then pushCarry (noteRetired (sliceGone v n gen) n .done drops false) n
        else count (sliceGone v n gen) .tlyBadRet
      else count (sliceGone v n gen) .tlyStaleRet := by
  show (if !intakeOpen v (partOr0 v n) then v
    else if isWork (nd v n).kind && !currentGen v (nd v n) gen then count (sliceGone v n gen) .tlyStaleRet
    else if !isWork (nd v n).kind || (armed v (nd v n)).st != .issued || RetResult.done == .reserved then
      count (sliceGone v n gen) .tlyBadRet
    else pushCarry (noteRetired (sliceGone v n gen) n .done drops false) n) = _
  rw [ho, hk]
  cases currentGen v (nd v n) gen with
  | false => rfl
  | true => by_cases hs : (armed v (nd v n)).st = .issued <;> simp [hs]

/-- Where the intake takes the carry, the command delivers its packet from the Beam. -/
theorem retirement_lands {u v : State} {n : Nat} {gen : BitVec 16} {drops : Nat} (hl : Lands (isRetire n gen .done drops) u v)
    (ho : intakeOpen u (partOr0 u n) = true) (hk : isWork (nd u n).kind = true) :
    arrives u (intakeOpen u (partOr0 u n)) (isRetire n gen .done drops) (fun s => retirement s n gen .done drops) =
      if currentGen u (nd u n) gen = true then
        if (armed u (nd u n)).st = .issued then pushCarry (noteRetired (sliceGone v n gen) n .done drops false) n
        else count (sliceGone v n gen) .tlyBadRet
      else count (sliceGone v n gen) .tlyStaleRet := by
  rw [ho, arrives_lands hl]
  obtain ⟨b, rfl⟩ := lands_form hl
  exact retirement_done (v := { u with beam := b }) ho hk gen drops

/-- A changed record reads as what it was changed to. -/
@[simp] theorem nd_updN_same (s : State) (n : Nat) (f : NodeRec → NodeRec) : nd (updN s n f) n = f (nd s n) :=
  Tab.look_upd_same s.grs.nodes n f

/-- A standalone node without a completion record of its own, as its retirement leaves it and its queue (R83, R378). -/
def retiredAlone (s : State) (n drops q : Nat) : State :=
  progress (wordCount (pageCount (updN s n fun r => { r with st := .retired, drops := drops }) (partOr0 s n) 2 1) q 2) q

/-- Beside its node's record, such a retirement changes what OBS and FLT hold. -/
theorem retiredAlone_form (s : State) (n drops q : Nat) :
    ∃ o f, retiredAlone s n drops q =
      { updN s n (fun r => { r with st := .retired, drops := drops }) with obs := o, flt := f } := by
  obtain ⟨o, f, h⟩ := progress_form
    (wordCount (pageCount (updN s n fun r => { r with st := .retired, drops := drops }) (partOr0 s n) 2 1) q 2) q
  exact ⟨o, f, h⟩

/-- With the trace off, a standalone node of a queue that asks for no record leaves its counts only. -/
theorem noteRetired_alone {s : State} {n q : Nat} (hg : (nd s n).graph = Config.noNode) (hc : (nd s n).cpl = false)
    (hq : q = (nd s n).src.q) (hi : isQueue q = true) (ht : regBit s 0xe00000 0 = false) (drops : Nat) :
    noteRetired s n .done drops false = retiredAlone s n drops q := by
  subst hq
  have hin : inGraph (nd s n) = false := by simp [inGraph, hg]
  have htrace : regBit (retiredAlone s n drops (nd s n).src.q) 0xe00000 0 = false := by
    obtain ⟨o, f, h⟩ := retiredAlone_form s n drops (nd s n).src.q
    rw [h]
    exact ht
  unfold noteRetired
  simp only [hin, hc, hi, Bool.false_eq_true, if_false, if_true]
  exact trRecord_off _ _ htrace

/-- Its carry takes an expansion entry at once, where the intake keeps nothing and the table has room. -/
theorem pushCarry_retiredAlone {s : State} {n : Nat} (hw : s.tly.wait = []) (hi : s.tly.intake = [])
    (hs : s.tly.stopped = false) (he : expCredit s (partOr0 s n) = true) (drops q : Nat) :
    pushCarry (retiredAlone s n drops q) n =
      carried (retiredAlone s n drops q) { node := n, gen := (nd s n).gen, header := false, next := none, parked := false } := by
  obtain ⟨o, f, h⟩ := retiredAlone_form s n drops q
  have hgen : (nd (retiredAlone s n drops q) n).gen = (nd s n).gen := by
    rw [h]
    show (nd (updN s n fun r => { r with st := .retired, drops := drops }) n).gen = _
    rw [nd_updN_same]
  have htly : (retiredAlone s n drops q).tly = s.tly := by rw [h]; rfl
  have hcredit : expCredit (retiredAlone s n drops q) (partOr0 (retiredAlone s n drops q) n) = true := by rw [h]; exact he
  unfold pushCarry
  rw [hgen]
  exact tlyOffer_carry (htly ▸ hw) (htly ▸ hi) (htly ▸ hs) _ hcredit

theorem keeps_retiredAlone (s : State) (n drops q : Nat) : Keeps s (retiredAlone s n drops q) :=
  keeps_progress (wordCount (pageCount (updN s n _) (partOr0 s n) 2 1) q 2) q

/-! ### The expander (R67, R84, R85) -/

section
variable {u : State} {k : Nat} {e : ExpEntry} {rest : List ExpEntry} (hs : u.tly.stopped = false)
  (he : takeAt u.tly.exp k = some (e, rest)) (hp : e.parked = false)
include hs he hp

/-- A read that hits expands the entry's list. -/
theorem succListRead_hit :
    succListRead u k true = expandList (count { u with tly.exp := rest } .grsHit) k e fun e' s =>
      { s with tly.exp := s.tly.exp.take k ++ e' :: s.tly.exp.drop k } := by
  unfold succListRead
  simp only [hs, he, hp, Bool.false_eq_true, if_false, if_true]

/-- A read that misses parks its entry, once the miss buffer has a place for it. -/
theorem succListRead_miss :
    succListRead u k false =
      if missCredit u (partOr0 u e.node) = true then
        count { u with tly := { u.tly with
          exp := u.tly.exp.take k ++ { e with parked := true } :: u.tly.exp.drop (k + 1),
          miss := u.tly.miss ++ [.list e] } } .grsMiss
      else u := by
  unfold succListRead
  simp only [hs, he, hp, Bool.false_eq_true, if_false]
  cases missCredit u (partOr0 u e.node) <;> rfl

end

/-- The operations of a list follow in their lanes, where the list before it is no longer the newest. -/
theorem emitOps_first {s : State} (hl : s.tly.last = none) (i : Nat) (new : List LaneOp) :
    emitOps s i new =
      { countN s .tlyLaneStall (laneClashes (new.map (·.node))) with
          tly := { s.tly with ops := s.tly.ops ++ new, last := some (i, new) } } := by
  have hnone : lastList (countN s .tlyLaneStall (laneClashes (new.map (·.node)))) = none := by
    unfold lastList
    rw [show (countN s _ _).tly.last = none from hl]
    rfl
  unfold emitOps sameAc
  simp only [hnone, Option.isNone_none, if_true]
  rfl

/-- A list of one local successor with no block behind it is one operation, and its entry is done. -/
theorem expandList_one {s : State} {e : ExpEntry} {x : Succ} (hn : e.next = none) (hx : (nd s e.node).succs = [x])
    (hr : x.remote = false) (hend : (nd s e.node).succNext = Config.noNode) (i : Nat) (later : ExpEntry → State → State) :
    expandList s i e later =
      emitOps s i [{ node := x.node, w := min x.weight 0xFFFFFF, n := 1, src := expSrc s e, also := [] }] := by
  unfold expandList
  simp only [hn, hx, hend, hr, List.filter_cons, List.filter_nil, Bool.not_false, Bool.false_eq_true, if_false, if_true,
    mergeSuccs, List.foldl_nil, List.map_cons, List.map_nil]

/-! ### Lanes and the miss buffer (R84, R85, R88) -/

section
variable {u : State} {op : LaneOp}

/-- The first operation of a lane is performed on a hit. -/
theorem tallyDecrement_hit {lane : Nat} {rest : List LaneOp} (ht : takeFirst (inLane lane) u.tly.ops = some (op, rest))
    (hs : isSwitch op = false) : tallyDecrement u lane true = applyDec (count { u with tly.ops := rest } .grsHit) op := by
  unfold tallyDecrement
  simp only [ht, hs, Bool.false_eq_true, if_false, if_true]

/-- It parks on a miss, once the miss buffer has a place for it. -/
theorem tallyDecrement_miss {lane : Nat} {rest : List LaneOp} (ht : takeFirst (inLane lane) u.tly.ops = some (op, rest))
    (hs : isSwitch op = false) :
    tallyDecrement u lane false =
      if missCredit u (partOr0 u op.node) = true then
        count { u with tly := { u.tly with ops := rest, miss := u.tly.miss ++ [.lane op] } } .grsMiss
      else u := by
  unfold tallyDecrement
  simp only [ht, hs, Bool.false_eq_true, if_false]
  cases missCredit u (partOr0 u op.node) <;> rfl

/-- A parked operation is applied when its read returns. -/
theorem missReturn_lane {k : Nat} {rest : List MissEnt} (ht : takeAt u.tly.miss k = some (.lane op, rest)) :
    missReturn u k = applyDec { u with tly.miss := rest } op := by
  unfold missReturn
  rw [ht]

end

theorem keeps_subtracted (u : State) (n w k : Nat) : Keeps u (subtracted u n w k) := .refl u

/-- The decrement that a remote request carries. -/
def remoteOp (h : FabHdr) : LaneOp :=
  { node := h.loc % 2 ^ 24, w := h.data.toNat % 256, n := 1, src := .remote h, also := [] }

/-- A remote decrement waits behind the operations of its lane, and is applied where there is none. -/
theorem remoteDec_open {u : State} {h : FabHdr} (ho : intakeOpen u (partOr0 u (h.loc % 2 ^ 24)) = true) :
    remoteDec u h =
      if u.tly.ops.any (inLane (h.loc % 2 ^ 24 % 32)) = true then { u with tly.ops := u.tly.ops ++ [remoteOp h] }
      else applyDec u (remoteOp h) := by
  unfold remoteDec
  dsimp only
  rw [ho]
  rfl

/-! ### The ready backlog (R86, R107) -/

/-- The oldest node of a backlog becomes a bead once there is a credit, unless it is no longer READY as it was. -/
theorem backlogMove_credit {u : State} {p : Nat} {x : Waiting} {rest : List Waiting} (hs : u.tly.stopped = false)
    (hl : u.tly.backlog.look p = x :: rest) (hc : beadCredit u p = true) :
    backlogMove u p =
      if (nd u x.node).st = .ready ∧ (nd u x.node).gen = x.gen then
        { u with tly.backlog := u.tly.backlog.put p rest,
                 dis.beads := u.dis.beads ++ [beadOf { u with tly.backlog := u.tly.backlog.put p rest } x.node] }
      else { u with tly.backlog := u.tly.backlog.put p rest } := by
  unfold backlogMove
  simp only [hl, hc, hs, Bool.not_false, Bool.and_self, if_true, Bool.and_eq_true, beq_iff_eq]
  rfl

/-! ### The statement -/

/-- Settles O25: each of TLY's commands by its branches, and a decrement by how its weight compares to the tally. -/
theorem tallyEngine : Obligations.TallyEngine := by
  refine ⟨fun u hstop => ⟨fun n gen drops v hl ho => ?retirement, fun k e rest he hp => ?expander,
      fun lane op rest ht hsw => ?lane, fun k op rest ht => ?miss, fun p x rest hb hc => ?backlog, fun h ho => ?remote⟩,
    fun u n w k hw hk hst hg => ?arithmetic⟩
  case retirement =>
    intro s
    have hdone := retirement_lands hl ho
    have hexec : ∀ s, exec (.retirement n gen .done drops) s = .next (act [(4, none), (5, none), (8, none)] (fun s =>
        arrives s (intakeOpen s (partOr0 s n)) (isRetire n gen .done drops) fun s => retirement s n gen .done drops) s) :=
      fun _ => rfl
    obtain ⟨b, rfl⟩ := lands_form hl
    have hkeep : Keeps u s := .refl u
    refine ⟨fun hk hg => ?stale, fun hk hg hni => ?bad, fun hk hg his => ?counted, fun q hk hg hgen his hc hq hi
        htr hw hin he => ?alone⟩
    case stale =>
      exact becomes_keeps _ _ _ u _ hexec (fun _ => (hdone hk).trans (if_neg (Bool.eq_false_iff.mp hg))) hkeep
    case bad =>
      exact becomes_keeps _ _ _ u _ hexec (fun _ => (hdone hk).trans ((if_pos hg).trans (if_neg hni))) hkeep
    case counted =>
      exact ends_act _ _ _ u _ hexec fun _ => (hdone hk).trans ((if_pos hg).trans (if_pos his))
    case alone =>
      have hown : currentGen u (nd u n) gen = true := by simp [currentGen, inGraph, hg, hgen]
      have harmed : (armed u (nd u n)).st = .issued := by simpa [armed, inGraph, hg] using his
      have hnote := noteRetired_alone (s := s) hg hc hq hi htr drops
      have hcarry := pushCarry_retiredAlone (s := s) hw hin hstop he drops q
      subst hgen
      refine becomes_keeps _ _ _ u _ hexec (fun _ => ?_) (hkeep.trans (keeps_retiredAlone s n drops q))
      refine (hdone hk).trans ((if_pos hown).trans ((if_pos harmed).trans ?_))
      exact (congrArg (pushCarry · n) hnote).trans hcarry
  case expander =>
    have hmiss := succListRead_miss hstop he hp
    refine ⟨?hit, fun x op hn hx hr hend hl hop => ?single, fun hc => ?parks, fun hc => ?waits⟩
    case hit =>
      exact ends_act _ _ (fun s => succListRead s k true) u _ (fun _ => rfl) fun _ => succListRead_hit hstop he hp
    case single =>
      subst hop
      refine becomes_keeps _ _ (fun s => succListRead s k true) u _ (fun _ => rfl) (fun _ => ?_) (.refl u)
      rw [succListRead_hit hstop he hp,
        expandList_one (s := count { u with tly.exp := rest } .grsHit) hn hx hr hend,
        emitOps_first (s := count { u with tly.exp := rest } .grsHit) hl]
      rfl
    case parks =>
      exact becomes_keeps _ _ (fun s => succListRead s k false) u _ (fun _ => rfl)
        (fun _ => hmiss.trans (if_pos hc)) (.refl u)
    case waits =>
      exact becomes_keeps _ _ (fun s => succListRead s k false) u u (fun _ => rfl)
        (fun _ => hmiss.trans (if_neg (Bool.eq_false_iff.mp hc))) (.refl u)
  case lane =>
    have hhit := tallyDecrement_hit ht hsw
    have hmiss := tallyDecrement_miss ht hsw
    refine ⟨?hit, fun n w k hop hle hwait => ?subtracts, fun hc => ?parks, fun hc => ?waits⟩
    case hit =>
      exact ends_act _ _ (fun s => tallyDecrement s lane true) u _ (fun _ => rfl) fun _ => hhit
    case subtracts =>
      subst hop
      exact becomes_keeps _ _ (fun s => tallyDecrement s lane true) u _ (fun _ => rfl)
        (fun _ => hhit.trans (applyDec_waits (u := count { u with tly.ops := rest } .grsHit) hwait hle))
        (keeps_subtracted _ n w k)
    case parks =>
      exact becomes_keeps _ _ (fun s => tallyDecrement s lane false) u _ (fun _ => rfl)
        (fun _ => hmiss.trans (if_pos hc)) (.refl u)
    case waits =>
      exact becomes_keeps _ _ (fun s => tallyDecrement s lane false) u u (fun _ => rfl)
        (fun _ => hmiss.trans (if_neg (Bool.eq_false_iff.mp hc))) (.refl u)
  case miss =>
    have hreturn := missReturn_lane ht
    refine ⟨ends_act _ _ (fun s => missReturn s k) u _ (fun _ => rfl) fun _ => hreturn, fun n w i hop hle hwait => ?_⟩
    subst hop
    exact becomes_keeps _ _ (fun s => missReturn s k) u _ (fun _ => rfl)
      (fun _ => hreturn.trans (applyDec_waits (u := { u with tly.miss := rest }) hwait hle)) (keeps_subtracted _ n w i)
  case backlog =>
    exact becomes_keeps _ _ (fun s => backlogMove s p) u _ (fun _ => rfl) (fun _ => backlogMove_credit hstop hb hc)
      (.ite (.refl u) (.refl u))
  case remote =>
    have hdec := remoteDec_open ho
    refine ⟨fun hany => ?_, fun hnone => ?_⟩
    · exact becomes_keeps _ _ (fun s => remoteDec s h) u _ (fun _ => rfl) (fun _ => hdec.trans (if_pos hany)) (.refl u)
    · exact ends_act _ _ (fun s => remoteDec s h) u _ (fun _ => rfl)
        fun _ => hdec.trans (if_neg (Bool.eq_false_iff.mp hnone))
  case arithmetic =>
    have hdec := applyDec_standalone (k := k) hk hst hg hw
    refine ⟨fun hlt => hdec.trans (if_pos hlt), fun heq => ?_, fun hgt => ?_⟩
    · rw [hdec, if_neg (by omega), if_neg (by omega)]
    · rw [hdec, if_neg (by omega), if_pos hgt]

end Sys2Proof.Machine
end

section
/-!
PROOFS. One ac of the dispatcher: what an issue leaves, and the phases of an ac over no bead or over one; with them the
statement on the dispatcher's cycle is settled.
-/

namespace Sys2Proof.Machine

open Sys2Proof

/-! ### One ac (R96, R361, R367) -/

/-- The dispatcher at the start of an ac: credits and metering have risen, and the pointer has moved on. -/
def acRisen (u : State) : State :=
  { u with dis := { u.dis with
      credit := (List.range 16).foldl (fun t p => t.upd p fun c => min 256 (c + creditRise u p)) u.dis.credit,
      meter := min 8192 (u.dis.meter + u.mgt.rate), ptr := (u.dis.ptr + 1) % 16 } }

@[simp] theorem acRisen_beads (u : State) : (acRisen u).dis.beads = u.dis.beads := by simp only [acRisen]

/-- Which partitions are open, and which injection is armed for one, is no matter of the dispatcher's own state. -/
theorem partOpen_dis (u : State) (d : Dis) (p : Nat) : partOpen { u with dis := d } p = partOpen u p := rfl
theorem injPart_dis (u : State) (d : Dis) (id p : Nat) : injPart { u with dis := d } id p = injPart u id p := rfl

theorem keeps_acRisen (u : State) : Keeps u (acRisen u) := keeps_dis u _

/-- The work of an ac before any phase. -/
def acStart (s : State) : AcWork := { s := s, slots := 0, removed := 0, sent := [], failed := [] }

/-- The partitions in the order of an ac, from the pointer on. -/
def acOrder (u : State) : List Nat := (List.range 16).map fun i => (u.dis.ptr + i) % 16

/-- Every partition has its turn in an ac. -/
theorem mem_acOrder (u : State) {p : Nat} (hp : p < 16) : p ∈ acOrder u := by
  unfold acOrder
  rw [List.mem_map]
  exact ⟨(p + 16 - u.dis.ptr % 16) % 16, List.mem_range.mpr (by omega), by omega⟩

/-- A dispatcher that is stopped, or before Ready, does nothing. -/
theorem dispatchCycle_closed {u : State} (h : u.dis.stopped = true ∨ isReady u = false) : dispatchCycle u = u := by
  unfold dispatchCycle
  refine if_pos ?_
  rcases h with h | h <;> simp [h]

section
variable {u : State} (hs : u.dis.stopped = false) (hr : isReady u = true)
include hs hr

/-- A droop ac only counts down (R361). -/
theorem dispatchCycle_droop (hd : 0 < u.dis.droop) :
    dispatchCycle u = { acRisen u with dis := { (acRisen u).dis with droop := u.dis.droop - 1 } } := by
  unfold dispatchCycle
  rw [if_neg (by simp [hs, hr])]
  exact if_pos hd

/-- An ac whose two phases leave no bead ends in what they leave. -/
theorem dispatchCycle_phases (hd : u.dis.droop = 0) {w : AcWork}
    (hw : rounds spareRound (acOrder u) 9 (rounds shareRound (acOrder u) 9 (acStart (acRisen u))) = w)
    (hb : w.s.dis.beads = []) : dispatchCycle u = w.s := by
  obtain ⟨f, hf⟩ := dispatch_shape u (acRisen u) hs hr rfl hd
  rw [hf]
  unfold acOrder acStart at hw
  simp only [hw]
  exact beads_map_nil w (f w) hb

end

/-- Without beads neither phase does anything. -/
theorem phases_nil {w : AcWork} (hb : w.s.dis.beads = []) (l : List Nat) :
    rounds shareRound l 9 w = w ∧ rounds spareRound l 9 w = w :=
  ⟨rounds_false _ _ _ _ (shareRound_nil w hb l), rounds_false _ _ _ _ (spareRound_nil w hb l)⟩

/-- Rounds end after one that fills a slot and leaves no bead. -/
theorem rounds_once {f : AcWork → List Nat → AcWork × Bool} {l : List Nat} {w w' : AcWork} (h : f w l = (w', true))
    (h' : f w' l = (w', false)) : rounds f l 9 w = w' := by
  show (if (f w l).2 then rounds f l 8 (f w l).1 else (f w l).1) = w'
  rw [h]
  exact rounds_false f l 8 w' h'

/-! ### What an issue leaves (R102, R103, R104, R105) -/

/-- The bead of a slice that holds the rest of it leaves its rod. -/
theorem issueSlice_beads_last {s : State} {b : Bead} {cores : List (Nat × Nat)}
    (hl : isLayer b = true ∨ b.next + sliceBlocks cores = b.blocks) (a : Nat) :
    (issueSlice s b a cores).dis.beads = s.dis.beads.filter fun x => !sameBead x b := by
  obtain ⟨_, _, _, _, _, _, _, hf, _⟩ := issue_form s b a cores _ _ _ rfl rfl rfl
  rw [hf]
  refine if_pos ?_
  cases hb : isLayer b with
  | true => rfl
  | false =>
    rw [hb] at hl
    simpa using hl

/-! ### The ac of one bead (R96) -/

/-- The work of an ac once the only bead is issued, before its slot is paid for. -/
def acIssued (s : State) (b : Bead) (a : Nat) (cores : List (Nat × Nat)) : AcWork :=
  let v := issueSlice s b a cores
  { s := { v with dis := { v.dis with clsPtr := v.dis.clsPtr.put (16 * b.part + b.prio) ((b.cls + 1) % 5) } },
    slots := 1, removed := 0, sent := [(b.node, b.gen, a)], failed := [] }

section
variable {s : State} {b : Bead} {a : Nat} {cores : List (Nat × Nat)} (hb : s.dis.beads = [b])
  (hl : isLayer b = true ∨ (b.next + sliceBlocks cores = b.blocks ∧ (b.split = true ∨ b.next = 0)))
include hb hl

theorem acIssued_beads : (acIssued s b a cores).s.dis.beads = [] := by
  refine (issueSlice_beads_last (hl.imp_right And.left) a).trans ?_
  rw [hb]
  simp [sameBead]

variable (hpart : b.part < 16) (hprio : b.prio < 16) (hcls : b.cls < 5) (hheld : b.held = false)
  (hopen : partOpen s b.part = true) (hmeter : 1024 ≤ s.dis.meter) (hinj : injPart s 0x0601 b.part = false)
  (hstale : staleBead s b = false) (hskip : skipBead s b = false) (hplace : unplaceable s b = false)
  (hchoice : choose s b (fun _ => false) = .slice a cores)
include hprio hcls hheld hinj hstale hskip hplace hchoice

/-- The turn of its partition issues the bead. -/
theorem examinePart_issues : examinePart (acStart s) b.part 16 = (acIssued s b a cores, true) :=
  examinePart_one (acStart s) _ b hb hheld hcls
    (fun fuel => examineRod_one fuel (acStart s) b a cores hb hinj hstale hskip hplace rfl hchoice hl) 16 hprio

include hpart hopen hmeter

/-- The two phases of an ac issue the bead: in the share phase where its partition has 32 credits, which it pays, else in
the spare phase; and its slot spends a token. -/
theorem phases_one {u : State} {w : AcWork}
    (hw : w = spendToken (if 32 ≤ s.dis.credit.look b.part then
      { acIssued s b a cores with
          s := { (acIssued s b a cores).s with dis.credit := (acIssued s b a cores).s.dis.credit.upd b.part (· - 32) } }
      else acIssued s b a cores)) :
    rounds spareRound (acOrder u) 9 (rounds shareRound (acOrder u) 9 (acStart s)) = w ∧ w.s.dis.beads = [] := by
  have hturn := examinePart_issues hb hl hprio hcls hheld hinj hstale hskip hplace hchoice
  have hmem := mem_acOrder u hpart
  have hnone : (acIssued s b a cores).s.dis.beads = [] := acIssued_beads hb hl
  have hslot : slotLeft (acStart s) = true := by
    have : 0 < s.dis.meter / 1024 := Nat.div_pos hmeter (by decide)
    simpa [slotLeft, acStart, tokens] using this
  have hbeads : w.s.dis.beads = [] := by
    rw [hw]
    split <;> exact hnone
  refine ⟨?_, hbeads⟩
  by_cases hcredit : 32 ≤ s.dis.credit.look b.part
  · rw [if_pos hcredit] at hw
    have hshare := shareRound_one (acStart s) _ b hb hopen hslot hcredit hturn hnone _ hmem
    rw [rounds_once (hshare.trans (by rw [hw])) (shareRound_nil w hbeads _), (phases_nil hbeads _).2]
  · rw [if_neg hcredit] at hw
    have hspare := spareRound_one (acStart s) _ b hb hopen hslot hturn hnone _ hmem
    rw [rounds_false _ _ _ _ (shareRound_poor (acStart s) b hb hcredit _)]
    exact rounds_once (hspare.trans (by rw [hw])) (spareRound_nil w hbeads _)

end

/-! ### The statement -/

/-- What the issue of a task's slice leaves. -/
theorem issueSlice_task {s : State} {b : Bead} (hk : isLayer b = false) (a : Nat) (cores : List (Nat × Nat)) :
    let n := sliceBlocks cores
    let t := issueSlice s b a cores
    t.dis.running = s.dis.running ++ [{ node := b.node, gen := b.gen, graph := b.graph, part := b.part, cls := b.cls,
                                        agent := a, aborted := false }] ∧
    (isPinned s b.part = false →
      t.dis.agentPtr = s.dis.agentPtr.put (8 * b.part + b.cls) ((a + 1) % agentCount s)) ∧
    (b.next + n = b.blocks → t.dis.beads = s.dis.beads.filter fun x => !sameBead x b) ∧
    (b.next + n ≠ b.blocks → t.dis.beads = s.dis.beads.map fun x => if sameBead x b then
      { b with next := b.next + n, fails := 0, held := false, drain := none, split := true } else x) ∧
    ((nd s b.node).st = .ready → (nd t b.node).st = .issued) ∧ t.mem = s.mem ∧ t.queues = s.queues ∧
    ∃ l, t.out.getLast? = some (.launch a l) ∧ l.node = b.node ∧ l.gen = b.gen ∧ l.firstBlock = b.next ∧ l.arg = b.arg ∧
      l.kdesc = b.kdesc ∧ l.params = b.params := by
  intro n t
  have hlast := fun h => issueSlice_beads_last (s := s) (b := b) (cores := cores) (.inr h) a
  obtain ⟨o, f, g, u, l, sl, busy, hform, hnode, hgen, hfirst, harg, hkdesc, hparams⟩ :=
    issue_form s b a cores _ _ _ rfl rfl rfl
  simp only [hk, Bool.false_or, Bool.false_eq_true, if_false] at hform hfirst
  have ht : t = _ := hform
  refine ⟨?running, fun hp => ?pointer, hlast, fun hm => ?split, fun hr => ?issued, ?mem, ?queues, l, ?sent,
    hnode, hgen, hfirst, harg, hkdesc, hparams⟩
  all_goals rw [ht]
  case pointer => exact if_neg (by simp [hp])
  case split =>
    have hwhole : (b.next == 0 && sliceBlocks cores == b.blocks) = false := by
      refine Bool.eq_false_iff.mpr fun h => hm ?_
      rw [Bool.and_eq_true, beq_iff_eq, beq_iff_eq] at h
      rw [h.1, Nat.zero_add]
      exact h.2
    rw [hwhole]
    exact if_neg (by simpa using hm)
  case issued =>
    unfold nd
    dsimp only [emit]
    rw [Tab.look_upd_same, show s.grs.nodes.look b.node = nd s b.node from rfl, hr]
    rfl
  case sent => simp
  all_goals rfl

/-- Settles O26: an ac by its phases, and an issue by its form. -/
theorem dispatcherCycle : Obligations.DispatcherCycle := by
  refine ⟨fun u => ⟨fun h => ?closed, fun hs hr s hrise => ?opened⟩, fun s b a cores n t hk hn ht => ?issue⟩
  case closed => exact becomes_keeps _ _ dispatchCycle u u (fun _ => rfl) (fun _ => dispatchCycle_closed h) (.refl u)
  case opened =>
    have hrisen : s = acRisen u := hrise
    subst hrisen
    refine ⟨fun hd => ?droop, fun hd hb => ?empty, fun b a cores v hd hb hpart hprio hcls hheld hopen hmeter hstale hskip hplace
      hchoice hl hv => ?one⟩
    case droop =>
      exact becomes_keeps _ _ dispatchCycle u _ (fun _ => rfl) (fun _ => dispatchCycle_droop hs hr hd)
        ((keeps_acRisen u).trans (keeps_dis _ _))
    case empty =>
      have hbeads : (acRisen u).dis.beads = [] := (acRisen_beads u).trans hb
      obtain ⟨hshare, hspare⟩ := phases_nil (w := acStart (acRisen u)) hbeads (acOrder u)
      have hcycle : dispatchCycle u = (acStart (acRisen u)).s :=
        dispatchCycle_phases hs hr hd (by rw [hshare, hspare]) hbeads
      exact becomes_keeps _ _ dispatchCycle u _ (fun _ => rfl) (fun _ => hcycle) (keeps_acRisen u)
    case one =>
      subst hv
      refine ends_act _ _ dispatchCycle u _ (fun _ => rfl) fun hc => ?_
      obtain ⟨hphases, hbeads⟩ := phases_one (s := acRisen u) ((acRisen_beads u).trans hb) hl hpart hprio hcls hheld
        ((partOpen_dis u _ _).trans hopen) hmeter ((injPart_dis u _ _ _).trans (calm_injPart hc _ _)) hstale hskip hplace hchoice rfl
      rw [dispatchCycle_phases hs hr hd hphases hbeads]
      split <;> rfl
  case issue =>
    subst hn ht
    exact issueSlice_task hk a cores

end Sys2Proof.Machine
end

section
/-!
PROOFS. What agents report to the dispatcher, and the holds of partitions; with them the statement on holds and reports is
settled.
-/

namespace Sys2Proof.Machine

open Sys2Proof

/-! ### Holds and drains (R98, R110) -/

/-- Bead `b` holds its partition, with `d` as its drain. -/
def beadHeld (s : State) (b : Bead) (d : Option Nat) : State :=
  { s with dis := { s.dis with
      beads := s.dis.beads.map fun x => if sameBead x b then { x with held := true, drain := d } else x } }

theorem keeps_beadHeld (s : State) (b : Bead) (d : Option Nat) : Keeps s (beadHeld s b d) := keeps_dis s _

/-- The first head of partition `p` that has failed its fit long enough to hold it. -/
def failedHead (u : State) (p : Nat) : Option Bead :=
  u.dis.beads.find? fun b => b.part == p && !b.held && decide (holdAc u ≤ b.fails) && rodHead u p b.cls b.prio == some b

section
variable {u : State} {p : Nat} {b : Bead} (hs : u.dis.stopped = false) (hf : failedHead u p = some b)
include hs hf

/-- Below PRE_PRIO a head holds its partition without a drain. -/
theorem holdStart_low (hp : b.prio < regFld (count u .disHold) 0x400000 27 24) :
    holdStart u p = beadHeld (count u .disHold) b none := by
  unfold failedHead at hf
  unfold holdStart
  rw [hs, if_neg (by decide)]
  simp only [hf]
  rw [if_neg (Nat.not_le.mpr hp)]
  rfl

/-- From PRE_PRIO on it starts a drain of the agent that could take it. -/
theorem holdStart_drains {d : Nat} (hp : regFld (count u .disHold) 0x400000 27 24 ≤ b.prio)
    (hd : drainTarget (count u .disHold) b = some d) :
    holdStart u p = beadHeld (count (count u .disHold) .disDrain) b (some d) := by
  unfold failedHead at hf
  unfold holdStart
  rw [hs, if_neg (by decide)]
  simp only [hf]
  rw [if_pos hp, hd]
  rfl

end

/-! ### Packets from agents (R18, R99, R108) -/

/-- A packet that DIS takes and that may arrive takes effect without it on the Beam. -/
theorem arrives_dis {u v : State} {is : Out → Bool} (hs : u.dis.stopped = false) (h : Lands is u v) (f : State → State) :
    arrives u (!u.dis.stopped) is f = f v := by
  rw [hs]
  exact arrives_lands h f

/-- A packet that lands leaves what waits alone. -/
theorem keeps_lands {u v : State} {is : Out → Bool} (h : Lands is u v) : Keeps u v := by
  obtain ⟨_, rfl⟩ := lands_form h
  exact .refl u

/-- A command that delivers a packet to DIS, whose effect keeps what waits, ends in that effect without the packet. -/
theorem becomes_dis {i : Instr} {l : List Touch} {is : Out → Bool} {f : State → State} {u v w : State}
    (hi : ∀ s, exec i s = .next (act l (fun s => arrives s (!s.dis.stopped) is f) s)) (hs : u.dis.stopped = false)
    (hl : Lands is u v) (hf : f v = w) (hk : Keeps v w) : Becomes i u w :=
  becomes_keeps i l _ u w hi (fun _ => (arrives_dis hs hl f).trans hf) ((keeps_lands hl).trans hk)

/-- A packet that lands leaves the dispatcher and the agents as they are. -/
theorem lands_dis {u v : State} {is : Out → Bool} (h : Lands is u v) : v.dis = u.dis ∧ v.agt = u.agt := by
  obtain ⟨_, rfl⟩ := lands_form h
  exact ⟨rfl, rfl⟩

/-- The return of an occupancy to an agent that no load holds credits the charge. -/
theorem occReturn_free {v : State} {a : Nat} (hs : v.dis.stopped = false) (hh : (agt v a).held = false) (k : OccPkt) :
    occReturn v a k = { v with dis := { v.dis with
      used := v.dis.used.upd ((16 * a + k.core) * 16 + k.part) fun r => subRes r k.res,
      rknBusy := if k.rknFree then v.dis.rknBusy.put a false else v.dis.rknBusy,
      running := v.dis.running.filter fun r => !(sliceOver v r) } } := by
  unfold occReturn
  rw [hs, if_neg (by decide)]
  unfold enterLoading
  refine if_neg fun h => ?_
  have hheld : (agt v a).held = true := h.1
  rw [hh] at hheld
  cases hheld

/-- A capacity report is kept (R99). -/
theorem capReport_taken {v : State} (hs : v.dis.stopped = false) (a : Nat) (k : OccPkt) :
    capReport v a k = { v with dis := { v.dis with cap := v.dis.cap.put (16 * a + k.core) k.res } } := by
  unfold capReport
  rw [hs]
  exact if_neg (by decide)

/-! ### Slice retirements (R104) -/

/-- The entry of a split bead after the retirement of one of its slices. -/
def mergedEnt (e : SliceEnt) (res : RetResult) (drops : Nat) : SliceEnt :=
  { e with outstanding := e.outstanding - 1, halted := e.halted || res == .halted,
           peerClosed := e.peerClosed || res == .peerClosed, drops := min (e.drops + drops) (2 ^ 32 - 1) }

/-- The slices that run once agent `a` has retired one of node `n`. -/
def sliceLeft (l : List Running) (a n : Nat) (gen : BitVec 16) : List Running :=
  (takeFirst (fun (r : Running) => r.node == n && r.gen == gen && r.agent == a && !r.aborted) l).elim l (·.2)

@[simp] theorem progress_dis (s : State) (q : Nat) : (progress s q).dis = s.dis := by
  obtain ⟨_, _, h⟩ := progress_form s q
  rw [h]

/-- A slice retirement is merged, and is progress; the node's retirement follows the last slice. -/
theorem sliceRetire_merges {s : State} {n : Nat} {gen : BitVec 16} {e : SliceEnt} (hs : s.dis.stopped = false)
    (he : (s.dis.slices.find? fun e => e.node == n && e.gen == gen) = some e) (a : Nat) (res : RetResult) (drops : Nat)
    {v : State} (hv : v = progress { s with dis := { s.dis with running := sliceLeft s.dis.running a n gen } } (queueOfNode s n)) :
    sliceRetire s a n gen res drops =
      if e.allIssued = true ∧ e.outstanding - 1 = 0 then
        emit { v with dis := { v.dis with slices := s.dis.slices.filter fun e => !(e.node == n && e.gen == gen) } }
          (.merged n gen (mergedResult (mergedEnt e res drops)) (mergedEnt e res drops).drops)
      else { v with dis := { v.dis with slices := s.dis.slices.map fun x =>
        if x.node == n && x.gen == gen then mergedEnt e res drops else x } } := by
  have hslices : s.dis.slices = v.dis.slices := by rw [hv, progress_dis]
  have hmerge : sliceRetire s a n gen res drops =
      if (mergedEnt e res drops).allIssued && (mergedEnt e res drops).outstanding == 0 then
        emit { v with dis := { v.dis with slices := v.dis.slices.filter fun e => !(e.node == n && e.gen == gen) } }
          (.merged n gen (mergedResult (mergedEnt e res drops)) (mergedEnt e res drops).drops)
      else { v with dis := { v.dis with slices := v.dis.slices.map fun x =>
        if x.node == n && x.gen == gen then mergedEnt e res drops else x } } := by
    unfold sliceRetire
    rw [hs, if_neg (by decide)]
    simp only [he]
    rw [hv]
    rfl
  rw [hmerge, hslices]
  simp only [Bool.and_eq_true, beq_iff_eq]
  rfl

/-! ### The statement -/

/-- Settles O27: the two holds, then what an agent reports, each as it lands. -/
theorem dispatcherReports : Obligations.DispatcherReports := by
  intro u hs
  refine ⟨fun p b hf => ⟨fun s hcount hp => ?hold, fun s d hcount hp hd => ?drain⟩, fun a k v hl hh => ?occupancy,
    fun a k v hl => ?capacity, fun a n gen res drops e e' run w v hl he he' hrun hv => ?retirement⟩
  case hold =>
    subst hcount
    exact becomes_keeps _ _ (fun s => holdStart s p) u _ (fun _ => rfl) (fun _ => holdStart_low hs hf hp) (keeps_beadHeld _ b none)
  case drain =>
    subst hcount
    exact becomes_keeps _ _ (fun s => holdStart s p) u _ (fun _ => rfl) (fun _ => holdStart_drains hs hf hp hd)
      (keeps_beadHeld _ b (some d))
  case occupancy =>
    obtain ⟨hdis, hagt⟩ := lands_dis hl
    have hheld : (agt v a).held = false := by
      unfold agt
      rw [hagt]
      exact hh
    have hocc := occReturn_free (hdis ▸ hs) hheld k
    rw [hdis] at hocc
    exact becomes_dis (fun _ => rfl) hs hl hocc (keeps_dis v _)
  case capacity =>
    obtain ⟨hdis, _⟩ := lands_dis hl
    have hcap := capReport_taken (hdis ▸ hs) a k
    rw [hdis] at hcap
    exact becomes_dis (fun _ => rfl) hs hl hcap (keeps_dis v _)
  case retirement =>
    subst he' hrun
    obtain ⟨b, rfl⟩ := lands_form hl
    have hkeep : Keeps { u with beam := b } v := by
      rw [hv]
      exact (keeps_dis { u with beam := b } _).trans (keeps_progress _ _)
    have hmerge := sliceRetire_merges (s := { u with beam := b }) hs he a res drops hv
    refine ⟨fun hall hout => ?last, fun hmore => ?more⟩
    case last =>
      exact becomes_dis (fun _ => rfl) hs hl (hmerge.trans (if_pos ⟨hall, by omega⟩))
        ((hkeep.trans (keeps_dis v _)).trans (keeps_emit _ _))
    case more =>
      refine becomes_dis (fun _ => rfl) hs hl (hmerge.trans (if_neg fun ⟨hall, hout⟩ => ?_)) (hkeep.trans (keeps_dis v _))
      rcases hmore with hno | hlt
      · rw [hno] at hall
        cases hall
      · omega

end Sys2Proof.Machine
end

section
/-!
PROOFS. PDM at work: deadline entries at their switch points, the switch in EXIT's lane, and the step boundaries of batching
tables; with them the statement on deadlines and tables is settled.
-/

namespace Sys2Proof.Machine

open Sys2Proof

/-! ### Switch points (R115) -/

/-- The trace record of deadline entry `g`, whose exit node `n` is read in generation `gen`, with status `st`. -/
def deadlineRec (s : State) (n gen g fallback st : Nat) : TrRec :=
  { type := 4, part := partOr0 s n, cls := 0, gen := gen, node := n, sub := g, ts := s.ts,
    arg1 := BitVec.ofNat 64 fallback, arg2 := st }

/-- The switch of deadline entry `g`, for the lane of node `n`. -/
def switchOp (n g : Nat) : LaneOp := { node := n, w := 0, n := 0, src := .switch g, also := [] }

/-- Entry `g` is armed no more. -/
def disarmed (s : State) (g : Nat) : State := { s with pdm.dl := s.pdm.dl.upd g fun d => { d with armed := false } }

section
variable {u : State} {g : Nat} {d : Deadline} (hs : u.pdm.stopped = false) (hd : d = u.pdm.dl.look g) (ha : d.armed = true)
  (hat : d.at_ ≤ u.ts) (hops : (u.tly.ops.any fun op => op.src == .switch g) = false) (hw : u.tly.wait = [])
include hs hd ha hat hops hw

/-- At its switch point an armed entry whose switch is not under way switches, or is abandoned. -/
theorem switchPoint_reached :
    switchPoint u g =
      if fallbackFree u (tpl u d.fallback).header then
        tlyOffer { u with grs.reserved := u.grs.reserved ++ [(tpl u d.fallback).header] } (.dec (switchOp d.exit_ g))
      else
        trRecord (count (disarmed u g) .pdmFbBusy)
          (deadlineRec (disarmed u g) d.exit_ (nd (disarmed u g) d.exit_).gen.toNat g d.fallback 1) := by
  subst hd
  unfold switchPoint
  refine if_neg ?_
  rw [ha, hs, hops, hw, decide_eq_false (BitVec.not_lt.mpr hat)]
  exact Bool.false_ne_true

/-- With its fall-back free it reserves it, and sends the switch to EXIT's lane. -/
theorem switchPoint_sends (hi : u.tly.intake = []) (ht : u.tly.stopped = false)
    (hf : fallbackFree u (tpl u d.fallback).header = true) :
    switchPoint u g =
      { u with grs := { u.grs with reserved := u.grs.reserved ++ [(tpl u d.fallback).header] },
               tly := { u.tly with ops := u.tly.ops ++ [switchOp d.exit_ g] } } := by
  rw [switchPoint_reached hs hd ha hat hops hw, if_pos hf]
  exact tlyOffer_dec (u := { u with grs.reserved := u.grs.reserved ++ [(tpl u d.fallback).header] }) hw hi ht _

/-- With its fall-back busy it is abandoned. -/
theorem switchPoint_abandons (hf : fallbackFree u (tpl u d.fallback).header = false) :
    switchPoint u g =
      trRecord (count (disarmed u g) .pdmFbBusy)
        (deadlineRec (disarmed u g) d.exit_ (nd (disarmed u g) d.exit_).gen.toNat g d.fallback 1) := by
  rw [switchPoint_reached hs hd ha hat hops hw, if_neg (by rw [hf]; decide)]

end

/-! ### The switch in EXIT's lane (R115, R116) -/

/-- The first operation of its lane, where it is the switch, is applied. -/
theorem exitSwitch_front {u : State} {g : Nat} {op : LaneOp} {rest : List LaneOp}
    (hf : (u.tly.ops.find? fun op => op.src == .switch g) = some op)
    (ht : takeFirst (inLane (op.node % 32)) u.tly.ops = some (op, rest)) :
    exitSwitch u g = applySwitch { u with tly.ops := rest } op.node g := by
  unfold exitSwitch
  simp only [hf, ht, beq_self_eq_true, if_true]

/-- The source of the launch of the fall-back of the main graph at `m`. -/
def fallbackSrc (s : State) (m : Nat) : LaunchSrc :=
  { (nd s m).hdr.src with internal := true, main := some (m, (nd s m).gen), table := none }

theorem keeps_pdm (s : State) (x : Pdm) : Keeps s { s with pdm := x } := .refl s
theorem keeps_grs (s : State) (x : Grs) : Keeps s { s with grs := x } := .refl s

/-- EXIT `n`, found as `r`, and the main graph once the switch of entry `g` is taken. -/
def switchMarked (s : State) (n g : Nat) (r : NodeRec) : State :=
  let s1 := updN (disarmed s g) n fun _ => { r with tally := 1 }
  let s2 := { s1 with pdm.dl := s1.pdm.dl.upd g fun d => { d with switched := true } }
  count (updH s2 (s.pdm.dl.look g).main fun h => { h with switched := true }) .pdmFb

theorem keeps_switchMarked (s : State) (n g : Nat) (r : NodeRec) : Keeps s (switchMarked s n g r) :=
  have hexit := (keeps_pdm s _).trans (keeps_grs (disarmed s g) _)
  have hdl := hexit.trans (keeps_pdm (updN (disarmed s g) n _) _)
  (hdl.trans (keeps_grs _ _)).trans (keeps_count _ _)

/-- The same with the switch reported. -/
def switchReported (s : State) (n g : Nat) (r : NodeRec) : State :=
  detReport (switchMarked s n g r) (partOr0 (switchMarked s n g r) n) 6 n n 0

/-- The same with the switch recorded. -/
def switchTaken (s : State) (n g : Nat) (r : NodeRec) : State :=
  trRecord (switchReported s n g r) (deadlineRec (switchReported s n g r) n r.gen.toNat g (s.pdm.dl.look g).fallback 0)

theorem keeps_switchTaken (s : State) (n g : Nat) (r : NodeRec) : Keeps s (switchTaken s n g r) :=
  ((keeps_switchMarked s n g r).trans (keeps_detReport _ _ _ _ _ _)).trans (keeps_trRecord _ _)

theorem keeps_unreserve (s : State) (h : Nat) : Keeps s (unreserve s h) := .refl s

/-- A launch of a LOADED graph for a main graph has its place reserved. -/
theorem startLaunch_reserved {s : State} {h : Nat} (hl : (nd s h).hdr.lstate = .loaded) (arg : W64) {src : LaunchSrc}
    (hm : src.main.isSome = true) : startLaunch s h arg src = some (activate s h arg src) := by
  unfold startLaunch
  dsimp only
  rw [hl]
  exact if_pos (by rw [hm, Bool.true_or])

section
variable {s : State} {n g : Nat} {d : Deadline} {r : NodeRec} (hd : d = s.pdm.dl.look g) (hr : r = armed s (nd s n))
include hd hr

/-- While the main launch is ACTIVE and EXIT waits, the switch starts the fall-back in its reserved place. -/
theorem applySwitch_taken (hm : (nd s d.main).hdr.lstate = .active) (hw : r.st = .waiting)
    (hl : (nd (switchTaken s n g r) (tpl s d.fallback).header).hdr.lstate = .loaded) :
    applySwitch s n g =
      unreserve (activate (switchTaken s n g r) (tpl s d.fallback).header (nd s d.main).arg (fallbackSrc s d.main))
        (tpl s d.fallback).header := by
  subst hd hr
  have hstart := startLaunch_reserved hl (nd s (s.pdm.dl.look g).main).arg (src := fallbackSrc s (s.pdm.dl.look g).main) rfl
  unfold applySwitch
  refine (if_pos (by rw [hm, hw]; decide)).trans ?_
  simp only [switchTaken, switchReported, switchMarked, deadlineRec, disarmed, fallbackSrc] at hstart ⊢
  rw [hstart]

/-- A switch that comes late gives the fall-back's place back. -/
theorem applySwitch_late (hm : (nd s d.main).hdr.lstate ≠ .active ∨ r.st ≠ .waiting) {t : State}
    (ht : t = count (unreserve (disarmed s g) (tpl s d.fallback).header) .pdmLateSwitch) :
    applySwitch s n g = trRecord t (deadlineRec t n r.gen.toNat g d.fallback 2) := by
  subst hd hr ht
  unfold applySwitch
  refine if_neg fun h => ?_
  rw [Bool.and_eq_true, beq_iff_eq, beq_iff_eq] at h
  exact hm.elim (fun hmain => hmain h.left) fun hexit => hexit h.right

end

/-! ### Batching tables (R120, R121) -/

/-- An idle table whose JOIN_TAIL has moved comes to a step boundary. -/
theorem btPoll_moved {u : State} {b : Nat} (hp : u.pdm.stopped = false) (hs : u.slt.stopped = false) (hf : btFault u b = none)
    (hi : (bt u b).st = .idle) (hj : btWord u b 0 ≠ btWord u b 8) :
    btPoll u b = updBt u b fun t => { t with st := .boundary } := by
  unfold btPoll
  rw [if_neg (by simp [hp, hs, hi])]
  simp only [hf, if_neg hj]

/-- The state of table `b` once the steps of R120 up to the list of its members `act` are done, from the state after the
leaves and the joins, with `head` as its new JOIN_HEAD. -/
def stepListed (s : State) (b : Nat) (act : List Nat) : State :=
  let s5 := ((List.range act.length).zip act).foldl (fun s e => btPut s b (0x1000 + 16 * e.1)
    (btEntry 1 e.2 ((bt s b).slots.look e.2).seqId ((bt s b).slots.look e.2).arg)) s
  let s6 := btPut s5 b 0x48 (leBytes 2 act.length)
  updBt (btSet s6 b 0x40 ((btWord s6 b 0x40 + 1) % 2 ^ 64)) b fun t => { t with listed := act.length, step := t.step + 1 }

/-- Table `b` in state `s` with JOIN_HEAD moved to `head`, in the order of its control area's release. -/
def stepJoined (s : State) (b head : Nat) : State :=
  let s2 := btSet s b 8 head
  setTag (freeNat s2).2 (btAt (freeNat s2).2 b 0x10) ((freeNat s2).1 % 3) (blockId (freeNat s2).2) 0 31

/-- A table at a boundary performs the steps of R120 in order, and launches its template unless it has no member. -/
theorem stepBoundary_steps {u : State} {b : Nat} (hp : u.pdm.stopped = false) (hs : u.slt.stopped = false)
    (hf : btFault u b = none) (hb : (bt u b).st = .boundary) (hr : stepRoom u b = true) {s1 : State} {n : Nat} {j : State × Nat}
    {s4 : State} {act : List Nat} (h1 : s1 = btStep1 u b)
    (hn : n = min (btJoin s1 b) ((btWord s1 b 0 + 2 ^ 64 - btWord s1 b 8) % 2 ^ 64))
    (hj : j = btStep2 b n s1 (btWord s1 b 8)) (h4 : s4 = stepJoined j.1 b j.2) (hact : act = activeSlots s4 b) :
    stepBoundary u b =
      if act = [] then updBt (stepListed s4 b act) b fun t => { t with st := .idle } else launchStep (stepListed s4 b act) b := by
  subst h1 hn hj h4 hact
  unfold stepBoundary
  rw [if_neg (by simp [hp, hs, hb, hr])]
  simp only [hf]
  rfl

/-! ### The statement -/

/-- Settles O28: an entry at its switch point, the switch in EXIT's lane, and a table's poll and step. -/
theorem deadlinesAndTables : Obligations.DeadlinesAndTables := by
  intro u
  refine ⟨fun g d fb hs hd ha hat hops hfb => ?point, fun g op rest hf ht => ?lane, fun b hp hs hf hi hj => ?poll,
    fun b s1 n j s3 s4 act s5 hp hs hf hb hr h1 hn hj h3 h4 hact h5 s6 h6 s7 h7 => ?step⟩
  case point =>
    subst hfb
    refine ⟨fun hfree ht => ?sends, fun hbusy s hcount => ?abandons⟩
    case sends =>
      refine becomes_keeps _ _ (fun s => switchPoint s g) u _ (fun _ => rfl) (fun hc => ?_) (.refl u)
      obtain ⟨_, _, _, _, hw, hi⟩ := hc
      exact switchPoint_sends hs hd ha hat hops hw hi ht hfree
    case abandons =>
      subst hcount
      refine becomes_keeps _ _ (fun s => switchPoint s g) u _ (fun _ => rfl) (fun hc => ?_)
        (keeps_trRecord (count (disarmed u g) .pdmFbBusy) _)
      obtain ⟨_, _, _, _, hw, _⟩ := hc
      exact switchPoint_abandons hs hd ha hat hops hw hbusy
  case lane =>
    have hswitch := exitSwitch_front hf ht
    refine ⟨?applies, fun d fb r main t s hd hfb hr hmain hm hw ht hrec hl hact => ?taken, fun d r t hd hr hm ht => ?late⟩
    case applies => exact ends_act _ _ (fun s => exitSwitch s g) u _ (fun _ => rfl) fun _ => hswitch
    case taken =>
      subst hfb hmain
      have hreport : t = switchReported { u with tly.ops := rest } op.node g r := by
        rw [ht, hd]
        rfl
      have htaken : s = switchTaken { u with tly.ops := rest } op.node g r := by
        rw [hrec, hreport, hd]
        rfl
      have hkeep : Keeps u s := by
        rw [htaken]
        exact keeps_switchTaken { u with tly.ops := rest } op.node g r
      have happly := applySwitch_taken (s := { u with tly.ops := rest }) hd hr hm hw (htaken ▸ hl)
      rw [← htaken] at happly
      refine becomes_keeps _ _ (fun s => exitSwitch s g) u _ (fun _ => rfl) (fun hc => ?_)
        ((hkeep.trans (keeps_activated s _ _ _)).trans (keeps_unreserve _ _))
      obtain ⟨_, _, _, hwait, hintake⟩ := hkeep.settled hc.2
      exact (hswitch.trans happly).trans (congrArg (unreserve · _) (activate_now hwait hintake hact _ _))
    case late =>
      refine becomes_keeps _ _ (fun s => exitSwitch s g) u _ (fun _ => rfl)
        (fun _ => hswitch.trans (applySwitch_late (s := { u with tly.ops := rest }) hd hr hm ht)) ?_
      rw [ht]
      exact keeps_trRecord (count (unreserve (disarmed { u with tly.ops := rest } g) _) .pdmLateSwitch) _
  case poll =>
    exact becomes_keeps _ _ (fun s => btPoll s b) u _ (fun _ => rfl) (fun _ => btPoll_moved hp hs hf hi hj) (.refl u)
  case step =>
    subst h3 h5 h6 h7
    have hsteps := stepBoundary_steps hp hs hf hb hr h1 hn hj h4 hact
    refine ⟨fun hnone => ?idle, fun hsome => ?launches⟩
    case idle =>
      exact ends_act _ _ (fun s => stepBoundary s b) u _ (fun _ => rfl) fun _ => hsteps.trans (if_pos hnone)
    case launches =>
      exact ends_act _ _ (fun s => stepBoundary s b) u _ (fun _ => rfl) fun _ => hsteps.trans (if_neg hsome)

end Sys2Proof.Machine
end

section
/-!
PROOFS. What a cluster reports: engine completions, credits, capacity and activity, and what waits at a stopped agent; with
them the statement on cluster reports is settled.
-/

namespace Sys2Proof.Machine

open Sys2Proof

/-! ### A Reckoner changed -/

theorem rkn_updR_same (s : State) (a : Nat) (f : Rkn → Rkn) : rkn (updR s a f) a = f (rkn s a) := by
  unfold rkn updR
  rw [agt_updA_same]

/-- Neither a scalar register nor its pending mark changes the launch that a Reckoner runs. -/
theorem rknLaunch_setS (s : State) (a i : Nat) (v : W64) : rknLaunch (setS s a i v) a = rknLaunch s a := by
  unfold setS rknLaunch
  split
  · rfl
  · rw [rkn_updR_same]

theorem rknLaunch_setPend (s : State) (a i : Nat) (v : Bool) : rknLaunch (setPend s a i v) a = rknLaunch s a := by
  unfold setPend rknLaunch
  dsimp only
  split
  · rfl
  · rw [rkn_updR_same]

/-! ### Engine completions and credits (R132, R133, R407) -/

/-- The engine operation at the front of what a completion names is done: its entries are free. -/
def opDone (u : State) (a core tag : Nat) (rest : List EngOp) : State :=
  updR u a fun r => { r with ops := rest, sb := r.sb.filter fun e => e.req || !(e.id == tag && e.engCore == core) }

section
variable {u : State} {a core tag : Nat} (hs : agtShut u a = false)
include hs

/-- A completion brings its value to the operation's register, and is activity of the layer. -/
theorem engDone_found {o : EngOp} {rest : List EngOp}
    (ht : takeFirst (fun o => o.core == core && o.tag == tag) (rkn u a).ops = some (o, rest))
    (ha : (rkn u a).st ≠ .aborting) (v : Option W64) :
    engDone u a core tag v =
      activity (setPend (setS (opDone u a core tag rest) a o.rd (v.getD 0)) a o.rd (rest.any fun x => x.rd == o.rd)) a
        (rknLaunch u a).node (rknLaunch u a).gen := by
  have hrkn : rkn (opDone u a core tag rest) a = _ := rkn_updR_same u a _
  have hst : ¬ (rkn (opDone u a core tag rest) a).st = .aborting := by
    rw [hrkn]
    exact ha
  have hlaunch : rknLaunch (opDone u a core tag rest) a = rknLaunch u a := by
    unfold rknLaunch
    rw [hrkn]
  unfold engDone
  rw [hs, if_neg (by decide)]
  unfold opDone at hst hlaunch ⊢
  simp only [ht, if_neg hst, rknLaunch_setPend, rknLaunch_setS, hlaunch]

/-- A completion that names no operation is counted. -/
theorem engDone_missing (ht : takeFirst (fun o => o.core == core && o.tag == tag) (rkn u a).ops = none) (v : Option W64) :
    engDone u a core tag v = count u (.agtPortErr a) := by
  unfold engDone
  rw [hs, if_neg (by decide)]
  simp only [ht]
  rfl

/-- Returned credits are free again. -/
theorem engCredit_returned (counts : BitVec 256) :
    engCredit u a counts = updA u a fun x => { x with
      eqUsed := (List.range 64).foldl (fun t i => t.upd i fun n => n - bitsOf counts.toNat (4 * i + 3) (4 * i)) x.eqUsed } := by
  unfold engCredit
  rw [hs]
  exact if_neg (by decide)

end

/-! ### What waits at a stopped agent (R141, R350) -/

/-- An agent with nothing at its input holds a message of at most 16 flits. -/
theorem agtHold_first {u : State} {a : Nat} {m : AgtIn} (hi : (agt u a).inbox = [])
    (hf : ∀ n, AgtIn.flits m = some n → n.2 ≤ 16) :
    agtHold u a m = updA u a fun x => { x with inbox := x.inbox ++ [m] } := by
  unfold agtHold
  refine if_neg ?_
  rw [hi]
  cases hm : AgtIn.flits m with
  | none => simp
  | some n =>
    have := hf n hm
    simp only [List.filterMap_nil, List.filter_nil, List.map_nil, List.foldl_nil, Option.any_some, decide_eq_true_eq]
    omega

/-- A command that reports to an agent, whose effect on a stopped one is to hold `m`, leaves `m` at its input. -/
theorem becomes_held {i : Instr} {l : List Touch} {f : State → State} {u : State} {a : Nat} {m : AgtIn}
    (hi : ∀ s, exec i s = .next (act l f s)) (hf : f u = agtHold u a m) (hb : (agt u a).inbox = [])
    (hn : ∀ n, AgtIn.flits m = some n → n.2 ≤ 16) :
    Becomes i u { u with agt := u.agt.upd a fun x => { x with inbox := x.inbox ++ [m] } } :=
  becomes_keeps i l f u _ hi (fun _ => hf.trans (agtHold_first hb hn)) (keeps_updA u a _)

/-- What reaches a stopped agent waits at its input. -/
theorem becomes_waiting {u : State} {a : Nat} {i : Instr} {m : AgtIn} {c t g st : Nat} {v : Option W64} {data : Bytes}
    {counts : BitVec 256} {o : OpMsg}
    (him : (i, m) ∈ [(Instr.blockEnd a c t, AgtIn.blockEnd c t), (.groupEnd a c t g, .groupEnd c t g),
      (.engDone a c t v, .engDone c t v), (.credit a counts, .credit counts), (.agentPortOp a o, .op o),
      (.answer a c t st (v.getD 0) data, .answer c t st (v.getD 0) data)])
    (hs : agtShut u a = true) (hb : (agt u a).inbox = []) (hn : ∀ n, AgtIn.flits m = some n → n.2 ≤ 16) :
    Becomes i u { u with agt := u.agt.upd a fun x => { x with inbox := x.inbox ++ [m] } } := by
  simp only [List.mem_cons, Prod.mk.injEq, List.not_mem_nil, or_false] at him
  rcases him with ⟨rfl, rfl⟩ | ⟨rfl, rfl⟩ | ⟨rfl, rfl⟩ | ⟨rfl, rfl⟩ | ⟨rfl, rfl⟩ | ⟨rfl, rfl⟩
  · exact becomes_held (f := fun s => blockEnd s a c t) (fun _ => rfl) (if_pos hs) hb hn
  · exact becomes_held (f := fun s => groupEnd s a c t g) (fun _ => rfl) (if_pos hs) hb hn
  · exact becomes_held (f := fun s => engDone s a c t v) (fun _ => rfl) (if_pos hs) hb hn
  · exact becomes_held (f := fun s => engCredit s a counts) (fun _ => rfl) (if_pos hs) hb hn
  · exact becomes_held (f := fun s => agentPortOp s a o) (fun _ => rfl) (if_pos hs) hb hn
  · exact becomes_held (f := fun s => coreAnswer s a c t st (v.getD 0) data) (fun _ => rfl) (if_pos hs) hb hn

/-! ### The downstream FIFO (R405) -/

/-- A returned credit lets waiting messages leave. -/
theorem dnCredit_ready {u : State} {a : Nat} (hp : (agt u a).portRdy = true) :
    dnCredit u a = dnPump a (agt u a).dnQ (updA u a fun x => { x with dnCred := min 16 (x.dnCred + 1) }) := by
  unfold dnCredit
  rw [if_pos hp]
  dsimp only
  rw [agt_updA_same]

theorem dnCredit_unready {u : State} {a : Nat} (hp : (agt u a).portRdy = false) : dnCredit u a = u :=
  if_neg (by rw [hp]; decide)

/-- A message leaves while its credits last. -/
theorem dnPump_leaves {u : State} {a : Nat} {m : DnMsg} (hc : dnFlits m ≤ (agt u a).dnCred) (hs : (agt u a).stopped = false)
    (hp : (agt u a).portRdy = true) (r : List DnMsg) :
    dnPump a (m :: r) u =
      dnPump a r (emit (dnLeft (updA u a fun x => { x with dnCred := x.dnCred - dnFlits m }) a m) (.dn a m)) := by
  rw [dnPump]
  exact if_pos ⟨hc, by rw [hs]; rfl, hp⟩

/-! ### Capacity and activity (R99, R340, R408, R409) -/

/-- The record of a core of a cluster that is ready is kept, and from Ready on passed to DIS. -/
theorem capacityRecord_kept {u : State} {a core : Nat} (hp : (agt u a).portRdy = true) (hc : core < 16) (res : Res) {s : State}
    (hs : s = updA u a fun x => { x with capRec := x.capRec.put core res }) :
    capacityRecord u a core res =
      if isReady u = true then emit s (.cap a { core := core, rknFree := false, part := 0, res := res }) else s := by
  subst hs
  unfold capacityRecord
  rw [hp]
  refine if_neg ?_
  simp only [Bool.not_true, Bool.false_eq_true, false_or]
  omega

/-- The first activity of a launch in a window is progress. -/
theorem activity_first {u : State} {a n : Nat} {gen : BitVec 16} (h : (agt u a).acts.contains (n, gen) = false) :
    activity u a n gen = progress (updA u a fun x => { x with acts := x.acts ++ [(n, gen)] }) (queueOfNode u n) := by
  unfold activity
  rw [h]
  exact if_neg (by decide)

/-! ### The statement -/

/-- Settles O31: each report by its effect, and what reaches a stopped agent. -/
theorem clusterReports : Obligations.ClusterReports := by
  intro u a
  refine ⟨fun core tag v o rest hs ht ha s hdone => ?done, fun core tag v hs ht => ?missing,
    fun i m c t g v st data counts o him hs hb hn => becomes_waiting him hs hb hn, fun counts hs => ?credit,
    fun hp s hcredit => ?ready, fun hp => ?unready, fun m r hc hs hp => dnPump_leaves hc hs hp r,
    fun core res hp hc s hkept => ?capacity, fun core => ?active, fun n gen => activity_first⟩
  case done =>
    subst hdone
    exact becomes_keeps _ _ (fun s => engDone s a core tag v) u _ (fun _ => rfl) (fun _ => engDone_found hs ht ha v)
      ((((keeps_updR u a _).trans (keeps_setS _ _ _ _)).trans (keeps_setPend _ _ _ _)).trans (keeps_activity _ _ _ _))
  case missing =>
    exact becomes_keeps _ _ (fun s => engDone s a core tag v) u _ (fun _ => rfl) (fun _ => engDone_missing hs ht v)
      (keeps_count u _)
  case credit =>
    exact becomes_keeps _ _ (fun s => engCredit s a counts) u _ (fun _ => rfl) (fun _ => engCredit_returned hs counts)
      (keeps_updA u a _)
  case ready =>
    subst hcredit
    exact becomes_keeps _ _ (fun s => dnCredit s a) u _ (fun _ => rfl) (fun _ => dnCredit_ready hp)
      ((keeps_updA u a _).trans (keeps_dnPump a _ _))
  case unready =>
    exact becomes_keeps _ _ (fun s => dnCredit s a) u u (fun _ => rfl) (fun _ => dnCredit_unready hp) (.refl u)
  case capacity =>
    have hrecord := capacityRecord_kept hp hc res hkept
    have hkeep : Keeps u s := by
      rw [hkept]
      exact keeps_updA u a _
    refine ⟨fun hr => ?passed, fun hr => ?stays⟩
    case passed =>
      exact becomes_keeps _ _ (fun s => capacityRecord s a core res) u _ (fun _ => rfl) (fun _ => hrecord.trans (if_pos hr))
        (hkeep.trans (keeps_emit s _))
    case stays =>
      exact becomes_keeps _ _ (fun s => capacityRecord s a core res) u _ (fun _ => rfl)
        (fun _ => hrecord.trans (if_neg (by rw [hr]; decide))) hkeep
  case active =>
    exact becomes_keeps _ _ (fun s => apAct s a core) u _ (fun _ => rfl) (fun _ => rfl)
      (Keeps.foldl _ _ u fun s b => keeps_activity s a b.node b.gen)

end Sys2Proof.Machine
end

section
/-!
PROOFS. Control registers of the units: PAUSE, batching tables, the debug register and FORCE of an agent, a group's VALID, a
spare-in's START and a port's EN; with them the statement on the units' switches is settled.
-/

namespace Sys2Proof.Machine

open Sys2Proof

/-! ### PDM_PART_CTRL.PAUSE (R109) -/

/-- PAUSE is the one register field at 0x500000, and no counter stands there. -/
theorem rwMask_pause (u : State) : rwMask u 0x500000 = 0xFFFF := rfl

theorem counterAt_pause (u : State) : counterAt u 0x500000 = none :=
  counterAt_none (lo := 0x500000) (hi := 0x500001) (by decide +kernel) (by decide) (by decide) (by decide)

theorem writeReg_pause (u : State) (p : Port) (v m : Nat) : writeReg u p 0x500000 v m = plainWrite u 0x500000 v m :=
  writeReg_plain p v m (by rw [rwMask_pause]; decide) (counterAt_pause u)

theorem becomes_pause {u : State} {x : Access} (hp : x.port ≠ .dbg) (hk : busOp u x = .pause)
    (h1 : OneReg u (beatOf u x) 0x500000) (hm : beatMask u (beatOf u x) 0x500000 &&& 0xFFFF ≠ 0) :
    Becomes (.pdmPartCtrlWrite x) u
      { wrote u x with regs := u.regs.put 0x500000 (rwWritten u (beatOf u x) 0x500000) } :=
  becomes_writing (fun t => writeBeat t x.port (beatOf u x)) (regSet (halfUsed u x) 0x500000 _) (fun _ => rfl) hp hk rfl
    (writeBeat_rw (u := halfUsed u x) x.port (oneReg_halfUsed h1) (counterAt_pause _) (by rw [rwMask_pause]; exact hm)) rfl
    (.refl u)

/-! ### PDM_BT_CFG.EN (R121, R122) -/

/-- What a write of PDM_BT_CFG with EN = 1 leaves in the register of an OFF table. -/
def btOnCfg (s : State) (b v : Nat) : State := regSet s (btAddr b) (BitVec.ofNat 64 ((v &&& btCfgMask) + 1))

section
variable {s : State} {b v : Nat}

/-- A table that is OFF, and that no fault interrupted, is enabled where its checks hold. -/
theorem btCfgWrite_on (hs : (bt s b).st = .off) (hi : (bt s b).interrupted = false) (hv : bitOf v 0 = true) :
    btCfgWrite s b v =
      if btChecks (btOnCfg s b v) b = true then
        updBt (btOnCfg s b v) b fun t => { t with st := .idle, stopping := false }
      else count s .pdmBtErr := by
  have hcfg : btCfgWrite s b v =
      if !btChecks (btOnCfg s b v) b || (false && !stepRoom (btOnCfg s b v) b) then count s .pdmBtErr
      else updBt (btOnCfg s b v) b fun t => { t with st := .idle, stopping := false } := by
    unfold btCfgWrite
    simp only [hs, hi, hv, beq_self_eq_true, Bool.not_true, Bool.false_and, Bool.true_and, Bool.false_eq_true, if_true, if_false]
    rfl
  rw [hcfg]
  cases btChecks (btOnCfg s b v) b <;> rfl

/-- EN = 0 beside the fields as they are turns a table OFF, at once or after its step. -/
theorem btCfgWrite_off (hs : (bt s b).st ≠ .off) (hv : bitOf v 0 = false)
    (hm : v &&& btCfgMask = (regGet s (btAddr b)).toNat &&& btCfgMask) :
    btCfgWrite s b v = updBt (regSet s (btAddr b) (BitVec.ofNat 64 (v &&& btCfgMask))) b fun t =>
      if t.st = .stepping then { t with stopping := true } else { t with st := .off } := by
  have hoff : ((bt s b).st == .off) = false := beq_eq_false_iff_ne.mpr hs
  have hcfg : btCfgWrite s b v =
      let s1 := regSet s (btAddr b) (BitVec.ofNat 64 (v &&& btCfgMask))
      if (bt s b).st = .stepping then updBt s1 b fun t => { t with stopping := true }
      else updBt s1 b fun t => { t with st := .off } := by
    unfold btCfgWrite
    simp only [hoff, hv, ← hm, Bool.not_false, Bool.true_and, Bool.false_and, bne_self_eq_false, Bool.false_eq_true, if_false]
    rfl
  rw [hcfg]
  dsimp only
  unfold bt
  split
  case isTrue h =>
    unfold updBt Tab.upd
    dsimp only [regSet_pdm]
    rw [if_pos h]
  case isFalse h =>
    unfold updBt Tab.upd
    dsimp only [regSet_pdm]
    rw [if_neg h]

end

section
variable {u : State} {x : Access} {b v : Nat} (hp : x.port ≠ .dbg)
  (hv : v = mergeBits (regGet u (btAddr b)).toNat (beatOf u x).data (beatOf u x).mask)
include hp hv

theorem becomes_btEnable (hk : busOp u x = .btOn b) (hs : (bt u b).st = .off) (hi : (bt u b).interrupted = false)
    (hon : bitOf v 0 = true) :
    (btChecks (btOnCfg u b v) b = true →
      Becomes (.btEnable x) u
        { wrote u x with regs := u.regs.put (btAddr b) (BitVec.ofNat 64 ((v &&& btCfgMask) + 1)),
                         pdm.bt := u.pdm.bt.upd b fun t => { t with st := .idle, stopping := false } }) ∧
    (btChecks (btOnCfg u b v) b = false → Becomes (.btEnable x) u (count (wrote u x) .pdmBtErr)) := by
  subst hv
  have hcfg := btCfgWrite_on (s := halfUsed u x) hs hi hon
  refine ⟨fun hc => ?_, fun hc => ?_⟩
  · exact becomes_writing (fun s => btCfgWrite s b _) (updBt (btOnCfg (halfUsed u x) b _) b _) (fun _ => rfl) hp hk rfl
      (hcfg.trans (if_pos hc)) rfl (.refl u)
  · exact becomes_writing (fun s => btCfgWrite s b _) (count (halfUsed u x) .pdmBtErr) (fun _ => rfl) hp hk rfl
      (hcfg.trans (if_neg (Bool.eq_false_iff.mp hc))) rfl (.refl u)

theorem becomes_btDisable (hk : busOp u x = .btOff b) (hs : (bt u b).st ≠ .off) (hoff : bitOf v 0 = false)
    (hm : v &&& btCfgMask = (regGet u (btAddr b)).toNat &&& btCfgMask) :
    Becomes (.btDisable x) u
      { wrote u x with regs := u.regs.put (btAddr b) (BitVec.ofNat 64 (v &&& btCfgMask)),
                       pdm.bt := u.pdm.bt.upd b fun t =>
                         if t.st = .stepping then { t with stopping := true } else { t with st := .off } } := by
  subst hv
  exact becomes_writing (fun s => btCfgWrite s b _) (updBt (regSet (halfUsed u x) (btAddr b) _) b _) (fun _ => rfl) hp hk rfl
    (btCfgWrite_off (s := halfUsed u x) hs hoff hm) rfl (.refl u)

end

/-! ### RKN_DBG (R138, R140) -/

section
variable {s : State} {a : Nat}

theorem dbgResume_ignored (h : dbgIgnored s a = true) : dbgResume s a = count s (.agtBadLaunch a) := if_pos h

/-- A Reckoner in DEBUG that stands at no break runs on. -/
theorem dbgResume_runs (h : dbgIgnored s a = false) (hb : (rkn s a).atBreak = false) :
    dbgResume s a = updR s a fun r => { r with st := .running } := by
  unfold dbgResume passBreak
  rw [h, hb]
  rfl

theorem dbgStep_ignored (feat : State → W64) (h : dbgIgnored s a = true) :
    dbgStep feat s a = count s (.agtBadLaunch a) := if_pos h

/-- The Reckoner that steps: behind its break, it runs for one instruction. -/
def dbgStepping (s : State) (a : Nat) : State := updR (passBreak s a) a fun r => { r with st := .running, stepping := true }

theorem dbgStep_executes (feat : State → W64) (h : dbgIgnored s a = false) :
    dbgStep feat s a = rknRow (dbgStepping s a) a (rknWordAt (dbgStepping s a) a % 256)
      (insOf feat (rknWordAt (dbgStepping s a) a % 256) a) :=
  if_neg (by rw [h]; decide)

theorem dbgStepping_unbroken (hb : (rkn s a).atBreak = false) :
    dbgStepping s a = updR s a fun r => { r with st := .running, stepping := true } := by
  unfold dbgStepping passBreak
  rw [hb]
  rfl

/-- A step over a NOP only moves on. -/
theorem dbgStep_nop (feat : State → W64) (hc : Calm s) (h : dbgIgnored s a = false) (hb : (rkn s a).atBreak = false)
    (hs : agtShut s a = false) (hw : rknWordAt s a = 1) {w : State}
    (hstep : w = updR s a fun r => { r with st := .running, stepping := true }) :
    dbgStep feat s a = stepped w a w := by
  have hrkn : rkn w a = { rkn s a with st := .running, stepping := true } := by
    rw [hstep, rkn_updR_same]
  have hshut : agtShut w a = false := by
    have hagt : (agt w a).stopped = (agt s a).stopped := by
      rw [hstep]
      unfold updR
      rw [agt_updA_same]
    have hslt : w.slt = s.slt := by rw [hstep]; rfl
    unfold agtShut at hs ⊢
    rw [hagt, hslt]
    exact hs
  have hword : rknWordAt w a = 1 := by
    rw [← hw]
    unfold rknWordAt
    rw [hrkn]
  have hcalm : Calm w := by
    rw [hstep]
    exact hc
  rw [dbgStep_executes feat h, dbgStepping_unbroken hb, ← hstep, hword]
  exact row_clear (ins := insNop a) hcalm ⟨hshut, by rw [hrkn], hword, rfl⟩ rfl ⟨rfl, rfl, rfl, rfl⟩

end

section
variable {u : State} {x : Access} {a : Nat} (hp : x.port ≠ .dbg)
include hp

theorem becomes_dbgResume (hk : busOp u x = .dbgResume a) :
    (dbgIgnored u a = true → Becomes (.rknDbgResume x) u (count (wrote u x) (.agtBadLaunch a))) ∧
    (dbgIgnored u a = false → (rkn u a).atBreak = false →
      Becomes (.rknDbgResume x) u
        { wrote u x with agt := u.agt.upd a fun g => { g with rkn := { g.rkn with st := .running } } }) := by
  refine ⟨fun h => ?_, fun h hb => ?_⟩
  · exact becomes_writing (fun s => dbgResume s a) (count (halfUsed u x) (.agtBadLaunch a)) (fun _ => rfl) hp hk rfl
      (dbgResume_ignored h) rfl (.refl u)
  · exact becomes_writing (fun s => dbgResume s a) (updR (halfUsed u x) a _) (fun _ => rfl) hp hk rfl
      (dbgResume_runs (s := halfUsed u x) h hb) rfl (.refl u)

theorem becomes_dbgStep_ignored (hk : busOp u x = .dbgStep a) (h : dbgIgnored u a = true) :
    Becomes (.rknDbgStep x) u (count (wrote u x) (.agtBadLaunch a)) :=
  becomes_writing (fun s => dbgStep hifFeat s a) (count (halfUsed u x) (.agtBadLaunch a)) (fun _ => rfl) hp hk rfl
    (dbgStep_ignored hifFeat h) rfl (.refl u)

theorem ends_dbgStep (hk : busOp u x = .dbgStep a) (h : dbgIgnored u a = false) {w : State}
    (hw : w = dbgStepping (halfUsed u x) a) :
    Ends (.rknDbgStep x) u
      (emit (rknRow w a (rknWordAt w a % 256) (insOf hifFeat (rknWordAt w a % 256) a)) (.axi false 0)) := by
  subst hw
  exact ends_access (fun _ => rfl) hp hk ((writing_port u x (fun s => dbgStep hifFeat s a) hp).trans
    (congrArg (emit · _) (dbgStep_executes (s := halfUsed u x) hifFeat h)))

theorem becomes_dbgStep_nop (hk : busOp u x = .dbgStep a) (h : dbgIgnored u a = false) (hb : (rkn u a).atBreak = false)
    (hs : agtShut u a = false) (hn : rknWordAt u a = 1) {w : State}
    (hw : w = updR (halfUsed u x) a fun r => { r with st := .running, stepping := true }) :
    Becomes (.rknDbgStep x) u (emit (stepped w a w) (.axi false 0)) := by
  have hkeep : Keeps u w := by
    rw [hw]
    exact (show Keeps u (halfUsed u x) from .refl u).trans (keeps_updR _ a _)
  refine becomes_keeps _ _ _ u _ (fun _ => rfl) (fun hc => ?_) ((hkeep.trans (keeps_stepped w a w)).trans (keeps_emit _ _))
  refine (onPort_of_busOp hp hk _).trans ((writing_port u x (fun s => dbgStep hifFeat s a) hp).trans ?_)
  exact congrArg (emit · _) (dbgStep_nop (s := halfUsed u x) hifFeat hc h hb hs hn hw)

end

/-! ### AGT_SPARE_CFG.FORCE (R145) -/

theorem requestSwap_unused {s : State} {a : Nat} (h : (agt s a).spareUsed = false) :
    requestSwap s a = updA s a fun g => { g with swapReq := true } := by
  unfold requestSwap
  rw [h]
  rfl

theorem becomes_spareForce {u : State} {x : Access} {a r : Nat} (hp : x.port ≠ .dbg) (hk : busOp u x = .spareForce a)
    (h1 : OneReg u (beatOf u x) r) (hc : counterAt u r = none) (hm : beatMask u (beatOf u x) r &&& rwMask u r ≠ 0)
    (hs : (agt u a).spareUsed = false) :
    Becomes (.agtSpareForce x) u
      { wrote u x with regs := u.regs.put r (rwWritten u (beatOf u x) r),
                       agt := u.agt.upd a fun g => { g with swapReq := true } } := by
  have hwrite := writeBeat_rw (u := halfUsed u x) x.port (oneReg_halfUsed h1) hc hm
  exact becomes_writing (fun t => spareForce (writeBeat t x.port (beatOf u x)) a)
    (updA (regSet (halfUsed u x) r (rwWritten u (beatOf u x) r)) a _) (fun _ => rfl) hp hk rfl
    ((congrArg (requestSwap · a) hwrite).trans (requestSwap_unused (s := regSet (halfUsed u x) r _) hs)) rfl (.refl u)

/-! ### CMB_GRP_A.VALID (R235) -/

/-- What a write of CMB_GRP_A leaves in the fields beside VALID. -/
def grpFields (s : State) (g v : Nat) : State :=
  regSet s (grpAddr g)
    (BitVec.ofNat 64 ((regGet s (grpAddr g)).toNat - ((regGet s (grpAddr g)).toNat &&& grpMask 0) + (v &&& grpMask 0)))

/-- A group that is made VALID starts zeroing. -/
def grpZeroing (s : State) (g : Nat) : State :=
  updG (regSetFld s (grpAddr g) 63 63 1) g fun y => { y with st := .zeroing, done := 0 }

section
variable {s : State} {g v : Nat}

/-- VALID = 1 of a group that is not VALID is taken where its checks hold and it is IDLE. -/
theorem grpWrite_valid (hn : grpValid s g = false) (hv : bitOf v 63 = true) :
    grpWrite s g 0 v =
      if grpChecks (grpFields s g v) g = true ∧ (grp s g).st = .idle then grpZeroing (grpFields s g v) g
      else count s .cmbCfgIgn := by
  have hwrite : grpWrite s g 0 v =
      if grpChecks (grpFields s g v) g && (grp s g).st == .idle then grpZeroing (grpFields s g v) g
      else count s .cmbCfgIgn := by
    unfold grpWrite
    simp only [hn, hv, Bool.not_false, if_true, Bool.true_and, decide_true]
    rfl
  rw [hwrite]
  simp only [Bool.and_eq_true, beq_iff_eq]

theorem grp_grpZeroing (s : State) (g : Nat) : grp (grpZeroing s g) g = { grp s g with st := .zeroing, done := 0 } := by
  unfold grp grpZeroing updG
  dsimp only [regSetFld_cmb]
  rw [Tab.look_upd_same]

end

theorem becomes_grpValid {u : State} {x : Access} {g v : Nat} (hp : x.port ≠ .dbg) (hk : busOp u x = .grpValid g)
    (h1 : OneReg u (beatOf u x) (grpAddr g)) (hg : g < 256)
    (hv : v = mergeBits (regGet u (grpAddr g)).toNat (beatVal u (beatOf u x) (grpAddr g))
      (beatMask u (beatOf u x) (grpAddr g)))
    (hon : bitOf v 63 = true) (hn : grpValid u g = false) (hc : grpChecks (grpFields u g v) g = true)
    (hi : (grp u g).st = .idle) :
    Becomes (.cmbGroupValid x) u
      { wrote u x with regs := (regSetFld (grpFields u g v) (grpAddr g) 63 63 1).regs,
                       cmb := { u.cmb with grps := u.cmb.grps.upd g fun y => { y with st := .zeroing, done := 0 } } } := by
  obtain ⟨_, _, hlock, _⟩ := id h1
  have hwrite : writeBeat (halfUsed u x) x.port (beatOf u x) = grpWrite (halfUsed u x) g 0 v := by
    rw [hv]
    exact (writeBeat_one (u := halfUsed u x) x.port (oneReg_halfUsed h1)).trans
      (writeReg_group (s := halfUsed u x) x.port _ _ hg hlock)
  have hvalid := (grpWrite_valid (s := halfUsed u x) hn hon).trans (if_pos ⟨hc, hi⟩)
  exact becomes_writing (fun t => writeBeat t x.port (beatOf u x)) (grpZeroing (grpFields (halfUsed u x) g v) g)
    (fun _ => rfl) hp hk rfl (hwrite.trans hvalid) rfl (.refl u)

/-! ### SLT_VSPARE_CTRL.START (R260, R355) -/

/-- The vaults of a spare-in from logical vault `l` to spare `t` fit, and none is under way. -/
def SpareFits (u : State) (l t : Nat) : Prop :=
  (u.slt.vs = .idle ∨ u.slt.vs = .failed) ∧ l ≤ 119 ∧ t < 128 ∧ (vault u t).role = .spare

/-- The fields of a spare-in as management firmware writes them. -/
def spareFields (s : State) (w : Nat) : State := regSet s 0xa02000 (BitVec.ofNat 64 w)

/-- The test of spare `t` for logical vault `l` starts. -/
def spareTesting (s : State) (l t : Nat) : State :=
  { s with slt := { s.slt with vaults := s.slt.vaults.upd t fun y => { y with role := .target },
                               vs := .test, vsLogical := l, vsTarget := t, cursor := 0 } }

theorem vspareStart_fits {s : State} {l t : Nat} (h : SpareFits s l t) : vspareStart s l t = (spareTesting s l t, true) :=
  if_pos h

theorem vspareStart_unfit {s : State} {l t : Nat} (h : ¬ SpareFits s l t) : vspareStart s l t = (s, false) := if_neg h

section
variable {s : State} {b : Beat}

/-- Management firmware starts a spare-in whose vaults fit; one that does not fit is counted. -/
theorem vspareWrite_mgt {w l t : Nat} (hw : w = mergeBits (regGet s 0xa02000).toNat b.data (b.mask &&& 0xF7F7F))
    (hl : l = bitsOf (BitVec.ofNat 64 w).toNat 6 0) (ht : t = bitsOf (BitVec.ofNat 64 w).toNat 14 8) :
    (SpareFits s l t → vspareWrite s .mgt b = spareTesting (spareFields s w) l t) ∧
    (¬ SpareFits s l t → vspareWrite s .mgt b = count s .sltCfgIgn) := by
  have hfields : vspareFields s .mgt b.data b.mask = spareFields s w := by
    subst hw
    exact if_pos rfl
  have hlogical : regFld (spareFields s w) 0xa02000 6 0 = l := (regFld_regSet_same s _ _ 6 0).trans hl.symm
  have htarget : regFld (spareFields s w) 0xa02000 14 8 = t := (regFld_regSet_same s _ _ 14 8).trans ht.symm
  unfold vspareWrite
  rw [hfields, if_neg (fun h => h rfl), hlogical, htarget]
  refine ⟨fun h => ?_, fun h => ?_⟩
  · rw [vspareStart_fits (s := spareFields s w) h]
    rfl
  · rw [vspareStart_unfit (s := spareFields s w) h]
    rfl

/-- Any other port's write is counted, where it has a byte. -/
theorem vspareWrite_other {p : Port} (hp : p ≠ .mgt) (hm : b.mask ≠ 0) : vspareWrite s p b = count s .sltCfgIgn := by
  unfold vspareWrite vspareFields
  rw [if_pos hp, if_neg hp, if_neg hm]

end

theorem becomes_vspare_mgt {u : State} {x : Access} {w l t : Nat} (hk : busOp u x = .vspare) (hp : x.port = .mgt)
    (hw : w = mergeBits (regGet u 0xa02000).toNat (beatOf u x).data ((beatOf u x).mask &&& 0xF7F7F))
    (hl : l = bitsOf (BitVec.ofNat 64 w).toNat 6 0) (ht : t = bitsOf (BitVec.ofNat 64 w).toNat 14 8) :
    (SpareFits u l t →
      Becomes (.vspareStart x) u
        { wrote u x with
            regs := u.regs.put 0xa02000 (BitVec.ofNat 64 w),
            slt := { u.slt with vaults := u.slt.vaults.upd t fun y => { y with role := .target },
                                vs := .test, vsLogical := l, vsTarget := t, cursor := 0 } }) ∧
    (¬ SpareFits u l t → Becomes (.vspareStart x) u (count (wrote u x) .sltCfgIgn)) := by
  have hdbg : x.port ≠ .dbg := by rw [hp]; decide
  obtain ⟨hfits, hunfit⟩ := vspareWrite_mgt (s := halfUsed u x) hw hl ht
  rw [← hp] at hfits hunfit
  exact ⟨fun h => becomes_writing (fun s => vspareWrite s x.port (beatOf u x))
      (spareTesting (spareFields (halfUsed u x) w) l t) (fun _ => rfl) hdbg hk rfl (hfits h) rfl (.refl u),
    fun h => becomes_writing (fun s => vspareWrite s x.port (beatOf u x)) (count (halfUsed u x) .sltCfgIgn)
      (fun _ => rfl) hdbg hk rfl (hunfit h) rfl (.refl u)⟩

theorem becomes_vspare_other {u : State} {x : Access} (hd : x.port ≠ .dbg) (hk : busOp u x = .vspare) (hp : x.port ≠ .mgt)
    (hm : (beatOf u x).mask ≠ 0) : Becomes (.vspareStart x) u (count (wrote u x) .sltCfgIgn) :=
  becomes_writing (fun s => vspareWrite s x.port (beatOf u x)) (count (halfUsed u x) .sltCfgIgn) (fun _ => rfl) hd hk rfl
    (vspareWrite_other hp hm) rfl (.refl u)

/-! ### FAB_PORT_CFG.EN (R291, R294) -/

/-- The half that a register write uses up is no part of what it writes. -/
theorem rwWritten_halfUsed (u : State) (x : Access) (b : Beat) (a : Nat) :
    rwWritten (halfUsed u x) b a = rwWritten u b a := rfl

/-- A one-bit field at bit 0 reads as what was written to it. -/
theorem regFld_regSetFld_bit0 (s : State) (a : Nat) (v : Bool) : regFld (regSetFld s a 0 0 (b2n v)) a 0 0 = b2n v := by
  unfold regSetFld
  dsimp only
  rw [regFld_regSet_same, BitVec.toNat_ofNat]
  unfold bitsOf b2n
  split <;> omega

section
variable {s : State} {k : Nat}

/-- EN = 1 starts training of a DOWN port, and leaves any other as it is. -/
theorem portEnable_down (h : (port s k).st = .down) :
    portEnable s k = updPort s k fun y => { y with st := .train, trainFails := 0 } := if_pos h

theorem portEnable_up (h : (port s k).st ≠ .down) : portEnable s k = s := if_neg h

/-- EN = 0 takes a port DOWN with what it held. -/
theorem portDisable_up (h : (port s k).st ≠ .down) :
    portDisable s k = linkLost (updPort s k fun y => { y with st := .down, failedLanes := 0, lanes := 0, degraded := false }) k :=
  if_neg h

/-- A port as it goes DOWN, with nothing held any more. -/
def portDown (y : FabPort) : FabPort :=
  { y with st := .down, failedLanes := 0, lanes := 0, degraded := false, replay := [], inBuf := [],
           partials := [], tx := [], rx := [], nakSent := false, replays := [], peerReady := false, peerStopped := false,
           trained := false, eqReq := false, ctlQ := [], stopSent := false }

/-- A port that holds nothing only goes DOWN. -/
theorem portDisable_empty (h : (port s k).st ≠ .down) (hr : (port s k).replay = []) (hp : (port s k).partials = [])
    (hi : (port s k).inBuf = []) : portDisable s k = updPort s k portDown := by
  have hport : ∀ f : FabPort → FabPort, port (updPort s k f) k = f (port s k) := fun f => Tab.look_upd_same s.fab.ports k f
  rw [portDisable_up h]
  unfold linkLost
  dsimp only
  rw [hport]
  simp only [hr, hp, hi, List.flatMap_nil, List.filterMap_nil, List.nil_append, List.foldl_nil]
  unfold updPort
  dsimp only
  rw [Tab.upd_upd]
  rfl

end

section
variable {u : State} {x : Access} {k : Nat} {r : Tab W64} (h1 : OneReg u (beatOf u x) (portCfg k)) (hk8 : k < 8)
  (hr : r = (regSetFld (regSet u (portCfg k) (rwWritten u (beatOf u x) (portCfg k))) (portCfg k) 0 0
    (b2n (bitOf (beatOf u x).data 0))).regs)
include h1 hk8 hr

/-- The write of a port's configuration changes its register only. -/
theorem portWrite_halfUsed : portWrite (halfUsed u x) x.port k (beatOf u x) = { halfUsed u x with regs := r } := by
  have hwrite := portWrite_one (u := halfUsed u x) x.port hk8 (oneReg_halfUsed h1)
  rw [rwWritten_halfUsed] at hwrite
  subst hr
  generalize rwWritten u (beatOf u x) (portCfg k) = w at hwrite ⊢
  exact hwrite

theorem becomes_portOn (hp : x.port ≠ .dbg) (hk : busOp u x = .portOn k) (hs : (port u k).st = .down) :
    Becomes (.fabPortEnable x) u
      { wrote u x with regs := r,
                       fab := { u.fab with ports := u.fab.ports.upd k fun y => { y with st := .train, trainFails := 0 } } } :=
  becomes_writing (fun t => portEnable (portWrite t x.port k (beatOf u x)) k) (updPort { halfUsed u x with regs := r } k _)
    (fun _ => rfl) hp hk rfl
    ((congrArg (portEnable · k) (portWrite_halfUsed h1 hk8 hr)).trans
      (portEnable_down (s := { halfUsed u x with regs := r }) hs)) rfl (.refl u)

theorem becomes_portOff (hp : x.port ≠ .dbg) (hk : busOp u x = .portOff k) (hs : (port u k).st ≠ .down)
    (hrep : (port u k).replay = []) (hpart : (port u k).partials = []) (hin : (port u k).inBuf = []) :
    Becomes (.fabPortDisable x) u
      { wrote u x with regs := r, fab := { u.fab with ports := u.fab.ports.upd k portDown } } :=
  becomes_writing (fun t => portDisable (portWrite t x.port k (beatOf u x)) k)
    (updPort { halfUsed u x with regs := r } k portDown) (fun _ => rfl) hp hk rfl
    ((congrArg (portDisable · k) (portWrite_halfUsed h1 hk8 hr)).trans
      (portDisable_empty (s := { halfUsed u x with regs := r }) hs hrep hpart hin)) rfl (.refl u)

end

/-! ### The statement -/

/-- A register write whose effect is `f` ends in what `f` leaves with the held half used up, and the answer. -/
theorem ends_writing {i : Instr} {l : List Touch} {u : State} {x : Access} {k : BusOp} {pick : State → BusOp → Option State}
    (f : State → State) (hi : ∀ s, exec i s = .next (act l (fun s => onPort s x (pick s)) s)) (hp : x.port ≠ .dbg)
    (hk : busOp u x = k) (hf : pick u k = some (writing u x f)) : Ends i u (emit (f (halfUsed u x)) (.axi false 0)) :=
  ends_access hi hp hk (by rw [hf, Option.getD_some, writing_port u x f hp])

/-- Settles O11: each control register by its command, with what the units make of it. -/
theorem unitSwitches : Obligations.UnitSwitches := by
  refine ⟨fun u x hp => ⟨fun hk => ?pause, fun b hk hs hi v hv hon => becomes_btEnable hp hv hk hs hi hon,
      fun b hk hs v hv hoff hm => becomes_btDisable hp hv hk hs hoff hm, fun a hk => becomes_dbgResume hp hk,
      fun a hk => ?step, fun a hk => ?force⟩,
    fun u x hp => ⟨fun g hk => ?valid, fun g v hn hv s1 hs1 => ?group, fun g b v s1 hk hb h1 hg hv hon hs1 hn hc hi => ?zeroing,
      fun hk b w l t hb hw hl ht => ?vspare⟩,
    fun u x k hp => ⟨fun hk => ?on, fun hk => ?off, fun p b => regFld_regSetFld_bit0 (writeBeat u p b) (portCfg k) _,
      fun b r hb hk8 h1 hr => ?port, portEnable_down, fun h => ⟨portEnable_up h, portDisable_up h⟩⟩⟩
  case pause =>
    refine ⟨ends_writing (fun t => writeBeat t x.port (beatOf u x)) (fun _ => rfl) hp hk rfl,
      fun v m => ⟨writeReg_pause u x.port v m, rwMask_pause u⟩, fun b hb h1 hm => ?_⟩
    subst hb
    exact becomes_pause hp hk h1 hm
  case step =>
    exact ⟨becomes_dbgStep_ignored hp hk, fun h => ends_dbgStep hp hk h rfl,
      fun h hb hs hn w hw => becomes_dbgStep_nop hp hk h hb hs hn hw⟩
  case force =>
    refine ⟨ends_writing (fun t => spareForce (writeBeat t x.port (beatOf u x)) a) (fun _ => rfl) hp hk rfl, fun hs => ?_,
      fun hs => if_pos hs, fun b r hb _ h1 hc hm hs => ?_⟩
    · rw [requestSwap_unused hs, agt_updA_same]
    · subst hb
      exact becomes_spareForce hp hk h1 hc hm hs
  case valid => exact ends_writing (fun t => writeBeat t x.port (beatOf u x)) (fun _ => rfl) hp hk rfl
  case group =>
    have hwrite := grpWrite_valid hn hv
    rw [show grpFields u g v = s1 from hs1.symm] at hwrite
    refine ⟨fun hc hi => ?taken, fun hno => ?ignored⟩
    case taken =>
      rw [hwrite, if_pos ⟨hc, hi⟩, grp_grpZeroing]
      exact ⟨rfl, rfl, rfl⟩
    case ignored =>
      refine hwrite.trans (if_neg fun ⟨hc, hi⟩ => hno.elim (fun h => ?_) fun h => h hi)
      rw [hc] at h
      cases h
  case zeroing =>
    subst hb hs1
    exact becomes_grpValid hp hk h1 hg hv hon hn hc hi
  case vspare =>
    subst hb
    exact ⟨fun hm => (becomes_vspare_mgt hk hm hw hl ht).left, fun hm => (becomes_vspare_mgt hk hm hw hl ht).right,
      fun hm hbytes => becomes_vspare_other hp hk hm hbytes⟩
  case on => exact ends_writing (fun t => portEnable (portWrite t x.port k (beatOf u x)) k) (fun _ => rfl) hp hk rfl
  case off => exact ends_writing (fun t => portDisable (portWrite t x.port k (beatOf u x)) k) (fun _ => rfl) hp hk rfl
  case port =>
    subst hb
    exact ⟨fun hk hs => becomes_portOn h1 hk8 hr hp hk hs,
      fun hk hs hrep hpart hin => becomes_portOff h1 hk8 hr hp hk hs hrep hpart hin⟩

end Sys2Proof.Machine
end

section
/-!
PROOFS. Control instructions of the Reckoner: what their checks ask for and what each of them does; with them the statement on
control instructions is settled.
-/

namespace Sys2Proof.Machine

open Sys2Proof

/-! ### Checks that pass (R147, R148) -/

@[simp] theorem ifHalt_false (r : Nat) : ifHalt false r = [] := rfl

@[simp] theorem ifHalt_true (r : Nat) : ifHalt true r = [r] := rfl

@[simp] theorem isPend_zero (u : State) (a : Nat) : isPend u a 0 = false := rfl

/-- An instruction one of whose checks fails halts with the reason that ranks first. -/
theorem ends_halted {i : Instr} {u : State} {a code w r : Nat} {ins : State → Nat → RknIns}
    (he : ∀ s, exec i s = .next (act [] (fun s => rknRow s a code ins) s)) (h : AtIns u a code w)
    (ho : rknOpcode code = true) (hr : worstHalt ((ins u w).fixed ++ (ins u w).made u a) = some r) :
    Ends i u (rknHaltAt u a r (rkn u a).pc.toNat false) :=
  ends_act _ _ _ _ _ he fun hc => row_halt hc h ho hr

section
variable {u : State} {a w : Nat}

theorem clear_insNop (hm : w &&& maskN = w) : Clear u a (insNop a u w) := ⟨rfl, rfl, resv_ok hm, rfl⟩

theorem clear_insEnd (hm : w &&& maskN = w) : Clear u a (insEnd a u w) := ⟨rfl, rfl, resv_ok hm, rfl⟩

theorem clear_insBreak (hm : w &&& maskN = w) (hd : debugFull u (rknPart u a) = true) : Clear u a (insBreak a u w) :=
  ⟨rfl, rfl, by simp [insBreak, resv_ok hm, hd], rfl⟩

theorem clear_insFeat (feat : State → W64) (hm : w &&& maskI = w) (hi : bitsOf w 63 32 ≤ 4) (h1 : rs1 w = 0)
    (hd : isPend u a (rd w) = false) : Clear u a (insFeat feat a u w) :=
  ⟨rfl, hd, by simp [insFeat, resv_ok hm, wf, h1, Nat.not_lt.mpr hi], rfl⟩

section
variable (ht : bitsOf w 63 48 % 8 = 0)
include ht

theorem clear_insJmp (hm : w &&& maskRT = w) (hd : rd w = 0) (h1 : rs1 w = 0) (h2 : rs2 w = 0) :
    Clear u a (insJmp a u w) :=
  ⟨rfl, rfl, by simp [insJmp, resv_ok hm, wf, hd, h1, h2, ht], rfl⟩

theorem clear_insJal (hm : w &&& maskRT = w) (hd : isPend u a (rd w) = false) (h1 : rs1 w = 0) (h2 : rs2 w = 0) :
    Clear u a (insJal a u w) :=
  ⟨rfl, hd, by simp [insJal, resv_ok hm, wf, h1, h2, ht], rfl⟩

theorem clear_insBcc (hm : w &&& maskB = w) (hd : rd w ≤ 9) (hz : bitsOf w 47 32 = 0) (h1 : isPend u a (rs1 w) = false)
    (h2 : isPend u a (rs2 w) = false) : Clear u a (insBcc a u w) :=
  ⟨by simp [insBcc, h1, h2], rfl, by simp [insBcc, resv_ok hm, wf, Nat.not_lt.mpr hd, hz, ht], rfl⟩

theorem clear_insBcci (hm : w &&& maskB = w) (hd : rd w ≤ 5) (h2 : rs2 w = 0) (h1 : isPend u a (rs1 w) = false) :
    Clear u a (insBcci a u w) :=
  ⟨by simp [insBcci, h1], rfl, by simp [insBcci, resv_ok hm, wf, Nat.not_lt.mpr hd, h2, ht], rfl⟩

end

theorem clear_insJr (hm : w &&& maskR = w) (hd : rd w = 0) (h2 : rs2 w = 0) (h1 : isPend u a (rs1 w) = false)
    (ha : (getS u a (rs1 w)).toNat % 8 = 0) (hr : (getS u a (rs1 w)).toNat < 2 ^ 16) : Clear u a (insJr a u w) := by
  refine ⟨by simp [insJr, h1], rfl, by simp [insJr, resv_ok hm, hd, h2], ?_⟩
  rw [made_one (l := [rs1 w]) rfl (by simp [h1])]
  rw [ha, decide_eq_false (Nat.not_le.mpr hr)]
  rfl

/-! ### WAIT and FEAT (R152, R153) -/

/-- WAIT stalls while an operation or a request that it names is open. -/
theorem insWait_act {cores : List Nat}
    (hc : cores = (if bitsOf w 47 32 = 0 then List.range (rknLaunch u a).blocks
      else (List.range 16).filter fun k => bitOf (bitsOf w 47 32) k).map (physCore u a)) :
    (insWait a u w).act u =
      if ((rkn u a).ops.any fun o => bitOf (bitsOf w 11 8) o.eng && cores.contains o.core) = true ∨
          (bitsOf w 12 12 = 1 ∧ (rkn u a).reqs ≠ []) then
        .stall (count u (.rknStallSb a))
      else .next u := by
  subst hc
  have hopen : (insWait a u w).act u = if (_ || (decide (bitsOf w 12 12 = 1) && !(rkn u a).reqs.isEmpty)) = true then
      .stall (count u (.rknStallSb a)) else .next u := rfl
  rw [hopen]
  refine ite_congr (propext ?_) (fun _ => rfl) fun _ => rfl
  rw [Bool.or_eq_true, Bool.and_eq_true, decide_eq_true_eq, Bool.not_eq_true', List.isEmpty_eq_false_iff]
  rfl

/-- The words that FEAT reads. -/
theorem insFeat_act {k : Nat} {v : W64} (hk : bitsOf w 63 32 = k)
    (hv : (k, v) ∈ [(0, rknFeat0), (1, (agt u a).eng), (2, hifFeat u),
      (3, BitVec.ofNat 64 (a + (rknLaunch u a).blocks % 32 * 2 ^ 8 + (rknLaunch u a).part * 2 ^ 16 +
        blockId u % 4096 * 2 ^ 32)), (4, u.ts)]) :
    k ≤ 4 ∧ (insFeat hifFeat a u w).act u = .next (setS u a (rd w) v) := by
  have hact : (insFeat hifFeat a u w).act u = .next (setS u a (rd w) (match bitsOf w 63 32 with
    | 0 => rknFeat0
    | 1 => (agt u a).eng
    | 2 => hifFeat u
    | 3 => BitVec.ofNat 64 (a + (rknLaunch u a).blocks % 32 * 2 ^ 8 + (rknLaunch u a).part * 2 ^ 16 +
        blockId u % 4096 * 2 ^ 32)
    | _ => u.ts)) := rfl
  rw [hact, hk]
  simp only [List.mem_cons, Prod.mk.injEq, List.not_mem_nil, or_false] at hv
  rcases hv with ⟨rfl, rfl⟩ | ⟨rfl, rfl⟩ | ⟨rfl, rfl⟩ | ⟨rfl, rfl⟩ | ⟨rfl, rfl⟩ <;> exact ⟨by decide, rfl⟩

/-! ### Branches (R155) -/

/-- An instruction that jumps where a condition holds and moves on elsewhere. -/
theorem becomes_branch {i : Instr} {code d : Nat} {ins : State → Nat → RknIns} {b : Bool}
    (he : ∀ s, exec i s = .next (act [] (fun s => rknRow s a code ins) s)) (h : AtIns u a code w)
    (ho : rknOpcode code = true) (hi : Clear u a (ins u w)) (hv : (ins u w).act u = if b then .jump u d else .next u) :
    Becomes i u (if b then jumped a d u else stepped u a u) := by
  cases b with
  | true => exact becomes_jump he h ho hi hv (.refl u)
  | false => exact becomes_next he h ho hi hv (.refl u)

end

/-! ### The statement -/

/-- Settles O35, instruction by instruction. -/
theorem controlInstructions : Obligations.ControlInstructions := by
  intro u a w t pc ht hpc
  subst ht hpc
  refine ⟨fun h hm => ?nop, fun h hm => ?last, fun h hm => ⟨fun hd => ?stops, fun hd => ?closed⟩,
    fun cores h hc hcores => ⟨fun ho => ?busy, fun ho hr => ?done⟩, fun k v hv h hm hk h1 hd => ?feat,
    fun h hm hd h1 h2 ht => ?jmp, fun h hm hd h1 h2 ht => ?jal, fun d h hm hd h2 h1 hv ha hr => ?jr,
    fun h hm hd hz ht h1 h2 => ?bcc, fun h hm hd h2 ht h1 => ?bcci, fun x y => ⟨rfl, rfl, rfl, rfl, rfl, rfl⟩⟩
  case nop => exact becomes_next (fun _ => rfl) h rfl (clear_insNop hm) rfl (.refl u)
  case last =>
    exact becomes_row (fun _ => rfl) h rfl (clear_insEnd hm) (fun _ => rfl)
      ((keeps_updR u a _).trans (keeps_rknCompleted _ a))
  case stops => exact becomes_stall (fun _ => rfl) h rfl (clear_insBreak hm hd) rfl (keeps_updR u a _)
  case closed =>
    refine ends_halted (ins := insBreak a) (fun _ => rfl) h rfl ?_
    rw [made_nil rfl]
    simp [insBreak, resv_ok hm, hd, worstHalt, minBy]
  case busy =>
    exact becomes_stall (fun _ => rfl) h rfl hc ((insWait_act hcores).trans (if_pos ho)) (keeps_count u _)
  case done =>
    refine becomes_next (fun _ => rfl) h rfl hc ((insWait_act hcores).trans (if_neg ?_)) (.refl u)
    rintro (hop | ⟨hw, hq⟩)
    · rw [ho] at hop
      cases hop
    · exact hr.elim (· hw) (hq ·)
  case feat =>
    obtain ⟨hle, hact⟩ := insFeat_act hk hv
    exact becomes_next (fun _ => rfl) h rfl (clear_insFeat hifFeat hm (hk ▸ hle) h1 hd) hact (keeps_setS u a _ _)
  case jmp => exact becomes_jump (fun _ => rfl) h rfl (clear_insJmp ht hm hd h1 h2) rfl (.refl u)
  case jal => exact becomes_jump (fun _ => rfl) h rfl (clear_insJal ht hm hd h1 h2) rfl (keeps_setS u a _ _)
  case jr =>
    subst hv
    exact becomes_jump (fun _ => rfl) h rfl (clear_insJr hm hd h2 h1 ha hr) rfl (.refl u)
  case bcc => exact becomes_branch (fun _ => rfl) h rfl (clear_insBcc ht hm hd hz h1 h2) rfl
  case bcci => exact becomes_branch (fun _ => rfl) h rfl (clear_insBcci ht hm hd h2 h1) rfl

end Sys2Proof.Machine
end

section
/-!
PROOFS. Loops, increments, operand slots and tensor descriptors of the Reckoner; with them the statement on loops and
descriptors is settled.
-/

namespace Sys2Proof.Machine

open Sys2Proof

/-! ### Loop levels (R134, R158) -/

section
variable {r : Rkn} {pc d : Nat}

/-- At the end of its body a level that has iterations left starts the next one. -/
theorem loopBack_again (hs : (r.loops.look d).stop = pc) (hc : (r.loops.look d).idx + 1 < (r.loops.look d).count) :
    loopBack pc (d + 1) r =
      { r with depth := d + 1, pc := BitVec.ofNat 16 (r.loops.look d).start,
               loops := r.loops.put d { r.loops.look d with idx := (r.loops.look d).idx + 1 } } := by
  rw [loopBack]
  exact (if_pos hs).trans (if_pos hc)

/-- A level whose last iteration is done ends, and the level around it is looked at. -/
theorem loopBack_ends (hs : (r.loops.look d).stop = pc) (hc : ¬ (r.loops.look d).idx + 1 < (r.loops.look d).count) :
    loopBack pc (d + 1) r = loopBack pc d { r with loops := r.loops.put d { r.loops.look d with idx := 0 } } := by
  rw [loopBack]
  exact (if_pos hs).trans (if_neg hc)

end

/-- What a completed instruction leaves of its Reckoner: after a STEP it is in DEBUG again. -/
theorem rkn_rknCompleted (s : State) (a : Nat) :
    rkn (rknCompleted s a) a =
      if (rkn s a).stepping ∧ (rkn s a).st = .running then { rkn s a with st := .debug, stepping := false } else rkn s a := by
  unfold rknCompleted
  rw [activity_rkn, rkn_updR_same]
  rfl

/-- A completed instruction leaves the PC as it is. -/
theorem pc_rknCompleted (s : State) (a : Nat) : (rkn (rknCompleted s a) a).pc = (rkn s a).pc := by
  rw [rkn_rknCompleted]
  split <;> rfl

/-- Outside every loop the PC moves on by one instruction. -/
theorem pc_stepped_outside (u : State) (a : Nat) {v : State} (hd : (rkn v a).depth = 0) :
    (rkn (stepped u a v) a).pc = BitVec.ofNat 16 ((rkn u a).pc.toNat + 8) := by
  unfold stepped
  rw [pc_rknCompleted, rkn_updR_same, hd]
  rfl

section
variable {u : State} {a w : Nat}

/-- An instruction that pushes a level, or with count 0 branches behind the body. -/
theorem becomes_loopPush {i : Instr} {code e : Nat} {n : W32} {ins : State → Nat → RknIns}
    (he : ∀ s, exec i s = .next (act [] (fun s => rknRow s a code ins) s)) (ho : rknOpcode code = true)
    (hv : (ins u w).act u = loopPush a e n u) (h : AtIns u a code w) (hi : Clear u a (ins u w)) :
    (n = 0 → Becomes i u (jumped a ((e + 8) % 2 ^ 16) u)) ∧
    (n ≠ 0 → Becomes i u (stepped u a (updR u a fun r => { r with
      loops := r.loops.put r.depth { count := n, idx := 0, start := (rkn u a).pc.toNat + 8, stop := e },
      depth := r.depth + 1 }))) :=
  ⟨fun hn => becomes_jump he h ho hi (hv.trans (if_pos hn)) (.refl u),
    fun hn => becomes_next he h ho hi (hv.trans (if_neg hn)) (keeps_updR u a _)⟩

/-! ### Increments and operand slots (R159, R160, R161) -/

theorem clear_insSetinc (hm : w &&& (maskBits 13 0 + maskBits 63 24) = w) : Clear u a (insSetinc a u w) :=
  ⟨rfl, rfl, resv_ok hm, rfl⟩

theorem clear_insSetincr (hm : w &&& maskBits 18 0 = w) (hp : isPend u a (bitsOf w 18 14) = false) :
    Clear u a (insSetincr a u w) :=
  ⟨by simp [insSetincr, wf, hp], rfl, resv_ok hm, rfl⟩

theorem clear_insRdidx (hm : w &&& maskBits 15 0 = w) (hp : isPend u a (rd w) = false) : Clear u a (insRdidx a u w) :=
  ⟨rfl, hp, resv_ok hm, rfl⟩

/-- The slot that OPND fills, with handle `h`. -/
def slotFilled (u : State) (a w : Nat) (h : W64) : State :=
  updR u a fun r => { r with slots := r.slots.put (bitsOf w 9 8) (some { handle := h, mask := bitsOf w 35 28 }) }

/-- OPND takes the handle from a register. -/
theorem becomes_opnd_reg (h : AtIns u a 0x48 w) (hm : w &&& maskBits 35 0 = w) (hs : bitsOf w 10 10 = 1)
    (hz : bitsOf w 27 16 = 0) (hp : isPend u a (bitsOf w 15 11) = false) :
    Becomes (.rknOpnd a) u (stepped u a (slotFilled u a w (getS u a (bitsOf w 15 11)))) := by
  refine becomes_next (ins := insOpnd a) (fun _ => rfl) h rfl ⟨?_, rfl, ?_, rfl⟩ ?_ (keeps_updR u a _)
  · simp [insOpnd, wf, hs, hp]
  · simp [insOpnd, wf, resv_ok hm, hs, hz]
  · simp [insOpnd, wf, hs, slotFilled]

/-- OPND takes the handle from its word. -/
theorem becomes_opnd_word (h : AtIns u a 0x48 w) (hm : w &&& maskBits 35 0 = w) (hs : bitsOf w 10 10 = 0)
    (hz : bitsOf w 15 11 = 0) :
    Becomes (.rknOpnd a) u (stepped u a (slotFilled u a w (BitVec.ofNat 64 (bitsOf w 27 16)))) := by
  refine becomes_next (ins := insOpnd a) (fun _ => rfl) h rfl ⟨?_, rfl, ?_, rfl⟩ ?_ (keeps_updR u a _)
  · simp [insOpnd, wf, hs]
  · simp [insOpnd, wf, resv_ok hm, hs, hz]
  · simp [insOpnd, wf, hs, slotFilled]

/-! ### Tensor descriptors (R162, R163) -/

/-- An instruction that halts with an effect ends in its halt. -/
theorem ends_haltAct {i : Instr} {t : State} {code r : Nat} {ins : State → Nat → RknIns}
    (he : ∀ s, exec i s = .next (act [] (fun s => rknRow s a code ins) s)) (h : AtIns u a code w)
    (ho : rknOpcode code = true) (hi : Clear u a (ins u w)) (hv : (ins u w).act u = .halt t r) :
    Ends i u (rknHaltAt t a r (rkn u a).pc.toNat false) :=
  ends_act _ _ _ _ _ he fun hc => by rw [row_clear hc h ho hi, hv]; rfl

/-- An instruction that writes an entry leaves it valid where it passes the checks, and halts where it does not. -/
theorem tdWrite_settles {i : Instr} {code d : Nat} {e : BitVec 512} {ins : State → Nat → RknIns}
    (he : ∀ s, exec i s = .next (act [] (fun s => rknRow s a code ins) s)) (ho : rknOpcode code = true)
    (hv : (ins u w).act u = tdWrite u a d e) (h : AtIns u a code w) (hi : Clear u a (ins u w)) :
    (tdCheck e (rknLaunch u a).blocks = none → Becomes i u (stepped u a (updA u a fun x => { x with
      td := x.td.put d { valid := true, part := rknPart u a, bits := e } }))) ∧
    (∀ r, tdCheck e (rknLaunch u a).blocks = some r → Ends i u (rknHaltAt
      (updA u a fun x => { x with td := x.td.upd d fun y => { y with valid := false } }) a r (rkn u a).pc.toNat false)) := by
  refine ⟨fun hc => becomes_next he h ho hi ?_ (keeps_updA u a _), fun r hc => ends_haltAct he h ho hi ?_⟩
  all_goals
    rw [hv]
    unfold tdWrite
    rw [hc]

/-- What TDSET writes: the usable entry with the field that the word names replaced. -/
theorem insTdset_act {o : BitVec 512} {lo n : Nat} (hu : usableTd u a (tdHandle u a w) = some o)
    (hf : (lo, n) = tdField (bitsOf w 27 24)) :
    (insTdset a u w).act u = tdWrite u a (tdHandle u a w) (BitVec.ofNat 512 (o.toNat - bitsOf o.toNat (lo + n - 1) lo * 2 ^ lo +
      (getS u a (rd w)).toNat % 2 ^ n * 2 ^ lo)) := by
  unfold insTdset wf
  dsimp only
  rw [hu, ← hf]
  rfl

/-- TDST stores a usable entry. -/
theorem becomes_tdst {e : BitVec 512} (h : AtIns u a 0x4A w) (hc : Clear u a (insTdst a u w))
    (hu : usableTd u a (tdHandle u a w) = some e) :
    Becomes (.rknTdst a) u (stepped u a (updR u a fun r => { r with
      dmem := memPut r.dmem (tdAddr u a w) (leBytes 64 e.toNat) })) := by
  refine becomes_next (fun _ => rfl) h rfl hc ?_ (keeps_updR u a _)
  unfold insTdst
  dsimp only
  rw [hu]
  rfl

end

/-! ### The statement -/

/-- Settles O36: loops and increments, then slots and descriptors. -/
theorem loopsAndDescriptors : Obligations.LoopsAndDescriptors := by
  refine ⟨fun u a w pc e hpc he => ?loops, fun u a w h d e hh hd => ?descriptors⟩
  case loops =>
    subst hpc he
    refine ⟨fun i code ins n hmem hins h hc => ?push, fun h hm => ?setinc, fun h hm hp => ?setincr, fun h hm hp => ?rdidx,
      fun v hv => pc_stepped_outside u a hv, fun r d hs => ⟨loopBack_again hs, loopBack_ends hs⟩⟩
    case push =>
      simp only [List.mem_cons, Prod.mk.injEq, List.not_mem_nil, or_false] at hmem
      rcases hmem with ⟨rfl, rfl, rfl⟩ | ⟨rfl, rfl, rfl⟩
      · subst hins
        exact becomes_loopPush (ins := insLoopi a) (fun _ => rfl) rfl rfl h hc
      · subst hins
        exact becomes_loopPush (ins := insLoop a) (fun _ => rfl) rfl rfl h hc
    case setinc => exact becomes_next (fun _ => rfl) h rfl (clear_insSetinc hm) rfl (keeps_updR u a _)
    case setincr => exact becomes_next (fun _ => rfl) h rfl (clear_insSetincr hm hp) rfl (keeps_updR u a _)
    case rdidx => exact becomes_next (fun _ => rfl) h rfl (clear_insRdidx hm hp) rfl (keeps_setS u a _ _)
  case descriptors =>
    subst hh hd
    refine ⟨fun h hm => ⟨becomes_opnd_reg h hm, becomes_opnd_word h hm⟩, fun i code ins hmem h hc => ?write, becomes_tdst⟩
    rcases hmem with ⟨rfl, rfl, rfl, rfl⟩ | ⟨rfl, rfl, rfl, o, lo, n, hu, hf, rfl⟩
    · exact tdWrite_settles (fun _ => rfl) rfl rfl h hc
    · exact tdWrite_settles (fun _ => rfl) rfl (insTdset_act hu hf) h hc

end Sys2Proof.Machine
end

section
/-!
PROOFS. Engine starts and configuration writes of the Reckoner, and a downstream message that leaves at once; with them the
statement on engine starts is settled.
-/

namespace Sys2Proof.Machine

open Sys2Proof

/-! ### A message that leaves at once (R405) -/

/-- With nothing waiting and credits left, a downstream message leaves as it enters the FIFO. -/
theorem dnSend_leaves {s : State} {a : Nat} {m : DnMsg} (hs : (agt s a).stopped = false) (hp : (agt s a).portRdy = true)
    (hq : (agt s a).dnQ = []) (hc : dnFlits m ≤ (agt s a).dnCred) :
    dnSend s a m = updA (emit (dnLeft (updA s a fun x => { x with dnCred := x.dnCred - dnFlits m }) a m) (.dn a m)) a
      fun x => { x with dnQ := [] } := by
  unfold dnSend
  rw [hq, List.nil_append, dnPump_leaves hc hs hp, dnPump]

/-- What such a message leaves of its agent. -/
theorem agt_dnSend_leaves {s : State} {a : Nat} {m : DnMsg} (hs : (agt s a).stopped = false) (hp : (agt s a).portRdy = true)
    (hq : (agt s a).dnQ = []) (hc : dnFlits m ≤ (agt s a).dnCred) :
    agt (dnSend s a m) a =
      { agt (dnLeft (updA s a fun x => { x with dnCred := x.dnCred - dnFlits m }) a m) a with dnQ := [] } := by
  rw [dnSend_leaves hs hp hq hc, agt_updA_same]
  rfl

/-! ### What a start sends to a core (R164, R166) -/

section
variable (a eng fn slots wm rdn : Nat) (l : List Opnd) (s : State) (k : Nat)

/-- The operation of a start on layer core `k`. -/
def startOp : EngOp :=
  { core := physCore s a k, eng := eng, tag := (cmdTag s a (physCore s a k)).1, rd := rdn,
    outside := l.any fun o => bitOf wm o.slot && tdSpace o.td != 0, at_ := (rkn s a).nextReq }

/-- The scoreboard entries of a start on layer core `k`. -/
def startEntries : List SbEntry :=
  l.map fun o =>
    let c := claimOf o.td o.cur (physCore s a k) (bitOf wm o.slot)
    { id := (cmdTag s a (physCore s a k)).1, req := false, eng := eng, engCore := physCore s a k, space := c.space,
      core := c.core, lo := c.lo, hi := c.hi, write := c.write }

/-- The descriptors of a command: those of its operands at their cursors, by slot. -/
def startDescs : List (BitVec 512) :=
  (List.range 4).map fun i =>
    match l.find? (·.slot == i) with
    | some o => tdSetBase o.td o.cur
    | none => 0

/-- The command of a start on layer core `k`. -/
def startMsg : DnMsg :=
  .engCmd (physCore s a k) eng (cmdTag s a (physCore s a k)).1 fn slots wm (rdn != 0 || isReduction fn) (startDescs l)

/-- The state in which the command of a start on layer core `k` is sent: the operation has its place and its entries. -/
def startEntered : State :=
  updR (cmdTag s a (physCore s a k)).2 a fun r =>
    { r with sb := r.sb ++ startEntries a eng wm l s k, ops := r.ops ++ [startOp a eng wm rdn l s k] }

theorem startOn_eq : startOn a eng fn slots wm rdn l s k =
    dnSend (startEntered a eng wm rdn l s k) a (startMsg a eng fn slots wm rdn l s k) := rfl

theorem agt_startEntered : agt (startEntered a eng wm rdn l s k) a =
    { agt s a with rkn := { rkn s a with sb := (rkn s a).sb ++ startEntries a eng wm l s k,
                                         ops := (rkn s a).ops ++ [startOp a eng wm rdn l s k] } } :=
  agt_updA_same _ a _

variable {a s}

/-- A start that finds two credits and nothing waiting sends its command at once, and has its operation. -/
theorem startOn_leaves (hs : (agt s a).stopped = false) (hp : (agt s a).portRdy = true) (hq : (agt s a).dnQ = [])
    (hc : 2 ≤ (agt s a).dnCred) :
    (startOn a eng fn slots wm rdn l s k).out = s.out ++ [.dn a (startMsg a eng fn slots wm rdn l s k)] ∧
      (rkn (startOn a eng fn slots wm rdn l s k) a).ops = (rkn s a).ops ++ [startOp a eng wm rdn l s k] := by
  have hagt := agt_startEntered a eng wm rdn l s k
  have hs' : (agt (startEntered a eng wm rdn l s k) a).stopped = false := by rw [hagt]; exact hs
  have hp' : (agt (startEntered a eng wm rdn l s k) a).portRdy = true := by rw [hagt]; exact hp
  have hq' : (agt (startEntered a eng wm rdn l s k) a).dnQ = [] := by rw [hagt]; exact hq
  have hc' : dnFlits (startMsg a eng fn slots wm rdn l s k) ≤ (agt (startEntered a eng wm rdn l s k) a).dnCred := by
    rw [hagt]
    exact hc
  rw [startOn_eq]
  constructor
  · rw [dnSend_leaves hs' hp' hq' hc']
    rfl
  · have hleft : ∀ t : State, dnLeft t a (startMsg a eng fn slots wm rdn l s k) = t := fun _ => rfl
    unfold rkn
    rw [agt_dnSend_leaves hs' hp' hq' hc', hleft, agt_updA_same, hagt]
    rfl

end

/-! ### ESTART and ECFG (R123, R130, R149, R164, R166, R170) -/

section
variable {u : State} {a w : Nat}

/-- What ESTART claims: every operand on every named core. -/
def startClaims (u : State) (a w : Nat) (wm : Nat) : List (Claim4 × Option (Nat × Nat)) :=
  (startCores u a w).flatMap fun k => (opnds u a (bitsOf w 27 24)).map fun o =>
    (claimOf o.td o.cur (physCore u a k) (bitOf wm o.slot), some (bitsOf w 9 8, physCore u a k))

/-- The slots that a function writes: those that its form gives, or from 0x80 on those that the word names. -/
def startWrites (w : Nat) : Nat :=
  if bitsOf w 23 16 < 0x80 then ((fnForm (bitsOf w 23 16)).map (·.2.2)).getD 0 else bitsOf w 31 28

/-- The state that ESTART leaves: credits taken, a command for each core, and its register pending. -/
def engStarted (u : State) (a w : Nat) : State :=
  setPend ((startCores u a w).foldl
    (startOn a (bitsOf w 9 8) (bitsOf w 23 16) (bitsOf w 27 24) (startWrites w) (bitsOf w 36 32) (opnds u a (bitsOf w 27 24)))
    (takeSections u a (bitsOf w 9 8) (startCores u a w))) a (bitsOf w 36 32) true

theorem insEstart_act : (insEstart a u w).act u =
    if acquireHolds u a = true then .stall (count u (.rknStallReg a))
    else if (!creditsFree u a (bitsOf w 9 8) (startCores u a w)) = true then .stall (count u (.rknStallQ a))
    else if (!sbReady u a (startClaims u a w (startWrites w))) = true then .stall (count u (.rknStallSb a))
    else .next (engStarted u a w) := rfl

/-- The state that ECFG leaves: credits taken, and a configuration write for each core. -/
def engConfigured (u : State) (a w : Nat) : State :=
  (startCores u a w).foldl
    (fun s k =>
      let p := cmdTag s a (physCore s a k)
      dnSend p.2 a (.engCfg (physCore p.2 a k) (bitsOf w 9 8) p.1 (bitsOf w 23 16) (getS u a (bitsOf w 28 24))))
    (takeSections u a (bitsOf w 9 8) (startCores u a w))

theorem insEcfg_act : (insEcfg a u w).act u =
    if acquireHolds u a = true then .stall (count u (.rknStallReg a))
    else if (!creditsFree u a (bitsOf w 9 8) (startCores u a w)) = true then .stall (count u (.rknStallQ a))
    else .next (engConfigured u a w) := rfl

/-- An instruction that takes engine credits stalls behind an acquire, and then without credits; past both it does the rest. -/
theorem becomes_engStall {i : Instr} {code eng : Nat} {cores : List Nat} {ins : State → Nat → RknIns} {rest : RknAct}
    (he : ∀ s, exec i s = .next (act [] (fun s => rknRow s a code ins) s)) (ho : rknOpcode code = true)
    (hv : (ins u w).act u = if acquireHolds u a = true then .stall (count u (.rknStallReg a))
      else if (!creditsFree u a eng cores) = true then .stall (count u (.rknStallQ a)) else rest)
    (h : AtIns u a code w) (hc : Clear u a (ins u w)) :
    (acquireHolds u a = true → Becomes i u (count u (.rknStallReg a))) ∧
    (acquireHolds u a = false → creditsFree u a eng cores = false → Becomes i u (count u (.rknStallQ a))) ∧
    (acquireHolds u a = false → creditsFree u a eng cores = true → (ins u w).act u = rest) := by
  refine ⟨fun ha => ?acquire, fun ha hf => ?credits, fun ha hf => ?rest⟩
  case acquire => exact becomes_stall he h ho hc (hv.trans (if_pos ha)) (keeps_count u _)
  case credits =>
    rw [ha, hf] at hv
    exact becomes_stall he h ho hc hv (keeps_count u _)
  case rest =>
    rw [ha, hf] at hv
    exact hv

end

/-! ### The statement -/

/-- Settles O37: the stalls, and what is sent where none holds. -/
theorem engineStarts : Obligations.EngineStarts := by
  intro u a w eng cores heng hcores
  subst heng hcores
  refine ⟨fun fn slots rdn wm l claims h hc hfn hslots hrd hl hwm hcl => ?start, fun h hc => ?config,
    fun fn slots rdn wm l s k hs hp hq hcr => ⟨_, startOn_leaves _ fn slots wm rdn l k hs hp hq hcr⟩⟩
  case start =>
    subst hfn hslots hrd hl hwm hcl
    obtain ⟨hacquire, hcredits, hrest⟩ := becomes_engStall (i := .rknEstart a) (fun _ => rfl) rfl insEstart_act h hc
    refine ⟨hacquire, hcredits, fun ha hf hb => ?conflict, fun ha hf hb => ?starts⟩
    all_goals have hact := hrest ha hf
    case conflict =>
      exact becomes_stall (fun _ => rfl) h rfl hc (hact.trans (if_pos (congrArg (!·) hb))) (keeps_count u _)
    case starts =>
      have hready : sbReady u a (startClaims u a w (startWrites w)) = true := hb
      rw [hready] at hact
      exact ends_row (fun _ => rfl) h rfl hc hact
  case config =>
    obtain ⟨hacquire, hcredits, hrest⟩ := becomes_engStall (i := .rknEcfg a) (fun _ => rfl) rfl insEcfg_act h hc
    exact ⟨hacquire, hcredits, fun ha hf => ends_row (fun _ => rfl) h rfl hc (hrest ha hf)⟩

end Sys2Proof.Machine
end

section
/-!
PROOFS. LAYER launches: a launch at an idle Reckoner and at another, and the steps of setup; with them the statement on LAYER
launches is settled.
-/

namespace Sys2Proof.Machine

open Sys2Proof

/-! ### A launch that arrives (R18, R126, R140) -/

/-- A packet of a unit that is not shut has its effect. -/
theorem arrives_open {is : Out → Bool} {u v : State} {ok : Bool} (ho : ok = true) (h : Lands is u v) (f : State → State) :
    arrives u ok is f = f v := by
  rw [ho]
  exact arrives_lands h f

/-- What waits is the same once a packet has landed. -/
theorem calm_lands {is : Out → Bool} {u v : State} (hc : Calm u) (h : Lands is u v) : Calm v := by
  obtain ⟨_, rfl⟩ := lands_form h
  exact hc

/-- An agent is shut or not, whatever lands. -/
theorem agtShut_lands {is : Out → Bool} {u v : State} {a : Nat} (hs : agtShut u a = false) (h : Lands is u v) :
    agtShut v a = false := by
  obtain ⟨_, rfl⟩ := lands_form h
  exact hs

/-- What lands leaves every Reckoner as it is. -/
theorem rkn_lands {is : Out → Bool} {u v : State} (h : Lands is u v) (a : Nat) : rkn v a = rkn u a := by
  unfold rkn agt
  rw [(lands_dis h).2]

/-- The Reckoner that a launch sets up. -/
def layerSetUp (l : Launch) (r : Rkn) : Rkn :=
  { r with st := .setup, launch := some l,
           cores := ((List.range 16).zip l.coreBlocks).filterMap fun e => if e.2 = 0 then none else some e.1,
           drops := 0, peerClosed := false, halted := false, halt := none, writes := [], line := [], atBreak := false,
           stepping := false, sb := [], ops := [], reqs := [], pairs := [] }

section
variable {s : State} {a : Nat} (hc : Calm s) (hs : agtShut s a = false)
include hc hs

/-- At an idle Reckoner a launch starts setup. -/
theorem layerLaunch_idle (hi : (rkn s a).st = .idle) (l : Launch) : layerLaunch s a l = updR s a (layerSetUp l) := by
  unfold layerLaunch
  rw [if_neg (Bool.eq_false_iff.mp hs), if_neg (calm_not_armed hc _ _), if_neg (not_not_intro hi)]
  rfl

/-- At a Reckoner that is not idle a launch is a bad one. -/
theorem layerLaunch_busy (hi : (rkn s a).st ≠ .idle) (l : Launch) :
    layerLaunch s a l = raise (count s (.agtBadLaunch a)) 0x0901 .ud 0 a := by
  unfold layerLaunch
  rw [if_neg (Bool.eq_false_iff.mp hs), if_neg (calm_not_armed hc _ _), if_pos hi]

end

/-! ### Setup (R126, R128, R137) -/

/-- Step 2 of setup: DMEM is cleared where the descriptor, a swap or another partition's program asks for it. -/
def dmemPrepared (s : State) (a : Nat) (l : Launch) (b : Bytes) : State :=
  updR s a fun r => { r with
    dmem := if Bytes.fld b 0x30 0 1 = 1 || (rkn s a).swappedIn || ((rkn s a).prevPart.any (· != l.part)) then [] else r.dmem,
    prevPart := some l.part, swappedIn := false }

/-- Steps 5 and 6 of setup: the parameters stand in DMEM and the Reckoner runs from ENTRY. -/
def layerRunning (s : State) (a : Nat) (l : Launch) (b : Bytes) : State :=
  updR (updR s a fun r => { r with dmem := memPut r.dmem 0 (leBytes 64 l.params.toNat) }) a fun r =>
    setupRegs r l (Bytes.fld b 8 0 16)

section
variable {u s : State} {a : Nat} {l : Launch} {b : Bytes} (hs : agtShut u a = false) (ht : (rkn u a).st = .setup)
  (hl : (rkn u a).launch = some l) (hb : (b, s) = readPart u l.part l.kdesc 256)
include hs ht hl hb

/-- A kernel descriptor that fails a check halts the setup. -/
theorem layerSetup_refused {r : Nat} (hk : kdCheck b = some r) : layerSetup u a = rknHaltAt s a r 0xFFFF false := by
  have hlaunch : rknLaunch u a = l := by rw [rknLaunch, hl]; rfl
  unfold layerSetup
  rw [if_neg (by simp [hs, ht])]
  dsimp only
  rw [hlaunch, ← hb]
  dsimp only
  rw [hk]

/-- With a good kernel descriptor and regions that fit, setup ends as its tensor descriptors do. -/
theorem layerSetup_loads {d t : Bytes} {s2 s4 s5 : State} {res : Option Nat} (hk : kdCheck b = none)
    (hfit : Bytes.fld b 0x28 0 18 + Bytes.fld b 0x2C 0 19 ≤ 262144)
    (hd : (d, s2) = readPart (dmemPrepared s a l b) l.part (Bytes.fld b 0x20 0 40) (Bytes.fld b 0x2C 0 19))
    (hn : Bytes.fld b 0x18 0 12 + Bytes.fld b 0x1A 0 13 ≤ 4096)
    (htd : (t, s4) = readPart (updR s2 a fun r => { r with dmem := memPut r.dmem (Bytes.fld b 0x28 0 18) d }) l.part
      (Bytes.fld b 0x10 0 40) (64 * Bytes.fld b 0x1A 0 13))
    (hr : loadTds a l.part l.blocks (Bytes.fld b 0x1A 0 13) (Bytes.fld b 0x18 0 12) t s4 = (s5, res)) :
    layerSetup u a = res.elim (layerRunning s5 a l b) fun r => rknHaltAt s5 a r 0xFFFF false := by
  have hlaunch : rknLaunch u a = l := by rw [rknLaunch, hl]; rfl
  unfold layerSetup
  rw [if_neg (by simp [hs, ht])]
  dsimp only
  rw [hlaunch, ← hb]
  dsimp only
  rw [hk]
  dsimp only
  rw [if_neg (Nat.not_lt.mpr hfit)]
  unfold dmemPrepared at hd
  rw [← hd]
  dsimp only
  rw [if_neg (Nat.not_lt.mpr hn), ← htd]
  dsimp only
  rw [hr]
  cases res <;> rfl

end

/-! ### The statement -/

/-- Settles O30: the launch by the state of the Reckoner, setup by the step that ends it. -/
theorem layerLaunches : Obligations.LayerLaunches := by
  intro u a hs
  refine ⟨fun l v h hi => ?idle, fun l v h hi => ?busy, fun l b s ht hl hb => ⟨fun r hk => ?refused,
    fun off len first n s1 d s2 s3 t s4 s5 hk hoff hlen hfirst hn h1 hfit hd h3 hle ht4 => ⟨fun hr => ?runs, fun r hr => ?fails⟩⟩⟩
  case idle =>
    refine becomes_keeps _ _ _ u _ (fun _ => rfl) (fun hc => ?_)
      ((keeps_lands h).trans (keeps_updR v a (layerSetUp l)))
    rw [arrives_open (by rw [hs]; rfl) h,
      layerLaunch_idle (calm_lands hc h) (agtShut_lands hs h) (by rw [rkn_lands h]; exact hi), ← (lands_dis h).2]
    rfl
  case busy =>
    refine ends_act _ _ _ u _ (fun _ => rfl) fun hc => ?_
    rw [arrives_open (by rw [hs]; rfl) h,
      layerLaunch_busy (calm_lands hc h) (agtShut_lands hs h) (by rw [rkn_lands h]; exact hi)]
  case refused => exact ends_act _ _ _ u _ (fun _ => rfl) fun _ => layerSetup_refused hs ht hl hb hk
  all_goals subst hoff hlen hfirst hn h1 h3
  case runs =>
    exact ends_act _ _ _ u _ (fun _ => rfl) fun _ => layerSetup_loads hs ht hl hb hk hfit hd hle ht4 hr
  case fails =>
    exact ends_act _ _ _ u _ (fun _ => rfl) fun _ => layerSetup_loads hs ht hl hb hk hfit hd hle ht4 hr

end Sys2Proof.Machine
end

section
/-!
PROOFS. TASK launches at their agent, and the starts and ends of blocks and groups; with them the statement on launches and
blocks is settled.
-/

namespace Sys2Proof.Machine

open Sys2Proof

/-! ### TASK launches (R124, R125, R137) -/

/-- The task of node `n` and generation `gen` whose kernel descriptor has not been checked. -/
def taskUnchecked (n : Nat) (gen : BitVec 16) (t : AgtTask) : Bool := sameLaunch t.l n gen && !t.checked

/-- The state with the kernel descriptor of that task checked. -/
def taskChecked (s : State) (a n : Nat) (gen : BitVec 16) : State :=
  updA s a fun x => { x with tasks := updFirst (taskUnchecked n gen) (fun t => { t with checked := true }) x.tasks }

/-- The state with that task gone. -/
def taskGone (s : State) (a n : Nat) (gen : BitVec 16) : State :=
  updA s a fun x => { x with tasks := (takeFirst (taskUnchecked n gen) x.tasks).elim x.tasks (·.2) }

/-- A descriptor of TYPE 1 starts the launch's blocks; any other retires it HALTED, with its charge returned. -/
theorem kernelDescCheck_read {u s : State} {a n : Nat} {gen : BitVec 16} {t : AgtTask} {b : Bytes} (hs : agtShut u a = false)
    (ht : (agt u a).tasks.find? (taskUnchecked n gen) = some t) (hb : (b, s) = readPart u t.l.part t.l.kdesc 16) :
    kernelDescCheck u a n gen =
      if Bytes.fld b 0 0 8 = 1 then
        (blockCores (taskChecked s a n gen) a t.l).foldl
          (fun s e => startBlock s a t.l (BitVec.ofNat 64 (Bytes.fld b 8 0 64)) e.1 e.2) (taskChecked s a n gen)
      else
        haltRecord (emit (returnCharge (taskGone s a n gen) a t.l) (.retire a t.l.retTo n gen .halted 0)) a 3 0xFFFF n
          t.l.part false := by
  unfold taskUnchecked at ht
  unfold kernelDescCheck
  dsimp only
  rw [ht]
  dsimp only
  rw [if_neg (Bool.eq_false_iff.mp hs), ← hb]
  rfl

/-! ### The start of a block (R407, R411) -/

section
variable (s : State) (a : Nat) (l : Launch) (entry : W64) (b core : Nat)

/-- The tag that a block's start takes: one that no live block of its core has. -/
def blockTag : Nat :=
  ((pickFresh s (fun t => (agt s a).blocks.any fun x => x.core == core && x.tag == t) (2 ^ 32)).1).getD 0

/-- The block that a start adds, live once its BLOCK_START has left. -/
def blockOf (live : Bool) : Block :=
  { core := core, tag := blockTag s a core, node := l.node, gen := l.gen, first := l.firstBlock, part := l.part,
    groups := l.groups, index := b, res := launchNeed l, started := live, aborted := false }

/-- The BLOCK_START of a block. -/
def blockMsg : DnMsg :=
  .blockStart core (blockTag s a core) l.node l.part l.gen l.groups entry l.arg b l.regs l.lmem l.params

/-- The state in which a BLOCK_START is sent: the block has its place. -/
def blockEntered : State :=
  updA (pickFresh s (fun t => (agt s a).blocks.any fun x => x.core == core && x.tag == t) (2 ^ 32)).2 a fun x =>
    { x with blocks := x.blocks ++ [blockOf s a l b core false] }

theorem startBlock_eq :
    startBlock s a l entry b core = dnSend (blockEntered s a l b core) a (blockMsg s a l entry b core) := rfl

theorem agt_blockEntered : agt (blockEntered s a l b core) a =
    { agt s a with blocks := (agt s a).blocks ++ [blockOf s a l b core false] } :=
  agt_updA_same _ a _

/-- With a credit and nothing waiting, the BLOCK_START of an agent's first block leaves at once and the block is live. -/
theorem startBlock_leaves (hs : (agt s a).stopped = false) (hp : (agt s a).portRdy = true) (hq : (agt s a).dnQ = [])
    (hc : 1 ≤ (agt s a).dnCred) (hb : (agt s a).blocks = []) :
    (startBlock s a l entry b core).out = s.out ++ [.dn a (blockMsg s a l entry b core)] ∧
      (agt (startBlock s a l entry b core) a).dnCred = (agt s a).dnCred - 1 ∧
      (agt (startBlock s a l entry b core) a).blocks = [blockOf s a l b core true] ∧
      (startBlock s a l entry b core).mem = s.mem := by
  have hagt := agt_blockEntered s a l b core
  rw [hb, List.nil_append] at hagt
  have hs' : (agt (blockEntered s a l b core) a).stopped = false := by rw [hagt]; exact hs
  have hp' : (agt (blockEntered s a l b core) a).portRdy = true := by rw [hagt]; exact hp
  have hq' : (agt (blockEntered s a l b core) a).dnQ = [] := by rw [hagt]; exact hq
  have hc' : dnFlits (blockMsg s a l entry b core) ≤ (agt (blockEntered s a l b core) a).dnCred := by rw [hagt]; exact hc
  have hleft : ∀ t : State, dnLeft t a (blockMsg s a l entry b core) = updA t a fun x => { x with
      blocks := updFirst (fun b => b.core == core && b.tag == blockTag s a core) (fun b => { b with started := true })
        x.blocks } := fun _ => rfl
  have hafter := agt_dnSend_leaves hs' hp' hq' hc'
  rw [hleft, agt_updA_same, agt_updA_same, hagt, ← startBlock_eq] at hafter
  refine ⟨?out, ?credit, ?live, ?mem⟩
  case out =>
    rw [startBlock_eq, dnSend_leaves hs' hp' hq' hc', hleft]
    rfl
  case credit =>
    rw [hafter]
    rfl
  case live =>
    rw [hafter]
    simp [updFirst, blockOf]
  case mem =>
    rw [startBlock_eq, dnSend_leaves hs' hp' hq' hc', hleft]
    rfl

end

/-! ### The ends of blocks and groups (R124, R197, R407, R410, R411) -/

/-- The state with a block's place, operations and pairs gone from its agent. -/
def blockGone (u : State) (a core tag : Nat) : State :=
  updA u a fun x => { x with
    blocks := (takeFirst (fun b => b.core == core && b.tag == tag) x.blocks).elim x.blocks (·.2),
    ops := x.ops.filter fun o => !(o.core == core && o.btag == tag),
    groupPairs := x.groupPairs.filter fun g => !(g.core == core && g.tag == tag) }

/-- The tags of a block's outstanding operations. -/
def blockOpTags (u : State) (a core tag : Nat) : List Nat :=
  ((agt u a).ops.filter fun o => o.core == core && o.btag == tag).map (·.tag)

/-- Whether a fabric request belongs to one of a core's operations. -/
def ofCoreOps (a core : Nat) (tags : List Nat) : Requester → Bool
  | .core a' c t => a' == a && c == core && tags.contains t
  | .bau a' c t _ => a' == a && c == core && tags.contains t
  | _ => false

section
variable {u : State} {a core tag : Nat} (hs : agtShut u a = false) (hr : isReady u = true)
include hs hr

theorem blockEnd_unknown (hb : liveBlock u a core tag = none) : blockEnd u a core tag = count u (.agtPortErr a) := by
  unfold blockEnd
  rw [hs, hr, hb]
  rfl

theorem blockEnd_live {b : Block} (hb : liveBlock u a core tag = some b) :
    blockEnd u a core tag = taskEnd (emit (orphan (blockGone u a core tag) (ofCoreOps a core (blockOpTags u a core tag)))
      (.occ a { core := core, rknFree := false, part := b.part, res := b.res } b.node b.gen)) a b.node b.first b.gen := by
  unfold blockEnd
  rw [hs, hr, hb]
  rfl

theorem groupEnd_inside {b : Block} {group : Nat} (hb : liveBlock u a core tag = some b) (hg : group < b.groups) :
    groupEnd u a core tag group = emit
      (updA u a fun x => { x with
        groupPairs := x.groupPairs.filter fun g => !(g.core == core && g.tag == tag && g.group == group) })
      (.notice a b.node b.gen
        (((agt u a).groupPairs.filter fun g => g.core == core && g.tag == tag && g.group == group).flatMap (·.pairs))) := by
  unfold groupEnd
  rw [hs, hr, hb]
  exact if_neg (Nat.not_le.mpr hg)

theorem groupEnd_outside {b : Block} {group : Nat} (hb : liveBlock u a core tag = some b) (hg : b.groups ≤ group) :
    groupEnd u a core tag group = count u (.agtPortErr a) := by
  unfold groupEnd
  rw [hs, hr, hb]
  exact if_pos hg

end

/-- The last block of a checked launch retires it. -/
theorem taskEnd_last {u : State} {a n first : Nat} {gen : BitVec 16} {t : AgtTask} {rest : List AgtTask}
    (ht : takeFirst (fun t => sameLaunch t.l n gen && t.l.firstBlock == first && t.checked) (agt u a).tasks = some (t, rest))
    (hb : hasBlocks (agt u a) t = false) :
    taskEnd u a n first gen = emit (updA u a fun x => { x with tasks := rest })
      (.retire a t.l.retTo n gen (if t.peerClosed then .peerClosed else .done) t.drops) := by
  unfold taskEnd
  dsimp only
  rw [ht]
  exact if_neg (Bool.eq_false_iff.mp hb)

/-! ### The statement -/

/-- Settles O29: launches, starts, and ends. -/
theorem launchesAndBlocks : Obligations.LaunchesAndBlocks := by
  refine ⟨fun u a hs => ⟨fun l v h => ?launch, fun n gen t b s ht hb => ⟨fun h1 s' hs' => ?task, fun h1 => ?halts⟩⟩,
    fun s a l entry b core hs hp hq hc hb => ⟨_, startBlock_leaves s a l entry b core hs hp hq hc hb⟩,
    fun u a core tag hs hr => ⟨fun hb => ?unknown, fun b tags hb htags => ?live, fun n first gen t rest => taskEnd_last,
      fun group b hb => ⟨fun hg => ?inside, fun hg => ?outside⟩⟩⟩
  case launch =>
    refine becomes_keeps _ _ _ u _ (fun _ => rfl) (fun _ => ?_) ((keeps_lands h).trans (keeps_updA v a fun x =>
      { x with tasks := x.tasks ++ [{ l := l, checked := false, peerClosed := false, drops := 0 }] }))
    rw [arrives_open (by rw [hs]; rfl) h, ← (lands_dis h).2]
    exact if_neg (Bool.eq_false_iff.mp (agtShut_lands hs h))
  case task =>
    subst hs'
    exact ends_act _ _ _ u _ (fun _ => rfl) fun _ => (kernelDescCheck_read hs ht hb).trans (if_pos h1)
  case halts => exact ends_act _ _ _ u _ (fun _ => rfl) fun _ => (kernelDescCheck_read hs ht hb).trans (if_neg h1)
  case unknown =>
    exact becomes_keeps _ _ _ u _ (fun _ => rfl) (fun _ => blockEnd_unknown hs hr hb) (keeps_count u _)
  case live =>
    subst htags
    exact ends_act _ _ _ u _ (fun _ => rfl) fun _ => blockEnd_live hs hr hb
  case inside =>
    exact becomes_keeps _ _ _ u _ (fun _ => rfl) (fun _ => groupEnd_inside hs hr hb hg)
      ((keeps_updA u a _).trans (keeps_emit _ _))
  case outside =>
    exact becomes_keeps _ _ _ u _ (fun _ => rfl) (fun _ => groupEnd_outside hs hr hb hg) (keeps_count u _)

end Sys2Proof.Machine
end

section
/-!
PROOFS. What comes back to a Reckoner: answers of its requests, the words of the host, its retirement, its standby and the
errors of its memories; with them the statement on a Reckoner's answers is settled.
-/

namespace Sys2Proof.Machine

open Sys2Proof

/-! ### An answered request (R149, R167, R187) -/

/-- Neither a scalar register nor its pending mark changes the requests of a Reckoner. -/
theorem reqs_setS (s : State) (a i : Nat) (v : W64) : (rkn (setS s a i v) a).reqs = (rkn s a).reqs := by
  unfold setS
  split
  · rfl
  · rw [rkn_updR_same]

theorem reqs_setPend (s : State) (a i : Nat) (b : Bool) : (rkn (setPend s a i b) a).reqs = (rkn s a).reqs := by
  unfold setPend
  dsimp only
  split
  · rfl
  · rw [rkn_updR_same]

/-- The state with request `q` answered by `v`: its register is there, its place and its claims are free. -/
def reqFreed (u : State) (a : Nat) (q : RknReq) (v : W64) : State :=
  updR (setPend (setS u a q.rd v) a q.rd false) a fun r =>
    { r with reqs := r.reqs.filter (·.id != q.id), line := r.line.erase q.id, sb := r.sb.filter fun e => !(e.req && e.id == q.id) }

theorem reqs_reqFreed (u : State) (a : Nat) (q : RknReq) (v : W64) :
    (rkn (reqFreed u a q v) a).reqs = (rkn u a).reqs.filter (·.id != q.id) := by
  unfold reqFreed
  rw [rkn_updR_same]
  dsimp only
  rw [reqs_setPend, reqs_setS]

/-- An answered request is freed, and where no CSEND is held nothing else happens. -/
theorem reqDone_unheld {u : State} {a : Nat} {q : RknReq} (v : W64)
    (hq : q.kind = .csend → ∀ x ∈ (rkn u a).reqs, x.held = false) : reqDone u a q v = reqFreed u a q v := by
  have hdone : reqDone u a q v = if q.kind = .csend then
      match (rkn (reqFreed u a q v) a).reqs.find? fun x => x.kind == .csend && x.target == q.target && x.held with
      | some x => csendReserve (reqFreed u a q v) a x
      | none => reqFreed u a q v
    else reqFreed u a q v := rfl
  rw [hdone]
  split
  case isFalse => rfl
  case isTrue hk =>
    have hnone : ((rkn (reqFreed u a q v) a).reqs.find? fun x => x.kind == .csend && x.target == q.target && x.held) = none := by
      rw [List.find?_eq_none, reqs_reqFreed]
      intro x hx
      rw [hq hk x (List.mem_filter.mp hx).1, Bool.and_false]
      decide
    rw [hnone]

/-! ### Answers of units to requests (R167, R172, R196) -/

/-- What an answer leaves beside its request: ROUTE adds up drops, and barriers keep or drop the pair. -/
def answerNoted (s : State) (a : Nat) (q : RknReq) (v : W64) : State :=
  match q.kind with
  | .bara => if !bitOf v.toNat 63 then
      updR s a fun r => { r with pairs := recordPair r.pairs q.target (BitVec.ofNat 16 v.toNat) } else s
  | .barw => if !bitOf v.toNat 63 then
      updR s a fun r => { r with pairs := r.pairs.filter fun x => !(x.bar == q.target && x.phase.toNat == q.lo) } else s
  | .route => updR s a fun r => { r with drops := min (r.drops + v.toNat / 2 ^ 32) (2 ^ 32 - 1) }
  | _ => s

section
variable {s : State} {a : Nat} {q : RknReq} {v : W64}

theorem answerNoted_plain (hk : q.kind = .rld ∨ q.kind = .rst ∨ q.kind = .atom ∨ q.kind = .inval ∨ q.kind = .cadd) :
    answerNoted s a q v = s := by
  unfold answerNoted
  rcases hk with hk | hk | hk | hk | hk <;> rw [hk]

theorem answerNoted_route (hk : q.kind = .route) :
    answerNoted s a q v = updR s a fun r => { r with drops := min (r.drops + v.toNat / 2 ^ 32) (2 ^ 32 - 1) } := by
  unfold answerNoted
  rw [hk]

theorem answerNoted_bara (hk : q.kind = .bara) (hv : bitOf v.toNat 63 = false) :
    answerNoted s a q v = updR s a fun r => { r with
      pairs := recordPair r.pairs q.target (BitVec.ofNat 16 v.toNat) } := by
  unfold answerNoted
  rw [hk, hv]
  rfl

theorem answerNoted_barw (hk : q.kind = .barw) (hv : bitOf v.toNat 63 = false) :
    answerNoted s a q v = updR s a fun r => { r with
      pairs := r.pairs.filter fun x => !(x.bar == q.target && x.phase.toNat == q.lo) } := by
  unfold answerNoted
  rw [hk, hv]
  rfl

end

section
variable {u : State} {a id : Nat} {v : W64}

theorem requestAnswer_late (hf : ((rkn u a).reqs.find? fun q =>
      q.id == id && !q.held && !q.host && q.kind != .csend && q.kind != .crecv) = none) :
    requestAnswer u a id v = count u .fltLateAns := by
  unfold requestAnswer
  rw [hf]

/-- The answer of a request ends in what it notes and in the request answered. -/
theorem ends_requestAnswer {q : RknReq} {t : State} (hs : agtShut u a = false) (hf : ((rkn u a).reqs.find? fun q =>
      q.id == id && !q.held && !q.host && q.kind != .csend && q.kind != .crecv) = some q)
    (hn : answerNoted u a q (q.got.getD v) = t) :
    Ends (.requestAnswer a id v) u (reqDone t a q (q.got.getD v)) := by
  subst hn
  refine ends_act _ _ (fun s => requestAnswer s a id v) u _ (fun _ => rfl) fun _ => ?_
  unfold requestAnswer
  rw [hf]
  exact if_neg (Bool.eq_false_iff.mp hs)

end

/-! ### Answers of CHN to a CSEND (R187) -/

section
variable {u : State} {a id : Nat} {v : W64} {data : Bytes} {q : RknReq} (hs : agtShut u a = false)
  (hf : ((rkn u a).reqs.find? fun q => q.id == id && q.kind == .csend && !q.held) = some q)
include hs hf

/-- An answer to a CSEND whose data wait to be written comes too late. -/
theorem csendAnswer_late (h2 : 2 ≤ q.sent) : csendAnswer u a id v data = count u .fltLateAns := by
  unfold csendAnswer
  simp [hf, hs, h2]

/-- A packet that its channel drops ends its request with 1, and is counted for the launch. -/
theorem csendAnswer_dropped (h0 : q.sent = 0) (hv : v.toNat % 4 = 1) :
    csendAnswer u a id v data = reqDone (updR u a fun r => { r with drops := min (r.drops + 1) (2 ^ 32 - 1) }) a q 1 := by
  unfold csendAnswer
  simp [hf, hs, h0, hv]

/-- A channel that has closed ends the request with 2. -/
theorem csendAnswer_closed (h2 : q.sent < 2) (hv : v.toNat % 4 = 2) :
    csendAnswer u a id v data = reqDone (updR u a fun r => { r with peerClosed := true }) a q 2 := by
  unfold csendAnswer
  by_cases h0 : q.sent = 0 <;> simp [hf, hs, Nat.not_le.mpr h2, h0, hv]

/-- A committed packet ends its request with 0. -/
theorem csendAnswer_committed (h1 : q.sent = 1) (hv : v.toNat % 4 = 0) : csendAnswer u a id v data = reqDone u a q 0 := by
  unfold csendAnswer
  simp [hf, hs, h1, hv]

/-- A packet whose data failed is sent again, up to three times. -/
theorem csendAnswer_resends (h1 : q.sent = 1) (hv : v.toNat % 4 = 1) (hr : q.resends < 3) :
    csendAnswer u a id v data =
      csendReserve (updReq u a id fun q => { q with resends := q.resends + 1 }) a { q with resends := q.resends + 1 } := by
  unfold csendAnswer
  simp [hf, hs, h1, hv, Nat.not_le.mpr hr]

/-- A granted send writes its data, or waits in line to do so. -/
theorem csendAnswer_granted {b : Bytes} {s : State} (h0 : q.sent = 0) (hv : v.toNat % 4 = 0)
    (hb : (b, s) = tileBytes u (rknPart u a) (reqTile u a q) data) :
    csendAnswer u a id v data = csendWrite (joinLine (updReq s a id fun _ => { q with sent := 2, grant := v, data := b }) a id) a
      { q with sent := 2, grant := v, data := b } := by
  unfold csendAnswer
  simp [hf, hs, h0, hv, ← hb]

end

section
variable {s : State} {a : Nat} {q : RknReq}

theorem csendWrite_waits (hb : lineBlocks s a q.id (blockId s) = true ∨ agtSeqFull s a 16 (rknPart s a) = true) :
    csendWrite s a q = s := by
  unfold csendWrite
  exact if_pos (by simpa using hb)

theorem csendWrite_sends (hl : lineBlocks s a q.id (blockId s) = false) (hf : agtSeqFull s a 16 (rknPart s a) = false) :
    csendWrite s a q =
      sendData a q (q.data.length / 256 + 1) 0 q.data (updReq s a q.id fun q => { q with sent := 3, data := [] }) := by
  unfold csendWrite
  rw [hl, hf]
  rfl

/-! ### The commit of a CSEND (R184, R274) -/

/-- The state with the commit of `q` sent. -/
def commitSent (s : State) (a : Nat) (q : RknReq) : State :=
  rknUnit (leaveLine (updReq s a q.id fun q => { q with sent := 1 }) a q.id) a q.id 2 (chanLoc q.target 0x7FFFF8)
    (BitVec.ofNat 64 (bitsOf q.grant.toNat 31 16)) 0xFF true []

theorem keeps_commitSent (s : State) (a : Nat) (q : RknReq) : Keeps s (commitSent s a q) := .refl s

theorem csendCommit_waits (hb : lineBlocks s a q.id (blockId s) = true ∨ ownWritesOpen s a = true) : csendCommit s a q = s := by
  unfold csendCommit
  exact if_pos (by simpa using hb)

theorem csendCommit_leaves (hl : lineBlocks s a q.id (blockId s) = false) (ho : ownWritesOpen s a = false) :
    csendCommit s a q = commitSent s a q := by
  unfold csendCommit
  rw [hl, ho]
  rfl

/-- The release of a CSEND whose data are written is its commit. -/
theorem rstRelease_commit {id : Nat} (hs : agtShut s a = false)
    (hf : ((rkn s a).reqs.find? fun q => q.id == id) = some q) (hk : q.kind = .csend) (h3 : q.sent = 3) :
    rstRelease s a id = csendCommit s a q := by
  unfold rstRelease
  rw [hf]
  dsimp only
  rw [if_neg (Bool.eq_false_iff.mp hs), hk]
  dsimp only
  rw [h3]
  rfl

end

/-! ### Answers of CHN to a CRECV (R191) -/

section
variable {u : State} {a id : Nat} {v : W64} {q : RknReq} (hs : agtShut u a = false)
  (hf : ((rkn u a).reqs.find? fun q => q.id == id && q.kind == .crecv && q.sent == 0) = some q)
include hs hf

/-- A claimed packet is written to the tile, and its slot is released where no write waits before that. -/
theorem crecvAnswer_packet {p : Pkt} {b : Bytes} {s w : State} (hv : bitsOf v.toNat 35 32 = 0)
    (hp : (chan u q.target).claims.look (bitsOf v.toNat 40 36) = some p)
    (hb : (b, s) = pktRead u p 0 (bitsOf v.toNat 31 0))
    (hw : w = writeTile a (rknPart s a) (reqTile s a q) (tileRows (reqTile s a q)).1 (tileRows (reqTile s a q)).2 b s)
    (hl : lineBlocks w a q.id (blockId w) = false) (hq : agtSeqFull w a 16 (rknPart w a) = false) :
    crecvAnswer u a id v = reqDone (rknWrite w a q.id 2 q.target 0xFC0008 (BitVec.ofNat 64 (bitsOf v.toNat 40 36)) 0xFF []) a
      { q with grant := v } (BitVec.ofNat 64 (bitsOf v.toNat 31 0)) := by
  have hrelease : crecvAnswer u a id v = crecvRelease w a { q with grant := v } := by
    subst hw
    unfold crecvAnswer
    rw [hf]
    dsimp only
    rw [if_neg (Bool.eq_false_iff.mp hs), if_pos hv, hp]
    dsimp only
    rw [← hb]
  rw [hrelease]
  unfold crecvRelease
  exact if_neg (by simp [hl, hq])

/-- A claim that gives no packet ends its request with its status. -/
theorem crecvAnswer_none (hv : bitsOf v.toNat 35 32 ≠ 0) :
    crecvAnswer u a id v =
      reqDone (if bitOf v.toNat 33 then count u (.rknRecvShort a) else u) a q (BitVec.ofNat 64 (v.toNat % 2 ^ 35)) := by
  unfold crecvAnswer
  rw [hf]
  dsimp only
  rw [if_neg (Bool.eq_false_iff.mp hs)]
  exact if_neg hv

end

/-! ### Words of the host (R397) -/

section
variable {u : State} {a id : Nat} {v : W64} {w : HostWord} {rest : List HostWord} (hc : Calm u)
  (ht : takeFirst (fun w => w.agent == a && w.req == id) u.hif.words = some (w, rest))
include hc ht

/-- The end of a host word by what its transaction says. -/
theorem hostWordResponse_taken (err : Bool) :
    hostWordResponse u a id v err = if err = true then
        raise (count { u with hif.words := rest } .hifUnmapped) 0x0103 .up w.part a
      else hostAnswer { u with hif.words := rest } a id v := by
  have hc' : Calm { u with hif.words := rest } := hc
  unfold hostWordResponse
  rw [ht]
  dsimp only
  rw [calm_inj hc']
  cases err <;> rfl

end

theorem hostAnswer_found {s : State} {a id : Nat} {v : W64} {q : RknReq} (hs : agtShut s a = false)
    (hf : ((rkn s a).reqs.find? fun q => q.id == id && q.host) = some q) : hostAnswer s a id v = reqDone s a q v := by
  unfold hostAnswer
  rw [hf]
  exact if_neg (Bool.eq_false_iff.mp hs)

/-! ### Retirement (R136, R137, R336) -/

/-- The state with the launch of a drained Reckoner retired: a halt noted, the charge returned, the pairs to BAU. -/
def layerRetired (u : State) (a : Nat) : State :=
  rknIdle (emit (emit (returnLayer (rknHaltNote u a) a) (.notice a (rknLaunch u a).node (rknLaunch u a).gen (rkn u a).pairs))
    (.retire a (rknLaunch u a).retTo (rknLaunch u a).node (rknLaunch u a).gen
      (if (rkn u a).halted then .halted else if (rkn u a).peerClosed then .peerClosed else .done) (rkn u a).drops)) a

section
variable {u : State} {a : Nat}

theorem rknHaltNote_none (hh : (rkn u a).halt = none) : rknHaltNote u a = u := by
  unfold rknHaltNote
  rw [hh]

theorem rknHaltNote_some {h : HaltInfo} (hh : (rkn u a).halt = some h) :
    rknHaltNote u a = haltNote u a h.reason h.addr (rknLaunch u a).node (rknLaunch u a).part := by
  unfold rknHaltNote
  rw [hh]

section
variable (hs : agtShut u a = false) (ho : (rkn u a).ops = [])
include hs ho

/-- A Reckoner that ends or halts retires once everything is answered, and a halt's fault follows. -/
theorem rknDrained_retires (hst : (rkn u a).st = .ending ∨ (rkn u a).st = .halting) (hq : (rkn u a).reqs = []) :
    rknDrained u a = (rkn u a).halt.elim (layerRetired u a) fun h =>
      haltFault (layerRetired u a) a h.reason (rknLaunch u a).part h.inj := by
  unfold rknDrained
  dsimp only
  rw [if_neg (Bool.eq_false_iff.mp hs), if_pos ⟨hst, ho, hq⟩]
  cases (rkn u a).halt <;> rfl

/-- An aborting Reckoner returns its charge and is idle. -/
theorem rknDrained_aborts (hst : (rkn u a).st = .aborting) : rknDrained u a = rknIdle (returnLayer u a) a := by
  unfold rknDrained
  simp [hs, ho, hst]

end

/-! ### The standby and memory errors (R145, R337) -/

/-- The state with the standby in the place of the active memories. -/
def standbySwapped (u : State) (a : Nat) : State :=
  updR (updA u a fun x => { x with swapReq := false, spareUsed := true }) a fun r =>
    { r with imem := r.imemS, imemS := r.imem, dmem := r.dmemS, dmemS := r.dmem, swappedIn := true }

theorem keeps_standbySwapped (u : State) (a : Nat) : Keeps u (standbySwapped u a) := .refl u

/-- An idle Reckoner whose standby is unused changes places with it on request. -/
theorem standbySwap_requested (hr : (agt u a).swapReq = true) (hi : (rkn u a).st = .idle)
    (hu : (agt u a).spareUsed = false) : standbySwap u a = logRecord (count (standbySwapped u a) (.agtSpare a)) 7 a 0 := by
  unfold standbySwap
  exact if_pos ⟨hr, hi, by rw [hu]; rfl⟩

theorem standbySwap_stays (h : (agt u a).swapReq = false ∨ (rkn u a).st ≠ .idle ∨ (agt u a).spareUsed = true) :
    standbySwap u a = u := by
  unfold standbySwap
  refine if_neg ?_
  rintro ⟨hr, hi, hu⟩
  rcases h with h | h | h
  · rw [h] at hr
    cases hr
  · exact h hi
  · rw [h] at hu
    cases hu

section
variable (hs : agtShut u a = false)
include hs

/-- An uncorrectable word that the layer program meets is a fault of its partition. -/
theorem scrubWord_running (hst : (rkn u a).st = .running) (inst row : Nat) (ce : Bool) :
    scrubWord u a inst row false ce true = requestSwap (raise u 0x0902 .up (rknPart u a) a) a := by
  unfold scrubWord imemScrub
  simp [hs, hst]

/-- What the scrub of an idle Reckoner leaves: an uncorrectable word is a fault, and a corrected one is counted. -/
theorem scrubWord_idle (hst : (rkn u a).st = .idle) (inst row : Nat) (standby ce ue : Bool) :
    scrubWord u a inst row standby ce ue =
      if ue then (if standby then raise u 0x0902 .c 0 a else requestSwap (raise u 0x0902 .c 0 a) a)
      else if ce then sramCorrected (memCorrected u a) inst row
      else u := by
  unfold scrubWord imemScrub
  cases ue <;> cases ce <;> simp [hs, hst]

end

end

/-! ### The statement -/

/-- Settles O39: answers, the end of a launch, the standby and the scrub. -/
theorem reckonerAnswers : Obligations.ReckonerAnswers := by
  refine ⟨fun u a hs => ⟨fun id v hf => ?late, fun id v q hf => ⟨fun hk => ?plain, fun hk => ?route, fun hk hv => ?bara,
      fun hk hv => ?barw⟩, fun id v data q hf => ?csend, fun id q hf hk h3 => ⟨fun hb => ?waits, fun hl ho => ?commits⟩,
      fun id v q hf => ⟨fun k n p b s w hv hk hn hp hb hw hl hq => ?packet, fun hv => ?nothing⟩,
      fun id v w rest q ht hf => ⟨?word, ?wordError⟩, fun l r x hr hl hst ho hq hx => ⟨fun hh => ?retires, fun h hh => ?halts⟩,
      fun hst ho => ?aborts, fun q v hq => reqDone_unheld v hq⟩,
    fun u a => ⟨fun hr hi hu s hsw => ?swaps, fun h => ?stays, fun inst row ce hst hs => ?meets,
      fun inst row ce hst hs => ?scrubs⟩⟩
  case late => exact becomes_keeps _ _ _ u _ (fun _ => rfl) (fun _ => requestAnswer_late hf) (keeps_count u _)
  case plain => exact ends_requestAnswer hs hf (answerNoted_plain hk)
  case route => exact ends_requestAnswer hs hf (answerNoted_route hk)
  case bara => exact ends_requestAnswer hs hf (answerNoted_bara hk hv)
  case barw => exact ends_requestAnswer hs hf (answerNoted_barw hk hv)
  case csend =>
    refine ⟨fun h0 hv => ?dropped, fun h2 => ?tooLate, fun h2 hv => ?closed, fun h1 hv => ?committed,
      fun h1 hv hr => ?resends, fun b s q' w h0 hv hb hq' hw => ?granted⟩
    case dropped => exact ends_act _ _ _ u _ (fun _ => rfl) fun _ => csendAnswer_dropped hs hf h0 hv
    case tooLate => exact becomes_keeps _ _ _ u _ (fun _ => rfl) (fun _ => csendAnswer_late hs hf h2) (keeps_count u _)
    case closed => exact ends_act _ _ _ u _ (fun _ => rfl) fun _ => csendAnswer_closed hs hf h2 hv
    case committed => exact ends_act _ _ _ u _ (fun _ => rfl) fun _ => csendAnswer_committed hs hf h1 hv
    case resends => exact ends_act _ _ _ u _ (fun _ => rfl) fun _ => csendAnswer_resends hs hf h1 hv hr
    case granted =>
      have hgrant := csendAnswer_granted hs hf h0 hv hb
      rw [← hq', ← hw] at hgrant
      have hid : q'.id = q.id := by rw [hq']
      have hdata : q'.data = b := by rw [hq']
      rw [← hid, ← hdata]
      exact ⟨fun hwait => ends_act _ _ _ u _ (fun _ => rfl) fun _ => hgrant.trans (csendWrite_waits hwait),
        fun hl hfull => ends_act _ _ _ u _ (fun _ => rfl) fun _ => hgrant.trans (csendWrite_sends hl hfull)⟩
  case waits =>
    exact becomes_keeps _ _ (fun s => rstRelease s a id) u u (fun _ => rfl)
      (fun _ => (rstRelease_commit hs hf hk h3).trans (csendCommit_waits hb)) (.refl u)
  case commits =>
    exact becomes_keeps _ _ (fun s => rstRelease s a id) u _ (fun _ => rfl)
      (fun _ => (rstRelease_commit hs hf hk h3).trans (csendCommit_leaves hl ho)) (keeps_commitSent u a q)
  case packet =>
    subst hk hn
    exact ends_act _ _ _ u _ (fun _ => rfl) fun _ => crecvAnswer_packet hs hf hv hp hb hw hl hq
  case nothing => exact ends_act _ _ _ u _ (fun _ => rfl) fun _ => crecvAnswer_none hs hf hv
  case word =>
    refine ends_act _ _ _ u _ (fun _ => rfl) fun hc => (hostWordResponse_taken hc ht false).trans ?_
    exact hostAnswer_found (s := { u with hif.words := rest }) hs hf
  case wordError =>
    exact ends_act _ _ _ u _ (fun _ => rfl) fun hc => hostWordResponse_taken hc ht true
  case retires =>
    subst hr hl hx
    refine ⟨rknHaltNote_none hh, ends_act _ _ _ u _ (fun _ => rfl) fun _ => ?_⟩
    rw [rknDrained_retires hs ho hst hq, hh]
    rfl
  case halts =>
    subst hr hl hx
    refine ⟨rknHaltNote_some hh, ends_act _ _ _ u _ (fun _ => rfl) fun _ => ?_⟩
    rw [rknDrained_retires hs ho hst hq, hh]
    rfl
  case aborts => exact ends_act _ _ _ u _ (fun _ => rfl) fun _ => rknDrained_aborts hs ho hst
  case swaps =>
    subst hsw
    exact becomes_keeps _ _ _ u _ (fun _ => rfl) (fun _ => standbySwap_requested hr hi hu)
      ((keeps_standbySwapped u a).trans ((keeps_count _ _).trans (keeps_logRecord _ _ _ _)))
  case stays => exact becomes_keeps _ _ _ u u (fun _ => rfl) (fun _ => standbySwap_stays h) (.refl u)
  case meets => exact ends_act _ _ _ u _ (fun _ => rfl) fun _ => scrubWord_running hs hst inst row ce
  case scrubs =>
    have hscrub := scrubWord_idle hs hst inst row
    exact ⟨ends_act _ _ _ u _ (fun _ => rfl) fun _ => hscrub true ce true,
      ends_act _ _ _ u _ (fun _ => rfl) fun _ => hscrub false ce true,
      ends_act _ _ _ u _ (fun _ => rfl) fun _ => hscrub false true false,
      becomes_keeps _ _ _ u u (fun _ => rfl) (fun _ => hscrub false false false) (.refl u)⟩

end Sys2Proof.Machine
end

section
/-!
PROOFS. Scalar arithmetic of the Reckoner: the table of its forms, each with the function that it computes; with it the
statement on scalar arithmetic is settled.
-/

namespace Sys2Proof.Machine

open Sys2Proof

/-! ### The table of scalar arithmetic (R150) -/

/-- Instruction `i` is the row of a listed opcode of agent `a`'s Reckoner, with the meaning that `ins` gives it. -/
structure IsRow (i : Instr) (a code : Nat) (ins : State → Nat → RknIns) : Prop where
  performs : ∀ s, exec i s = .next (act [] (fun s => rknRow s a code ins) s)
  listed : rknOpcode code = true

/-- The register forms, each with its opcode and its function. -/
def regFns (a : Nat) : List (Instr × Nat × (W64 → W64 → W64)) :=
  [(.rknAdd a, 0x10, aluAdd), (.rknSub a, 0x11, aluSub), (.rknMul a, 0x12, aluMul), (.rknMulhu a, 0x13, aluMulhu),
    (.rknAnd a, 0x14, aluAnd), (.rknOr a, 0x15, aluOr), (.rknXor a, 0x16, aluXor), (.rknShl a, 0x17, aluShl),
    (.rknShr a, 0x18, aluShr), (.rknSra a, 0x19, aluSra), (.rknSlt a, 0x1A, aluSlt), (.rknSltu a, 0x1B, aluSltu),
    (.rknMin a, 0x1C, aluMin), (.rknMax a, 0x1D, aluMax), (.rknMinu a, 0x1E, aluMinu), (.rknMaxu a, 0x1F, aluMaxu)]

/-- The immediate forms that are no shifts. -/
def immFns (a : Nat) : List (Instr × Nat × (W64 → W64 → W64)) :=
  [(.rknAddi a, 0x20, aluAdd), (.rknAndi a, 0x21, aluAnd), (.rknOri a, 0x22, aluOr), (.rknXori a, 0x23, aluXor),
    (.rknSlti a, 0x27, aluSlt)]

/-- The immediate shifts. -/
def shiftFns (a : Nat) : List (Instr × Nat × (W64 → Nat → W64)) :=
  [(.rknShli a, 0x24, fun x n => x <<< n), (.rknShri a, 0x25, fun x n => x >>> n),
    (.rknSrai a, 0x26, fun x n => x.sshiftRight n)]

/-- The rows of a table whose functions are applied to their operands. -/
def resultsOf {α : Type} (l : List (Instr × Nat × (W64 → α → W64))) (x : W64) (y : α) : List (Instr × Nat × W64) :=
  l.map fun r => (r.1, r.2.1, r.2.2 x y)

/-- A result comes from a function of the table. -/
theorem mem_resultsOf {α : Type} {l : List (Instr × Nat × (W64 → α → W64))} {x v : W64} {y : α} {i : Instr} {code : Nat}
    (h : (i, code, v) ∈ resultsOf l x y) : ∃ f, (i, code, f) ∈ l ∧ f x y = v := by
  obtain ⟨⟨_, _, f⟩, hf, hr⟩ := List.mem_map.mp h
  cases hr
  exact ⟨f, hf, rfl⟩

section
variable {i : Instr} {a code : Nat} {f : W64 → W64 → W64} {g : W64 → Nat → W64}

theorem isRow_reg (h : (i, code, f) ∈ regFns a) : IsRow i a code (insReg f a) := by
  have hrows : ∀ r ∈ regFns a, IsRow r.1 a r.2.1 (insReg r.2.2 a) := by
    simp only [regFns, List.forall_mem_cons, List.not_mem_nil, false_implies, implies_true, and_true]
    and_intros <;> exact ⟨fun _ => rfl, rfl⟩
  exact hrows _ h

theorem isRow_imm (h : (i, code, f) ∈ immFns a) : IsRow i a code (insImm f a) := by
  have hrows : ∀ r ∈ immFns a, IsRow r.1 a r.2.1 (insImm r.2.2 a) := by
    simp only [immFns, List.forall_mem_cons, List.not_mem_nil, false_implies, implies_true, and_true]
    and_intros <;> exact ⟨fun _ => rfl, rfl⟩
  exact hrows _ h

theorem isRow_shift (h : (i, code, g) ∈ shiftFns a) : IsRow i a code (insShift g a) := by
  have hrows : ∀ r ∈ shiftFns a, IsRow r.1 a r.2.1 (insShift r.2.2 a) := by
    simp only [shiftFns, List.forall_mem_cons, List.not_mem_nil, false_implies, implies_true, and_true]
    and_intros <;> exact ⟨fun _ => rfl, rfl⟩
  exact hrows _ h

end

section
variable {u : State} {a w : Nat}

/-! ### LI and LIH (R150) -/

theorem clear_insLi (hm : w &&& maskI = w) (h1 : rs1 w = 0) (hd : isPend u a (rd w) = false) :
    Clear u a (insLi a u w) :=
  ⟨rfl, hd, by simp [insLi, resv_ok hm, h1], rfl⟩

theorem clear_insLih (hm : w &&& maskI = w) (h1 : rs1 w = 0) (hd : isPend u a (rd w) = false) :
    Clear u a (insLih a u w) :=
  ⟨by simp [insLih, hd], hd, by simp [insLih, resv_ok hm, h1], rfl⟩

end

/-! ### The statement -/

/-- Settles O33: the forms by their tables, then LI and LIH. -/
theorem scalarArithmetic : Obligations.ScalarArithmetic := by
  refine ⟨fun u a w x y i code v hmem h hm h1 h2 hd hx hy => ?reg, fun u a w x m n hm hmm hn hd =>
    ⟨fun hx h1 => ⟨fun i code v hmem h => ?imm, fun i code v hmem h hz => ?shift⟩, fun h h1 => ?li, fun h h1 => ?lih⟩⟩
  case reg =>
    subst hx hy
    obtain ⟨f, hf, hv⟩ := mem_resultsOf (l := regFns a) hmem
    obtain ⟨he, ho⟩ := isRow_reg hf
    exact reg_case he h ho hm h1 h2 hd hv
  case imm =>
    subst hx hmm
    obtain ⟨f, hf, hv⟩ := mem_resultsOf (l := immFns a) hmem
    obtain ⟨he, ho⟩ := isRow_imm hf
    exact imm_case he h ho hm h1 hd hv
  case shift =>
    subst hx hn
    obtain ⟨f, hf, hv⟩ := mem_resultsOf (l := shiftFns a) hmem
    obtain ⟨he, ho⟩ := isRow_shift hf
    exact sh_case he h ho hm h1 hd hz hv
  case li =>
    subst hmm
    exact becomes_next (fun _ => rfl) h rfl (clear_insLi hm h1 hd) rfl (keeps_setS u a _ _)
  case lih => exact becomes_next (fun _ => rfl) h rfl (clear_insLih hm h1 hd) rfl (keeps_setS u a _ _)

end Sys2Proof.Machine
end

section
/-!
PROOFS. Loads and stores of DMEM, and the halts and stalls of the read stage; with them the statement on loads, stores and
halts is settled.
-/

namespace Sys2Proof.Machine

open Sys2Proof

/-! ### DMEM (R157) -/

/-- The loads, each with its opcode, its bytes and whether they are sign-extended. -/
def loadRows (a : Nat) : List (Instr × Nat × Nat × Bool) :=
  [(.rknLdU8 a, 0x30, 1, false), (.rknLdU16 a, 0x31, 2, false), (.rknLdU32 a, 0x32, 4, false), (.rknLd64 a, 0x33, 8, false),
    (.rknLdS8 a, 0x34, 1, true), (.rknLdS16 a, 0x35, 2, true), (.rknLdS32 a, 0x36, 4, true)]

/-- The stores, each with its opcode and its bytes. -/
def storeRows (a : Nat) : List (Instr × Nat × Nat) :=
  [(.rknSt8 a, 0x38, 1), (.rknSt16 a, 0x39, 2), (.rknSt32 a, 0x3A, 4), (.rknSt64 a, 0x3B, 8)]

section
variable {i : Instr} {a code n : Nat} {sg : Bool}

theorem isRow_load (h : (i, code, n, sg) ∈ loadRows a) : IsRow i a code (insLoad n sg a) := by
  have hrows : ∀ r ∈ loadRows a, IsRow r.1 a r.2.1 (insLoad r.2.2.1 r.2.2.2 a) := by
    simp only [loadRows, List.forall_mem_cons, List.not_mem_nil, false_implies, implies_true, and_true]
    and_intros <;> exact ⟨fun _ => rfl, rfl⟩
  exact hrows _ h

theorem isRow_store (h : (i, code, n) ∈ storeRows a) : IsRow i a code (insStore n a) := by
  have hrows : ∀ r ∈ storeRows a, IsRow r.1 a r.2.1 (insStore r.2.2 a) := by
    simp only [storeRows, List.forall_mem_cons, List.not_mem_nil, false_implies, implies_true, and_true]
    and_intros <;> exact ⟨fun _ => rfl, rfl⟩
  exact hrows _ h

end

section
variable {addr n : Nat}

/-- A misaligned address halts with ALIGN, also where it lies past the end. -/
theorem worstHalt_misaligned (h : addr % n ≠ 0) : worstHalt (dmemHalts addr n) = some 7 := by
  have halign : (addr % n != 0) = true := bne_iff_ne.mpr h
  unfold dmemHalts
  rw [halign, ifHalt_true]
  cases decide (262144 < addr + n) <;> rfl

/-- An aligned access past the end halts with DMEM_RANGE. -/
theorem worstHalt_pastEnd (h : addr % n = 0) (he : 262144 < addr + n) : worstHalt (dmemHalts addr n) = some 5 := by
  unfold dmemHalts
  rw [h, decide_eq_true he]
  rfl

end

/-- The checks of a store whose word is well formed are those of its access. -/
theorem insStore_halts {u : State} {a w n : Nat} (hm : w &&& (maskI + maskBits 22 18) = w) (hd : rd w = 0)
    (h1 : isPend u a (rs1 w) = false) :
    (insStore n a u w).fixed ++ (insStore n a u w).made u a = dmemHalts (dmemAddr u a w) n := by
  have hfixed : (insStore n a u w).fixed = [] := by simp [insStore, resv_ok hm, hd]
  rw [hfixed, made_one (l := [rs1 w]) rfl (by simp [h1]), List.nil_append]

/-! ### The read stage (R130, R147, R148, R149) -/

section
variable {i : Instr} {u : State} {a code w : Nat} {ins : State → Nat → RknIns}

/-- In a calm state the row of the opcode at PC takes its instruction to the read stage. -/
theorem row_runs (hc : Calm u) (h : AtIns u a code w) (ho : rknOpcode code = true) :
    rknRow u a code ins = runIns u a (ins u w) := by
  obtain ⟨hrun, hst, hw, hop⟩ := h
  unfold rknRow
  simp only [hw, hop, calm_inj hc, ho]
  rw [if_neg (by simp [hrun, hst]), if_neg (by decide), if_neg (by decide), if_neg (fun h => h rfl), if_neg (by decide)]

/-- An instruction without a failing check stalls while a register that it reads or writes awaits a result. -/
theorem becomes_pending (hr : IsRow i a code ins) (h : AtIns u a code w) (hf : (ins u w).fixed = [])
    (hn : (ins u w).made u a = []) (hp : (ins u w).srcs.any (isPend u a) ∨ isPend u a (ins u w).dst) :
    Becomes i u (count u (.rknStallReg a)) := by
  obtain ⟨he, ho⟩ := hr
  refine becomes_keeps _ _ _ _ _ he (fun hc => ?_) (keeps_count u _)
  rw [row_runs hc h ho]
  unfold runIns
  rw [hf, hn]
  exact if_pos hp

/-- At an opcode that R150 does not list, the row of every instruction halts with ILLEGAL_OP. -/
theorem ends_unlisted (he : ∀ s, exec i s = .next (act [] (fun s => rknRow s a code ins) s)) (hs : agtShut u a = false)
    (hst : (rkn u a).st = .running) (ho : rknOpcode (rknWordAt u a % 256) = false) :
    Ends i u (rknHaltAt u a 1 (rkn u a).pc.toNat false) :=
  ends_act _ _ _ _ _ he fun hc => row_unlisted hc hs hst rfl ho

end

/-- A reserved bit is the only failing check of a register form. -/
theorem insReg_reserved {f : W64 → W64 → W64} {u : State} {a w : Nat} (hm : w &&& maskR ≠ w) :
    worstHalt ((insReg f a u w).fixed ++ (insReg f a u w).made u a) = some 1 := by
  have hfixed : (insReg f a u w).fixed = [1] := resv_bad hm
  rw [hfixed, made_nil rfl]
  rfl

/-- A register other than s0 reads what was written to it. -/
theorem getS_setS_same (s : State) (a : Nat) {i : Nat} (v : W64) (hi : i ≠ 0) : getS (setS s a i v) a i = v := by
  unfold getS setS
  rw [if_neg hi, if_neg hi, rkn_updR_same]
  exact Tab.look_put_same _ i v

/-! ### The statement -/

/-- Settles O34: loads and stores with their halts, then the read stage. -/
theorem loadsStoresAndHalts : Obligations.LoadsStoresAndHalts := by
  refine ⟨fun u a w n addr h1 haddr => ⟨fun i code sg hmem h hm hd => ?load, fun i code hmem h hm hd h2 =>
      ⟨fun hal hin => ?stores, fun hal => ?misaligned, fun hal hpast => ?pastEnd⟩⟩,
    fun u a w hs hst hw => ⟨fun ho i hi => ?unlisted, fun hop hm => ?reserved, fun hop hm hp => ?pending,
      fun i v => ⟨rfl, rfl, rfl, rfl, getS_setS_same u a v⟩⟩⟩
  case load =>
    obtain ⟨he, ho⟩ := isRow_load (a := a) hmem
    exact ld_case he h ho hm h1 hd haddr.symm
  case stores =>
    obtain ⟨he, ho⟩ := isRow_store (a := a) hmem
    exact st_case he h ho hm h1 h2 hd haddr.symm hal hin
  case misaligned =>
    subst haddr
    obtain ⟨he, ho⟩ := isRow_store (a := a) hmem
    exact ends_halted he h ho ((congrArg worstHalt (insStore_halts hm hd h1)).trans (worstHalt_misaligned hal))
  case pastEnd =>
    subst haddr
    obtain ⟨he, ho⟩ := isRow_store (a := a) hmem
    exact ends_halted he h ho ((congrArg worstHalt (insStore_halts hm hd h1)).trans (worstHalt_pastEnd hal hpast))
  case unlisted =>
    subst hw
    simp only [List.mem_cons, List.not_mem_nil, or_false] at hi
    rcases hi with rfl | rfl | rfl | rfl <;> exact ends_unlisted (fun _ => rfl) hs hst ho
  case reserved => exact ends_halted (ins := insReg aluAdd a) (fun _ => rfl) ⟨hs, hst, hw, hop⟩ rfl (insReg_reserved hm)
  case pending =>
    refine becomes_pending (ins := insReg aluAdd a) ⟨fun _ => rfl, rfl⟩ ⟨hs, hst, hw, hop⟩ (resv_ok hm) rfl ?_
    simpa [insReg, or_assoc] using hp

end Sys2Proof.Machine
end

section
/-!
PROOFS. Sending through a channel: what a reservation, a data write and a commit do, and what a grant leaves; with them the
statement on sending is settled.
-/

namespace Sys2Proof.Machine

open Sys2Proof

/-! ### Commands of a unit that is not stopped -/

section
variable {i : Instr} {l : List Touch} {shut : State → Bool} {f : State → State} {u v : State}
  (hi : ∀ s, exec i s = .next (act l (fun s => if shut s then s else f s) s)) (hs : shut u = false)
include hi hs

/-- At a unit that is not stopped, a command ends in its effect. -/
theorem ends_unshut (hf : Calm u → f u = v) : Ends i u v :=
  ends_act i l _ u v hi fun hc => (if_neg (Bool.eq_false_iff.mp hs)).trans (hf hc)

theorem becomes_unshut (hf : Calm u → f u = v) (hk : Keeps u v) : Becomes i u v :=
  becomes_keeps i l _ u v hi (fun hc => (if_neg (Bool.eq_false_iff.mp hs)).trans (hf hc)) hk

end

section
variable {i : Instr} {l : List Touch} {shut : State → Bool} {o : HeldOp} {u v : State}
  (hi : ∀ s, exec i s = .next (act l (fun s => if shut s then s else opOffer s o) s)) (hs : shut u = false)
  (hcr : opCredit u o = true)
include hi hs hcr

/-- An operation that finds a credit reaches its unit at once (R180, R189, R196). -/
theorem ends_offered (hf : Calm u → opPerform u o = v) : Ends i u v :=
  ends_unshut hi hs fun hc => (offer_now hc o hcr).trans (hf hc)

theorem becomes_offered (hf : Calm u → opPerform u o = v) (hk : Keeps u v) : Becomes i u v :=
  becomes_unshut hi hs (fun hc => (offer_now hc o hcr).trans (hf hc)) hk

end

theorem keeps_answer (s : State) (src : Src) (op v : Nat) : Keeps s (answer s src op v) := .refl s

theorem keeps_chn (s : State) (x : Chn) : Keeps s { s with chn := x } := .refl s

theorem keeps_countClosed (s : State) (c n : Nat) : Keeps s (countClosed s c n) := .refl s

/-! ### Reservations (R174, R175, R177, R180, R181) -/

/-- The entry that a reservation of `v` bytes makes. -/
def sendEntry (c : Nat) (src : Src) (v : Nat) : OpenSend :=
  { chan := c, src := src, len := v, need := cellsFor v, granted := false, epoch := 0, cells := [], bad := false, blocks := [] }

/-- The state with entry `e` behind the open sends. -/
def sendEntered (s : State) (e : OpenSend) : State := { s with chn := { s.chn with sends := s.chn.sends ++ [e] } }

/-- Whether a reservation of `n` cells finds no place in channel `c` now: another one waits, or the channel is full. -/
def noPlace (s : State) (c n : Nat) : Bool := (s.chn.sends.any fun e => e.chan == c && !e.granted) || !fitsChan (chan s c) n

/-- A stall of channel `c` is counted. -/
def stalled (s : State) (c : Nat) : State := count (updC s c fun h => { h with stall := sat32 h.stall 1 }) .chnStall

theorem keeps_stalled (s : State) (c : Nat) : Keeps s (stalled s c) := .refl s

/-- A packet of a DROP_NEWEST channel is dropped: it joins the gap at the tail, and the drop is counted and reported. -/
def dropCounted (s : State) (c : Nat) (src : Src) : State :=
  detReport (pageCount (count (updC s c fun h => { h with tailGap := sat32 h.tailGap 1, drops := sat32 h.drops 1 }) .chnDrop)
    (chan s c).part 9 1) (chan s c).part 5 c Config.noNode (srcIdent src)

/-- A dropped packet is traced and answered, and the gap may be what a claim waits for. -/
def sendDropped (s : State) (c : Nat) (src : Src) : State :=
  retestClaims (answer (trRecord (dropCounted s c src)
    { type := 5, part := (chan s c).part, cls := 0, gen := 0, node := Config.noNode, sub := 0, ts := (dropCounted s c src).ts,
      arg1 := BitVec.ofNat 64 c, arg2 := srcIdent src }) src (ansReserve c) 1) c

section
variable {u : State} {c v : Nat} {src : Src}

theorem chanReserve_foreign (ha : chanAllowed u c src = false) :
    chanReserve u c src v = answer (count u .chnXpart) src (ansReserve c) 3 :=
  if_pos (by rw [ha]; rfl)

/-- A reservation of a legal length by the state of its channel. -/
theorem chanReserve_legal (hc : Calm u) (ha : chanAllowed u c src = true) (h1 : 1 ≤ v) (h2 : v ≤ 262144) :
    chanReserve u c src v =
      if !(chan u c).open_ then answer (countClosed u c 1) src (ansReserve c) 2
      else if decide ((chan u c).quota < cellsFor v) || (u.chn.sends.any fun e => e.chan == c && sameSrc e.src src) then
        answer (count u .chnRefuse) src (ansReserve c) 3
      else if noPlace u c (cellsFor v) then
        if (chan u c).dropNewest then sendDropped u c src else sendEntered (stalled u c) (sendEntry c src v)
      else grantSend (sendEntered u (sendEntry c src v)) c (sendEntry c src v) := by
  have hlen : v % 2 ^ 19 = v := Nat.mod_eq_of_lt (by omega)
  unfold chanReserve
  dsimp only
  rw [if_neg (by rw [ha]; decide), if_neg (calm_not_armed hc _ _), hlen, if_neg (by omega)]
  rfl

/-- A reservation that its channel may hold: it is granted where it finds a place (R180, R181). -/
theorem chanReserve_admitted (hc : Calm u) (ha : chanAllowed u c src = true) (h1 : 1 ≤ v) (h2 : v ≤ 262144)
    (ho : (chan u c).open_ = true) (hq : cellsFor v ≤ (chan u c).quota)
    (hn : (u.chn.sends.any fun e => e.chan == c && sameSrc e.src src) = false) :
    chanReserve u c src v =
      if noPlace u c (cellsFor v) then
        if (chan u c).dropNewest then sendDropped u c src else sendEntered (stalled u c) (sendEntry c src v)
      else grantSend (sendEntered u (sendEntry c src v)) c (sendEntry c src v) := by
  rw [chanReserve_legal hc ha h1 h2, if_neg (by rw [ho]; decide), hn, decide_eq_false (Nat.not_lt.mpr hq)]
  exact if_neg (by decide)

end

theorem noPlace_free {s : State} {c n : Nat} (hw : (s.chn.sends.any fun e => e.chan == c && !e.granted) = false)
    (hf : fitsChan (chan s c) n = true) : ¬ noPlace s c n = true := by
  unfold noPlace
  rw [hw, hf]
  decide

theorem noPlace_taken {s : State} {c n : Nat}
    (h : (s.chn.sends.any fun e => e.chan == c && !e.granted) = true ∨ fitsChan (chan s c) n = false) : noPlace s c n = true := by
  unfold noPlace
  rcases h with h | h
  · rw [h, Bool.true_or]
  · rw [h, Bool.not_false, Bool.or_true]

/-! ### What a grant leaves (R180, R182) -/

/-- What changes from memory `m` to `m'` lies in the link entries of the cells `l`, whose table stands at `base`. -/
def LinksOnly (base : Nat) (l : List Nat) (m m' : Tab Byte) : Prop :=
  Memory.wf m = true → Memory.wf m' = true ∧
    ∀ a, (∀ k ∈ l, a < base + 4 * k ∨ base + 4 * k + 4 ≤ a) → m'.look a = m.look a

/-- A cell's link entry is 4 bytes of the link table. -/
theorem linkCell_form (s : State) (k next : Nat) : ∃ m, linkCell s k next = { s with mem := m } ∧
    LinksOnly (linkBase s) [k] s.mem m := by
  have hlen : (leBytes 4 (next % 2 ^ 25)).length = 4 := leBytes_length _ _
  obtain ⟨m, hform, hmem⟩ := writeAt_part s (linkBase s + 4 * k) (leBytes 4 (next % 2 ^ 25)) (by omega)
  refine ⟨m, hform, fun hwf => ?_⟩
  obtain ⟨hwf', hother⟩ := hmem hwf
  rw [hlen] at hother
  exact ⟨hwf', fun a ha => hother a (ha k List.mem_cons_self)⟩

/-- Chaining cells changes their link entries only. -/
theorem linkCells_form (l : List Nat) (s : State) : ∃ m, linkCells l s = { s with mem := m } ∧
    LinksOnly (linkBase s) l s.mem m := by
  induction l generalizing s with
  | nil => exact ⟨s.mem, rfl, fun hwf => ⟨hwf, fun _ _ => rfl⟩⟩
  | cons k r ih =>
    obtain ⟨m, hfirst, hmem⟩ := linkCell_form s k (r.head?.getD noCell)
    obtain ⟨m', hrest, hmem'⟩ := ih { s with mem := m }
    refine ⟨m', ?_, fun hwf => ?_⟩
    · rw [linkCells, hfirst, hrest]
    · obtain ⟨hwf1, hother⟩ := hmem hwf
      obtain ⟨hwf2, hother'⟩ := hmem' hwf1
      refine ⟨hwf2, fun a ha => (hother' a fun j hj => ha j (List.mem_cons_of_mem _ hj)).trans (hother a ?_)⟩
      exact fun j hj => ha j (List.mem_cons.mpr (.inl (List.mem_singleton.mp hj)))

/-- Entry `e` with its cells and the channel's epoch. -/
def entryGranted (s : State) (c : Nat) (e : OpenSend) : OpenSend :=
  { e with granted := true, cells := (takeCells s e.need).1, epoch := (chan s c).epoch }

/-- Channel `h` with one packet of `n` cells more. -/
def withPacket (n : Nat) (h : Chan) : Chan := { h with packets := h.packets + 1, used := h.used + n }

/-- A granted entry: the packet counts in its channel, its cells are chained, and the answer carries the epoch. -/
theorem grantSend_form (s : State) (c : Nat) (e : OpenSend) : ∃ f t m,
    grantSend s c e = answer { s with
      free := f, mem := m,
      chn := { s.chn with
        taken := t,
        chans := s.chn.chans.upd c (withPacket e.need),
        sends := updFirst (fun x => x.chan == c && sameSrc x.src e.src) (fun _ => entryGranted s c e) s.chn.sends } }
      e.src (ansReserve c) ((chan s c).epoch.toNat * 2 ^ 16) ∧
    LinksOnly (linkBase s) (takeCells s e.need).1 s.mem m := by
  obtain ⟨f, t, htake⟩ := takeCells_form s e.need
  obtain ⟨m, hlink, hmem⟩ := linkCells_form (takeCells s e.need).1 (takeCells s e.need).2
  rw [htake] at hlink hmem
  refine ⟨f, t, m, ?_, hmem⟩
  unfold grantSend
  dsimp only
  rw [htake, hlink]
  rfl

/-- What a grant leaves of its channel. -/
theorem chan_grantSend (s : State) (c : Nat) (e : OpenSend) :
    chan (grantSend s c e) c = withPacket e.need (chan s c) := by
  obtain ⟨f, t, m, h, _⟩ := grantSend_form s c e
  rw [h]
  exact Tab.look_upd_same s.chn.chans c (withPacket e.need)

/-! ### Data (R175, R182, R183) -/

/-- Whether entry `e` is the granted one of source `src` in channel `c`. -/
def grantedTo (c : Nat) (src : Src) (e : OpenSend) : Bool := e.chan == c && sameSrc e.src src && e.granted

theorem writeDone_form (s : State) (src : Src) (c o : Nat) : ∃ t, writeDone s src c o = { s with agt := t } := by
  unfold writeDone
  split
  · exact ⟨_, rfl⟩
  · exact ⟨s.agt, rfl⟩

section
variable (s : State) (src : Src) (c o : Nat)

@[simp] theorem writeDone_chn : (writeDone s src c o).chn = s.chn := by
  obtain ⟨_, h⟩ := writeDone_form s src c o
  rw [h]

@[simp] theorem chan_writeDone (d : Nat) : chan (writeDone s src c o) d = chan s d := by
  unfold chan
  rw [writeDone_chn]

@[simp] theorem chanAllowed_writeDone (d : Nat) (x : Src) : chanAllowed (writeDone s src c o) d x = chanAllowed s d x := by
  obtain ⟨_, h⟩ := writeDone_form s src c o
  rw [h]
  rfl

theorem calm_writeDone (hc : Calm s) : Calm (writeDone s src c o) := by
  obtain ⟨_, h⟩ := writeDone_form s src c o
  rw [h]
  exact hc

end

theorem writeBlock_chn (s : State) (a : Nat) (b : Bytes) : (writeBlock s a b).1.chn = s.chn := by
  unfold writeBlock
  dsimp only
  split
  · rfl
  · split <;> rfl

theorem writeBlocks_chn (n : Nat) (s : State) (a : Nat) (b : Bytes) : (writeBlocks n s a b).1.chn = s.chn := by
  induction n generalizing s a b with
  | zero => rfl
  | succ n ih =>
    unfold writeBlocks
    split
    · rfl
    · exact (ih _ _ _).trans (writeBlock_chn s a _)

/-- What the Slate stores leaves the channels as they are. -/
theorem writeAt_chn (s : State) (a : Nat) (b : Bytes) : (writeAt s a b).1.chn = s.chn := by
  unfold writeAt
  split
  · exact writeBlocks_chn _ s a b
  · rfl

theorem cellPut_chn (n : Nat) (s : State) (cells : List Nat) (x : Nat) (b : Bytes) :
    (cellPut n s cells x b).1.chn = s.chn := by
  induction n generalizing s x b with
  | zero => rfl
  | succ n ih =>
    unfold cellPut
    split
    · rfl
    · rfl
    · exact (ih _ _ _).trans (writeAt_chn s _ _)

theorem chn_foldl (l : List Nat) (f : State → Nat → State) (hf : ∀ s j, (f s j).chn = s.chn) (s : State) :
    (l.foldl f s).chn = s.chn := by
  induction l generalizing s with
  | nil => rfl
  | cons j r ih => exact (ih (f s j)).trans (hf s j)

/-- Storing payload, the zeros of its first writes included, leaves the channels as they are. -/
theorem storePayload_chn (s : State) (e : OpenSend) (o : Nat) (b : Bytes) : (storePayload s e o b).1.chn = s.chn :=
  (cellPut_chn _ _ _ _ _).trans (chn_foldl _ _ (fun s _ => cellPut_chn _ s _ _ _) s)

/-- An update of the first element that meets `p` depends on what it does to that one only. -/
theorem updFirst_congr {α : Type} {p : α → Bool} {f g : α → α} {l : List α} {x : α} (h : l.find? p = some x)
    (hx : f x = g x) : updFirst p f l = updFirst p g l := by
  induction l with
  | nil => cases h
  | cons y r ih =>
    unfold updFirst
    cases hp : p y with
    | true =>
      rw [List.find?_cons_of_pos hp] at h
      cases h
      rw [if_pos rfl, if_pos rfl, hx]
    | false =>
      rw [List.find?_cons_of_neg (by rw [hp]; decide)] at h
      rw [if_neg (by decide), if_neg (by decide), ih h]

/-- Where no write of the channel is to be inverted, a calm state injects nothing into one (R331). -/
theorem dataInject_none {s : State} {c : Nat} (hc : Calm s) (hi : s.chn.inverted.look c = none) :
    dataInject s c = (s, false, false) := by
  unfold dataInject
  rw [hi]
  dsimp only
  rw [if_neg (calm_not_armed hc _ _), if_neg (calm_not_armed hc _ _)]

/-- Data that fails its check raises CHN_REWIND and marks its entry BAD. -/
def dataBad (s : State) (c : Nat) (src : Src) : State :=
  { raise (count s .chnRewind) 0x0B01 .c (chan s c).part c with
    chn.sends := updFirst (grantedTo c src) (fun e => { e with bad := true }) s.chn.sends }

/-- The entry after a data write of `n` bytes at offset `off`, by what the Slate stored: `r` holds the state and whether the
Slate took all of them. -/
def dataKept (c : Nat) (src : Src) (off n : Nat) (r : State × Bool) : State :=
  let s := if r.2 then r.1 else raise (count r.1 .chnRewind) 0x0B01 .c (chan r.1 c).part c
  { s with chn.sends :=
      updFirst (grantedTo c src) (fun e => { e with bad := !r.2, blocks := blocksWith e.blocks off n }) s.chn.sends }

/-- Stored data changes the entry that the source holds, and no other. -/
theorem dataKept_stored {s : State} {c : Nat} {src : Src} {e : OpenSend} (hf : s.chn.sends.find? (grantedTo c src) = some e)
    (off n : Nat) :
    dataKept c src off n (s, true) = { s with chn := { s.chn with
      sends := updFirst (grantedTo c src) (fun _ => { e with bad := false, blocks := blocksWith e.blocks off n }) s.chn.sends } } := by
  have hlist : updFirst (grantedTo c src)
      (fun x => { x with bad := !true, blocks := blocksWith x.blocks off n }) s.chn.sends = _ :=
    updFirst_congr (g := fun _ => { e with bad := false, blocks := blocksWith e.blocks off n }) hf rfl
  exact congrArg (fun l => { s with chn := { s.chn with sends := l } }) hlist

section
variable {u : State} {c off : Nat} {src : Src} {e : OpenSend} (hc : Calm u) (ha : chanAllowed u c src = true)
  (hi : u.chn.inverted.look c = none) (hf : u.chn.sends.find? (grantedTo c src) = some e)
include hf

/-- A masked write of the packet's data is one of the bytes it leaves out as they stand. -/
theorem chanWrite_merged (ho : off < 262144) (data : Bytes) (sel : Nat → Bool) (crcOk : Bool) :
    chanWrite u c src off data sel crcOk =
      chanData u c src off (mergeSel sel 0 (payloadBytes u e.cells e.blocks e.len off data.length) data) crcOk := by
  unfold grantedTo at hf
  unfold chanWrite
  rw [if_neg (by omega), hf]

include hc ha hi

/-- Data for a packet's entry that is not BAD and takes no injection: the check of R183 decides whether it is stored. -/
theorem chanData_checked (hl : off < e.len) (hb : e.bad = false) (b : Bytes) (crcOk : Bool) {w : State}
    (hw : w = writeDone u src c off) :
    chanData u c src off b crcOk =
      if crcOk == false then dataBad w c src else dataKept c src off b.length (storePayload w e off (b.take (e.len - off))) := by
  subst hw
  have hinject : dataInject (writeDone u src c off) c = (writeDone u src c off, false, false) :=
    dataInject_none (calm_writeDone u src c off hc) (by rw [writeDone_chn]; exact hi)
  unfold grantedTo at hf
  unfold chanData
  dsimp only
  rw [if_neg (by rw [chanAllowed_writeDone, ha]; decide), writeDone_chn, hf]
  dsimp only
  rw [if_neg (Nat.not_le.mpr hl), hb, if_neg (by decide), hinject]
  rfl

end

/-! ### Commits (R184) -/

/-- A failed packet leaves: its cells are free, and the next reservations may find a place. -/
def packetFailed (s : State) (c : Nat) (src : Src) (e : OpenSend) : State :=
  retestSends (answer (updC (freeCells s e.cells) c fun h =>
    { h with packets := h.packets - 1, used := h.used - e.need }) src (ansCommit c) 1) c

/-- The packet of entry `e` as it joins the list of channel `h` at time `ts`. -/
def committed (h : Chan) (e : OpenSend) (src : Src) (ts : W64) : Pkt :=
  { len := e.len, gap := h.tailGap, epoch := e.epoch, cells := e.cells, seq := h.seq, ts := ts, src := src, blocks := e.blocks }

/-- Packet `p` stands at the end of its channel's list, with its header written and its message counted. -/
def packetListed (s : State) (c : Nat) (p : Pkt) : State :=
  pageCount (count (updC (writeHeader s (chan s c).list p) c fun h =>
    { h with list := h.list ++ [p], tailGap := 0, seq := h.seq + 1, msg := sat32 h.msg 1, lastSrc := some p.src })
    .chnMsg) (chan s c).part 8 1

/-- A commit of another source than the last one is reported to OBS (R387). -/
def raceReported (s : State) (c : Nat) (src : Src) (h : Chan) : State :=
  if (h.lastSrc.any fun x => !sameSrc x src) then detReport s h.part 3 c Config.noNode (srcIdent src) else s

/-- A commit is answered, is progress, notifies, and may be what a claim waits for. -/
def commitAnswered (s : State) (c : Nat) (src : Src) (h : Chan) : State :=
  let s := progress (answer s src (ansCommit c) 0) h.queue
  retestClaims (if h.notifyEn then pushNotice s h.notifyNode else s) c

/-- The commit of a source's granted entry hands the packet to the list, or frees it where it is BAD. -/
theorem chanCommit_entry {u s : State} {c : Nat} {src : Src} {e : OpenSend} {rest : List OpenSend}
    (ha : chanAllowed u c src = true) (ht : takeFirst (grantedTo c src) u.chn.sends = some (e, rest))
    (hs : s = { u with chn := { u.chn with sends := rest } }) (v : Nat) :
    chanCommit u c src v =
      if e.bad then packetFailed s c src e
      else commitAnswered (raceReported (packetListed s c (committed (chan u c) e src u.ts)) c src (chan u c)) c src (chan u c) := by
  subst hs
  unfold grantedTo at ht
  unfold chanCommit
  dsimp only
  rw [if_neg (by rw [ha]; decide), ht]
  rfl

/-! ### The statement -/

/-- Settles O40: reservations by the state of the channel, data by its check, commits by their entry, and what a grant
leaves. -/
theorem channelSend : Obligations.ChannelSend := by
  refine ⟨?sending, fun s c e => ?grant⟩
  case grant =>
    obtain ⟨f, t, m, hform, hmem⟩ := grantSend_form s c e
    rw [chan_grantSend, hform]
    exact ⟨rfl, rfl, rfl, rfl, hmem⟩
  rintro u c src v _ hs rfl
  refine ⟨fun ha hcr => ?foreign, fun n ha hcr h1 h2 hn => ⟨fun ho => ?closed, fun ho href => ?refused,
      fun e ho hq hnone he => ⟨fun hw hfit => ?granted, fun hfull hkeep s hstall => ?waits, fun hfull hdrop s hdr => ?dropped⟩⟩,
    fun off data mask e w b ok t ho ha hi hf hl hb hw hmerge hst => ⟨fun hok => ?stored, fun s hraise => ?failed⟩,
    fun e rest s ha ht hrest => ⟨fun hb => ?freed, fun hb p x y z hp hx hy hz => ?listed⟩⟩
  case foreign =>
    exact becomes_offered (fun _ => rfl) hs hcr (fun _ => chanReserve_foreign ha)
      ((keeps_count u _).trans (keeps_answer _ _ _ _))
  case closed =>
    exact becomes_offered (fun _ => rfl) hs hcr
      (fun hc => (chanReserve_legal hc ha h1 h2).trans (if_pos (by rw [ho]; rfl)))
      ((keeps_countClosed u c 1).trans (keeps_answer _ _ _ _))
  case refused =>
    subst hn
    refine becomes_offered (fun _ => rfl) hs hcr (fun hc => (chanReserve_legal hc ha h1 h2).trans ?_)
      ((keeps_count u _).trans (keeps_answer _ _ _ _))
    rw [if_neg (by rw [ho]; decide)]
    exact if_pos (by rw [Bool.or_eq_true, decide_eq_true_eq]; exact href)
  case granted =>
    subst he hn
    exact ends_offered (fun _ => rfl) hs hcr fun hc =>
      (chanReserve_admitted hc ha h1 h2 ho hq hnone).trans (if_neg (noPlace_free hw hfit))
  case waits =>
    subst he hn hstall
    exact becomes_offered (fun _ => rfl) hs hcr
      (fun hc => (chanReserve_admitted hc ha h1 h2 ho hq hnone).trans
        ((if_pos (noPlace_taken hfull)).trans (if_neg (by rw [hkeep]; decide))))
      ((keeps_stalled u c).trans (keeps_chn _ _))
  case dropped =>
    subst he hn hdr
    exact ends_offered (fun _ => rfl) hs hcr fun hc =>
      (chanReserve_admitted hc ha h1 h2 ho hq hnone).trans ((if_pos (noPlace_taken hfull)).trans (if_pos hdrop))
  case stored =>
    subst hok hmerge
    have hentry : t.chn.sends.find? (grantedTo c src) = some e := by
      have hchn : t.chn = w.chn := (congrArg (fun r => r.1.chn) hst).trans (storePayload_chn w e off _)
      rw [hchn, hw, writeDone_chn]
      exact hf
    refine ends_unshut (fun _ => rfl) hs fun hc => (chanWrite_merged hf ho data _ true).trans ?_
    rw [chanData_checked hc ha hi hf hl hb _ true hw, ← hst]
    exact dataKept_stored hentry off _
  case failed =>
    subst hmerge hraise
    have hchan : chan w c = chan u c := by rw [hw, chan_writeDone]
    refine ends_unshut (fun _ => rfl) hs fun hc => (chanWrite_merged hf ho data _ false).trans ?_
    rw [chanData_checked hc ha hi hf hl hb _ false hw, ← hchan]
    rfl
  case freed =>
    exact ends_unshut (fun _ => rfl) hs fun _ => (chanCommit_entry ha ht hrest v).trans (if_pos hb)
  case listed =>
    subst hp hx hy hz
    refine ends_unshut (fun _ => rfl) hs fun _ => (chanCommit_entry ha ht hrest v).trans ?_
    rw [hb]
    subst hrest
    rfl

end Sys2Proof.Machine
end

section
/-!
PROOFS. Receiving from a channel: what a claim, a read of a claimed packet, a release and NOTIFY do; with them the statement
on receiving is settled.
-/

namespace Sys2Proof.Machine

open Sys2Proof

/-! ### Claims (R188, R189) -/

/-- A claim of at most `m` bytes waits at its channel, and the stall is counted. -/
def claimWaiting (s : State) (c : Nat) (src : Src) (m : Nat) : State :=
  { stalled s c with chn.claims := s.chn.claims ++ [{ chan := c, src := src, maxLen := m }] }

theorem keeps_claimWaiting (s : State) (c : Nat) (src : Src) (m : Nat) : Keeps s (claimWaiting s c src m) := .refl s

@[simp] theorem updC_claims (s : State) (c : Nat) (f : Chan → Chan) : (updC s c f).chn.claims = s.chn.claims := rfl

/-- A claim is no race where no other one waits at its channel. -/
theorem answerClaim_alone {s : State} {c : Nat} (hn : s.chn.claims.any (·.chan == c) = false) (src : Src) (v : Nat) (h : Chan) :
    answerClaim s c src v h = answer (updC s c fun _ => h) src (ansClaim c) v := by
  have hrace : s.chn.claims.any (fun w => w.chan == c && !sameSrc w.src src) = false := by
    rw [List.any_eq_false] at hn ⊢
    exact fun w hw hboth => hn w hw (Bool.and_eq_true _ _ ▸ hboth).1
  unfold answerClaim
  dsimp only
  rw [updC_claims, hrace, Bool.and_false]
  rfl

section
variable {u : State} {c v : Nat} {src : Src} (ha : chanAllowed u c src = true)
include ha

theorem chanClaim_closed (ho : (chan u c).open_ = false) : chanClaim u c src v = answer u src (ansClaim c) (2 ^ 34) := by
  unfold chanClaim
  dsimp only
  rw [if_neg (by rw [ha]; decide), if_pos (by rw [ho]; rfl)]

/-- A claim of an open channel: behind another one it waits, else it takes the item at the head or waits for one. -/
theorem chanClaim_open (ho : (chan u c).open_ = true) :
    chanClaim u c src v =
      if u.chn.claims.any (·.chan == c) then claimWaiting u c src (v % 2 ^ 19)
      else (claimItem (chan u c) (v % 2 ^ 19)).elim (claimWaiting u c src (v % 2 ^ 19)) fun x => answerClaim u c src x.1 x.2 := by
  unfold chanClaim
  dsimp only
  rw [if_neg (by rw [ha]; decide), if_neg (by rw [ho]; decide)]
  cases claimItem (chan u c) (v % 2 ^ 19) <;> rfl

end

section
variable {h : Chan} {p : Pkt} {r : List Pkt} {m : Nat} (hl : h.list = p :: r) (hg : p.gap = 0 ∨ h.gapTaken = true)
include hl hg

/-- With no gap before it, the packet at the head goes to a free slot unless the claim takes only shorter ones. -/
theorem claimItem_packet :
    claimItem h m =
      if m ≠ 0 ∧ m < p.len then some (p.len + 2 ^ 33, h)
      else (freeSlot h).map fun k =>
        (p.len + k * 2 ^ 36, { h with list := r, claims := h.claims.put k (some p), gapTaken := false }) := by
  have hgap : (p.gap ≠ 0 && !h.gapTaken) = false := by
    rcases hg with hg | hg
    · rw [hg]
      rfl
    · rw [hg, Bool.not_true, Bool.and_false]
  unfold claimItem
  rw [hl]
  dsimp only
  rw [hgap, if_neg (by decide)]
  cases freeSlot h <;> rfl

end

/-! ### Reads of a claimed packet (R175, R190) -/

section
variable {u : State} {c k o : Nat} {src : Src} {p : Pkt} (ha : chanAllowed u c src = true)
  (hp : (chan u c).claims.look k = some p)
include ha hp

/-- A slot of RECV_DATA gives the bytes of its packet, and zeros past its end. -/
theorem recvBytes_claimed (n : Nat) :
    recvBytes u c src k o n = if o < p.len then pktRead u p o n else (List.replicate n 0, u) := by
  unfold recvBytes
  rw [if_neg (by rw [ha]; decide), hp]

theorem windowRead_slot (hk : k < 31) (ho : o < 0x40000) (n : Nat) :
    windowRead u c src (0x800000 + k * 0x40000 + o) n =
      if o < p.len then pktRead u p o n else (List.replicate n 0, u) := by
  have hslot : (0x800000 + k * 0x40000 + o - 0x800000) / 0x40000 = k := by omega
  have hoff : (0x800000 + k * 0x40000 + o - 0x800000) % 0x40000 = o := by omega
  unfold windowRead
  rw [if_neg (by rw [ha]; decide), if_pos (by omega), hslot, hoff]
  exact recvBytes_claimed ha hp n

end

/-- With no bad block in the Slate, a calm state reads a packet's bytes as they stand. -/
theorem pktRead_good {u : State} (hc : Calm u) (hb : (u.slt.vaults.any fun e => !e.2.bad.isEmpty) = false) (p : Pkt) (o n : Nat) :
    pktRead u p o n = (pktBytes u p o n, u) := by
  unfold pktRead
  simp only [badRange_none hc _ _ hb, Option.map_none, List.findSome?_map]
  rw [List.findSome?_eq_none_iff.mpr]
  exact fun _ _ => rfl

/-! ### Releases and NOTIFY (R190, R192) -/

/-- Channel `h` without the packet of slot `k`, which held `n` cells. -/
def slotFreed (k n : Nat) (h : Chan) : Chan :=
  { h with claims := h.claims.put k none, packets := h.packets - 1, used := h.used - n }

@[simp] theorem chan_updC_same (s : State) (c : Nat) (f : Chan → Chan) : chan (updC s c f) c = f (chan s c) :=
  Tab.look_upd_same s.chn.chans c f

@[simp] theorem chan_freeCells (s : State) (l : List Nat) (c : Nat) : chan (freeCells s l) c = chan s c := by
  obtain ⟨f, m, h, _⟩ := freeCells_form l s
  rw [h]
  rfl

/-- A release of a claimed slot frees the packet's cells and its place, which waiting reservations and claims may need. -/
theorem chanRelease_claimed {u : State} {c v : Nat} {src : Src} {p : Pkt} (ha : chanAllowed u c src = true) (hv : v < 32)
    (hp : (chan u c).claims.look v = some p) :
    chanRelease u c src v = retestClaims (retestSends (progress
      (updC (freeCells (writeDone u src c 0xFC0008) p.cells) c (slotFreed v p.cells.length)) (chan u c).queue) c) c := by
  have hqueue : (chan (updC (freeCells (writeDone u src c 0xFC0008) p.cells) c (slotFreed v p.cells.length)) c).queue =
      (chan u c).queue := by
    rw [chan_updC_same, chan_freeCells, chan_writeDone]
    rfl
  unfold chanRelease
  dsimp only
  rw [if_neg (by rw [chanAllowed_writeDone, ha]; decide), chan_writeDone, Nat.mod_eq_of_lt hv, hp]
  dsimp only
  rw [if_neg (by omega), ← hqueue]
  rfl

section
variable {u : State} {c v : Nat} {src : Src} (ha : chanAllowed u c src = true) (ho : (chan u c).open_ = true)
include ha ho

/-- NOTIFY with a node of the channel's partition names it. -/
theorem chanNotify_names (hv : bitOf v 24 = true) (hn : v % 2 ^ 24 ≠ Config.noNode)
    (hw : ownsNode u (chan u c).part (v % 2 ^ 24) = true) :
    chanNotify u c src v = updC u c fun h => { h with notifyNode := v % 2 ^ 24, notifyEn := true } := by
  unfold chanNotify
  dsimp only
  rw [if_neg (by rw [ha]; decide), if_neg (by rw [ho]; decide), if_pos hv, if_pos ⟨hn, hw⟩]

theorem chanNotify_off (hv : bitOf v 24 = false) :
    chanNotify u c src v = updC u c fun h => { h with notifyEn := false } := by
  unfold chanNotify
  dsimp only
  rw [if_neg (by rw [ha]; decide), if_neg (by rw [ho]; decide), if_neg (by rw [hv]; decide)]

end

/-! ### The statement -/

/-- Settles O41: claims by the state of the channel, then reads, releases and NOTIFY. -/
theorem channelReceive : Obligations.ChannelReceive := by
  rintro u c src v _ hs rfl ha
  refine ⟨fun hcr => ⟨fun ho => ?closed, fun x h' ho hn hi => ?takes, fun s ho hw hstall => ?waits⟩,
    fun p r m hl hg => ⟨fun hm k hk => ?packet, fun hm hlt => ?tooLong⟩,
    fun k o n p hk ho hp hlt => ⟨fun b s hb => ?read, fun hgood => ?readGood⟩, fun k o n p hk ho hp hge => ?pastEnd,
    fun off n => ?atomic, fun p s hv hp hfree => ?release, fun ho => ⟨fun hv hn hw => ?names, fun hv => ?off⟩⟩
  case closed => exact becomes_offered (fun _ => rfl) hs hcr (fun _ => chanClaim_closed ha ho) (keeps_answer _ _ _ _)
  case takes =>
    refine becomes_offered (fun _ => rfl) hs hcr (fun _ => (chanClaim_open ha ho).trans ?_)
      ((keeps_updC u c _).trans (keeps_answer _ _ _ _))
    rw [hn, hi]
    exact answerClaim_alone hn src x h'
  case waits =>
    subst hstall
    refine becomes_offered (fun _ => rfl) hs hcr (fun _ => (chanClaim_open ha ho).trans ?_)
      (keeps_claimWaiting u c src (v % 2 ^ 19))
    rcases hw with hn | hi
    · exact if_pos hn
    · rw [hi]
      exact ite_self _
  case packet =>
    rw [claimItem_packet hl hg, if_neg (by omega), hk]
    rfl
  case tooLong => rw [claimItem_packet hl hg, if_pos ⟨hm, hlt⟩]
  case read =>
    refine ends_unshut (fun _ => rfl) hs fun _ => ?_
    rw [if_neg (by decide), chanRecv, windowRead_slot ha hp hk ho, if_pos hlt, ← hb]
  case readGood =>
    refine becomes_unshut (fun _ => rfl) hs (fun hc => ?_) (keeps_emit u _)
    rw [if_neg (by decide), chanRecv, windowRead_slot ha hp hk ho, if_pos hlt, pktRead_good hc hgood]
  case pastEnd =>
    refine becomes_unshut (fun _ => rfl) hs (fun _ => ?_) (keeps_emit u _)
    rw [if_neg (by decide), chanRecv, windowRead_slot ha hp hk ho, if_neg (Nat.not_lt.mpr hge)]
  case atomic =>
    refine becomes_unshut (fun _ => rfl) hs (fun _ => ?_) ((keeps_count u _).trans (keeps_emit _ _))
    rw [if_pos rfl, chanStray, ha]
    rfl
  case release =>
    subst hfree
    exact ends_unshut (fun _ => rfl) hs fun _ => chanRelease_claimed ha hv hp
  case names => exact becomes_unshut (fun _ => rfl) hs (fun _ => chanNotify_names ha ho hv hn hw) (keeps_updC u c _)
  case off => exact becomes_unshut (fun _ => rfl) hs (fun _ => chanNotify_off ha ho hv) (keeps_updC u c _)

end Sys2Proof.Machine
end

section
/-!
PROOFS. Barriers and group atomics: ARM, ARRIVE, WAIT, a release and a retirement notice, and where the lanes of a group
atomic go; with them the statement on barriers and group atomics is settled.
-/

namespace Sys2Proof.Machine

open Sys2Proof

section
variable {i : Instr} {l : List Touch} {f : State → State} {u v : State}
  (hi : ∀ s, exec i s = .next (act l (fun s => if s.bau.stopped then s else f s) s)) (hs : u.bau.stopped = false)
include hi hs

/-- Where BAU is not stopped, a command of its barriers ends in its effect. -/
theorem ends_bau (hf : Calm u → f u = v) : Ends i u v := ends_unshut (shut := fun s => s.bau.stopped) hi hs hf

theorem becomes_bau (hf : Calm u → f u = v) (hk : Keeps u v) : Becomes i u v :=
  becomes_unshut (shut := fun s => s.bau.stopped) hi hs hf hk

end

theorem keeps_updB (s : State) (b : Nat) (f : Bar → Bar) : Keeps s (updB s b f) := .refl s

theorem keeps_bau (s : State) (x : Bau) : Keeps s { s with bau := x } := .refl s

@[simp] theorem bar_updB_same (s : State) (b : Nat) (f : Bar → Bar) : bar (updB s b f) b = f (bar s b) :=
  Tab.look_upd_same s.bau.bars b f

/-! ### ARM (R194, R195) -/

section
variable {u : State} {b : Nat} {src : Src}

/-- An ARM by the partition of a free barrier, with a legal operand and room for its node, binds it. -/
theorem barArm_binds {n ex : Nat} (ha : barAllowed u b src = true) (hb : (bar u b).bound = false) (h1 : 1 ≤ ex)
    (h2 : ex < 2 ^ 24) (h3 : n < 2 ^ 24) (hn : ownsNode u src.part n = true)
    (h4 : (u.bau.bars.filter fun e => e.2.bound && e.2.node == n).length < 4)
    (h5 : (((u.bau.bars.filter (·.2.bound)).map (·.2.node)).eraseDups).length < 4096) :
    barArm u b src (n + ex * 2 ^ 24) true =
      updB u b fun x => { x with bound := true, genSet := false, node := n, expected := ex, arrived := 0 } := by
  have hnode : (n + ex * 2 ^ 24) % 2 ^ 24 = n := by omega
  have hexp : (n + ex * 2 ^ 24) / 2 ^ 24 % 2 ^ 24 = ex := by omega
  have hhigh : (n + ex * 2 ^ 24) / 2 ^ 48 = 0 := by omega
  have hpos : (ex == 0) = false := beq_eq_false_iff_ne.mpr (by omega)
  unfold barArm
  dsimp only
  rw [hnode, hexp, hhigh, ha, hb, hn, hpos, decide_eq_false (Nat.not_le.mpr h4), decide_eq_false (Nat.not_le.mpr h5)]
  rfl

/-- An ARM of another's barrier, of a part of the word, or of a bound barrier is refused. -/
theorem barArm_refused {v : Nat} {full : Bool} (h : barAllowed u b src = false ∨ full = false ∨ (bar u b).bound = true) :
    barArm u b src v full = count u .bauRefuse := by
  unfold barArm
  refine if_pos ?_
  rcases h with h | h | h <;> simp [h]

/-! ### ARRIVE and WAIT (R194, R195, R196) -/

/-- The barrier knows its generation: the one of its first participant. -/
def genMarked (s : State) (b : Nat) (src : Src) : State := updB s b fun x => { x with gen := src.gen, genSet := true }

theorem keeps_genMarked (s : State) (b : Nat) (src : Src) : Keeps s (genMarked s b src) := .refl s

/-- One arrival more is counted, and answered with the phase and the arrivals. -/
def arrivalCounted (s : State) (b : Nat) (src : Src) : State :=
  answer (count (updB (genMarked s b src) b fun x => { x with arrived := x.arrived + 1 }) .bauArrive) src (ansArrive b)
    ((bar s b).phase.toNat + ((bar s b).arrived + 1) * 2 ^ 16)

theorem keeps_arrivalCounted (s : State) (b : Nat) (src : Src) : Keeps s (arrivalCounted s b src) := .refl s

/-- A barrier operation of a source that may not use the barrier, or does not match it, is refused. -/
theorem barArrive_refused (h : barAllowed u b src = false ∨ barMatches u b src = false) (ph : Option (BitVec 16)) :
    barArrive u b src ph = answer (count u .bauRefuse) src (ansArrive b) (2 ^ 63) := by
  unfold barArrive
  refine if_pos ?_
  rcases h with h | h <;> simp [h]

section
variable (ha : barAllowed u b src = true) (hm : barMatches u b src = true)
include ha hm

/-- An arrival counts unless the participant has arrived in this phase, and the last one expected releases the barrier. -/
theorem barArrive_matches (ph : Option (BitVec 16)) :
    barArrive u b src ph =
      if ph == some (bar u b).phase then
        answer (count (genMarked u b src) .bauDup) src (ansArrive b) ((bar u b).phase.toNat + (bar u b).arrived * 2 ^ 16)
      else if (bar u b).expected ≤ (bar u b).arrived + 1 then releaseBar (arrivalCounted u b src) b
      else arrivalCounted u b src := by
  unfold barArrive
  rw [if_neg (by rw [ha, hm]; decide)]
  dsimp only
  rw [bar_updB_same]
  rfl

/-- A wait of the current phase is held, another is answered with the last count. -/
theorem barWait_matches (ph : BitVec 16) :
    barWait u b src ph =
      if ph = (bar u b).phase then
        { genMarked u b src with bau := { (genMarked u b src).bau with
          waits := u.bau.waits ++ [{ bar := b, phase := ph, src := src }] } }
      else answer (genMarked u b src) src (ansWait b) (bar u b).lastCount := by
  unfold barWait
  rw [if_neg (by rw [ha, hm]; decide)]
  dsimp only
  rw [bar_updB_same]
  rfl

end

end

/-! ### Releases and retirements (R196, R197) -/

/-- A barrier after its release: the next phase, with no arrival yet. -/
def barReleased (x : Bar) : Bar := { x with lastCount := x.arrived, phase := x.phase + 1, arrived := 0 }

@[simp] theorem bar_progress (s : State) (q b : Nat) : bar (progress s q) b = bar s b := by
  obtain ⟨_, _, h⟩ := progress_form s q
  rw [h]
  rfl

theorem bar_releaseBar (s : State) (b : Nat) : bar (releaseBar s b) b = barReleased (bar s b) :=
  (bar_progress _ _ b).trans (bar_updB_same s b barReleased)

/-- A participant's retirement at a barrier that knows no other generation, and that neither loses its last participant nor
has all its arrivals then. -/
theorem retireAt_lowers {u : State} {b : Nat} {gen : BitVec 16} {pairs : List (Nat × BitVec 16)} {s : State}
    (hg : (bar u b).genSet = false ∨ (bar u b).gen = gen)
    (hs : s = updB u b fun y => { y with
      gen := gen, genSet := true, expected := y.expected - 1,
      arrived := if pairs.any fun e => e.1 == b && e.2 == (bar u b).phase then y.arrived - 1 else y.arrived })
    (he : 1 < (bar u b).expected) (hw : (bar s b).arrived = 0 ∨ (bar s b).arrived < (bar s b).expected) :
    retireAt u b gen pairs = s := by
  have hgen : ((bar u b).genSet && (bar u b).gen != gen) = false := by
    rcases hg with h | h
    · rw [h, Bool.false_and]
    · rw [h, bne_self_eq_false, Bool.and_false]
  have hleft : (bar s b).expected ≠ 0 := by
    rw [hs, bar_updB_same]
    exact Nat.sub_ne_zero_of_lt he
  unfold retireAt
  dsimp only
  rw [hgen, if_neg (by decide), ← hs, if_neg hleft, if_neg (by omega)]

/-- A notice for the node of one bound barrier reaches that barrier. -/
theorem retireNotice_one {s : State} {n b : Nat} (h : ((s.bau.bars.filter fun e => e.2.bound && e.2.node == n).map (·.1)) = [b])
    (gen : BitVec 16) (pairs : List (Nat × BitVec 16)) : retireNotice s n gen pairs = retireAt s b gen pairs := by
  unfold retireNotice
  rw [h]
  rfl

/-- A notice for a node with no bound barrier changes nothing. -/
theorem retireNotice_unbound {s : State} {n : Nat} (h : (s.bau.bars.any fun e => e.2.bound && e.2.node == n) = false)
    (gen : BitVec 16) (pairs : List (Nat × BitVec 16)) : retireNotice s n gen pairs = s := by
  unfold retireNotice
  rw [filter_none fun e he => Bool.eq_false_iff.mpr (List.any_eq_false.mp h e he)]
  rfl

/-- What lands leaves the barriers as they are. -/
theorem bau_lands {is : Out → Bool} {u w : State} (h : Lands is u w) : w.bau = u.bau := by
  obtain ⟨_, rfl⟩ := lands_form h
  rfl

/-! ### Group atomics (R170, R199, R200, R201) -/

/-- Lane `e` with its address where that lies in another block. -/
def farLane (s : State) (p aop size : Nat) (e : Nat × Lane) : Option (Nat × Nat × Lane) :=
  match laneFate s p aop size e.2.addr with
  | .remote a => some (a, e)
  | _ => none

/-- The lanes of one address of another block leave as one atomic. -/
def sendLanes (src : Src) (tag aop : Nat) (size8 : Bool) (far : List (Nat × Nat × Lane)) (s : State) (a : Nat) : State :=
  fabSubmit s (groupHdr src aop a size8 ((far.filter (·.1 == a)).map (·.2)))
    (.bau src.agent src.unit tag ((((far.filter (·.1 == a)).map (·.2)).map (·.1)).headD 0))

/-- A group atomic that BAU takes: its own lanes are performed, and it is complete unless some lie in another block, which
are sent. -/
theorem groupAtomic_taken {u s0 s : State} {src : Src} {aop : Nat} {size8 : Bool} {lanes : List Lane} {act : List (Nat × Lane)}
    {old : Tab Nat} {far : List (Nat × Nat × Lane)} (hs : bauShut u = false)
    (hact : act = ((List.range 32).zip lanes).filter (·.2.active))
    (h0 : s0 = countN (count u .bauAtom) .bauLane act.length)
    (hfar : far = act.filterMap (farLane s0 src.part aop (if size8 then 8 else 4)))
    (hl : (s, old) = groupLocal s0 src.part src aop (if size8 then 8 else 4) act) (tag : Nat) :
    groupAtomic u src tag aop size8 lanes =
      if ((far.map (·.1)).eraseDups).isEmpty then groupDone s src tag (oldBytes old)
      else ((far.map (·.1)).eraseDups).foldl (sendLanes src tag aop size8 far)
        { s with bau.groups := s.bau.groups ++
          [{ src := src, tag := tag, left := ((far.map (·.1)).eraseDups).length, old := oldBytes old }] } := by
  subst hact h0 hfar
  unfold groupAtomic
  dsimp only
  rw [if_neg (Bool.eq_false_iff.mp hs), ← hl]
  rfl

/-- The arithmetic of the ten codes (R170). -/
theorem atomVal_codes (n o x c : Nat) :
    atomVal n 0 o x c = (o + x) % 2 ^ (8 * n) ∧ atomVal n 1 o x c = o &&& x ∧ atomVal n 2 o x c = o ||| x ∧
    atomVal n 3 o x c = o ^^^ x ∧ atomVal n 6 o x c = max o x ∧ atomVal n 7 o x c = min o x ∧ atomVal n 8 o x c = x ∧
    (o = c → atomVal n 9 o x c = x) ∧ (o ≠ c → atomVal n 9 o x c = o) ∧
    (signedOf n o < signedOf n x → atomVal n 4 o x c = x ∧ atomVal n 5 o x c = o) :=
  ⟨rfl, rfl, rfl, rfl, rfl, rfl, rfl, fun h => if_pos h, fun h => if_neg h,
    fun h => ⟨if_pos h, if_neg (Int.not_lt.mpr (Int.le_of_lt h))⟩⟩

/-! ### The statement -/

/-- Settles O42: the barrier's operations, its release and its retirements, then group atomics. -/
theorem barriersAndAtomics : Obligations.BarriersAndAtomics := by
  refine ⟨?barriers, fun u src tag aop size8 lanes act s0 s old far hs hact h0 hfar hl => ?atomics⟩
  case atomics =>
    have htaken := groupAtomic_taken hs hact h0 hfar hl tag
    refine ⟨fun hnone => ?here, fun addrs haddrs hne => ?sent, atomVal_codes⟩
    case here =>
      refine ends_unshut (fun _ => rfl) hs fun _ => htaken.trans (if_pos ?_)
      rw [hnone]
      rfl
    case sent =>
      subst haddrs
      exact ends_unshut (fun _ => rfl) hs fun _ => htaken.trans (if_neg (fun h => hne (List.isEmpty_iff.mp h)))
  rintro u b src _ hs rfl
  refine ⟨fun n ex ha hb h1 h2 h3 hn h4 h5 => ?arm, fun v full h => ?armRefused, fun ph h => ?arriveRefused,
    fun ph s ha hm hmark => ⟨fun hdup => ?again, fun t hnew ht => ⟨fun hlt => ?counted, fun hge => ?releases⟩⟩,
    fun ph s ha hm hcr hmark => ⟨fun hnow => ?held, fun hpast => ?past⟩, ?phase, ?arrived, ?lastCount,
    fun n gen pairs w hl hone => ?notice, fun n gen pairs w hl hnone => ?unbound,
    fun gen pairs s hg hlow he hw => retireAt_lowers hg hlow he hw⟩
  case arm =>
    exact becomes_bau (fun _ => rfl) hs (fun _ => barArm_binds ha hb h1 h2 h3 hn h4 h5)
      (keeps_updB u b _)
  case armRefused =>
    exact becomes_bau (fun _ => rfl) hs (fun _ => barArm_refused h) (keeps_count u _)
  case arriveRefused =>
    exact becomes_bau (fun _ => rfl) hs (fun _ => barArrive_refused h ph)
      ((keeps_count u _).trans (keeps_answer _ _ _ _))
  case again =>
    subst hmark
    exact becomes_bau (fun _ => rfl) hs
      (fun _ => (barArrive_matches ha hm ph).trans (if_pos (beq_iff_eq.mpr hdup)))
      ((keeps_genMarked u b src).trans ((keeps_count _ _).trans (keeps_answer _ _ _ _)))
  case counted =>
    subst hmark ht
    exact becomes_bau (fun _ => rfl) hs
      (fun _ => (barArrive_matches ha hm ph).trans
        ((if_neg (fun h => hnew (beq_iff_eq.mp h))).trans (if_neg (Nat.not_le.mpr hlt))))
      (keeps_arrivalCounted u b src)
  case releases =>
    subst hmark ht
    exact ends_bau (fun _ => rfl) hs fun _ => (barArrive_matches ha hm ph).trans
      ((if_neg (fun h => hnew (beq_iff_eq.mp h))).trans (if_pos hge))
  case held =>
    subst hmark
    exact becomes_offered (shut := fun s => s.bau.stopped) (fun _ => rfl) hs hcr
      (fun _ => (barWait_matches ha hm ph).trans (if_pos hnow)) ((keeps_genMarked u b src).trans (keeps_bau _ _))
  case past =>
    subst hmark
    exact becomes_offered (shut := fun s => s.bau.stopped) (fun _ => rfl) hs hcr
      (fun _ => (barWait_matches ha hm ph).trans (if_neg hpast))
      ((keeps_genMarked u b src).trans (keeps_answer _ _ _ _))
  case phase => rw [bar_releaseBar, barReleased]
  case arrived => rw [bar_releaseBar, barReleased]
  case lastCount => rw [bar_releaseBar, barReleased]
  case notice =>
    refine ends_bau (fun _ => rfl) hs fun _ => (arrives_lands hl _).trans ?_
    exact retireNotice_one (by rw [bau_lands hl]; exact hone) gen pairs
  case unbound =>
    refine becomes_bau (fun _ => rfl) hs (fun _ => (arrives_lands hl _).trans ?_)
      (keeps_lands hl)
    exact retireNotice_unbound (by rw [bau_lands hl]; exact hnone) gen pairs

end Sys2Proof.Machine
end

section
/-!
PROOFS. A core's remote operations: what their agent does with an OP message, and with the answer that comes back; with them
the statement on core operations is settled.
-/

namespace Sys2Proof.Machine

open Sys2Proof

/-! ### OP messages (R265, R274, R277, R278, R407, R410) -/

/-- An OP message that the Agent Port cannot take: no credit, a reserved bit, no operation, or a wrong number of flits. -/
def MalformedOp (m : OpMsg) : Prop :=
  (!m.credit) = true ∨ m.reserved = true ∨ m.op = 0 ∨ 6 < m.op ∨ m.flits ≠ opFlits m.op m.aop

theorem not_malformedOp {m : OpMsg} (hc : m.credit = true) (hr : m.reserved = false) (h1 : 1 ≤ m.op) (h6 : m.op ≤ 6)
    (hf : m.flits = opFlits m.op m.aop) : ¬ MalformedOp m := by
  rintro (h | h | h | h | h)
  · rw [hc] at h
    cases h
  · rw [hr] at h
    cases h
  · omega
  · omega
  · exact h hf

/-- A port error of a core's operation, answered 0xFF. -/
def opRefused (s : State) (a : Nat) (m : OpMsg) : State := emit (count s (.agtPortErr a)) (.ans a m.core m.tag 0xFF 0 [])

theorem keeps_opRefused (s : State) (a : Nat) (m : OpMsg) : Keeps s (opRefused s a m) := .refl s

/-- A reserved scope is counted (R276). -/
def scopeChecked (s : State) (m : OpMsg) : State := if m.scope = 3 then count s .fabScopeBad else s

theorem keeps_scopeChecked (s : State) (m : OpMsg) : Keeps s (scopeChecked s m) := keeps_ite_count s _ _

@[simp] theorem scopeChecked_agt (s : State) (m : OpMsg) : (scopeChecked s m).agt = s.agt := by
  unfold scopeChecked
  split <;> rfl

/-- The header of the operation of message `m` from block `b` of agent `a`. -/
def opHeader (s : State) (a : Nat) (b : Block) (m : OpMsg) : FabHdr :=
  { op := m.op, final := m.final, scope := if m.scope = 3 then 2 else m.scope, ord := m.ord, srcPart := b.part, aop := m.aop,
    dstBlock := if m.op = 6 then blockId s else m.addr.toNat / 2 ^ 52, hops := 15, srcBlock := blockId s, srcAgent := a,
    srcUnit := m.core, loc := m.addr.toNat % 2 ^ 52, data := m.data, cmp := m.cmp, hallTag := 0, txn := 0,
    dcrc := BitVec.ofNat 32 (crc32c m.payload), mask := m.mask, payload := m.payload }

/-- The operation as the agent records it: held where it must wait in the agent. -/
def opRecord (s : State) (a : Nat) (b : Block) (m : OpMsg) : CoreOp :=
  { core := m.core, tag := m.tag, btag := m.btag, group := m.group, src := coreSrc s a b m.group, hdr := opHeader s a b m,
    size8 := m.size8, lanes := m.lanes,
    held := coreMustWait (blockId s) ((agt s a).ops.filter (·.core == m.core)) (opHeader s a b m) ||
      (isWrite (opHeader s a b m) && (opHeader s a b m).dstBlock == blockId s && agtSeqFull s a m.core b.part),
    got := none }

/-- The state with operation `o` among those of agent `a`. -/
def opEntered (s : State) (a : Nat) (o : CoreOp) : State := updA s a fun x => { x with ops := x.ops ++ [o] }

section
variable {u : State} {a : Nat} {m : OpMsg} (hs : agtShut u a = false)
include hs

theorem agentPortOp_malformed (hm : MalformedOp m) : agentPortOp u a m = count u (.agtPortErr a) := by
  unfold agentPortOp
  rw [if_neg (Bool.eq_false_iff.mp hs)]
  exact if_pos hm

variable (hm : ¬ MalformedOp m)
include hm

/-- Before Ready an operation waits at the port. -/
theorem agentPortOp_unready (hr : isReady u = false) :
    agentPortOp u a m = updA u a fun x => { x with inbox := x.inbox ++ [.op m] } := by
  unfold agentPortOp
  rw [if_neg (Bool.eq_false_iff.mp hs)]
  exact (if_neg hm).trans (if_pos (by rw [hr]; rfl))

/-- From Ready on an operation is refused without a free place or a live block, else recorded, and leaves unless it is held. -/
theorem agentPortOp_ready (hr : isReady u = true) :
    agentPortOp u a m =
      if 64 ≤ ((agt u a).ops.filter (·.core == m.core)).length then opRefused u a m
      else (liveBlock u a m.core m.btag).elim (opRefused u a m) fun b =>
        if (opRecord (scopeChecked u m) a b m).held then opEntered (scopeChecked u m) a (opRecord (scopeChecked u m) a b m)
        else corePerform (opEntered (scopeChecked u m) a (opRecord (scopeChecked u m) a b m)) a
          (opRecord (scopeChecked u m) a b m) := by
  unfold agentPortOp
  rw [if_neg (Bool.eq_false_iff.mp hs)]
  refine (if_neg hm).trans ((if_neg (by rw [hr]; decide)).trans ?_)
  dsimp only
  cases liveBlock u a m.core m.btag <;> rfl

end

theorem becomes_agentPortOp {u v : State} {a : Nat} {m : OpMsg} (he : agentPortOp u a m = v) (hk : Keeps u v) :
    Becomes (.agentPortOp a m) u v :=
  becomes_keeps _ _ (fun s => agentPortOp s a m) u v (fun _ => rfl) (fun _ => he) hk

/-- A group atomic, and an operation on a channel of this block, leave for their unit as they are. -/
theorem corePerform_unit {s : State} {o : CoreOp}
    (h : o.hdr.op = 6 ∨ (o.hdr.dstBlock = blockId s ∧ ∃ c off, targetOf s o.hdr.loc = .chan c off)) (a : Nat) :
    corePerform s a o = emit s (.unitOp o.src o.tag o.hdr o.size8 o.lanes) := by
  unfold corePerform
  dsimp only
  rcases h with h | ⟨hb, c, off, ht⟩
  · exact if_pos h
  · rw [if_neg (not_not_intro hb), ht]
    exact ite_self _

/-! ### Answers (R186, R278, R405) -/

/-- The answer `got` of operation `o` goes to its core, with what it means for the block's drops and the group's pairs. -/
def opAnswered (s : State) (a core tag : Nat) (o : CoreOp) (got : Nat × W64 × Bytes) : State :=
  emit (if got.1 = 0 then answerNote s a o got.2.1 else s) (.ans a core tag got.1 got.2.1 got.2.2)

/-- An answer outside the channels and barriers of the block notes nothing. -/
theorem answerNote_plain {o : CoreOp} (hc : chanOff o.hdr.loc = none) (hb : barOff o.hdr.loc = none) (s : State) (a : Nat)
    (v : W64) : answerNote s a o v = s := by
  unfold answerNote
  rw [hc, hb]

theorem becomes_coreAnswer {u v : State} {a core tag st : Nat} {x : W64} {data : Bytes}
    (he : coreAnswer u a core tag st x data = v) (hk : Keeps u v) : Becomes (.answer a core tag st x data) u v :=
  becomes_keeps _ _ (fun s => coreAnswer s a core tag st x data) u v (fun _ => rfl) (fun _ => he) hk

section
variable {u : State} {a core tag : Nat} (hs : agtShut u a = false)
include hs

theorem coreAnswer_orphan (ht : takeFirst (fun o => o.core == core && o.tag == tag && !o.held) (agt u a).ops = none) (st : Nat)
    (v : W64) (data : Bytes) : coreAnswer u a core tag st v data = count u .fabOrphanRsp := by
  unfold coreAnswer
  dsimp only
  rw [if_neg (Bool.eq_false_iff.mp hs), ht]

/-- The answer of an operation frees its place; an acquire's lets the reads behind it leave. -/
theorem coreAnswer_found {o : CoreOp} {rest : List CoreOp} {w : State} {st : Nat} {v : W64} {data : Bytes}
    (ht : takeFirst (fun o => o.core == core && o.tag == tag && !o.held) (agt u a).ops = some (o, rest))
    (hw : w = opAnswered (updA u a fun x => { x with ops := rest }) a core tag o (o.got.getD (st, v, data))) :
    coreAnswer u a core tag st v data =
      if o.hdr.ord = true ∧ o.hdr.op = 1 then
        coreRelease a core (fun x => x.hdr.op == 1 || x.hdr.op == 4) [] ((agt w a).ops.filter (·.core == core)) w
      else w := by
  subst hw
  unfold coreAnswer
  dsimp only
  rw [if_neg (Bool.eq_false_iff.mp hs), ht]
  rfl

end

/-! ### The statement -/

/-- Settles O32: the OP messages that an agent counts, refuses or records, then the answers. -/
theorem coreOperations : Obligations.CoreOperations := by
  intro u a hs
  refine ⟨fun m hm => ?malformed, fun m hr hc hres h1 h6 hf => ?unready, fun m b w h o hw hc hr hres h1 h6 hf => ?ready,
    fun core tag st v data => ⟨fun ht => ?orphan, fun o rest got s ht hgot hgone w hw => ?found⟩⟩
  case malformed =>
    exact becomes_agentPortOp (agentPortOp_malformed hs (by rwa [MalformedOp, Bool.not_eq_true'])) (keeps_count u _)
  case unready =>
    exact becomes_agentPortOp (agentPortOp_unready hs (not_malformedOp hc hres h1 h6 hf) hr) (keeps_updA u a _)
  case ready =>
    have hop := agentPortOp_ready hs (not_malformedOp hc hres h1 h6 hf) hr
    refine ⟨fun hb => ?dead, fun hfull => ?full, fun hb hroom hh ho s hent => ?live⟩
    case dead =>
      rw [hb] at hop
      exact becomes_agentPortOp (hop.trans (ite_self _)) (keeps_opRefused u a m)
    case full => exact becomes_agentPortOp (hop.trans (if_pos hfull)) (keeps_opRefused u a m)
    have hscope : scopeChecked u m = w := hw.symm
    have hagt : w.agt = u.agt := by rw [← hscope, scopeChecked_agt]
    have hrec : opRecord w a b m = o := by
      rw [ho, hh]
      unfold agt
      rw [← hagt]
      rfl
    have hentered : opEntered w a o = s := by
      rw [hent, ← hagt]
      rfl
    have hlive : agentPortOp u a m = if o.held then s else corePerform s a o := by
      rw [hop, if_neg (Nat.not_le.mpr hroom), hb, Option.elim_some, hscope, hrec, hentered]
    have hkeep : Keeps u s := by
      rw [← hentered, ← hscope]
      exact (keeps_scopeChecked u m).trans (keeps_updA _ a _)
    refine ⟨fun hheld => becomes_agentPortOp (hlive.trans (if_pos hheld)) hkeep, fun hfree => ?leaves, fun hfree hunit => ?unit⟩
    all_goals rw [if_neg (Bool.eq_false_iff.mp hfree)] at hlive
    case leaves => exact ends_act _ _ (fun s => agentPortOp s a m) u _ (fun _ => rfl) fun _ => hlive
    case unit =>
      have hhdr : o.hdr = h := by rw [ho]
      have hsent : corePerform s a o = _ := corePerform_unit (by rw [hhdr, ← hentered]; exact hunit) a
      rw [hhdr] at hsent
      exact becomes_agentPortOp (hlive.trans hsent) (hkeep.trans (keeps_emit s _))
  case orphan => exact becomes_coreAnswer (coreAnswer_orphan hs ht st v data) (keeps_count u _)
  case found =>
    subst hgone hgot
    have hans := coreAnswer_found hs ht hw
    refine ⟨fun hno => ?plain, fun hacq => ?acquire, fun hno hch hba => ?elsewhere⟩
    case plain => exact ends_act _ _ _ u _ (fun _ => rfl) fun _ => hans.trans (if_neg hno)
    case acquire => exact ends_act _ _ _ u _ (fun _ => rfl) fun _ => hans.trans (if_pos hacq)
    case elsewhere =>
      rw [answerNote_plain hch hba, ite_self] at hw
      subst hw
      exact becomes_coreAnswer (hans.trans (if_neg hno)) ((keeps_updA u a _).trans (keeps_emit _ _))

end Sys2Proof.Machine
end

section
/-!
PROOFS. The Combine Unit: bytes of a partition that are read and written without a fault, the rows of a CADD, a write of a
TALLY word, and the end of zeroing; with them the statement on combining is settled.
-/

namespace Sys2Proof.Machine

open Sys2Proof

/-! ### Bytes of a data region (R248, R253) -/

/-- A unit reads what stands in the Slate and nothing else happens, or it reads zeros. -/
theorem unitRead_bytes_or_zeros (s : State) (p o n : Nat) :
    unitRead s p o n = (memRead s (dataBase s p + o) n, s) ∨ (unitRead s p o n).1 = List.replicate n 0 := by
  unfold unitRead readAt
  cases partRange s p o n with
  | some r => exact .inr rfl
  | none =>
    cases badRange s (dataBase s p + o) n with
    | some b => exact .inr rfl
    | none => exact .inl rfl

section
variable {u : State} (hc : Calm u) {p o n : Nat} (hin : inData u p o n = true)
  (hbad : (u.slt.vaults.any fun e => !e.2.bad.isEmpty) = false)
include hc hin hbad

theorem unitRead_inData : unitRead u p o n = (memRead u (dataBase u p + o) n, u) := by
  unfold unitRead readAt
  rw [partRange_in hc hin, badRange_none hc _ _ hbad]

theorem unitWrite_inData {b : Bytes} (hb : b.length = n) : unitWrite u p o b = memWrite u (dataBase u p + o) b := by
  subst hb
  unfold unitWrite writeAt
  rw [partRange_in hc hin, hbad]
  rfl

theorem zeroPart_inData : zeroPart u p o n = zeroMem u (dataBase u p + o) n := by
  unfold zeroPart zeroAt
  rw [partRange_in hc hin, hbad]
  rfl

end

@[simp] theorem leNat_zeros (n : Nat) : leNat (List.replicate n 0) = 0 := by
  induction n with
  | zero => rfl
  | succ n ih =>
    rw [List.replicate_succ, leNat, ih]
    rfl

/-! ### Token records (R235, R236) -/

theorem recordAt_eq (s : State) (g t : Nat) : recordAt s g t = dataBase s (grpPart s g) + recordOff s g t := by
  unfold recordAt recordOff
  omega

theorem imageAt_eq (s : State) (g i : Nat) : imageAt s g i = dataBase s (grpPart s g) + imageOff s g i :=
  Nat.add_assoc _ _ _

/-- CMB reads a token record as it stands, with no other effect, or it reads zero. -/
theorem tokRead_record_or_zero (s : State) (g t : Nat) : tokRead s g t = (tokRec s g t, s) ∨ (tokRead s g t).1 = 0 := by
  unfold tokRead tokRec
  rw [recordAt_eq]
  rcases unitRead_bytes_or_zeros s (grpPart s g) (recordOff s g t) 4 with h | h
  · rw [h]
    exact .inl rfl
  · exact .inr ((congrArg leNat h).trans (leNat_zeros 4))

/-- A token record that reads as zero is of a token that is not ROUTED. -/
theorem strayTok_zero : strayTok 0 = true := rfl

/-- A record that shows a ROUTED token was read without a fault. -/
theorem tokRead_routed {u s : State} {g t r : Nat} (h : (r, s) = tokRead u g t) (hr : strayTok r = false) : s = u := by
  rcases tokRead_record_or_zero u g t with hrec | hzero
  · exact (congrArg Prod.snd h).trans (congrArg Prod.snd hrec)
  · rw [← h] at hzero
    rw [show r = 0 from hzero, strayTok_zero] at hr
    exact absurd hr (by decide)

section
variable {u : State} (hc : Calm u) {g t : Nat} (hin : inData u (grpPart u g) (recordOff u g t) 4 = true)
  (hbad : (u.slt.vaults.any fun e => !e.2.bad.isEmpty) = false)
include hc hin hbad

theorem tokRead_inData : tokRead u g t = (tokRec u g t, u) := by
  unfold tokRead tokRec
  rw [unitRead_inData hc hin hbad, recordAt_eq]

/-- The record of a ROUTED token that is not DONE, stored with its TALLY. -/
theorem setTok_routed {y : Nat} (hy : y < 2 ^ 24) :
    setTok u g t y true false = memWrite u (recordAt u g t) (leBytes 4 (y + 2 ^ 24)) := by
  unfold setTok
  rw [unitWrite_inData hc hin hbad (leBytes_length 4 _), recordAt_eq, Nat.mod_eq_of_lt hy]
  rfl

end

/-! ### The rows of a CADD (R218, R238) -/

/-- The values of a row, times its weight where the CADD has weights. -/
def weighted (w : Option Nat) (row : List FVal) : List FVal :=
  match w with
  | some x => row.map (mulVal (fmtVal 2 x))
  | none => row

/-- A row whose word is a pad is skipped. -/
theorem caddRow_pad {word : Nat} (h : bitOf word 31 = true) (u : State) (g : Nat) (w : Option Nat) (row : List FVal) :
    caddRow u g word w row = (u, false) := by
  unfold caddRow
  exact if_pos h

/-- A row for a token that the group does not have is stray. -/
theorem caddRow_noToken {u : State} {g word : Nat} (hp : bitOf word 31 = false) (ht : grpTokens u g ≤ word % 2 ^ 24)
    (w : Option Nat) (row : List FVal) : caddRow u g word w row = (count u .cmbStray, false) := by
  unfold caddRow
  dsimp only
  rw [if_neg (Bool.eq_false_iff.mp hp), if_neg (Nat.not_lt.mpr ht)]
  exact if_pos (.inr (.inl ht))

section
variable {u s : State} {g t word r : Nat} (hword : t = word % 2 ^ 24) (hp : bitOf word 31 = false) (ht : t < grpTokens u g)
  (hr : (r, s) = tokRead u g t)
include hword hp ht hr

/-- A row whose word has reserved bits, or whose token takes no row, is stray. -/
theorem caddRow_stray (h : bitsOf word 30 24 ≠ 0 ∨ strayTok r = true ∨ r % 2 ^ 24 = 0 ∨ (grp s g).st ≠ .opened)
    (w : Option Nat) (row : List FVal) : caddRow u g word w row = (count s .cmbStray, false) := by
  subst hword
  unfold caddRow
  dsimp only
  rw [if_neg (Bool.eq_false_iff.mp hp), if_pos ht, ← hr]
  exact if_pos (h.imp_right .inr)

/-- A row of a ROUTED token with TALLY left in an OPEN group is added to its Long Sums, and lowers its tally by one. -/
theorem caddRow_added (hres : bitsOf word 30 24 = 0) (hs : strayTok r = false) (hy : r % 2 ^ 24 ≠ 0)
    (ho : (grp s g).st = .opened) (w : Option Nat) (row : List FVal) :
    caddRow u g word w row = (tallyDown (count (addRow s g t 0 (weighted w row)) .cmbRow) g t 1, true) := by
  obtain rfl := tokRead_routed hr hs
  subst hword
  unfold caddRow
  dsimp only
  rw [if_neg (Bool.eq_false_iff.mp hp), if_pos ht, ← hr]
  refine if_neg ?_
  rw [hs]
  rintro (h | h | h | h | h)
  · exact h hres
  · exact Nat.not_le.mpr ht h
  · exact Bool.false_ne_true h
  · exact hy h
  · exact h ho

end

/-! ### A CADD (R223, R238) -/

/-- Row `j` of CADD `c`, of packed bytes `b`, token words `words` and weights `ws`: the state, and the rows accepted. -/
def caddStep (c : CaddReq) (b : Bytes) (words : List Nat) (ws : Option (List Nat)) (a : State × Nat) (j : Nat) : State × Nat :=
  let row := (elems (elemSize c.tile.fmt) c.tile.cols (b.drop (j * c.tile.cols * elemSize c.tile.fmt))).map (fmtVal c.tile.fmt)
  let p := caddRow a.1 c.group (words.getD j 0) (ws.map fun l => l.getD j 0) row
  (p.1, a.2 + b2n p.2)

/-- The weights `ws` of CADD `c`, and the state once their tile is read, if it names one. -/
def CaddWeights (s : State) (c : CaddReq) (ws : Option (List Nat)) (t : State) : Prop :=
  (c.wt = none ∧ ws = none ∧ t = s) ∨
    ∃ x y, c.wt = some x ∧ (y, t) = tileBytes s c.part x c.wtData ∧ ws = some (elems 4 c.tile.rows y)

/-- CADD `c` is answered with its rows accepted, from the state and their number. -/
def caddAnswered (c : CaddReq) (a : State × Nat) : State :=
  emit a.1 (.answer { block := blockId a.1, agent := c.agent, unit := 16, part := c.part, node := 0, gen := 0, group := 0 }
    (ansRequest c.req) (BitVec.ofNat 64 a.2))

/-- A CADD reads its tiles, takes its rows in order and is answered with the rows accepted. -/
theorem caddRequest_rows {v s1 s2 s3 : State} {c : CaddReq} {b tb : Bytes} {ws : Option (List Nat)}
    (hs : cmbShut v = false) (hb : (b, s1) = tileBytes v c.part c.tile c.data)
    (htb : (tb, s2) = tileBytes s1 c.part c.tok c.tokData) (hw : CaddWeights s2 c ws s3) (misses : Nat) :
    caddRequest v c misses = caddAnswered c
      ((List.range c.tile.rows).foldl (caddStep c b (elems 4 c.tile.rows tb) ws) (countN s3 .cmbMiss misses, 0)) := by
  unfold caddRequest
  dsimp only
  rw [if_neg (Bool.eq_false_iff.mp hs), ← hb]
  dsimp only
  rw [← htb]
  dsimp only
  rcases hw with ⟨hnone, rfl, rfl⟩ | ⟨x, y, hsome, hy, rfl⟩
  · rw [hnone]
    rfl
  · rw [hsome]
    dsimp only
    rw [← hy]
    rfl

theorem cmbShut_lands {is : Out → Bool} {u w : State} (hs : cmbShut u = false) (h : Lands is u w) : cmbShut w = false := by
  obtain ⟨_, rfl⟩ := lands_form h
  exact hs

/-! ### Held routings at the end of a CMB command (R223) -/

/-- A group that is not IDLE lets no held routing start. -/
theorem retestGroup_notIdle {s : State} {g : Nat} (h : (grp s g).st ≠ .idle) : retestGroup s g = s := if_neg h

/-- Where no routing is held, none is tested again. -/
theorem retestGroup_noneHeld {s : State} (h : s.rte.held = []) (g : Nat) : retestGroup s g = s := by
  by_cases hi : (grp s g).st = .idle
  · refine (if_pos hi).trans ?_
    rw [h]
    unfold rteRetest
    rw [h]
    exact ite_self s
  · exact retestGroup_notIdle hi

/-! ### A write of a TALLY word (R237, R239) -/

section
variable {u : State} {g t p v : Nat} (hs : cmbShut u = false) (hv : grpValid u g = true) (hp : grpPart u g = p)
include hs hv hp

/-- A count for a token that takes none, or in a group that is not OPEN, is stray. -/
theorem tallyWrite_stray (ht : t < grpTokens u g → tokRead u g t = (tokRec u g t, u))
    (h : grpTokens u g ≤ t ∨ (grp u g).st ≠ .opened ∨ strayTok (tokRec u g t) = true) :
    tallyWrite u g t p v = count u .cmbStray := by
  unfold tallyWrite grpAllowed
  rw [if_neg (Bool.eq_false_iff.mp hs), hv, hp, beq_self_eq_true, if_neg (by decide)]
  by_cases hlt : t < grpTokens u g
  · rw [if_pos hlt, ht hlt]
    refine if_pos ?_
    rcases h with h | h | h
    · exact absurd hlt (Nat.not_lt.mpr h)
    · exact .inr h
    · exact .inl h
  · rw [if_neg hlt]
    exact if_pos (.inl strayTok_zero)

/-- A count for a ROUTED token of an OPEN group lowers its tally. -/
theorem tallyWrite_lowers (ht : t < grpTokens u g) (hread : tokRead u g t = (tokRec u g t, u)) (ho : (grp u g).st = .opened)
    (hr : strayTok (tokRec u g t) = false) : tallyWrite u g t p v = tallyDown u g t (v % 2 ^ 24) := by
  unfold tallyWrite grpAllowed
  rw [if_neg (Bool.eq_false_iff.mp hs), hv, hp, beq_self_eq_true, if_neg (by decide), if_pos ht, hread]
  refine if_neg ?_
  rintro (h | h)
  · rw [hr] at h
    exact Bool.false_ne_true h
  · exact h ho

end

section
variable {u : State} {g t n : Nat}

/-- A tally above the count is lowered by it. -/
theorem tallyDown_above (h : n < tokRec u g t % 2 ^ 24) :
    tallyDown u g t n = setTok u g t (tokRec u g t % 2 ^ 24 - n) true false := by
  unfold tallyDown
  dsimp only
  rw [if_neg (Nat.not_lt.mpr (Nat.le_of_lt h)), if_neg (Nat.not_le.mpr h)]

/-- A tally that comes to zero reads the token out. -/
theorem tallyDown_zero (h : n = tokRec u g t % 2 ^ 24) : tallyDown u g t n = readout u g t := by
  unfold tallyDown
  dsimp only
  rw [if_neg (Nat.not_lt.mpr (Nat.le_of_eq h)), if_pos (Nat.le_of_eq h.symm)]

/-- A tally below the count is counted, and reads the token out. -/
theorem tallyDown_below (h : tokRec u g t % 2 ^ 24 < n) : tallyDown u g t n = readout (count u .cmbUnder) g t := by
  unfold tallyDown
  dsimp only
  rw [if_pos h, if_pos (Nat.le_of_lt h)]

end

section
variable {u w : State} {g t p v : Nat} (he : Calm u → tallyWrite u g t p v = w)
include he

/-- A write of a TALLY word ends in what it makes of the tally, and the routings that wait for the group are tested. -/
theorem ends_tallyWordWrite : Ends (.tallyWordWrite g t p v) u (retestGroup w g) :=
  ends_act _ _ _ u _ (fun _ => rfl) fun hc => congrArg (retestGroup · g) (he hc)

/-- Where the group stays OPEN, no routing is tested. -/
theorem becomes_tallyWordWrite (ho : (grp w g).st = .opened) (hk : Keeps u w) : Becomes (.tallyWordWrite g t p v) u w :=
  becomes_keeps _ _ _ u w (fun _ => rfl)
    (fun hc => (congrArg (retestGroup · g) (he hc)).trans (retestGroup_notIdle (by rw [ho]; decide))) hk

end

/-! ### Zeroing (R235) -/

theorem keeps_updG (s : State) (g : Nat) (f : CmbGrp → CmbGrp) : Keeps s (updG s g f) := .refl s
theorem keeps_zeroMem (s : State) (a n : Nat) : Keeps s (zeroMem s a n) := .refl s

/-- The end of zeroing leaves the group IDLE, its images and token records zero. -/
theorem zeroingDone_idle {u : State} {g : Nat} (hc : Calm u) (hs : cmbShut u = false) (hz : (grp u g).st = .zeroing)
    (hin : inData u (grpPart u g) (imageOff u g 0) (grpBytes u g) = true)
    (hbad : (u.slt.vaults.any fun e => !e.2.bad.isEmpty) = false) :
    zeroingDone u g = updG (zeroMem u (imageAt u g 0) (grpBytes u g)) g fun x => { x with st := .idle, done := 0 } := by
  unfold zeroingDone
  dsimp only
  rw [hs, if_pos ⟨hz, rfl⟩, zeroPart_inData hc hin hbad, imageAt_eq]

/-! ### The statement -/

/-- Settles O44: the CADD and its rows, TALLY words by what their token's record shows, then zeroing. -/
theorem combining : Obligations.Combining := by
  intro u g t
  refine ⟨fun c v misses b s1 tb s2 wb s2' s3 k hs hl hg hb htb hw hk => ?cadd,
    fun word w row r s hword hp ht hr => ⟨fun hres hst hy ho => ?added, fun h => caddRow_stray hword hp ht hr h w row⟩,
    fun word w row hp ht => caddRow_noToken hp ht w row, fun word w row hp => caddRow_pad hp u g w row,
    fun p v hs hv hp => ⟨fun h hin hbad => ?noCount, fun ht hin hbad ho => ?tally⟩,
    fun s hs hz hin hbad hzero => ?zeroing⟩
  case cadd =>
    subst hg
    refine ends_act _ _ _ u _ (fun _ => rfl) fun _ => (arrives_open (by rw [hs]; rfl) hl _).trans ?_
    exact congrArg (retestGroup · c.group)
      ((caddRequest_rows (cmbShut_lands hs hl) hb htb hw misses).trans (congrArg (caddAnswered c) hk.symm))
  case added => exact caddRow_added hword hp ht hr hres hst hy ho w row
  case noCount =>
    subst hp
    exact ends_tallyWordWrite fun hc =>
      tallyWrite_stray hs hv rfl (fun _ => tokRead_inData hc hin hbad) (h.imp_right .inl)
  case tally =>
    subst hp
    refine ⟨fun hst => ?stray, fun hst => ?routed⟩
    case stray =>
      exact becomes_tallyWordWrite
        (fun hc => tallyWrite_stray hs hv rfl (fun _ => tokRead_inData hc hin hbad) (.inr (.inr hst))) ho (keeps_count u _)
    case routed =>
      have hdown : Calm u → tallyWrite u g t (grpPart u g) v = tallyDown u g t (v % 2 ^ 24) := fun hc =>
        tallyWrite_lowers hs hv rfl ht (tokRead_inData hc hin hbad) ho hst
      refine ⟨fun h => ?above, fun h => ?zero, fun h => ?below⟩
      case above =>
        have hleft : tokRec u g t % 2 ^ 24 - v % 2 ^ 24 < 2 ^ 24 := by omega
        exact becomes_tallyWordWrite
          (fun hc => (hdown hc).trans ((tallyDown_above h).trans (setTok_routed hc hin hbad hleft))) ho (keeps_memWrite u _ _)
      case zero => exact ends_tallyWordWrite fun hc => (hdown hc).trans (tallyDown_zero h)
      case below => exact ends_tallyWordWrite fun hc => (hdown hc).trans (tallyDown_below h)
  case zeroing =>
    subst hzero
    refine ⟨?ends, fun hheld => ?becomes, fun a h1 h2 => memByte_zeroMem u _ _ a ⟨h1, h2⟩,
      fun hwf a h => memByte_zeroMem_other u _ _ a hwf h⟩
    case ends =>
      exact ends_act _ _ _ u _ (fun _ => rfl) fun hc => congrArg (retestGroup · g) (zeroingDone_idle hc hs hz hin hbad)
    case becomes =>
      refine becomes_keeps _ _ _ u _ (fun _ => rfl) (fun hc => ?_) ((keeps_zeroMem u _ _).trans (keeps_updG _ g _))
      refine (congrArg (retestGroup · g) (zeroingDone_idle hc hs hz hin hbad)).trans (retestGroup_noneHeld ?_ g)
      exact hheld

end Sys2Proof.Machine
end

section
/-!
PROOFS. What leaves the Router Engine's state alone: the Slate, completion records, the Hall Fabric, tiles and the Combine
Unit's tallies. A routing goes through all of them, and moves its entry itself.
-/

namespace Sys2Proof.Machine

open Sys2Proof

/-! ### Folds and choices -/

/-- What each step of a fold leaves alone, the fold leaves alone. -/
theorem foldl_field {α β γ : Type} (g : β → γ) {f : β → α → β} (h : ∀ b x, g (f b x) = g b) (l : List α) (b : β) :
    g (l.foldl f b) = g b := by
  induction l generalizing b with
  | nil => rfl
  | cons x r ih => exact (ih (f b x)).trans (h b x)

/-- Where both branches leave RTE as in `s`, so does a choice between them. -/
theorem ite_rte {p : Prop} [Decidable p] {s t v : State} (ht : t.rte = s.rte) (hv : v.rte = s.rte) :
    (if p then t else v).rte = s.rte := by
  split
  · exact ht
  · exact hv

/-! ### The Slate (R248, R251, R252, R253, R257) -/

@[simp] theorem queueRow_rte (s : State) (v rk : Nat) : (queueRow s v rk).rte = s.rte := rfl
@[simp] theorem queueLane_rte (s : State) (v ln : Nat) : (queueLane s v ln).rte = s.rte := rfl

@[simp] theorem rowError_rte (s : State) (v vb : Nat) : (rowError s v vb).rte = s.rte := by
  unfold rowError
  dsimp only
  split <;> rfl

@[simp] theorem corrected_rte (s : State) (v vb : Nat) (e : Nat × Nat) : (corrected s v vb e).rte = s.rte := by
  unfold corrected
  dsimp only
  split
  · rw [queueLane_rte, updV_rte, rowError_rte]
  · rw [updV_rte, rowError_rte]

@[simp] theorem corrections_rte (s : State) (v vb : Nat) (l : List (Nat × Nat)) :
    (l.foldl (fun s x => corrected s v vb x) s).rte = s.rte :=
  foldl_field State.rte (fun s e => corrected_rte s v vb e) l s

@[simp] theorem readBlock_rte (s : State) (v vb : Nat) (e : ReadErrs) : (readBlock s v vb e).1.rte = s.rte := by
  unfold readBlock
  split
  · rfl
  · split
    · dsimp only
      split
      · exact (rowError_rte _ v vb).trans (corrections_rte s v vb e.ces)
      · exact corrections_rte s v vb e.ces
    · dsimp only
      split <;> exact corrections_rte s v vb e.ces

@[simp] theorem slateUe_rte (s : State) (l : SlateLoc) (a : Nat) (inj : Bool) : (slateUe s l a inj).rte = s.rte := by
  unfold slateUe
  split <;> rfl

@[simp] theorem badRead_rte (s : State) (l : SlateLoc) (b : Nat) : (badRead s l b).rte = s.rte := by
  unfold badRead
  split
  · exact (slateUe_rte _ l b true).trans (readBlock_rte (injFire s) _ _ _)
  · exact slateUe_rte s l b false

@[simp] theorem rangeResponse_rte (s : State) (p a : Nat) (inj : Bool) : (rangeResponse s p a inj).rte = s.rte := by
  unfold rangeResponse
  split <;> rfl

theorem partRange_rte {s t : State} {p o n : Nat} (h : partRange s p o n = some t) : t.rte = s.rte := by
  unfold partRange at h
  split at h
  · cases h
    exact rangeResponse_rte s p _ true
  · split at h
    · cases h
      exact rangeResponse_rte s p _ false
    · cases h

@[simp] theorem touch_rte (s : State) (p a n : Nat) : (touch s p a n).rte = s.rte := by
  unfold touch
  split <;> rfl

@[simp] theorem readAt_rte (s : State) (l : SlateLoc) (a n : Nat) : (readAt s l a n).2.rte = s.rte := by
  unfold readAt
  split
  · exact badRead_rte s l _
  · rfl

@[simp] theorem writeBlock_rte (s : State) (a : Nat) (b : Bytes) : (writeBlock s a b).1.rte = s.rte := by
  unfold writeBlock
  dsimp only
  split
  · rfl
  · split <;> rfl

@[simp] theorem writeBlocks_rte (n : Nat) (s : State) (a : Nat) (b : Bytes) : (writeBlocks n s a b).1.rte = s.rte := by
  induction n generalizing s a b with
  | zero => rfl
  | succ n ih =>
    unfold writeBlocks
    split
    · rfl
    · exact (ih _ _ _).trans (writeBlock_rte s a _)

@[simp] theorem writeAt_rte (s : State) (a : Nat) (b : Bytes) : (writeAt s a b).1.rte = s.rte := by
  unfold writeAt
  split
  · exact writeBlocks_rte _ s a b
  · rfl

@[simp] theorem zeroAt_rte (s : State) (a n : Nat) : (zeroAt s a n).rte = s.rte := by
  unfold zeroAt
  split <;> rfl

@[simp] theorem unitRead_rte (s : State) (p o n : Nat) : (unitRead s p o n).2.rte = s.rte := by
  unfold unitRead
  split
  next h => exact partRange_rte h
  · exact readAt_rte s _ _ n

@[simp] theorem unitWrite_rte (s : State) (p o : Nat) (b : Bytes) : (unitWrite s p o b).rte = s.rte := by
  unfold unitWrite
  split
  next h => exact partRange_rte h
  · exact writeAt_rte s _ b

@[simp] theorem zeroPart_rte (s : State) (p o n : Nat) : (zeroPart s p o n).rte = s.rte := by
  unfold zeroPart
  split
  next h => exact partRange_rte h
  · exact zeroAt_rte s _ n

@[simp] theorem readPart_rte (s : State) (p o n : Nat) : (readPart s p o n).2.rte = s.rte := by
  unfold readPart
  dsimp only
  split
  · rfl
  · split
    next h => exact partRange_rte h
    · split
      · exact badRead_rte s _ _
      · exact touch_rte s p _ n

@[simp] theorem writePart_rte (s : State) (p o : Nat) (b : Bytes) : (writePart s p o b).rte = s.rte := by
  unfold writePart
  dsimp only
  split
  · rfl
  · split
    next h => exact partRange_rte h
    · split
      · exact (touch_rte _ p _ _).trans (writeAt_rte s _ b)
      · exact writeAt_rte s _ b

/-! ### Completion records (R42, R58, R60, R424) -/

@[simp] theorem spillItem_rte (s : State) (i : CplItem) : (spillItem s i).rte = s.rte := by
  unfold spillItem
  split <;> rfl

@[simp] theorem nodeRecordWritten_rte (s : State) (q seq n : Nat) (g : BitVec 16) :
    (nodeRecordWritten s q seq n g).rte = s.rte := by
  unfold nodeRecordWritten
  dsimp only
  split <;> rfl

@[simp] theorem produceRecord_rte (s : State) (q : Nat) (r : CplRec) (irq node : Bool) (seq : Nat) :
    (produceRecord s q r irq node seq).rte = s.rte := by
  unfold produceRecord
  dsimp only
  refine ite_rte (ite_rte ((nodeRecordWritten_rte _ q seq _ _).trans ((spillItem_rte _ _).trans ?_))
    ((spillItem_rte _ _).trans ?_)) (ite_rte ?_ ?_)
  all_goals exact ite_rte (ite_rte rfl rfl) (ite_rte rfl rfl)

@[simp] theorem complete_rte (s : State) (q : Nat) (c : Cmd) (st d : Nat) : (complete s q c st d).rte = s.rte := by
  unfold complete
  exact ite_rte (produceRecord_rte _ q _ _ _ _) rfl

@[simp] theorem refuse_rte (s : State) (q : Nat) (c : Cmd) (st d : Nat) : (refuse s q c st d).rte = s.rte :=
  complete_rte _ q c st d

@[simp] theorem endFlag_rte (s : State) (q seq st d : Nat) : (endFlag s q seq st d).rte = s.rte := by
  unfold endFlag
  split
  · rfl
  next l _ =>
    have hended : (if st = 0 then complete s q l.cmd 0 d else if st = 0x14 ∨ st = 0x21 then refuse s q l.cmd st d
        else complete s q l.cmd st d).rte = s.rte :=
      ite_rte (complete_rte s q _ 0 d) (ite_rte (refuse_rte s q _ st d) (complete_rte s q _ st d))
    exact ite_rte (ite_rte hended hended) hended

/-! ### The Hall Fabric (R268–R275, R283–R290) -/

@[simp] theorem seqDone_rte (s : State) (h : FabHdr) (who : Requester) : (seqDone s h who).rte = s.rte := by
  unfold seqDone
  exact ite_rte rfl rfl

@[simp] theorem sourceNack_rte (s : State) (t code k : Nat) (inj : Bool) : (sourceNack s t code k inj).rte = s.rte := by
  unfold sourceNack
  split
  · rfl
  · refine ite_rte (ite_rte (seqDone_rte _ _ _) rfl) (ite_rte (ite_rte rfl rfl) ?_)
    split
    · exact ite_rte rfl (ite_rte rfl rfl)
    · exact ite_rte ((endFlag_rte _ _ _ _ _).trans (seqDone_rte _ _ _)) ((endFlag_rte _ _ _ _ _).trans (seqDone_rte _ _ _))
    · exact ite_rte (endFlag_rte _ _ _ _ _) (endFlag_rte _ _ _ _ _)
    · exact ite_rte rfl rfl

@[simp] theorem sendFlit_rte (s : State) (k vc : Nat) (b : FlitBody) (n : Nat) : (sendFlit s k vc b n).rte = s.rte := rfl

@[simp] theorem ctlPump_rte (k : Nat) (l : List Nat) (s : State) : (ctlPump k l s).rte = s.rte := by
  induction l generalizing s with
  | nil => rfl
  | cons c r ih =>
    unfold ctlPump
    split
    · rw [ih, sendFlit_rte, updPort_rte]
    · rfl

@[simp] theorem ctlAll_rte (s : State) : (ctlAll s).rte = s.rte :=
  foldl_field State.rte (fun s k => ite_rte rfl (ctlPump_rte k _ s)) _ s

@[simp] theorem sendHeader_rte (s : State) (k : Nat) (h : FabHdr) : (sendHeader s k h).rte = s.rte := by
  unfold sendHeader
  rw [sendFlit_rte, pageCount_rte, updPort_rte]

theorem trySend_rte {s t : State} {h : FabHdr} (ht : trySend s h = some t) : t.rte = s.rte := by
  unfold trySend at ht
  split at ht
  · cases ht
    exact sourceNack_rte s _ 7 0 false
  · split at ht
    · split at ht
      · cases ht
        exact sourceNack_rte s _ 1 0 false
      · cases ht
    · split at ht
      next k _ =>
        cases ht
        refine ite_rte ?_ (sendHeader_rte s k h)
        rw [sourceNack_rte, count_rte, injFire_rte, sendHeader_rte]
      · cases ht

@[simp] theorem freeFlits_rte (k vc p n : Nat) (s : State) : (freeFlits s k vc p n).rte = s.rte := by
  induction n generalizing s with
  | zero => rfl
  | succ n ih =>
    unfold freeFlits
    rw [ih, emit_rte, updPort_rte]

@[simp] theorem freeHeader_rte (s : State) (k : Nat) (h : FabHdr) : (freeHeader s k h).rte = s.rte := freeFlits_rte k _ _ _ s

@[simp] theorem pumpTransit_rte (k : Nat) (l : List FabHdr) (s : State) : (pumpTransit k l s).rte = s.rte := by
  induction l generalizing s with
  | nil => rfl
  | cons h r ih =>
    unfold pumpTransit
    dsimp only
    refine ite_rte ?here (ite_rte ?noHops (ite_rte ?booting ?onward))
    case here => rw [ih, updPort_rte]
    case noHops => exact (ih _).trans (freeHeader_rte s k h)
    case booting => exact (ih _).trans (freeHeader_rte s k h)
    case onward =>
      split
      · rw [ih, sendHeader_rte, freeHeader_rte]
      · rw [ih, updPort_rte]

@[simp] theorem transitAll_rte (s : State) : (transitAll s).rte = s.rte := by
  unfold transitAll
  refine ite_rte rfl (foldl_field State.rte (fun s k => ?_) _ s)
  dsimp only
  exact ite_rte rfl ((pumpTransit_rte k _ _).trans (updPort_rte s k _))

@[simp] theorem fabPump_rte (s : State) : (fabPump s).rte = s.rte := by
  have hbefore : (transitAll (ctlAll s)).rte = s.rte := (transitAll_rte _).trans (ctlAll_rte s)
  unfold fabPump
  dsimp only
  generalize transitAll (ctlAll s) = t at hbefore ⊢
  refine ite_rte hbefore ((foldl_field State.rte (fun s h => ?_) _ _).trans hbefore)
  split
  next ht => exact trySend_rte ht
  · rfl

theorem pickFresh_rte {s v : State} {used : Nat → Bool} {n : Nat} {o : Option Nat} (h : pickFresh s used n = (o, v)) :
    v.rte = s.rte :=
  (congrArg (·.2.rte) h).symm

@[simp] theorem fabIssue_rte (s : State) (h : FabHdr) (who : Requester) : (fabIssue s h who).rte = s.rte := by
  unfold fabIssue
  refine ite_rte ?_ rfl
  split
  next v hpick =>
    have hpicked : v.rte = s.rte := pickFresh_rte hpick
    exact (fabPump_rte _).trans hpicked
  next v hpick =>
    have hpicked : v.rte = s.rte := pickFresh_rte hpick
    exact hpicked

@[simp] theorem seqLeave_rte (s : State) (h : FabHdr) (who : Requester) : (seqLeave s h who).rte = s.rte := fabIssue_rte _ h who

@[simp] theorem seqWrite_rte (s : State) (x : HeldWrite) : (seqWrite s x).rte = s.rte := by
  unfold seqWrite
  dsimp only
  exact ite_rte rfl (ite_rte (ite_rte rfl rfl) ((seqLeave_rte _ _ _).trans (ite_rte rfl rfl)))

@[simp] theorem fabSubmit_rte (s : State) (h : FabHdr) (who : Requester) : (fabSubmit s h who).rte = s.rte := by
  have hdenied : (count (if injPart s 0x1001 h.srcPart then injFire s else s) .fabDenied).rte = s.rte :=
    ite_rte (t := injFire s) rfl rfl
  unfold fabSubmit
  refine ite_rte (ite_rte (fabIssue_rte s _ who) (seqWrite_rte _ _)) ?_
  dsimp only
  split
  · exact (endFlag_rte _ _ _ _ _).trans hdenied
  · exact (endFlag_rte _ _ _ _ _).trans hdenied
  · exact hdenied

/-! ### Tiles (R168, R265) -/

@[simp] theorem hallWords_rte (a p n addr : Nat) (b : Bytes) (s : State) : (hallWords a p n addr b s).rte = s.rte := by
  induction n generalizing addr b s with
  | zero => rfl
  | succ n ih => exact ite_rte rfl ((ih _ _ _).trans (fabSubmit_rte s _ _))

@[simp] theorem tileRead_rte (s : State) (p space addr w : Nat) (b : Bytes) :
    (tileRead s p space addr w b).2.rte = s.rte := by
  unfold tileRead
  split
  · exact readPart_rte s p _ w
  · exact rangeResponse_rte s p _ false
  · rfl
  · rfl

@[simp] theorem tileBytes_rte (s : State) (p : Nat) (t : Tile) (b : Bytes) : (tileBytes s p t b).2.rte = s.rte := by
  unfold tileBytes
  dsimp only
  refine foldl_field (fun a : Bytes × State => a.2.rte) (fun a r => ?_) _ _
  exact tileRead_rte a.2 p _ _ _ _

@[simp] theorem tileWrite_rte (s : State) (a p space core addr : Nat) (b : Bytes) :
    (tileWrite s a p space core addr b).rte = s.rte := by
  unfold tileWrite
  refine ite_rte rfl ?_
  split
  · exact writePart_rte s p _ b
  · exact rangeResponse_rte s p _ false
  · rfl
  · exact ite_rte (hallWords_rte a p _ addr b s) rfl

/-! ### Tally sets and readouts (R218, R236, R237) -/

@[simp] theorem tokRead_rte (s : State) (g t : Nat) : (tokRead s g t).2.rte = s.rte := unitRead_rte s _ _ 4

@[simp] theorem setTok_rte (s : State) (g t y : Nat) (r d : Bool) : (setTok s g t y r d).rte = s.rte := unitWrite_rte s _ _ _

@[simp] theorem loadSum_rte (s : State) (g i : Nat) : (loadSum s g i).2.rte = s.rte := by
  unfold loadSum
  dsimp only
  split
  · rw [raiseInj_rte, injFire_rte, unitRead_rte]
  · split
    · exact unitRead_rte s _ _ 128
    · rw [raise_rte, unitRead_rte]

@[simp] theorem addend_rte (s : State) (g i : Nat) (v : FVal) : (addend s g i v).rte = s.rte := by
  unfold addend
  exact (unitWrite_rte _ _ _ _).trans (ite_rte (loadSum_rte s g i) (loadSum_rte s g i))

@[simp] theorem addRow_rte (g t c : Nat) (l : List FVal) (s : State) : (addRow s g t c l).rte = s.rte := by
  induction l generalizing c s with
  | nil => rfl
  | cons v r ih => exact (ih _ _).trans (addend_rte s g _ v)

@[simp] theorem roundRow_rte (g t n c : Nat) (s : State) : (roundRow s g t n c).2.rte = s.rte := by
  induction n generalizing c s with
  | zero => rfl
  | succ n ih =>
    have hload := loadSum_rte s g (t * grpCols s g + c)
    exact (ih _ _).trans (ite_rte (ite_rte hload hload) (ite_rte hload hload))

@[simp] theorem tlyTake_rte (s : State) (i : TlyItem) : (tlyTake s i).rte = s.rte := by
  cases i with
  | dec op => rfl
  | carry e => exact ite_rte rfl rfl

@[simp] theorem pushNotice_rte (s : State) (n : Nat) : (pushNotice s n).rte = s.rte := ite_rte (tlyTake_rte s _) rfl

@[simp] theorem passEnd_rte (s : State) (g : Nat) : (passEnd s g).rte = s.rte :=
  (foldl_field State.rte (fun s t => setTok_rte s g t _ false false) _ _).trans (ite_rte (pushNotice_rte s _) rfl)

@[simp] theorem readout_rte (s : State) (g t : Nat) : (readout s g t).rte = s.rte := by
  unfold readout
  dsimp only
  refine ite_rte ((passEnd_rte _ g).trans ?_) ?_
  all_goals
    exact (setTok_rte _ g t 0 true true).trans ((zeroPart_rte _ _ _ _).trans
      ((writePart_rte _ _ _ _).trans (roundRow_rte g t _ 0 s)))

/-- A tally set leaves RTE as it is (R236). -/
@[simp] theorem tallySet_rte (s : State) (g t n : Nat) : (tallySet s g t n).rte = s.rte := by
  have hset : (setTok (if bitOf (tokRead s g t).1 24 then count (tokRead s g t).2 .cmbUnder else (tokRead s g t).2)
      g t n true false).rte = s.rte :=
    (setTok_rte _ g t n true false).trans (ite_rte (tokRead_rte s g t) (tokRead_rte s g t))
  unfold tallySet
  dsimp only
  refine ite_rte ((readout_rte _ g t).trans ?_) ?_
  all_goals exact ite_rte ((addRow_rte g t 0 _ _).trans ((readPart_rte _ _ _ _).trans hset)) hset

end Sys2Proof.Machine
end

section
/-!
PROOFS. The Router Engine: a token's choices, the routing of a request and the place that it leaves its entry in, a ROUTE
that arrives, and the end of a routing; with them the statement on routing is settled.
-/

namespace Sys2Proof.Machine

open Sys2Proof

/-! ### Routing moves an entry by the rows of its request (R223, R224) -/

/-- From `s` to `t` entry `r` keeps its place in the pass, and no routing begins or ends. -/
def SamePlace (r : Nat) (s t : State) : Prop :=
  (rc t r).next = (rc s r).next ∧ (rc t r).pass = (rc s r).pass ∧ t.rte.routing = s.rte.routing

theorem SamePlace.trans {r : Nat} {s t v : State} (h : SamePlace r s t) (k : SamePlace r t v) : SamePlace r s v := by
  obtain ⟨hnext, hpass, hrouting⟩ := h
  obtain ⟨knext, kpass, krouting⟩ := k
  exact ⟨knext.trans hnext, kpass.trans hpass, krouting.trans hrouting⟩

theorem samePlace_of_rte {s t : State} (h : t.rte = s.rte) (r : Nat) : SamePlace r s t := by
  unfold SamePlace rc
  rw [h]
  exact ⟨rfl, rfl, rfl⟩

@[simp] theorem rc_updRc (s : State) (r : Nat) (f : RteEnt → RteEnt) : rc (updRc s r f) r = f (rc s r) :=
  Tab.look_upd_same s.rte.ents r f

/-- The counts of an entry's experts are no part of its place. -/
theorem samePlace_counted (s : State) (r : Nat) (f : Tab Nat → Tab Nat) :
    SamePlace r s (updRc s r fun x => { x with cnt := f x.cnt }) := by
  unfold SamePlace
  rw [rc_updRc]
  exact ⟨rfl, rfl, rfl⟩

/-! ### The choices of a token (R230) -/

section
variable {r : Nat} {w : RouteWork} {e : Nat}

/-- An expert with room takes the choice. -/
theorem placeChoices_room (h : (rc w.s r).cnt.look e < rcCap w.s r) (t rank wt : Nat) (rest : List (Nat × Nat)) :
    placeChoices r t w rank ((e, wt) :: rest) =
      (let p := placeChoices r t
        { w with s := updRc (count w.s .rtePlaced) r fun x => { x with cnt := x.cnt.upd e (· + 1) },
                 lists := w.lists.upd e (· ++ [(t, rank, wt)]), placed := w.placed + 1 } (rank + 1) rest
       (p.1, p.2 + 1)) :=
  if_pos h

/-- An expert without room drops the choice. -/
theorem placeChoices_full (h : rcCap w.s r ≤ (rc w.s r).cnt.look e) (t rank wt : Nat) (rest : List (Nat × Nat)) :
    placeChoices r t w rank ((e, wt) :: rest) =
      placeChoices r t { w with s := pageCount (count w.s .rteDrop) (rcPart w.s r) 9 1, dropped := w.dropped + 1 }
        (rank + 1) rest :=
  if_neg (Nat.not_lt.mpr h)

end

theorem placeChoices_samePlace (r t : Nat) (l : List (Nat × Nat)) (w : RouteWork) (rank : Nat) :
    SamePlace r w.s (placeChoices r t w rank l).1.s := by
  induction l generalizing w rank with
  | nil => exact samePlace_of_rte rfl r
  | cons c rest ih =>
    rcases Nat.lt_or_ge ((rc w.s r).cnt.look c.1) (rcCap w.s r) with h | h
    · rw [placeChoices_room h]
      exact (samePlace_counted (count w.s .rtePlaced) r (·.upd c.1 (· + 1))).trans (ih _ _)
    · rw [placeChoices_full h]
      exact (samePlace_of_rte rfl r).trans (ih _ _)

theorem routeTokens_samePlace (r fmt : Nat) (gate : List Nat) (rows : List (List Nat)) (w : RouteWork) (t : Nat) :
    SamePlace r w.s (routeTokens r fmt gate w t rows).s := by
  induction rows generalizing w t with
  | nil => exact samePlace_of_rte rfl r
  | cons row rest ih =>
    have hset : ∀ p : RouteWork × Nat, SamePlace r w.s p.1.s →
        SamePlace r w.s (tallySet p.1.s (rcGroup p.1.s r) t p.2) :=
      fun p hp => hp.trans (samePlace_of_rte (tallySet_rte _ _ t _) r)
    have hrow := hset _ (placeChoices_samePlace r t (tokenChoices w.s r fmt row gate) w 0)
    refine .trans ?_ (ih _ _)
    split
    · exact hrow
    · exact hrow

@[simp] theorem writeLists_rte (s : State) (q : RouteReq) (r : Nat) (lists : Tab (List (Nat × Nat × Nat))) :
    (writeLists s q r lists).rte = s.rte :=
  foldl_field State.rte (fun s _ => tileWrite_rte s _ _ _ _ _ _) _ s

/-- The gate matrix of `q` over `n` experts, as LOGIT mode reads it (R226). -/
def gateRead (s : State) (q : RouteReq) (n : Nat) : Bytes × State :=
  if rcMode s q.entry = 2 then readPart s q.part (rcGate s q.entry) (q.tile.cols * n * elemSize q.tile.fmt) else ([], s)

@[simp] theorem gateRead_rte (s : State) (q : RouteReq) (n : Nat) : (gateRead s q n).2.rte = s.rte := by
  unfold gateRead
  split
  · exact readPart_rte s _ _ _
  · rfl

/-- What the routing of `q` builds from `s`: its rows and the gate matrix are read, and its tokens choose (R226, R230). -/
def routeBuilt (s : State) (q : RouteReq) : RouteWork :=
  let b := tileBytes s q.part q.tile q.data
  let n := rcExperts s q.entry
  let g := gateRead b.2 q n
  routeTokens q.entry q.tile.fmt (elems (elemSize q.tile.fmt) (if rcMode g.2 q.entry = 2 then q.tile.cols * n else 0) g.1)
    { s := g.2, lists := [], placed := 0, dropped := 0, skipped := 0 } q.first (rowsOf q.tile.fmt q.tile.cols q.tile.rows b.1)

/-- The state once the dispatch lists of `q` are written (R231). -/
def listsWritten (s : State) (q : RouteReq) : State := writeLists (routeBuilt s q).s q q.entry (routeBuilt s q).lists

theorem listsWritten_samePlace (s : State) (q : RouteReq) : SamePlace q.entry s (listsWritten s q) := by
  have hread : (gateRead (tileBytes s q.part q.tile q.data).2 q (rcExperts s q.entry)).2.rte = s.rte :=
    (gateRead_rte _ q _).trans (tileBytes_rte s _ _ _)
  have hbuilt : SamePlace q.entry s (routeBuilt s q).s :=
    (samePlace_of_rte hread _).trans (routeTokens_samePlace q.entry _ _ _ _ _)
  exact hbuilt.trans (samePlace_of_rte (writeLists_rte _ q _ _) _)

/-- Entry `x` once the rows of `q` are routed: CLOSED behind the last token of the pass (R223). -/
def rowsTaken (s : State) (q : RouteReq) (x : RteEnt) : RteEnt :=
  { x with next := x.next + q.tile.rows, st := if x.next + q.tile.rows = rcTokens s q.entry then .closed else .active }

/-- The routing of `q` in progress, with what it built and its count table (R232). -/
def routingBegun (s : State) (q : RouteReq) : Routing :=
  let w := routeBuilt s q
  let pad := 2 ^ rcPadLog2 (listsWritten s q) q.entry
  { req := q, placed := w.placed, dropped := w.dropped, skipped := w.skipped
    table := (List.range (rcExperts s q.entry)).map fun e => (padded pad (w.lists.look e).length, (w.lists.look e).length) }

/-- Once its lists are written, a routing moves its entry by its rows and takes a place among those in progress. -/
theorem routeNow_listsWritten (s : State) (q : RouteReq) :
    routeNow s q = { updRc (listsWritten s q) q.entry (rowsTaken (listsWritten s q) q) with
      rte.routing := (listsWritten s q).rte.routing ++ [routingBegun s q] } := by
  unfold routeNow
  rfl

/-- A routing moves its entry by the rows of the request, leaves the count of passes, and joins those in progress. -/
theorem routeNow_place (s : State) (q : RouteReq) :
    (rc (routeNow s q) q.entry).next = (rc s q.entry).next + q.tile.rows ∧
      (rc (routeNow s q) q.entry).pass = (rc s q.entry).pass ∧
      (routeNow s q).rte.routing = s.rte.routing ++ [routingBegun s q] := by
  obtain ⟨hnext, hpass, hrouting⟩ := listsWritten_samePlace s q
  rw [← hnext, ← hpass, ← hrouting, routeNow_listsWritten]
  have hrc := rc_updRc (listsWritten s q) q.entry (rowsTaken (listsWritten s q) q)
  exact ⟨congrArg RteEnt.next hrc, (congrArg RteEnt.pass hrc).trans rfl, rfl⟩

/-! ### A ROUTE at RTE (R222, R223, R224) -/

section
variable {s : State} {q : RouteReq}

theorem routeFate_go (hst : (rc s q.entry).st = .active) (hf : q.first = (rc s q.entry).next) : routeFate s q = .go :=
  (if_pos hst).trans (if_pos hf)

theorem routeFate_early (hst : (rc s q.entry).st = .active) (hf : (rc s q.entry).next < q.first) : routeFate s q = .hold :=
  (if_pos hst).trans ((if_neg (Nat.ne_of_gt hf)).trans (if_pos hf))

theorem routeFate_past (hst : (rc s q.entry).st = .active) (hf : q.first < (rc s q.entry).next) : routeFate s q = .order :=
  (if_pos hst).trans ((if_neg (Nat.ne_of_lt hf)).trans (if_neg (Nat.not_lt.mpr (Nat.le_of_lt hf))))

theorem routeFate_start (hst : (rc s q.entry).st ≠ .active) (hf : q.first = 0)
    (hidle : (grp s (rcGroup s q.entry)).st = .idle) : routeFate s q = .start :=
  (if_neg hst).trans ((if_pos hf).trans (if_pos hidle))

/-- The next request of a pass is routed while there is room, and waits for a place where there is none. -/
theorem routeTry_go (h : routeFate s q = .go) (counted : Bool) : routeTry s q counted =
    if rteRoom s q.entry then routeNow s q else { s with rte.ready := s.rte.ready ++ [q] } := by
  unfold routeTry
  rw [h]

/-- The first request of a pass starts it, and is routed while there is room. -/
theorem routeTry_start (h : routeFate s q = .start) (counted : Bool) (hroom : rteRoom s q.entry = true) :
    routeTry s q counted = routeNow (startPass s q.entry) q := by
  unfold routeTry
  rw [h]
  exact if_pos hroom

theorem routeTry_early (h : routeFate s q = .hold) :
    routeTry s q false = count { s with rte.held := s.rte.held ++ [q] } .rteHold := by
  unfold routeTry
  rw [h]
  rfl

theorem routeTry_past (h : routeFate s q = .order) (counted : Bool) :
    routeTry s q counted = raise s 0x0D01 .up q.part q.entry := by
  unfold routeTry
  rw [h]

/-- A pass that starts has one more pass counted, no row taken and no expert filled. -/
theorem rc_startPass (s : State) (r : Nat) :
    rc (startPass s r) r = { rc s r with st := .active, pass := (rc s r).pass + 1, cnt := [], next := 0 } :=
  rc_updRc s r _

end

section
variable {is : Out → Bool} {u w : State} (h : Lands is u w)
include h

/-- What lands leaves RTE as it is. -/
theorem rte_lands : w.rte = u.rte := by
  obtain ⟨_, rfl⟩ := lands_form h
  rfl

theorem routeFate_lands (q : RouteReq) : routeFate w q = routeFate u q := by
  obtain ⟨_, rfl⟩ := lands_form h
  rfl

theorem rteRoom_lands (r : Nat) : rteRoom w r = rteRoom u r := by
  obtain ⟨_, rfl⟩ := lands_form h
  rfl

theorem rc_lands (r : Nat) : rc w r = rc u r := by
  unfold rc
  rw [rte_lands h]

end

/-- A ROUTE that lands and finds a credit is tried, and then those of its entry that are held. -/
theorem ends_routeRequest {u w v : State} {q : RouteReq} (hs : u.rte.stopped = false) (hl : Lands (isRoute q) u w)
    (hcr : opCredit u (.route q) = true) (h : routeTry w q false = v) : Ends (.routeRequest q) u (retestEntry v q.entry) := by
  refine ends_act _ _ _ u _ (fun _ => rfl) fun hc => (arrives_open (by rw [hs]; rfl) hl _).trans ?_
  have hcw := calm_lands hc hl
  obtain ⟨b, rfl⟩ := lands_form hl
  refine (offer_now hcw (.route q) hcr).trans ?_
  rw [← h]
  exact (if_neg (Bool.eq_false_iff.mp hs)).trans (if_neg (Bool.eq_false_iff.mp (calm_inj hcw _ _)))

/-! ### Dispatch lists (R231) -/

/-- A padded count is the next multiple of the unit. -/
theorem padded_multiple {pad : Nat} (h : 0 < pad) (n : Nat) :
    padded pad n % pad = 0 ∧ n ≤ padded pad n ∧ padded pad n < n + pad := by
  have hdiv := Nat.div_add_mod (n + pad - 1) pad
  have hmod := Nat.mod_lt (n + pad - 1) h
  unfold padded
  rw [Nat.mul_comm] at hdiv
  exact ⟨Nat.mul_mod_left _ _, by omega, by omega⟩

/-! ### The end of a routing (R232, R233) -/

@[simp] theorem trRecord_rte (s : State) (r : TrRec) : (trRecord s r).rte = s.rte := by
  obtain ⟨_, _, h⟩ := trRecord_form s r
  rw [h]

theorem tableAnswer_cases (s : State) (a id off : Nat) (b : Bytes) : tableAnswer s a id off b =
    if ((rkn s a).reqs.any fun q => q.id == id && q.kind == .route) = false then s
    else if agtShut s a = true then updA s a fun y => { y with inbox := y.inbox ++ [.table id off b] }
    else updA s a fun y => { y with rkn.dmem := memPut y.rkn.dmem off b } := by
  unfold tableAnswer rkn
  cases (agt s a).rkn.reqs.any fun q => q.id == id && q.kind == .route <;> rfl

theorem routeReady_noneReady {s : State} (h : s.rte.ready = []) (n : Nat) : routeReady n s = s := by
  cases n with
  | zero => rfl
  | succ n =>
    unfold routeReady
    rw [h]
    rfl

theorem retestEntry_noneHeld {s : State} (h : s.rte.held = []) (r : Nat) : retestEntry s r = s := by
  unfold retestEntry
  rw [h]
  unfold rteRetest
  rw [h]
  exact ite_self s

section
variable {u : State} {k : Nat} {x : Routing} {rest : List Routing}

/-- The state once routing `x` has left those in progress, its count table delivered (R232). -/
def tableDelivered (u : State) (x : Routing) (rest : List Routing) : State :=
  count (writeTable { u with rte := { u.rte with routing := rest } } x) .rteRoute

/-- The choices that a routing dropped or skipped are traced (R230, R232). -/
def choicesTraced (w : State) (x : Routing) : State :=
  if x.dropped ≠ 0 ∨ x.skipped ≠ 0 then
    trRecord w { type := 5, part := x.req.part, cls := 0, gen := 0, node := x.req.node, sub := 1, ts := w.ts,
                 arg1 := BitVec.ofNat 64 x.req.entry, arg2 := min x.dropped 0xFFFF + min x.skipped 0xFFFF * 2 ^ 16 }
  else w

/-- A routing is answered with its placed and its dropped choices (R232). -/
def routingAnswered (t : State) (x : Routing) : State :=
  emit t (.answer { block := blockId t, agent := x.req.agent, unit := 16, part := x.req.part, node := x.req.node,
                    gen := 0, group := 0 }
    (ansRequest x.req.req) (BitVec.ofNat 64 (x.placed + x.dropped * 2 ^ 32)))

/-- RTE tries what waited: for a place, behind the entry of the request, and for its group (R223, R233). -/
def waitingTried (s : State) (r : Nat) : State :=
  let v := routeReady (s.rte.ready.length + 1) s
  retestGroup (retestEntry v r) (rcGroup v r)

theorem routingDone_takeAt (h : takeAt u.rte.routing k = some (x, rest)) : routingDone u k =
    waitingTried (routingAnswered (choicesTraced (tableDelivered u x rest) x) x) x.req.entry := by
  unfold routingDone
  rw [h]
  rfl

theorem waitingTried_none {s : State} (hr : s.rte.ready = []) (hh : s.rte.held = []) (r : Nat) : waitingTried s r = s := by
  unfold waitingTried
  dsimp only
  rw [routeReady_noneReady hr, retestEntry_noneHeld hh, retestGroup_noneHeld hh]

theorem tableAnswer_keeps (s : State) (a id off : Nat) (b : Bytes) :
    Keeps s (tableAnswer s a id off b) ∧ (tableAnswer s a id off b).rte = s.rte := by
  rw [tableAnswer_cases]
  split
  · exact ⟨.refl s, rfl⟩
  · split
    · exact ⟨.refl s, rfl⟩
    · exact ⟨.refl s, rfl⟩

theorem choicesTraced_keeps (s : State) (x : Routing) : Keeps s (choicesTraced s x) ∧ (choicesTraced s x).rte = s.rte := by
  unfold choicesTraced
  split
  · exact ⟨keeps_trRecord s _, trRecord_rte s _⟩
  · exact ⟨.refl s, rfl⟩

/-- An answered routing leaves what waits alone, and of RTE all but the list of routings in progress. -/
theorem routingAnswered_keeps (u : State) (x : Routing) (rest : List Routing) :
    Keeps u (routingAnswered (choicesTraced (tableDelivered u x rest) x) x) ∧
      (routingAnswered (choicesTraced (tableDelivered u x rest) x) x).rte = { u.rte with routing := rest } := by
  obtain ⟨htable, htrte⟩ := tableAnswer_keeps { u with rte := { u.rte with routing := rest } } x.req.agent x.req.req
    (rcCounts u x.req.entry) (x.table.flatMap fun e => leBytes 8 (e.1 % 2 ^ 16 + e.2 % 2 ^ 16 * 2 ^ 16))
  obtain ⟨htraced, hrrte⟩ := choicesTraced_keeps (tableDelivered u x rest) x
  exact ⟨(htable.trans (keeps_count _ _)).trans (htraced.trans (keeps_emit _ _)), hrrte.trans htrte⟩

end

/-! ### The statement -/

/-- Settles O43: a ROUTE by what R223 says of it, the choices of a token, and the end of a routing. -/
theorem batchRouting : Obligations.BatchRouting := by
  refine ⟨fun u w q r x hs hl hcr hr hx => ?request,
    ⟨fun r t rank e wt w rest => ⟨fun h => placeChoices_room h t rank wt rest, fun h => placeChoices_full h t rank wt rest⟩,
      fun _ _ _ => rfl, fun _ _ _ _ _ _ => rfl, fun pad n hpad => padded_multiple hpad n⟩,
    fun u k r x rest b z w t s v hs htake hr hb hz hw ht hsent hv => ?done⟩
  case request =>
    subst hr hx
    have hfate := routeFate_lands hl q
    have hplaces := rteRoom_lands hl q.entry
    refine ⟨fun v hst hf hroom hv => ?next, fun s v hst hf hidle hroom hpass hv => ?first, fun hst hf hroom => ?waits,
      fun hst hf => ?early, fun hst hf => ?past⟩
    case next =>
      subst hv
      obtain ⟨hnext, _, hrouting⟩ := routeNow_place w q
      rw [rc_lands hl] at hnext
      rw [rte_lands hl] at hrouting
      refine ⟨ends_routeRequest hs hl hcr ?_, hnext, _, rfl, hrouting⟩
      exact (routeTry_go (hfate.trans (routeFate_go hst hf)) false).trans (if_pos (hplaces.trans hroom))
    case first =>
      have hstart : s = startPass w q.entry := by
        obtain ⟨_, rfl⟩ := lands_form hl
        exact hpass
      subst hv hstart
      obtain ⟨hnext, hcount, hrouting⟩ := routeNow_place (startPass w q.entry) q
      rw [rc_startPass] at hnext hcount
      rw [rc_lands hl] at hcount
      refine ⟨ends_routeRequest hs hl hcr ?_, hnext.trans (Nat.zero_add _), hcount, _, rfl,
        hrouting.trans (congrArg (·.routing ++ _) (rte_lands hl))⟩
      exact routeTry_start (hfate.trans (routeFate_start hst hf hidle)) false (hplaces.trans hroom)
    case waits =>
      rw [← rte_lands hl]
      refine ends_routeRequest hs hl hcr ((routeTry_go (hfate.trans (routeFate_go hst hf)) false).trans (if_neg ?_))
      exact Bool.eq_false_iff.mp (hplaces.trans hroom)
    case early =>
      rw [← rte_lands hl]
      exact ends_routeRequest hs hl hcr (routeTry_early (hfate.trans (routeFate_early hst hf)))
    case past => exact ends_routeRequest hs hl hcr (routeTry_past (hfate.trans (routeFate_past hst hf)) false)
  case done =>
    have hdone := routingDone_takeAt htake
    have hanswered : s = routingAnswered (choicesTraced (tableDelivered u x rest) x) x := by
      subst hr hb hz hw ht
      unfold tableDelivered writeTable
      rw [tableAnswer_cases]
      exact hsent
    rw [← hanswered] at hdone
    obtain ⟨hkeeps, hrte⟩ := routingAnswered_keeps u x rest
    rw [← hanswered] at hkeeps hrte
    subst hr hv
    refine ⟨ends_unshut (shut := (·.rte.stopped)) (fun _ => rfl) hs fun _ => hdone, fun hready hheld => ?_⟩
    have hnone := waitingTried_none (s := s) (by rw [hrte]; exact hready) (by rw [hrte]; exact hheld) x.req.entry
    exact becomes_unshut (shut := (·.rte.stopped)) (fun _ => rfl) hs (fun _ => hdone.trans hnone) hkeeps

end Sys2Proof.Machine
end

section
/-!
PROOFS. The Slate's bytes as numbers and the place of a Slate address; with them the statement on bytes and places is settled.
-/

namespace Sys2Proof.Machine

open Sys2Proof

/-! ### Bytes (R6, R254) -/

/-- The low bytes of a number, read back, are the number as far as they reach. -/
theorem leNat_leBytes (n x : Nat) : leNat (leBytes n x) = x % 256 ^ n := by
  induction n generalizing x with
  | zero => exact (Nat.mod_one x).symm
  | succ n ih =>
    have hbyte : (BitVec.ofNat 8 x).toNat = x % 256 := BitVec.toNat_ofNat x 8
    rw [leBytes, leNat, ih, hbyte, Nat.pow_succ', Nat.mod_mul]

/-! ### Places (R245) -/

/-- A Slate address below the top has a vault, a block of it and a byte of that block, and is made of them. -/
theorem place_of_addr {a : Nat} (h : a < 56371445760) :
    vaultOf a < 120 ∧ vaultBlock a < 1835008 ∧ a = (vaultBlock a * 120 + vaultOf a) * 256 + a % 256 := by
  unfold vaultOf vaultBlock
  omega

/-- The next block lies in the next vault, and after the last vault in the first one, a vault block further on. -/
theorem place_next (a : Nat) :
    (vaultOf a < 119 → vaultOf (a + 256) = vaultOf a + 1 ∧ vaultBlock (a + 256) = vaultBlock a) ∧
    (vaultOf a = 119 → vaultOf (a + 256) = 0 ∧ vaultBlock (a + 256) = vaultBlock a + 1) := by
  unfold vaultOf vaultBlock
  omega

/-- A vault block index is its row, tier, bank and column. -/
theorem vaultBlock_digits (vb : Nat) :
    rowKey vb = (vb / 1024 * 16 + vb / 64 % 16) * 8 + vb / 8 % 8 ∧
    vb = ((vb / 1024 * 16 + vb / 64 % 16) * 8 + vb / 8 % 8) * 8 + vb % 8 := by
  unfold rowKey
  omega

/-! ### The statement -/

/-- Settles O5: bytes by the laws of memory, places by division. -/
theorem slateBytesAndPlaces : Obligations.SlateBytesAndPlaces := by
  refine ⟨⟨fun _ => rfl, memWrite_wf, memRead_memWrite, fun s a b j h hj => memByte_memWrite_other s a j b h hj, zeroMem_wf,
      fun x n => leNat_leBytes n x⟩,
    fun _ => place_of_addr, fun a => (place_next a).left, fun a => (place_next a).right, fun a vb ha hvb => ?digits, by decide⟩
  case digits =>
    subst hvb
    obtain ⟨-, hblock, hplace⟩ := place_of_addr ha
    obtain ⟨hkey, hdigits⟩ := vaultBlock_digits (vaultBlock a)
    exact ⟨by omega, hkey, by rw [← hdigits]; exact hplace⟩

end Sys2Proof.Machine
end

section
/-!
PROOFS. Blocks at a vault controller: what a read of a block finds, and what leaves a read or a write of a location; with them
the statement on reads and writes is settled.
-/

namespace Sys2Proof.Machine

open Sys2Proof

/-! ### Commands of the Slate while it is not stopped -/

section
variable {i : Instr} {l : List Touch} {f : State → State} {u v : State}
  (hi : ∀ s, exec i s = .next (act l (fun s => if s.slt.stopped then s else f s) s)) (hs : u.slt.stopped = false)
include hi hs

theorem ends_slt (hf : Calm u → f u = v) : Ends i u v := ends_unshut (shut := fun s => s.slt.stopped) hi hs hf

theorem becomes_slt (hf : Calm u → f u = v) (hk : Keeps u v) : Becomes i u v :=
  becomes_unshut (shut := fun s => s.slt.stopped) hi hs hf hk

end

theorem keeps_updV (s : State) (v : Nat) (f : Vault → Vault) : Keeps s (updV s v f) := .refl s

/-! ### What a read of a block finds (R252, R257) -/

/-- The single-bit errors of a block are corrected, and `n` re-reads of it are counted. -/
def reread (s : State) (v vb : Nat) (ces : List (Nat × Nat)) (n : Nat) : State :=
  countN (ces.foldl (fun s x => corrected s v vb x) s) .sltReread n

/-- A corrected error has the row of its block repaired once the row's count is at ROW_CE. -/
theorem rowError_counted {s t : State} {v vb : Nat}
    (ht : t = updV (count s .sltCe) v fun x =>
      { x with rowCe := x.rowCe.upd (rowKey vb) (· + 1), ceTimes := x.ceTimes ++ [s.ts] }) :
    rowError s v vb =
      if regFld t 0xa00308 7 0 ≠ 0 ∧ regFld t 0xa00308 7 0 ≤ (vault t v).rowCe.look (rowKey vb) then queueRow t v (rowKey vb)
      else t := by
  subst ht
  rfl

theorem readBlock_bad {s : State} {v vb : Nat} (h : vb ∈ (vault s v).bad) (e : ReadErrs) : readBlock s v vb e = (s, false) :=
  if_pos (List.contains_iff_mem.mpr h)

section
variable {u : State} {v vb : Nat} {e : ReadErrs} (hb : vb ∉ (vault u v).bad)
include hb

theorem readBlock_once (hf : e.fails = 0) : readBlock u v vb e = (reread u v vb e.ces e.fails, true) := by
  unfold readBlock
  rw [if_neg (mt List.contains_iff_mem.mp hb), if_pos (by omega)]
  exact congrArg (·, true) (if_neg (by omega))

/-- A block recovered by a re-read counts as a corrected error. -/
theorem readBlock_again (h0 : 0 < e.fails) (h3 : e.fails < 3) :
    readBlock u v vb e = (rowError (reread u v vb e.ces e.fails) v vb, true) := by
  unfold readBlock
  rw [if_neg (mt List.contains_iff_mem.mp hb), if_pos h3]
  exact congrArg (·, true) (if_pos h0)

/-- A block that three reads fail to recover is lost: it enters the bad-block table, or the full table is a fault. -/
theorem readBlock_lost (h3 : 3 ≤ e.fails) {s : State} (hs : s = reread u v vb e.ces 2) :
    readBlock u v vb e =
      (queueRow (count (if 64 ≤ (vault s v).bad.length then raise s 0x0F02 .ud 0 (logicalOf s v)
        else updV s v fun x => { x with bad := x.bad ++ [vb] }) .sltUe) v (rowKey vb), false) := by
  subst hs
  unfold readBlock
  rw [if_neg (mt List.contains_iff_mem.mp hb), if_neg (by omega)]
  simp only [decide_eq_true_eq]
  rfl

end

/-- Without an error, only the count of re-reads is written anew. -/
theorem readBlock_clean {u : State} {v vb : Nat} {e : ReadErrs} (hb : vb ∉ (vault u v).bad) (hces : e.ces = [])
    (hf : e.fails = 0) : readBlock u v vb e = (countN u .sltReread 0, true) := by
  rw [readBlock_once hb hf, hces, hf]
  rfl

/-! ### The bytes of a location (R246, R250, R374) -/

theorem keeps_locTouch (s : State) (l : SlateLoc) (a : Nat) : Keeps s (locTouch s l a) := by
  unfold locTouch
  split
  · exact keeps_touch s _ a 1
  · exact .refl s

theorem keeps_storeBlock (s : State) (l : SlateLoc) (a : Nat) (b : Bytes) : Keeps s (storeBlock s l a b) := by
  unfold storeBlock
  split <;> exact .refl s

/-- A block holds the record of its node, or the bytes that stand in the Slate. -/
theorem blockBytes_eq {s : State} {l : SlateLoc} {a : Nat} {b : Bytes}
    (hdata : (∀ n, l ≠ .node n) → b = memRead s (a / 256 * 256) 256) (hnode : ∀ n, l = .node n → b = nodeBytes s n) :
    blockBytes s l a = b := by
  cases l with
  | node n => exact (hnode n rfl).symm
  | data p o => exact (hdata fun _ h => by cases h).symm
  | cell k => exact (hdata fun _ h => by cases h).symm
  | system a => exact (hdata fun _ h => by cases h).symm

theorem storeBlock_bytes {s : State} {l : SlateLoc} (h : ∀ n, l ≠ .node n) (a : Nat) (b : Bytes) :
    storeBlock s l a b = memWrite s a b := by
  cases l with
  | node n => exact absurd rfl (h n)
  | data p o => rfl
  | cell k => rfl
  | system a => rfl

/-- A whole block of a node's record becomes its record. -/
theorem storeBlock_node (s : State) (n : Nat) {a : Nat} {b : Bytes} (ha : a % 256 = 0) (hb : b.length = 256) :
    storeBlock s (.node n) a b = updN s n fun r => nodeOf r (leNat b) := by
  have hnew : ((nodeBytes s n).take (a % 256) ++ b ++ (nodeBytes s n).drop (a % 256 + b.length)).take 256 = b := by
    rw [ha, List.take_zero, List.nil_append, ← hb, List.take_left]
  unfold storeBlock
  dsimp only
  rw [hnew]

/-! ### Reads of a location (R248, R253) -/

section
variable {u s : State} {l : SlateLoc} {a : Nat} {e : ReadErrs}

theorem slateRead_outside (ha : slateAddr u l = none) :
    slateRead u l e = raise (count u .sltRange) 0x0F01 .up (locPart u l) 0 := by
  unfold slateRead
  rw [ha]
  rfl

section
variable (hc : Calm u) (ha : slateAddr u l = some a)
include hc ha

theorem slateRead_readable (hr : readBlock u (physOf u (vaultOf a) (vaultBlock a)) (vaultBlock a) e = (s, true)) :
    slateRead u l e =
      emit (locTouch s l a) (.slate (physOf u (vaultOf a) (vaultBlock a) / 8) true (blockBytes s l a)) := by
  unfold slateRead ueArmed
  simp only [ha, calm_injPart hc, calm_inj hc, Bool.false_eq_true, if_false, hr, if_true]
  rfl

theorem slateRead_lost (hr : readBlock u (physOf u (vaultOf a) (vaultBlock a)) (vaultBlock a) e = (s, false)) :
    slateRead u l e = emit (slateUe s l a false) (.slate (physOf u (vaultOf a) (vaultBlock a) / 8) false []) := by
  unfold slateRead ueArmed
  simp only [ha, calm_injPart hc, calm_inj hc, Bool.false_eq_true, if_false, hr]
  rfl

end

/-- An uncorrectable block is the fault of the partition that owns the location, or of the block where none does. -/
theorem slateUe_owned {p : Nat} (h : ownerOf s l = some p) : slateUe s l a false = raise s 0x0F02 .up p (vaultOf a) := by
  unfold slateUe
  rw [h]
  rfl

theorem slateUe_unowned (h : ownerOf s l = none) : slateUe s l a false = raise s 0x0F02 .ud 0 (vaultOf a) := by
  unfold slateUe
  rw [h]
  rfl

end

/-! ### Writes of a location (R248, R251, R252) -/

section
variable {u s : State} {l : SlateLoc} {o a : Nat} {b : Bytes} {ok : Bool} {e : ReadErrs}

theorem slateWrite_outside (ha : slateAddr u l = none) :
    slateWrite u l o b ok e = raise (count u .sltRange) 0x0F01 .up (locPart u l) 0 := by
  unfold slateWrite
  rw [ha]
  rfl

section
variable (hc : Calm u) (ha : slateAddr u l = some a)
include hc ha

/-- A whole block replaces what stands in its place, and is no bad block any more. -/
theorem slateWrite_whole (hb : b.length = 256) (ho : o = 0) :
    slateWrite u l o b true e =
      emit (locTouch (storeBlock (updV u (physOf u (vaultOf a) (vaultBlock a)) fun x =>
          { x with bad := x.bad.filter (· != vaultBlock a) }) l (a / 256 * 256) b) l a)
        (.slate (physOf u (vaultOf a) (vaultBlock a) / 8) true []) := by
  unfold slateWrite
  simp only [ha, calm_injPart hc, Bool.false_eq_true, if_false, hb, ho, and_self, if_true, Bool.not_true]
  rfl

theorem slateWrite_wrongCrc (hb : b.length = 256) (ho : o = 0) :
    slateWrite u l o b false e =
      emit (count u .sltWrCrc) (.slate (physOf u (vaultOf a) (vaultBlock a) / 8) false []) := by
  unfold slateWrite
  simp only [ha, calm_injPart hc, Bool.false_eq_true, if_false, hb, ho, and_self, if_true, Bool.not_false]
  rfl

section
variable (hpart : b.length ≠ 256 ∨ o ≠ 0)
include hpart

/-- A part of a block is merged into a block that reads. -/
theorem slateWrite_merged (hr : readBlock u (physOf u (vaultOf a) (vaultBlock a)) (vaultBlock a) e = (s, true)) :
    slateWrite u l o b ok e =
      emit (locTouch (storeBlock s l (a / 256 * 256 + o) (b.take (256 - o))) l a)
        (.slate (physOf u (vaultOf a) (vaultBlock a) / 8) true []) := by
  unfold slateWrite
  simp only [ha, calm_injPart hc, Bool.false_eq_true, if_false, if_neg (not_and_of_not_or_not hpart), hr, if_true]
  rfl

theorem slateWrite_rejected (hr : readBlock u (physOf u (vaultOf a) (vaultBlock a)) (vaultBlock a) e = (s, false)) :
    slateWrite u l o b ok e = emit s (.slate (physOf u (vaultOf a) (vaultBlock a) / 8) false []) := by
  unfold slateWrite
  simp only [ha, calm_injPart hc, Bool.false_eq_true, if_false, if_neg (not_and_of_not_or_not hpart), hr]
  rfl

end
end
end

/-! ### The statement -/

/-- Settles O45: a read by what the block shows, a write by whether it is whole. -/
theorem slateReadsAndWrites : Obligations.SlateReadsAndWrites := by
  refine ⟨fun u l e hs => ⟨fun a v s b ha hv hdata hnode => ?read, fun ha => ?readOutside, fun v vb h => readBlock_bad h e,
      fun v vb s t hb hst ht => ?recovered, fun v vb s hb h3 hst => ?lost⟩,
    fun u l o b ok e hs => ⟨fun a v s ha hv => ?write, fun h a => storeBlock_bytes h a b, fun n hl hb a ha => ?node,
      fun ha => ?writeOutside⟩⟩
  case read =>
    subst hv
    have hbytes : blockBytes s l a = b := blockBytes_eq hdata hnode
    refine ⟨fun hces hf hb hst => ?clean, fun hr => ?readable, fun hr ho => ?unowned, fun p hr ho => ?owned⟩
    case clean =>
      have hr := readBlock_clean hb hces hf
      rw [← hst] at hr
      have hkeeps : Keeps u (emit (locTouch s l a) (.slate (physOf u (vaultOf a) (vaultBlock a) / 8) true b)) := by
        rw [hst]
        exact ((keeps_countN u _ 0).trans (keeps_locTouch _ l a)).trans (keeps_emit _ _)
      exact becomes_slt (fun _ => rfl) hs (fun hc => hbytes ▸ slateRead_readable hc ha hr) hkeeps
    case readable =>
      exact ends_slt (fun _ => rfl) hs fun hc => hbytes ▸ slateRead_readable hc ha hr
    case unowned =>
      rw [← slateUe_unowned ho]
      exact ends_slt (fun _ => rfl) hs fun hc => slateRead_lost hc ha hr
    case owned =>
      rw [← slateUe_owned ho]
      exact ends_slt (fun _ => rfl) hs fun hc => slateRead_lost hc ha hr
  case readOutside =>
    exact ends_slt (fun _ => rfl) hs fun _ => slateRead_outside ha
  case recovered =>
    refine ⟨fun hf => ?_, fun h0 h3 => ?_⟩
    · rw [readBlock_once hb hf, hst]
      rfl
    · rw [readBlock_again hb h0 h3, ← rowError_counted ht, hst]
      rfl
  case lost =>
    have hlost := readBlock_lost hb h3 hst
    refine ⟨fun hroom => ?_, fun hfull => ?_⟩
    · rw [hlost, if_neg (by omega)]
    · rw [hlost, if_pos hfull]
  case write =>
    subst hv
    refine ⟨fun hb ho hok hst => ?whole, fun hb ho hok => ?wrongCrc, fun hpart hces hf hb hst => ?clean,
      fun hpart hr => ?merged, fun hpart hr => ?rejected⟩
    case whole =>
      subst hok hst
      exact becomes_slt (fun _ => rfl) hs (fun hc => slateWrite_whole hc ha hb ho)
        (((keeps_updV u _ _).trans (keeps_storeBlock _ l _ b)).trans ((keeps_locTouch _ l a).trans (keeps_emit _ _)))
    case wrongCrc =>
      subst hok
      exact becomes_slt (fun _ => rfl) hs (fun hc => slateWrite_wrongCrc hc ha hb ho)
        ((keeps_count u _).trans (keeps_emit _ _))
    case clean =>
      have hr := readBlock_clean hb hces hf
      subst hst
      exact becomes_slt (fun _ => rfl) hs (fun hc => slateWrite_merged hc ha hpart hr)
        (((keeps_countN u _ 0).trans (keeps_storeBlock _ l _ _)).trans ((keeps_locTouch _ l a).trans (keeps_emit _ _)))
    case merged =>
      exact ends_slt (fun _ => rfl) hs fun hc => slateWrite_merged hc ha hpart hr
    case rejected =>
      exact ends_slt (fun _ => rfl) hs fun hc => slateWrite_rejected hc ha hpart hr
  case node =>
    subst hl
    exact storeBlock_node u n ha hb
  case writeOutside =>
    exact ends_slt (fun _ => rfl) hs fun _ => slateWrite_outside ha

end Sys2Proof.Machine
end

section
/-!
PROOFS. What keeps the vaults sound: scrub, refresh, the tier sensors, and the repair of rows and lanes; with them the
statement on vaults kept and repaired is settled.
-/

namespace Sys2Proof.Machine

open Sys2Proof

/-! ### Scrub (R255) -/

/-- Scrub of vault `v` is on and takes the next block. -/
def ScrubRuns (u : State) (v : Nat) : Prop :=
  regBit u 0xa00300 31 = true ∧ u.slt.stopped = false ∧ u.slt.filled = true ∧ (vault u v).role ≠ .retired ∧ v < 128

theorem ScrubRuns.not_held {u : State} {v : Nat} (h : ScrubRuns u v) :
    (!regBit u 0xa00300 31 || u.slt.stopped || !u.slt.filled || (vault u v).role == .retired || decide (128 ≤ v)) = false := by
  obtain ⟨hon, hs, hfilled, hrole, hv⟩ := h
  simp [hon, hs, hfilled, hrole, hv]

/-- Scrub of vault `v` is past block `vb`. -/
def scrubbed (s : State) (v vb : Nat) : State :=
  { updV s v (fun x => { x with scrubAt := (vb + 1) % 1835008 }) with slt.scrubActive := decide (vb + 1 < 1835008) }

section
variable {u s : State} {v vb : Nat} {e : ReadErrs} (hc : Calm u) (hrun : ScrubRuns u v) (hvb : vb = (vault u v).scrubAt)
include hc hrun hvb

/-- A readable block with an error is written back, unless a foreground write came before. -/
theorem scrubRead_readable (hr : readBlock u v vb e = (s, true)) (raced : Bool) :
    scrubRead u v e raced =
      scrubbed (if !raced && (!e.ces.isEmpty || decide (0 < e.fails)) then count s .sltScrubFix else s) v vb := by
  subst hvb
  unfold scrubRead
  simp only [hrun.not_held, calm_inj hc, hr, Bool.false_eq_true, if_false, Bool.not_true, Bool.false_and, Bool.true_and]
  rfl

/-- A block that scrub finds lost is a fault, counted and nothing more. -/
theorem scrubRead_lost (hr : readBlock u v vb e = (s, false)) (hb : vb ∉ (vault u v).bad) (raced : Bool) :
    scrubRead u v e raced = scrubbed (raise s 0x0F03 .c 0 (logicalOf s v)) v vb := by
  subst hvb
  have hnew : (vault u v).bad.contains (vault u v).scrubAt = false := Bool.eq_false_iff.mpr (mt List.contains_iff_mem.mp hb)
  unfold scrubRead
  simp only [hrun.not_held, calm_inj hc, hr, hnew, Bool.false_eq_true, if_false, Bool.not_false, Bool.and_self, if_true,
    Bool.false_and]
  rfl

end

/-! ### Refresh and temperature (R256) -/

/-- The sensor of tier `t` has shown `x`, in 0.125 °C. -/
def sampled (u : State) (t x : Nat) : State :=
  { u with
    slt := { u.slt with
      temp := u.slt.temp.put t (min (x / 8) 255)
      refresh2x := if 85 * 8 < x then setBit16 u.slt.refresh2x t true
        else if x < 82 * 8 then setBit16 u.slt.refresh2x t false else u.slt.refresh2x
      hot := setBit16 u.slt.hot t (decide (95 * 8 < x)) }
    mgt := { u.mgt with temp := u.mgt.temp.put t x } }

theorem tierSample_reading {u : State} (hc : Calm u) {t raw x : Nat} (ht : t < 16) (hx : x = reading u t raw (neighbours t)) :
    tierSample u t raw = if 105 * 8 < x then raise (sampled u t x) 0x0F04 .ud 0 t else sampled u t x := by
  subst hx
  unfold tierSample
  simp only [if_neg (Nat.not_le.mpr ht), calm_inj hc, Bool.false_eq_true, if_false]
  rfl

/-! ### Spares (R257, R258) -/

/-- What a search upwards finds lies in its range and meets the test. -/
theorem firstFrom_some {p : Nat → Bool} {lo n m : Nat} (h : firstFrom p lo n = some m) : lo ≤ m ∧ m < lo + n ∧ p m = true := by
  induction n generalizing lo with
  | zero => cases h
  | succ n ih =>
    unfold firstFrom at h
    split at h
    next hp =>
      cases h
      exact ⟨Nat.le_refl _, by omega, hp⟩
    · obtain ⟨hlo, hhi, hp⟩ := ih h
      exact ⟨by omega, by omega, hp⟩

/-- A spare that the search finds is one of the `n`, and not in use. -/
theorem spare_unused {p : Nat → Bool} {n m : Nat} (h : firstFrom (fun m => !p m) 1 n = some m) :
    1 ≤ m ∧ m ≤ n ∧ p m = false := by
  obtain ⟨hlo, hhi, hp⟩ := firstFrom_some h
  exact ⟨hlo, by omega, by simpa using hp⟩

theorem nextRow_found {x : Vault} {bk m : Nat}
    (h : firstFrom (fun n => !(x.rowMap.any fun e => bankKey e.1 == bk && e.2 == n)) 1 32 = some m) : nextRow x bk = m := by
  unfold nextRow
  rw [h]
  rfl

theorem nextLane_found {x : Vault} {g m : Nat}
    (h : firstFrom (fun n => !(x.laneMap.any fun e => e.1 / 128 == g && e.2 == n)) 1 2 = some m) : nextLane x g = m := by
  unfold nextLane
  rw [h]
  rfl

/-! ### Repairs (R257, R258, R365, R369) -/

theorem keeps_mgt (s : State) (x : Mgt) : Keeps s { s with mgt := x } := .refl s

theorem keeps_queueLane (s : State) (v ln : Nat) : Keeps s (queueLane s v ln) := .refl s

/-- The oldest row that waits in vault `v` has spare `n`, and its bank one spare less. -/
def rowSpared (u : State) (v k : Nat) (rest : List Nat) (n : Nat) : State :=
  updV (updV u v fun x => { x with rowQ := rest }) v fun x => { x with
    rowsUsed := x.rowsUsed.put (bankKey k) ((vault u v).rowsUsed.look (bankKey k) + 1), rowMap := x.rowMap.put k n,
    rowCe := x.rowCe.put k 0 }

/-- The oldest lane that waits in vault `v` has spare `n`, and its group one spare less. -/
def laneSpared (u : State) (v k : Nat) (rest : List Nat) (n : Nat) : State :=
  updV (updV u v fun x => { x with laneQ := rest }) v fun x => { x with
    lanesUsed := x.lanesUsed.put (k / 128) ((vault u v).lanesUsed.look (k / 128) + 1), laneMap := x.laneMap.put k n,
    laneErr := x.laneErr.put k { count := 0, rows := [] } }

theorem keeps_rowSpared (u : State) (v k : Nat) (rest : List Nat) (n : Nat) : Keeps u (rowSpared u v k rest n) := .refl u

theorem keeps_laneSpared (u : State) (v k : Nat) (rest : List Nat) (n : Nat) : Keeps u (laneSpared u v k rest n) := .refl u

section
variable {u : State} {v k : Nat} {rest : List Nat} (hs : u.slt.stopped = false)
include hs

/-- A row goes to a spare of its bank and is logged; a bank without one is told to MGT. -/
theorem rowRepair_oldest (hq : (vault u v).rowQ = k :: rest) :
    rowRepair u v =
      if (vault u v).rowsUsed.look (bankKey k) < 32 then
        logRepair (count (rowSpared u v k rest (nextRow (vault u v) (bankKey k))) .sltRowSpare) 3 (v * 2 ^ 32 + k)
          (nextRow (vault u v) (bankKey k))
      else { updV u v (fun x => { x with rowQ := rest }) with mgt.bankOut := true } := by
  unfold rowRepair
  simp only [hq, hs, Bool.false_eq_true, if_false]
  rfl

/-- A lane goes to a spare of its group and is logged; a group without one is told to MGT. -/
theorem laneRepair_oldest (hq : (vault u v).laneQ = k :: rest) :
    laneRepair u v =
      if (vault u v).lanesUsed.look (k / 128) < 2 then
        logRepair (count (laneSpared u v k rest (nextLane (vault u v) (k / 128))) .sltLaneSpare) 4 (v * 2 ^ 32 + k)
          (nextLane (vault u v) (k / 128))
      else { updV u v (fun x => { x with laneQ := rest }) with mgt.laneOut := true } := by
  unfold laneRepair
  simp only [hq, hs, Bool.false_eq_true, if_false]
  rfl

end

/-- Before Ready, calibration has the lanes that it finds wait for repair. -/
theorem vaultCalibration_early {u : State} {v : Nat} (hready : isReady u = false) (hrole : (vault u v).role ≠ .retired)
    (hv : v < 128) (lanes : List (Nat × Nat)) :
    vaultCalibration u v lanes = lanes.foldl (fun s e => queueLane s v (e.1 * 128 + e.2)) u := by
  refine if_neg fun h => ?_
  rw [hready] at h
  rcases h with h | h | h
  · cases h
  · exact hrole h
  · omega

theorem vaultCalibration_ready {u : State} (hready : isReady u = true) (v : Nat) (lanes : List (Nat × Nat)) :
    vaultCalibration u v lanes = u := if_pos (.inl hready)

theorem queueLane_new {u : State} {v ln : Nat} (h : ln ∉ (vault u v).laneQ) :
    queueLane u v ln = updV u v fun x => { x with laneQ := x.laneQ ++ [ln] } :=
  updV_congr u v _ _ (if_neg (mt List.contains_iff_mem.mp h))

/-! ### The statement -/

/-- Settles O46: scrub by what its block shows, a sample by its temperature, a repair by the spares that are left. -/
theorem vaultsKeptAndRepaired : Obligations.VaultsKeptAndRepaired := by
  refine ⟨⟨fun u v vb e raced s hon hs hfilled hrole hv hvb => ?scrub, fun u t ht hfilled => ?refresh,
      fun u w t raw x ht hx hw => ?sample⟩,
    fun u v k used n rest s hs => ⟨fun hq hused => ?row, fun hq hused => ?lane, fun lanes hready hrole hv => ?early,
      fun lanes hready => ?ready, fun m x h => ⟨nextRow_found h, spare_unused h⟩,
      fun m x h => ⟨nextLane_found h, spare_unused h⟩, queueLane_new⟩⟩
  case scrub =>
    have hrun : ScrubRuns u v := ⟨hon, hs, hfilled, hrole, hv⟩
    refine ⟨fun hr hno => ?clean, fun hr herr hraced => ?fixed, fun hr hb => ?lost⟩
    case clean =>
      refine ends_act _ _ _ u _ (fun _ => rfl) fun hc => ?_
      refine (scrubRead_readable hc hrun hvb hr raced).trans (congrArg (scrubbed · v vb) (if_neg ?_))
      rcases hno with ⟨hces, hf⟩ | hraced
      · simp [hces, hf]
      · simp [hraced]
    case fixed =>
      refine ends_act _ _ _ u _ (fun _ => rfl) fun hc => ?_
      refine (scrubRead_readable hc hrun hvb hr raced).trans (congrArg (scrubbed · v vb) (if_pos ?_))
      simpa [hraced, Nat.pos_iff_ne_zero] using herr
    case lost => exact ends_act _ _ _ u _ (fun _ => rfl) fun hc => scrubRead_lost hc hrun hvb hr hb raced
  case refresh => exact becomes_keeps _ _ _ u _ (fun _ => rfl) (fun _ => if_pos ⟨ht, hfilled⟩) (.refl u)
  case sample =>
    subst hw
    refine ⟨fun hx105 => ?_, fun hx105 => ?_⟩
    · exact becomes_keeps _ _ _ u (sampled u t x) (fun _ => rfl)
        (fun hc => (tierSample_reading hc ht hx).trans (if_neg (Nat.not_lt.mpr hx105))) (.refl u)
    · exact ends_act _ _ _ u (raise (sampled u t x) 0x0F04 .ud 0 t) (fun _ => rfl)
        fun hc => (tierSample_reading hc ht hx).trans (if_pos hx105)
  case row =>
    subst hused
    have hrepair := rowRepair_oldest hs hq
    refine ⟨fun hleft hn hst => ?_, fun hnone hst => ?_⟩
    · have hspared : s = rowSpared u v k rest n := hst
      rw [← hn] at hrepair
      subst hspared
      exact becomes_keeps _ _ _ u _ (fun _ => rfl) (fun _ => hrepair.trans (if_pos hleft))
        ((keeps_rowSpared u v k rest n).trans (keeps_logRepair _ _ _ _))
    · subst hst
      exact becomes_keeps _ _ _ u _ (fun _ => rfl) (fun _ => hrepair.trans (if_neg (Nat.not_lt.mpr hnone)))
        ((keeps_updV u v _).trans (keeps_mgt _ _))
  case lane =>
    subst hused
    have hrepair := laneRepair_oldest hs hq
    refine ⟨fun hleft hn hst => ?_, fun hnone hst => ?_⟩
    · have hspared : s = laneSpared u v k rest n := hst
      rw [← hn] at hrepair
      subst hspared
      exact becomes_keeps _ _ _ u _ (fun _ => rfl) (fun _ => hrepair.trans (if_pos hleft))
        ((keeps_laneSpared u v k rest n).trans (keeps_logRepair _ _ _ _))
    · subst hst
      exact becomes_keeps _ _ _ u _ (fun _ => rfl) (fun _ => hrepair.trans (if_neg (Nat.not_lt.mpr hnone)))
        ((keeps_updV u v _).trans (keeps_mgt _ _))
  case early =>
    exact becomes_keeps _ _ _ u _ (fun _ => rfl) (fun _ => vaultCalibration_early hready hrole hv lanes)
      (Keeps.foldl lanes _ u fun t e => keeps_queueLane t v _)
  case ready => exact becomes_keeps _ _ _ u u (fun _ => rfl) (fun _ => vaultCalibration_ready hready v lanes) (.refl u)

end Sys2Proof.Machine
end

section
/-!
PROOFS. A vault spare-in: the end of its test, the copy of a block and of a chunk, and the switch; with them the statement on
spare-ins is settled.
-/

namespace Sys2Proof.Machine

open Sys2Proof

/-! ### The steps of a spare-in (R259, R260) -/

theorem keeps_slt (s : State) (x : Slt) : Keeps s { s with slt := x } := .refl s

/-- The map names vault `t` for logical vault `l`; `t` is active and vault `old` retired. -/
def spareSwitched (u : State) (l t old : Nat) : State :=
  { updV (updV u t fun x => { x with role := .active }) old (fun x => { x with role := .retired }) with
    slt.vs := .idle, slt.vmap := u.slt.vmap.put l t }

theorem keeps_spareSwitched (u : State) (l t old : Nat) : Keeps u (spareSwitched u l t old) :=
  ((keeps_updV u t _).trans (keeps_updV _ old _)).trans (keeps_slt _ _)

section
variable {u : State} (hs : u.slt.stopped = false)
include hs

theorem vspareTestDone_passed (hvs : u.slt.vs = .test) :
    vspareTestDone u true =
      { updV u u.slt.vsTarget (fun x => { x with bad := [] }) with slt.vs := .copy, slt.cursor := 0 } := by
  unfold vspareTestDone
  simp only [hvs, hs, ne_eq, not_true_eq_false, Bool.false_eq_true, or_self, if_false, if_true]

theorem vspareTestDone_failed (hvs : u.slt.vs = .test) :
    vspareTestDone u false =
      logRecord { updV u u.slt.vsTarget (fun x => { x with role := .retired }) with slt.vs := .failed } 6 u.slt.vsTarget 0 := by
  unfold vspareTestDone
  simp only [hvs, hs, ne_eq, not_true_eq_false, Bool.false_eq_true, or_self, if_false]

/-- A chunk leaves the old vault's bad-block table, and the last chunk ends the copy. -/
theorem vspareChunk_moved (hvs : u.slt.vs = .copy) {errs : List ReadErrs} {w s : State} {old t c : Nat}
    (ht : t = u.slt.vsTarget) (hold : old = u.slt.vmap.look u.slt.vsLogical) (hcur : c = u.slt.cursor)
    (hw : w = (List.range 8).foldl (fun s i => copyBlock s old t (c + i) (errs.getD i default)) u)
    (hst : s = updV w old fun x => { x with bad := x.bad.filter fun b => !(decide (c ≤ b) && decide (b < c + 8)) }) :
    vspareChunk u errs =
      { s with slt := { s.slt with cursor := c + 8, vs := if 1835008 ≤ c + 8 then .switch else .copy } } := by
  subst ht hold hcur
  unfold vspareChunk vaultBlocks
  rw [if_neg (by simp [hvs, hs])]
  dsimp only
  rw [← hw, ← hst]

theorem vspareSwitch_switched (hvs : u.slt.vs = .switch) {l t old : Nat} (hl : l = u.slt.vsLogical)
    (ht : t = u.slt.vsTarget) (hold : old = u.slt.vmap.look l) :
    vspareSwitch u = logRecord (logRecord (count (spareSwitched u l t old) .sltVaultSpare) 5 l t) 6 old 0 := by
  subst hl ht hold
  exact if_neg (by simp [hvs, hs])

end

/-! ### The copy of a block (R252, R259) -/

/-- A block that reads is whole at the target. -/
theorem copyBlock_readable {s w : State} {old b : Nat} {e : ReadErrs} (hr : readBlock s old b e = (w, true)) (t : Nat) :
    copyBlock s old t b e = updV w t fun x => { x with bad := x.bad.filter (· != b) } := by
  unfold copyBlock
  rw [hr]
  rfl

/-- A lost block is lost at the target, whose table may be full. -/
theorem copyBlock_lost {s w : State} {old b : Nat} {e : ReadErrs} (hr : readBlock s old b e = (w, false)) (t : Nat) :
    copyBlock s old t b e =
      if b ∈ (vault w t).bad then w
      else if 64 ≤ (vault w t).bad.length then raise w 0x0F02 .ud 0 w.slt.vsLogical
      else updV w t fun x => { x with bad := x.bad ++ [b] } := by
  unfold copyBlock
  rw [hr]
  simp only [Bool.false_eq_true, if_false, List.contains_iff_mem]

/-! ### The statement -/

/-- Settles O47: the steps by the state of the spare-in, the copy of a block by whether it reads. -/
theorem spareIn : Obligations.SpareIn := by
  intro u s l t old c hs hl ht hold hcur
  refine ⟨fun hvs => ?passed, fun hvs hst => ?failed, fun errs w hvs hw hst => ?chunk,
    fun b e w => ⟨fun hr => copyBlock_readable hr t, fun hr => ?lost⟩, fun hvs hst => ?switch⟩
  case passed =>
    subst ht
    exact becomes_keeps _ _ _ u _ (fun _ => rfl) (fun _ => vspareTestDone_passed hs hvs) (.refl u)
  case failed =>
    subst hst ht
    exact becomes_keeps _ _ _ u _ (fun _ => rfl) (fun _ => vspareTestDone_failed hs hvs) (.refl u)
  case chunk =>
    subst hl
    exact ends_act _ _ _ u _ (fun _ => rfl) fun _ => vspareChunk_moved hs hvs ht hold hcur hw hst
  case lost =>
    have hlost := copyBlock_lost hr t
    exact ⟨fun hb => hlost.trans (if_pos hb),
      fun hb hroom => (hlost.trans (if_neg hb)).trans (if_neg (Nat.not_le.mpr hroom)),
      fun hb hfull => (hlost.trans (if_neg hb)).trans (if_pos hfull)⟩
  case switch =>
    subst hst
    exact becomes_keeps _ _ _ u
      (logRecord (logRecord (count (spareSwitched u l t old) .sltVaultSpare) 5 l t) 6 old 0) (fun _ => rfl)
      (fun _ => vspareSwitch_switched hs hvs hl ht hold)
      (((keeps_spareSwitched u l t old).trans (keeps_count _ _)).trans
        ((keeps_logRecord _ 5 l t).trans (keeps_logRecord _ 6 old 0)))

end Sys2Proof.Machine
end

section
/-!
PROOFS. The block as a whole: one step, the invariant that no fault waits, and the state after reset; with them the
statements on steps, on that invariant and on reset are settled.
-/

namespace Sys2Proof.Machine

open Sys2Proof

/-! ### One step (R303, R329, R374) -/

/-- Before a PLL has locked nothing moves. -/
theorem tick_unclocked {s : State} (h : clocked s = false) : tick s = s := by
  unfold tick
  rw [h]
  rfl

/-- Before Ready the timestamp alone counts. -/
theorem tick_early {s : State} (h : clocked s = true) (hr : isReady s = false) :
    tick s = { s with ts := s.ts + 1, tly := { s.tly with last := none } } := by
  have hearly : isReady { s with ts := s.ts + 1, tly := { s.tly with last := none } } = false := hr
  unfold tick
  rw [h]
  dsimp only
  rw [hearly]
  rfl

/-- A command leaves no fault that waits, and the waiting commands and N as they were. -/
theorem exec_keeps {i : Instr} {s t : State} (h : exec i s = .next t) :
    t.flt.raised = [] ∧ t.agents = s.agents ∧ t.pending = s.pending := by
  obtain ⟨l, f, hi⟩ := exec_act i
  rw [hi] at h
  cases h
  exact ⟨act_raised l f s, act_agents l f s, act_pending l f s⟩

/-! ### The statements -/

/-- Settles O1, by what a tick keeps. -/
theorem stepRunsTheFrontCommand : Obligations.StepRunsTheFrontCommand := by
  intro s c rest
  obtain ⟨_, _, hpending, hmem, hqueues, hregs, hts⟩ := tick_keep s
  exact ⟨rfl, rfl, tick_unclocked, hts, tick_early, hpending, hmem, hqueues, hregs⟩

/-- Settles O3: a step is a tick, which changes no fault, or a command. -/
theorem noFaultWaits : Obligations.NoFaultWaits := by
  intro s t hstep hraised
  unfold step at hstep
  split at hstep
  next hp =>
    cases hstep
    obtain ⟨hflt, hagents, hpending, _⟩ := tick_keep s
    exact ⟨by rw [hflt, hraised], hagents, by rw [hpending, hp]; rfl⟩
  next i r hp =>
    obtain ⟨hnone, hagents, hpending⟩ := exec_keeps hstep
    exact ⟨hnone, hagents, by rw [hpending, hp]; rfl⟩

/-- Settles O4, by evaluation of the reset state. -/
theorem resetHolds : Obligations.ResetHolds := by
  have hsettled : Settled State.reset := ⟨rfl, rfl, rfl, rfl, rfl⟩
  exact ⟨rfl, rfl, ⟨rfl, hsettled⟩, hsettled, reset_mem_wf, rfl, rfl, rfl, rfl, rfl⟩

end Sys2Proof.Machine
end

section
/-!
PROOFS. A partner's request: how the first one buffered is taken, the checks that it meets and what its target makes of it, and
the final writes that are held for a sequence; with them the statement on partners' requests is settled.
-/

namespace Sys2Proof.Machine

open Sys2Proof

/-! ### What is taken from an input buffer (R290) -/

/-- The place of an operation in an input buffer is given back: ports and what is sent change, nothing else. -/
theorem freeFlits_form (k vc p n : Nat) (s : State) :
    ∃ l o, freeFlits s k vc p n = { s with fab.ports := l, out := o } := by
  induction n generalizing s with
  | zero => exact ⟨s.fab.ports, s.out, rfl⟩
  | succ n ih =>
    obtain ⟨l, o, h⟩ := ih (emit (updPort s k fun x => { x with rx := x.rx.put (vc * 17 + p) ((port s k).rx.look (vc * 17 + p) - 1) })
      (.credit k vc (if 8 < (port s k).rx.look (vc * 17 + p) then 16 else p) 1))
    exact ⟨l, o, h⟩

/-- A header taken from a port's input buffer changes ports and what is sent, nothing else. -/
theorem takeIn_form {u s : State} {k : Nat} {pick : FabHdr → Bool} {h : FabHdr} (ht : takeIn u k pick = some (h, s)) :
    ∃ l o, s = { u with fab.ports := l, out := o } := by
  unfold takeIn at ht
  obtain ⟨⟨x, rest⟩, _, hx⟩ := Option.map_eq_some_iff.mp ht
  obtain ⟨l, o, hform⟩ := freeFlits_form k (vcOf x.op) x.srcPart (1 + dataFlits x) (updPort u k fun p => { p with inBuf := rest })
  refine ⟨l, o, ?_⟩
  cases hx
  exact hform

theorem keeps_takeIn {u s : State} {k : Nat} {pick : FabHdr → Bool} {h : FabHdr} (ht : takeIn u k pick = some (h, s)) :
    Keeps u s := by
  obtain ⟨l, o, rfl⟩ := takeIn_form ht
  exact .refl u

theorem calm_takeIn {u s : State} {k : Nat} {pick : FabHdr → Bool} {h : FabHdr} (hc : Calm u)
    (ht : takeIn u k pick = some (h, s)) : Calm s := by
  obtain ⟨l, o, rfl⟩ := takeIn_form ht
  exact hc

/-- While FAB runs and no response waits, a port's first request is taken unless its unit is full. -/
theorem requestReceive_taken {u s : State} {k : Nat} {h : FabHdr} (hs : u.fab.stopped = false) (hr : isReady u = true)
    (hw : responseWaits u = false) (ht : takeIn u k (fun h => vcOf h.op == 0) = some (h, s)) :
    requestReceive u k = if unitFull u h then u else serve s h := by
  unfold requestReceive
  rw [if_neg (by simp [hs, hr, hw]), ht]

/-! ### The checks of a request (R267, R269, R272) -/

section
variable {u : State} {h : FabHdr}

theorem serve_unlisted (hop : h.op = 0 ∨ 0xC ≤ h.op) : serve u h = nackTo (count u .fabProto) h 5 := by
  unfold serve
  exact if_pos hop

theorem listed_of_wellFormed (hm : malformed h = false) : ¬ (h.op = 0 ∨ 0xC ≤ h.op) := by
  simp only [malformed, Bool.or_eq_false_iff, beq_eq_false_iff_ne, decide_eq_false_iff_not] at hm
  exact not_or.mpr hm.1.1

theorem serve_malformed (hop : ¬ (h.op = 0 ∨ 0xC ≤ h.op)) (hm : malformed h = true) : serve u h = nackTo u h 5 := by
  unfold serve
  rw [if_neg hop, if_pos hm]

/-- FINAL stands on writes only, and ORD on writes and on word reads. -/
theorem malformed_final (hf : h.final = true) (hw : isWrite h = false) : malformed h = true := by
  unfold malformed
  simp [hf, hw]

theorem malformed_ord (ho : h.ord = true) (h1 : h.op ≠ 1) (hw : isWrite h = false) : malformed h = true := by
  unfold malformed
  simp [ho, h1, hw]

theorem serve_barrier {b o : Nat} (hm : malformed h = false) (h7 : h.op ≠ 7) (ht : targetOf u h.loc = .bar b o) :
    serve u h = nackTo (count u .fabDenied) h 4 := by
  unfold serve
  simp [listed_of_wellFormed hm, hm, h7, ht]

section
variable (hm : malformed h = false) (hb : h.op = 7 ∨ ∀ b o, targetOf u h.loc ≠ .bar b o)
include hm hb

theorem serve_unowned (hq : requestPart u h = none) : serve u h = nackTo u h 5 := by
  unfold serve
  rcases hb with h7 | hb
  · cases ht : targetOf u h.loc <;> simp [hm, h7, hq]
  · cases ht : targetOf u h.loc <;> simp_all [listed_of_wellFormed hm]

theorem serve_denied {q : Nat} (hq : requestPart u h = some q) (ha : admits u q h = false) :
    serve u h = nackTo (count u .fabDenied) h 4 := by
  unfold serve
  rcases hb with h7 | hb
  · cases ht : targetOf u h.loc <;> simp [hm, h7, hq, ha]
  · cases ht : targetOf u h.loc <;> simp_all [listed_of_wellFormed hm]

end

section
variable {q : Nat} (hm : malformed h = false) (hq : requestPart u h = some q) (ha : admits u q h = true)
include hm hq ha

/-- An admitted decrement goes to TLY. -/
theorem serve_decrement (h7 : h.op = 7) : serve u h = remoteDec u h := by
  unfold serve
  cases ht : targetOf u h.loc <;> simp [hm, h7, hq, ha]

/-- An admitted request on a data region is performed there, unless it is not aligned. -/
theorem serve_data {p o : Nat} (h7 : h.op ≠ 7) (ht : targetOf u h.loc = .data p o) :
    serve u h = if misaligned h o then nackTo u h 5 else serveData u h p o := by
  unfold serve
  simp [listed_of_wellFormed hm, hm, h7, hq, ha, ht]

end

/-! ### Words and blocks of a data region (R251, R266) -/

theorem serveData_read {p o : Nat} (h1 : h.op = 1) :
    serveData u h p o = respond (wordRead u p o).2 h 9 (wordRead u p o).1
      (BitVec.ofNat 64 (tagWord u (dataBase u p + o))) [] := by
  unfold serveData
  rw [h1]
  rfl

theorem serveData_write {p o : Nat} (h2 : h.op = 2) :
    serveData u h p o = respond (if h.ord then
        setTag (wordWrite u p o h.data h.mask.toNat) (dataBase u p + o) h.scope h.srcBlock h.srcAgent h.srcUnit
      else wordWrite u p o h.data h.mask.toNat) h 8 0 0 [] := by
  unfold serveData
  rw [h2]
  rfl

/-- A block is stored unless it is whole and its CRC does not match. -/
theorem serveData_block {p o : Nat} (h5 : h.op = 5) (ho : h.ord = false) :
    serveData u h p o = respond (blockStore u p o h).1 h 8 0 0 [] := by
  unfold serveData
  rw [h5]
  simp [ho]

theorem blockStore_rejected {p o : Nat} (hmask : h.mask.toNat = 2 ^ 32 - 1)
    (hcrc : crc32c (Bytes.slice h.payload 0 256) ≠ h.dcrc.toNat) : blockStore u p o h = (count u .sltWrCrc, false) :=
  if_pos ⟨hmask, hcrc⟩

theorem blockStore_stored {p o : Nat}
    (hok : h.mask.toNat ≠ 2 ^ 32 - 1 ∨ crc32c (Bytes.slice h.payload 0 256) = h.dcrc.toNat) :
    blockStore u p o h = (blockWrite u p o h.payload h.mask.toNat, true) :=
  if_neg fun ⟨hmask, hcrc⟩ => hok.elim (· hmask) hcrc

end

/-- Bytes within a data region that no bad block touches are stored and counted. -/
theorem writePart_inData {u : State} (hc : Calm u) {p o : Nat} {b : Bytes} (hb : b.length ≠ 0)
    (hin : inData u p o b.length = true) (hbad : (u.slt.vaults.any fun e => !e.2.bad.isEmpty) = false) :
    writePart u p o b = touch (memWrite u (dataBase u p + o) b) p (dataBase u p + o) b.length := by
  unfold writePart writeAt
  simp only [hb, if_false, partRange_in hc hin, hbad, Bool.false_eq_true, if_true]

theorem wordWrite_whole {u : State} (hc : Calm u) {p o mask : Nat} (v : W64) (hmask : mask % 256 = 255)
    (hin : inData u p o 8 = true) (hbad : (u.slt.vaults.any fun e => !e.2.bad.isEmpty) = false) :
    wordWrite u p o v mask =
      touch (memWrite u (dataBase u p + o) (leBytes 8 v.toNat)) p (dataBase u p + o) 8 := by
  have h8 : (leBytes 8 v.toNat).length = 8 := leBytes_length 8 _
  have hn : (leBytes 8 v.toNat).length ≠ 0 := by rw [h8]; decide
  unfold wordWrite
  rw [if_pos hmask, writePart_inData hc hn (by rwa [h8]) hbad, h8]

/-- An admitted write of a whole word, no release, stores it and is acknowledged. -/
theorem serve_wholeWord {s : State} (hc : Calm s) {h : FabHdr} {q a : Nat} (h2 : h.op = 2) (hf : h.final = false)
    (ho : h.ord = false) (ht : targetOf s h.loc = .data q a) (ha : a % 8 = 0) (had : admits s q h = true)
    (hmask : h.mask.toNat % 256 = 255) (hin : inData s q a 8 = true)
    (hbad : (s.slt.vaults.any fun e => !e.2.bad.isEmpty) = false) :
    serve s h = respond (touch (memWrite s (dataBase s q + a) (leBytes 8 h.data.toNat)) q (dataBase s q + a) 8) h 8 0 0 [] := by
  have hm : malformed h = false := by simp [malformed, h2, hf, ho]
  have hq : requestPart s h = some q := by simp [requestPart, h2, ht, targetPart]
  have hal : misaligned h a = false := by simp [misaligned, h2, ha]
  rw [serve_data hm hq had (by omega) ht, hal, serveData_write h2, ho, wordWrite_whole hc h.data hmask hin hbad]
  simp only [Bool.false_eq_true, if_false]

/-! ### Final writes that are held for a sequence (R274, R275) -/

section
variable {u : State}

theorem seqDrain_waits {x : HeldWrite} (r : List HeldWrite) (hf : isFinal x.hdr = true)
    (hl : mayLand u x.order x.hdr x.who = false) : seqDrain (x :: r) u = (x :: r, u) := by
  unfold seqDrain
  simp [hf, hl]

theorem seqDrain_leaves {x : HeldWrite} (r : List HeldWrite)
    (h : isFinal x.hdr = false ∨ mayLand u x.order x.hdr x.who = true) :
    seqDrain (x :: r) u = seqDrain r (seqLeave u x.hdr x.who) := by
  conv_lhs => unfold seqDrain
  rcases h with h | h <;> simp [h]

/-- The sequence of a fabric source that holds writes lets go those that may leave. -/
theorem finalRelease_drains {a b c d : Nat} {e : SeqEnt} {s v : State} {l : List HeldWrite} (hs : u.fab.stopped = false)
    (he : u.fab.seqs.find?
      (fun e => e.srcAgent == a && e.srcUnit == b && e.srcPart == c && e.queue == none && e.dst == d) = some e)
    (hst : s = { u with fab := { u.fab with
      seqs := updFirst (fun e => e.srcAgent == a && e.srcUnit == b && e.srcPart == c && e.queue == none && e.dst == d)
        (fun e => { e with held := [] }) u.fab.seqs } })
    (hd : seqDrain e.held s = (l, v)) :
    finalRelease u a b c d = { v with fab := { v.fab with
      seqs := updFirst (fun e => e.srcAgent == a && e.srcUnit == b && e.srcPart == c && e.queue == none && e.dst == d)
        (fun e => { e with held := l }) v.fab.seqs } } := by
  subst hst
  unfold finalRelease
  dsimp only
  rw [he]
  refine (if_neg (Bool.eq_false_iff.mp hs)).trans ?_
  exact congrArg (fun r : List HeldWrite × State => { r.2 with fab := { r.2.fab with
    seqs := updFirst (fun e => e.srcAgent == a && e.srcUnit == b && e.srcPart == c && e.queue == none && e.dst == d)
      (fun e => { e with held := r.1 }) r.2.fab.seqs } }) hd

/-- A write of a sequence that is acknowledged or refused counts no longer. -/
theorem seqDone_seqs {h : FabHdr} (who : Requester) (hw : isWrite h = true) :
    (seqDone u h who).fab.seqs = (updFirst (ofSeq h who) (fun e =>
      if isFinal h then { e with finals := e.finals - 1 } else { e with unacked := e.unacked - 1 }) u.fab.seqs).filter fun e =>
        !(e.unacked == 0 && e.finals == 0 && e.held.isEmpty) := by
  unfold seqDone
  rw [hw]
  rfl

end

/-! ### The statement -/

/-- Settles O48: the taking of a request, its checks in their order, then the writes that a sequence holds. -/
theorem partnerRequests : Obligations.PartnerRequests := by
  refine ⟨⟨fun u s k h hs hr hw ht => ?taken, fun u h => serve_unlisted, fun u h h0 hC => ?checks⟩, fun u => ?held⟩
  case taken =>
    have hrec := requestReceive_taken hs hr hw ht
    refine ⟨fun hu => ends_act _ _ _ u _ (fun _ => rfl) fun _ => hrec.trans (if_neg (Bool.eq_false_iff.mp hu)),
      fun hu => becomes_keeps _ _ _ u u (fun _ => rfl) (fun _ => hrec.trans (if_pos hu)) (.refl u),
      fun q a hu h2 hf ho hta ha had hmask hin hbad => ends_act _ _ _ u _ (fun _ => rfl) fun hc => ?_⟩
    rw [hrec, if_neg (Bool.eq_false_iff.mp hu)]
    exact serve_wholeWord (calm_takeIn hc ht) h2 hf ho hta ha had hmask hin hbad
  case checks =>
    have hop : ¬ (h.op = 0 ∨ 0xC ≤ h.op) := not_or.mpr ⟨h0, Nat.not_le.mpr hC⟩
    refine ⟨fun hf hw => serve_malformed hop (malformed_final hf hw),
      fun ho h1 hw => serve_malformed hop (malformed_ord ho h1 hw), fun b o hm h7 ht => serve_barrier hm h7 ht,
      fun hm hb => ⟨serve_unowned hm hb, fun q => serve_denied hm hb, fun q hq ha => ?admitted⟩⟩
    refine ⟨serve_decrement hm hq ha, fun p o h7 ht hal => ?misaligned, fun p o h1 ht hal => ?read,
      fun p o s h2 ht hal hst => ?write, fun p o s h5 ht hal ho hst => ?block⟩
    case misaligned => rw [serve_data hm hq ha h7 ht, if_pos hal]
    case read =>
      rw [serve_data hm hq ha (by omega) ht, if_neg (by simp [misaligned, h1, hal]), serveData_read h1]
    case write =>
      subst hst
      rw [serve_data hm hq ha (by omega) ht, if_neg (by simp [misaligned, h2, hal]), serveData_write h2]
      exact ⟨fun ho => by rw [ho]; rfl, fun ho => by rw [ho]; rfl⟩
    case block =>
      subst hst
      rw [serve_data hm hq ha (by omega) ht, if_neg (by simp [misaligned, h5, hal]), serveData_block h5 ho]
      exact ⟨fun hmask hcrc => by rw [blockStore_rejected hmask hcrc], fun hok => by rw [blockStore_stored hok]⟩
  case held =>
    exact ⟨fun a b c d e s l v hs he hst hd => ends_act _ _ _ u _ (fun _ => rfl) fun _ => finalRelease_drains hs he hst hd,
      fun a core hs => ends_act _ _ _ u _ (fun _ => rfl) fun _ => if_neg (Bool.eq_false_iff.mp hs),
      fun x r => seqDrain_waits r, fun x r => seqDrain_leaves r, rfl, fun h who => seqDone_seqs who⟩

end Sys2Proof.Machine
end

section
/-!
PROOFS. The answers to the block's own requests: responses, NACKs, and the retries that follow; with them the statement on
the fabric's answers is settled.
-/

namespace Sys2Proof.Machine

open Sys2Proof

/-! ### Refusals (R269, R270, R424) -/

/-- A request whose answer was a refusal that ends it has its entry no more. -/
def entryDropped (u : State) (t : Nat) : State := { u with fab.outst := u.fab.outst.put t none }

/-- The entry of a request that was refused with a fault. -/
def entryFailed (u : State) (t : Nat) (e : OutEnt) : State :=
  { u with fab.outst := u.fab.outst.put t (some { e with failed := true, due := none }) }

section
variable {u : State} {t : Nat} {e : OutEnt} (he : outEnt u t = some e) (ha : e.aborted = false) (k : Nat)
include he ha

/-- BUSY is retried. -/
theorem sourceNack_busy : sourceNack u t 2 k false = retryLater u t e := by
  unfold sourceNack
  simp [he, ha]

/-- NOT_READY is retried, and the partner is known to boot. -/
theorem sourceNack_notReady :
    sourceNack u t 1 k false = retryLater { u with fab.partner := u.fab.partner.put e.hdr.dstBlock .notReady } t e := by
  unfold sourceNack
  simp [he, ha]

section
variable {code : Nat} (hcode : ¬ (code = 1 ∨ code = 2))
include hcode

/-- A refused decrement is dropped: a stale one is counted, any other is a fault. -/
theorem sourceNack_tly (hw : e.who = .tly) :
    sourceNack u t code k false =
      if code = 3 then count (entryDropped u t) .tlyRemoteNack
      else if code = 6 then raise (entryDropped u t) 0x1002 .up e.hdr.srcPart k
      else raise (entryDropped u t) 0x1001 .up e.hdr.srcPart e.hdr.dstBlock := by
  unfold sourceNack
  rw [he]
  refine (if_neg (Bool.eq_false_iff.mp ha)).trans ((if_neg hcode).trans ?_)
  rw [hw]
  rfl

/-- A refused FLAG_SET ends. -/
theorem sourceNack_flagSet {q n : Nat} (hw : e.who = .flagSet q n) :
    sourceNack u t code k false =
      if code = 6 then endFlag (seqDone (entryDropped u t) e.hdr e.who) q n 0x30 0
      else endFlag (seqDone (entryDropped u t) e.hdr e.who) q n 0x14 (e.hdr.loc % 2 ^ 32) := by
  unfold sourceNack
  rw [he]
  refine (if_neg (Bool.eq_false_iff.mp ha)).trans ((if_neg hcode).trans ?_)
  rw [hw]
  rfl

/-- A refused FLAG_WAIT ends. -/
theorem sourceNack_flagWait {q n : Nat} (hw : e.who = .flagWait q n) :
    sourceNack u t code k false =
      if code = 6 then endFlag (entryDropped u t) q n 0x30 0
      else endFlag (entryDropped u t) q n 0x14 (e.hdr.loc % 2 ^ 32) := by
  unfold sourceNack
  rw [he]
  refine (if_neg (Bool.eq_false_iff.mp ha)).trans ((if_neg hcode).trans ?_)
  rw [hw]
  rfl

/-- Any other refused request is a fault, and its entry stays as failed. -/
theorem sourceNack_fault (ht : e.who ≠ .tly) (hf : ∀ q n, e.who ≠ .flagSet q n ∧ e.who ≠ .flagWait q n) :
    sourceNack u t code k false =
      if code = 6 then raise (entryFailed u t e) 0x1002 .up e.hdr.srcPart k
      else raise (entryFailed u t e) 0x1001 .up e.hdr.srcPart e.hdr.dstBlock := by
  unfold sourceNack
  rw [he]
  refine (if_neg (Bool.eq_false_iff.mp ha)).trans ((if_neg hcode).trans ?_)
  obtain ⟨hdr, who, n, due, aborted, failed, counted⟩ := e
  cases who with
  | tly => exact absurd rfl ht
  | flagSet q n => exact absurd rfl (hf q n).left
  | flagWait q n => exact absurd rfl (hf q n).right
  | core a c tag => rfl
  | rkn a id => rfl
  | tile n => rfl
  | bau a c tag n => rfl

end
end

/-! ### Responses and NACKs (R268, R269, R296) -/

theorem keeps_retryLater (s : State) (t : Nat) (e : OutEnt) : Keeps s (retryLater s t e) := .refl s

/-- Requests that could not leave find nothing changed where none waits. -/
theorem fabRefilled_idle {s : State} (h : FabIdle s) : fabPump (fabRefill s) = s := by
  rw [fabRefill_none s h.2.2.1, fabPump_idle s h]

section
variable {u s : State} {k : Nat} {r : FabHdr} (hs : u.fab.stopped = false)
  (ht : takeIn u k (fun h => decide (8 ≤ h.op ∧ h.op ≤ 0xA)) = some (r, s))
include hs ht

theorem responseReceive_full (hf : retryFull u r = true) : responseReceive u k = u := by
  unfold responseReceive
  simp only [hs, Bool.false_eq_true, if_false, ht, hf, if_true]

theorem responseReceive_orphan (hf : retryFull u r = false) (he : outEnt s r.txn = none) :
    responseReceive u k = count s .fabOrphanRsp := by
  unfold responseReceive
  rw [if_neg (Bool.eq_false_iff.mp hs), ht]
  simp only [hf, Bool.false_eq_true, if_false, he]

/-- A response frees its entry, shows that its partner answers, and counts for its sequence; then it reaches its requester. -/
theorem responseReceive_entry {e : OutEnt} {v w x : State} (hf : retryFull u r = false) (he : outEnt s r.txn = some e)
    (hv : v = entryDropped s r.txn)
    (hw : w = (if v.fab.partner.look e.hdr.dstBlock == .notReady then
      { v with fab := { v.fab with partner := v.fab.partner.put e.hdr.dstBlock .reachable } } else v))
    (hx : x = (if e.counted = true then seqAck w e.hdr e.who else w)) :
    responseReceive u k = fabPump (fabRefill (if e.aborted || e.failed then count x .fabOrphanRsp else deliver x e r)) := by
  subst hx hw hv
  unfold responseReceive
  rw [if_neg (Bool.eq_false_iff.mp hs), ht]
  dsimp only
  rw [if_neg (Bool.eq_false_iff.mp hf), he]
  rfl

end

section
variable {u s : State} {k : Nat} {r : FabHdr} (hs : u.fab.stopped = false)
  (ht : takeIn u k (fun h => h.op == 0xB) = some (r, s))
include hs ht

theorem nackReceive_full (hf : retryFull u r = true) : nackReceive u k = u := by
  unfold nackReceive
  simp only [hs, Bool.false_eq_true, if_false, ht, hf, if_true]

theorem nackReceive_orphan (hf : retryFull u r = false) (he : outEnt s r.txn = none) :
    nackReceive u k = count s .fabOrphanRsp := by
  unfold nackReceive
  rw [if_neg (Bool.eq_false_iff.mp hs), ht]
  simp only [hf, Bool.false_eq_true, if_false, he]

theorem nackReceive_entry {e : OutEnt} (hf : retryFull u r = false) (he : outEnt s r.txn = some e) :
    nackReceive u k = if e.failed then s
      else fabPump (fabRefill (seqRetry (sourceNack s r.txn (r.data.toNat % 256) k false))) := by
  unfold nackReceive
  rw [if_neg (Bool.eq_false_iff.mp hs), ht]
  simp only [hf, Bool.false_eq_true, if_false, he]

end

/-- What a response leaves is what FAB had, but for its entry and what it shows of the partner. -/
theorem keeps_partnerSeen (s : State) (t d : Nat) :
    Keeps s (if (entryDropped s t).fab.partner.look d == .notReady then
      { entryDropped s t with fab := { (entryDropped s t).fab with partner := (entryDropped s t).fab.partner.put d .reachable } }
      else entryDropped s t) :=
  .ite (.refl s) (.refl s)

theorem deliver_rkn {s : State} {e : OutEnt} {r : FabHdr} {a id : Nat} (hw : e.who = .rkn a id) (ho : e.hdr.ord = false) :
    deliver s e r = updReq s a id fun q => { q with got := some r.data } := by
  unfold deliver
  simp only [hw, ho, Bool.false_eq_true, and_false, if_false]

theorem deliver_tly {s : State} {e : OutEnt} {r : FabHdr} (hw : e.who = .tly) : deliver s e r = s := by
  unfold deliver
  simp only [hw]

theorem keeps_updReq (s : State) (a id : Nat) (f : RknReq → RknReq) : Keeps s (updReq s a id f) := .refl s

/-! ### Retries (R270) -/

section
variable {u : State} {t : Nat} {e : OutEnt} {d : W64} (he : outEnt u t = some e) (hd : e.due = some d)
include he hd

theorem retryNow_early (h : u.ts < d) : retryNow u t = u := by
  unfold retryNow
  simp only [he, hd]
  exact if_pos (.inl h)

/-- A request whose spacing has expired is sent again, and its requester TLY counts that too. -/
theorem retryNow_due (h : d ≤ u.ts) (hs : u.fab.stopped = false) (ha : e.aborted = false) {s : State}
    (hst : s = { u with fab := { u.fab with outst := u.fab.outst.put t (some { e with due := none }) } }) :
    retryNow u t = fabRoute (count (if e.who == .tly then count s .tlyRemoteRetry else s) .fabRetry) e.hdr := by
  have hgo : ¬ (u.ts < d ∨ u.fab.stopped = true ∨ e.aborted = true) := by
    simp [BitVec.not_lt.mpr h, hs, ha]
  subst hst
  unfold retryNow
  simp only [he, hd]
  exact if_neg hgo

end

/-! ### The statement -/

/-- Settles O49: responses and NACKs by their entry, refusals by their requester and code, then the retries. -/
theorem fabricAnswers : Obligations.FabricAnswers := by
  intro u k t e
  refine ⟨fun s r v w x hs ht => ⟨fun hf => ?full, fun hf he => ?orphan, fun hf he hv hw hx => ?response⟩,
    fun s r hs ht => ⟨fun hf => ?nackFull, fun hf => ?nack⟩, fun s d he hd hle hs ha hst => ?retry, fun d he hd hlt => ?early,
    fun he ha => ⟨fun s hst => ?notReady, sourceNack_busy he ha k, fun s hst => ?ended, fun s htly hflag hst => ?failed⟩,
    rfl, fun n base hbase => by subst hbase; rfl⟩
  case full => exact becomes_keeps _ _ _ u u (fun _ => rfl) (fun _ => responseReceive_full hs ht hf) (.refl u)
  case orphan =>
    exact becomes_keeps _ _ _ u _ (fun _ => rfl) (fun _ => responseReceive_orphan hs ht hf he)
      ((keeps_takeIn ht).trans (keeps_count s _))
  case response =>
    have hrec := responseReceive_entry hs ht hf he hv hw hx
    have hkeeps : Keeps u w := by
      subst hw hv
      exact (keeps_takeIn ht).trans (keeps_partnerSeen s r.txn e.hdr.dstBlock)
    refine ⟨fun h => ends_act _ _ _ u _ (fun _ => rfl) fun _ => ?_, fun ha hfail => ends_act _ _ _ u _ (fun _ => rfl) fun _ => ?_,
      fun htly hcnt ha hfail hidle => becomes_keeps _ _ _ u _ (fun _ => rfl) (fun _ => ?_) hkeeps,
      fun a id hrkn ho hcnt ha hfail hidle => becomes_keeps _ _ _ u _ (fun _ => rfl) (fun _ => ?_)
        (hkeeps.trans (keeps_updReq w a id _))⟩
    · rw [hrec, if_pos (by simpa using h)]
    · rw [hrec, if_neg (by simp [ha, hfail])]
    · rw [hcnt, if_neg Bool.false_ne_true] at hx
      rw [hrec, if_neg (by simp [ha, hfail]), deliver_tly htly, hx, fabRefilled_idle hidle]
    · rw [hcnt, if_neg Bool.false_ne_true] at hx
      rw [hrec, if_neg (by simp [ha, hfail]), deliver_rkn hrkn ho, hx]
      exact fabRefilled_idle (s := updReq w a id _) hidle
  case nackFull => exact becomes_keeps _ _ _ u u (fun _ => rfl) (fun _ => nackReceive_full hs ht hf) (.refl u)
  case nack =>
    refine ⟨fun he => becomes_keeps _ _ _ u _ (fun _ => rfl) (fun _ => nackReceive_orphan hs ht hf he)
        ((keeps_takeIn ht).trans (keeps_count s _)),
      fun he hfail => becomes_keeps _ _ _ u _ (fun _ => rfl) (fun _ => ?_) (keeps_takeIn ht),
      fun he hfail => ends_act _ _ _ u _ (fun _ => rfl) fun _ => ?_,
      fun he hfail ha hcode hidle => becomes_keeps _ _ _ u _ (fun _ => rfl) (fun _ => ?_)
        ((keeps_takeIn ht).trans (keeps_retryLater s _ e))⟩
    · rw [nackReceive_entry hs ht hf he, if_pos hfail]
    · rw [nackReceive_entry hs ht hf he, if_neg (Bool.eq_false_iff.mp hfail)]
    · rw [nackReceive_entry hs ht hf he, if_neg (Bool.eq_false_iff.mp hfail), hcode, sourceNack_busy he ha k]
      exact fabGoesOn_idle (retryLater s r.txn e) hidle
  case retry =>
    have hret := retryNow_due he hd hle hs ha hst
    refine ⟨fun h => ends_act _ _ _ u _ (fun _ => rfl) fun _ => ?_, fun h => ends_act _ _ _ u _ (fun _ => rfl) fun _ => ?_⟩
    · rw [hret, if_neg (by simpa using h)]
    · rw [hret, if_pos (by simpa using h)]
  case early => exact becomes_keeps _ _ _ u u (fun _ => rfl) (fun _ => retryNow_early he hd hlt) (.refl u)
  case notReady =>
    subst hst
    exact sourceNack_notReady he ha k
  case ended =>
    have hs : s = entryDropped u t := hst
    subst hs
    refine ⟨fun hw => sourceNack_tly he ha k (by decide) hw, fun hw => sourceNack_tly he ha k (by decide) hw,
      fun code hw h1 h2 h3 h6 => ?_, fun q n hw => sourceNack_flagWait he ha k (by decide) hw, fun q n code hw h1 h2 h6 => ?_,
      fun q n hw => sourceNack_flagSet he ha k (by decide) hw, fun q n code hw h1 h2 h6 => ?_⟩
    · rw [sourceNack_tly he ha k (not_or.mpr ⟨h1, h2⟩) hw, if_neg h3, if_neg h6]
    · rw [sourceNack_flagWait he ha k (not_or.mpr ⟨h1, h2⟩) hw, if_neg h6]
    · rw [sourceNack_flagSet he ha k (not_or.mpr ⟨h1, h2⟩) hw, if_neg h6]
  case failed =>
    have hs : s = entryFailed u t e := hst
    subst hs
    refine ⟨sourceNack_fault he ha k (by decide) htly hflag, fun code h1 h2 h6 => ?_⟩
    rw [sourceNack_fault he ha k (not_or.mpr ⟨h1, h2⟩) htly hflag, if_neg h6]

end Sys2Proof.Machine
end

section
/-!
PROOFS. Flits that arrive on a link that is UP: what is discarded and answered with a NAK, and what is accepted; with them the
statement on flits is settled.
-/

namespace Sys2Proof.Machine

open Sys2Proof

/-! ### Discards (R288) -/

theorem discardFlit_again {u : State} {k : Nat} (h : (port u k).nakSent = true) : discardFlit u k = u := if_pos h

theorem discardFlit_first {u : State} {k : Nat} (h : (port u k).nakSent = false) :
    discardFlit u k = emit (updPort u k fun p => { p with nakSent := true })
      (.nullFlit k (((port u k).rxNext + 4095) % 4096) true) :=
  if_neg (Bool.eq_false_iff.mp h)

/-! ### Receipt (R286, R287, R288) -/

section
variable {u : State} {k : Nat} {x : BitVec 2176} (hup : (port u k).st = .up)
include hup

theorem not_training : ¬ ((port u k).st = .ident ∨ (port u k).st = .retrain) := by
  rw [hup]
  decide

theorem flitReceive_badCrc (hc : (flitOf x).crcOk = false) : flitReceive u k x = discardFlit (count u .fabCrcErr) k :=
  (if_neg (not_training hup)).trans ((if_neg (not_not_intro hup)).trans (if_pos (by rw [hc]; rfl)))

section
variable (hc : (flitOf x).crcOk = true)
include hc

/-- A flit that breaks the link rules, by itself or by what it follows, is discarded. -/
theorem flitReceive_malformed
    (hf : flitForm (flitOf x) = false ∨
      ((flitOf x).kind ≠ 3 ∧ (flitOf x).seq = (port u k).rxNext ∧ flitFollows (port u k) (flitOf x) = false)) :
    flitReceive u k x = discardFlit (count u .fabProto) k :=
  (if_neg (not_training hup)).trans ((if_neg (not_not_intro hup)).trans ((if_neg (by simp [hc])).trans
    (if_pos (by simpa using hf))))

/-- Any other flit's trailer is applied; then a NULL flit has done its work, one out of sequence is discarded, and the next one
expected is accepted. -/
theorem flitReceive_wellFormed (hf : flitForm (flitOf x) = true)
    (hn : (flitOf x).kind = 3 ∨ (flitOf x).seq ≠ (port u k).rxNext ∨ flitFollows (port u k) (flitOf x) = true)
    {s : State} (hs : s = takeTrailer u k (flitOf x)) :
    flitReceive u k x =
      if (flitOf x).kind = 3 then fabPump s
      else if (flitOf x).seq ≠ (port s k).rxNext then fabPump (discardFlit s k)
      else fabPump (takeFlit
        (count (updPort s k fun p => { p with rxNext := (p.rxNext + 1) % 4096, nakSent := false }) .fabRxFlit) k (flitOf x)) := by
  have hgood : ¬ ((!flitForm (flitOf x)) = true ∨ ((flitOf x).kind ≠ 3 ∧ (flitOf x).seq = (port u k).rxNext ∧
      (!flitFollows (port u k) (flitOf x)) = true)) := by
    rintro (h | ⟨h3, hseq, hfol⟩)
    · simp [hf] at h
    · rcases hn with h | h | h
      · exact h3 h
      · exact h hseq
      · simp [h] at hfol
  subst hs
  exact (if_neg (not_training hup)).trans ((if_neg (not_not_intro hup)).trans ((if_neg (by simp [hc])).trans (if_neg hgood)))

end
end

/-! ### The statement -/

/-- Settles O50: by what the receiver finds in the flit. -/
theorem flitsArrive : Obligations.FlitsArrive := by
  rintro u k x f rfl hup
  refine ⟨fun hc => ?badCrc, fun hc hf => ?malformed, fun s hc hf hn hs => ⟨fun h3 => ?null, fun h3 hseq => ?outOfSequence,
    fun h3 hseq => ?accepted⟩, discardFlit_again, discardFlit_first⟩
  case badCrc =>
    exact becomes_keeps _ _ _ u _ (fun _ => rfl) (fun _ => flitReceive_badCrc hup hc)
      ((keeps_count u _).trans (keeps_discard _ k))
  case malformed =>
    exact becomes_keeps _ _ _ u _ (fun _ => rfl) (fun _ => flitReceive_malformed hup hc hf)
      ((keeps_count u _).trans (keeps_discard _ k))
  case null =>
    exact ends_act _ _ _ u _ (fun _ => rfl) fun _ => (flitReceive_wellFormed hup hc hf hn hs).trans (if_pos h3)
  case outOfSequence =>
    exact ends_act _ _ _ u _ (fun _ => rfl) fun _ =>
      (flitReceive_wellFormed hup hc hf hn hs).trans ((if_neg h3).trans (if_pos hseq))
  case accepted =>
    exact ends_act _ _ _ u _ (fun _ => rfl) fun _ =>
      (flitReceive_wellFormed hup hc hf hn hs).trans ((if_neg h3).trans (if_neg (not_not_intro hseq)))

end Sys2Proof.Machine
end

section
/-!
PROOFS. Links: replays, lanes and training, the control messages and re-equalisation; with them the statement on links and
ports is settled.
-/

namespace Sys2Proof.Machine

open Sys2Proof

/-! ### Tables in any form: a write leaves every other index alone -/

theorem look_above_of_lt {α : Type} [Inhabited α] (t : Tab α) {k j : Nat} (h : k < j) : (t.above k).look j = t.look j := by
  induction t with
  | nil => rfl
  | cons e r ih =>
    obtain ⟨n, v⟩ := e
    unfold Tab.above
    by_cases hn : n ≤ k
    · rw [if_pos hn, ih, Tab.look_cons, if_neg (by omega), if_neg (by omega)]
    · rw [if_neg hn]

theorem look_above_of_gt {α : Type} [Inhabited α] (t : Tab α) {k j : Nat} (h : j < k) : (t.above k).look j = default := by
  induction t with
  | nil => rfl
  | cons e r ih =>
    obtain ⟨n, v⟩ := e
    unfold Tab.above
    by_cases hn : n ≤ k
    · rw [if_pos hn, ih]
    · rw [if_neg hn, Tab.look_cons, if_neg (by omega), if_pos (by omega)]

/-- The entries that `put` keeps behind index `k` give any other index its value. -/
theorem look_put_cons_of_ne {α : Type} [Inhabited α] [DecidableEq α] (t : Tab α) {k j : Nat} (v : α) (h : j ≠ k) :
    Tab.look (if v = default then t.above k else (k, v) :: t.above k) j = (t.above k).look j := by
  split
  · rfl
  · rw [Tab.look_cons, if_neg h]
    split
    · exact (look_above_of_gt t ‹_›).symm
    · rfl

theorem look_put_of_ne {α : Type} [Inhabited α] [DecidableEq α] (t : Tab α) {k j : Nat} (v : α) (h : j ≠ k) :
    (t.put k v).look j = t.look j := by
  induction t with
  | nil => exact look_put_cons_of_ne [] v h
  | cons e r ih =>
    obtain ⟨n, w⟩ := e
    unfold Tab.put
    by_cases hn : n < k
    · rw [if_pos hn, Tab.look_cons, Tab.look_cons, ih]
    · rw [if_neg hn]
      refine (look_put_cons_of_ne _ v h).trans ?_
      rcases Nat.lt_or_gt_of_ne h with hj | hj
      · rw [look_above_of_gt _ hj, Tab.look_cons, if_neg (by omega), if_pos (by omega)]
      · exact look_above_of_lt _ hj

/-! ### What waits on a port -/

theorem port_updPort_same (u : State) (k : Nat) (f : FabPort → FabPort) : port (updPort u k f) k = f (port u k) :=
  Tab.look_upd_same _ _ _

theorem port_updPort_other (u : State) {k j : Nat} (f : FabPort → FabPort) (h : j ≠ k) : port (updPort u k f) j = port u j :=
  look_put_of_ne _ _ h

/-- A port's change that leaves its control messages and its input buffer leaves FAB idle. -/
theorem fabIdle_updPort {u : State} {k : Nat} {f : FabPort → FabPort} (h : FabIdle u)
    (hf : ∀ p, (f p).ctlQ = p.ctlQ ∧ (f p).inBuf = p.inBuf) : FabIdle (updPort u k f) := by
  refine ⟨fun j hj => ?_, h.2⟩
  by_cases hjk : j = k
  · subst hjk
    rw [port_updPort_same, (hf _).1, (hf _).2]
    exact h.1 j hj
  · rw [port_updPort_other u f hjk]
    exact h.1 j hj

theorem portReady_usable {u : State} {k : Nat} (h : usable u k = true) :
    portReady u k = { u with fab.partner := u.fab.partner.foldUpd fun d x =>
      if x = .notReady ∧ bitOf (routeMask u d) k then .reachable else x } := if_pos h

theorem keeps_portReady (u : State) (k : Nat) : Keeps u (portReady u k) := .ite (.refl u) (.refl u)

theorem fabIdle_portReady {u : State} (h : FabIdle u) (k : Nat) : FabIdle (portReady u k) := by
  unfold portReady
  split
  · exact h
  · exact h

/-! ### Replays (R289) -/

section
variable {u s : State} {k a : Nat} {l : List W64}
  (hl : l = ((port (count (resend u k a) .fabReplay) k).replays.filter
    fun t => decide (((count (resend u k a) .fabReplay).ts - t).toNat ≤ 65536)) ++ [(count (resend u k a) .fabReplay).ts])
  (hs : s = updPort (count (resend u k a) .fabReplay) k
    (fun p => { p with replays := l, lastAdvance := (count (resend u k a) .fabReplay).ts }))
include hl hs

theorem replayFrom_eq : replayFrom u k a = if regFld s 0xb00018 23 16 < l.length then linkRetrain s k else s := by
  subst hs hl
  rfl

end

section
variable {u : State} {k : Nat} {f : SentFlit} {rest : List SentFlit} (hr : (port u k).replay = f :: rest)
  (hup : (port u k).st = .up)
include hr hup

theorem replayTimeout_eq : replayTimeout u k =
    if max 1 (regFld u 0xb00018 15 0) ≤ (u.ts - (port u k).lastAdvance).toNat then replayFrom u k f.seq else u := by
  unfold replayTimeout
  simp only [hr, hup, true_and]

end

/-! ### Lanes and training (R292, R294) -/

theorem keeps_useLanes (u : State) (k : Nat) (good : BitVec 5) : Keeps u (useLanes u k good) :=
  (Keeps.ite (keeps_count u _) (.refl u)).trans (.refl _)

theorem laneFailure_below {u : State} {k j errs : Nat} (h : errs ≤ regFld u (portCfg k) 47 32) : laneFailure u k j errs = u :=
  if_pos (.inr (.inr (.inr h)))

/-- A lane in use with too many errors has failed: with fewer than three left the link is dead, else it retrains with them. -/
theorem laneFailure_above {u s : State} {k j errs : Nat} (hd : (port u k).st ≠ .down) (hx : (port u k).st ≠ .dead)
    (hl : (port u k).lanes.getLsbD j = true) (he : regFld u (portCfg k) 47 32 < errs)
    (hs : s = updPort u k (fun p => { p with failedLanes := p.failedLanes ||| ((1 : BitVec 5) <<< j) })) :
    laneFailure u k j errs =
      if laneCount (~~~(port s k).failedLanes) < 3 then linkDead s k false
      else linkRetrain (useLanes s k (~~~(port s k).failedLanes)) k := by
  subst hs
  exact if_neg (by simp [hd, hx, hl, he])

section
variable {u : State} {k : Nat} {aligned : BitVec 5} (hc : Calm u)
  (hst : (port u k).st = .train ∨ ((port u k).st = .retrain ∧ (port u k).trained = false))
include hc hst

theorem trainResult_eq : trainResult u k aligned =
    if laneCount (aligned &&& ~~~(port u k).failedLanes) < 3 then
      (if max 1 (regFld u (portCfg k) 31 24) ≤ (port u k).trainFails + 1 then
        linkDead (count (updPort u k fun p => { p with trainFails := p.trainFails + 1 }) .fabTrainFail) k false
      else count (updPort u k fun p => { p with trainFails := p.trainFails + 1 }) .fabTrainFail)
    else sendIdent (updPort (useLanes u k (aligned &&& ~~~(port u k).failedLanes)) k fun p => { p with
      trainFails := 0, st := if p.st = .train then .ident else p.st, trained := true }) k := by
  have hgo : ¬ ((port u k).st ≠ .train ∧ ((port u k).st ≠ .retrain ∨ (port u k).trained = true)) := by
    rcases hst with h | ⟨h, ht⟩
    · simp [h]
    · simp [h, ht]
  exact (if_neg hgo).trans (if_neg (calm_not_armed hc _ _))

end

theorem headerLost_own {u : State} {k : Nat} {h : FabHdr} (hv : vcOf h.op = 0)
    (hb : h.srcBlock = blockId (count u .fabLinkLost)) :
    headerLost k u h = sourceNack (count u .fabLinkLost) h.txn 6 k false := if_pos ((if_pos hv).trans hb)

/-! ### Control messages (R294, R295, R298) -/

/-- What port `k` knows of its partner after an IDENT. -/
def identNoted (u : State) (k : Nat) (ready : Bool) (blk prt : Nat) : State :=
  updPort u k fun p => { p with peerReady := ready, peerBlock := blk, peerPort := prt, trained := false }

section
variable {u : State} {k blk prt rx : Nat} {ready : Bool} (hc : Calm u)
include hc

theorem identReceive_ident (h : (port u k).st = .ident) : identReceive u k ready blk prt rx =
    if blk ≠ blockId u ∧ (regFld u (portCfg k) 19 8 = 0xFFF ∨ regFld u (portCfg k) 19 8 = blk) then
      linkUp (identNoted u k ready blk prt) k rx true
    else linkDead (raise (identNoted u k ready blk prt) 0x1003 .c 0 k) k false := by
  unfold identReceive
  simp only [calm_inj hc, Bool.false_eq_true, if_false, h]
  rfl

theorem identReceive_retrain (h : (port u k).st = .retrain) (ht : (port u k).trained = true) :
    identReceive u k ready blk prt rx =
      if blk = (port u k).peerBlock ∧ prt = (port u k).peerPort then linkUp (identNoted u k ready blk prt) k rx false
      else linkDead u k false := by
  unfold identReceive
  simp only [calm_inj hc, Bool.false_eq_true, if_false, h, ht, Bool.not_true]
  rfl

theorem identReceive_up (h : (port u k).st = .up) {v : State}
    (hv : v = updPort u k (fun p => { p with peerReady := ready, peerBlock := blk, peerPort := prt })) :
    identReceive u k ready blk prt rx =
      fabPump (if (ready && !(port u k).peerReady) = true then portReady v k else v) := by
  unfold identReceive
  simp only [calm_inj hc, Bool.false_eq_true, if_false, h, hv]

end

theorem resumeReceive_eq {u v : State} {k : Nat} (hv : v = updPort u k (fun p => { p with peerStopped := false })) :
    resumeReceive u k = fabPump (if (port u k).peerStopped = true then portReady v k else v) := by
  subst hv
  rfl

/-! ### Re-equalisation (R369, R403) -/

theorem reEqualise_waits {u : State} {k : Nat}
    (h : (port u k).st = .retrain ∨ u.fab.stopped = true ∨ u.fab.ports.any (·.2.eqReq) = true) : reEqualise u k = u :=
  if_pos (h.imp_left fun hr => by rw [hr]; decide)

theorem reEqualise_starts {u : State} {k : Nat} (h : (port u k).st = .up) (hs : u.fab.stopped = false)
    (hn : u.fab.ports.any (·.2.eqReq) = false) :
    reEqualise u k = emit (updPort u k fun p => { p with eqReq := true }) (.eqReq k) :=
  if_neg (by simp only [h, hs, hn]; decide)

/-! ### The statement -/

/-- Settles O51: by the state of the link; where nothing waits in FAB, what it then tries changes nothing. -/
theorem linksAndPorts : Obligations.LinksAndPorts := by
  refine ⟨fun u k a f rest l s => ⟨fun hr hup => ⟨fun h => ?replay, fun h => ?noReplay⟩, fun hl hs => ⟨fun h => ?quiet,
    fun h => ?storm⟩⟩,
    fun u s k j errs top good aligned => ⟨fun h => ?below, fun hd hx hl he hs hg => ⟨fun h => ?laneDead, fun h => ?laneLost⟩,
      fun hup => ?lossOfLock, fun hup => if_pos hup, fun hst hg ht => ⟨fun h => ?trained, fun h hs => ⟨fun hf => ?again,
        fun hf => ?last⟩⟩,
      rfl, fun h hv hb => headerLost_own hv hb⟩,
    fun u s k blk prt rx want ready hw hs => ⟨fun hi hb hp => ?identUp, fun hi hn => ?identDead, fun hi ht hb hp => ?retrained,
      fun hi ht hn => ?changed, fun v hup hv => ⟨fun h => ?same, fun hr hp => ?becameReady, fun h hidle => ?sameIdle,
        fun hr hp hidle => ?becameReadyIdle⟩,
      fun v hv => ⟨?stop, fun hidle => ?stopIdle⟩, fun v hv => ⟨fun h => ?resume, fun h => ?resumeReady,
        fun h hidle => ?resumeIdle⟩,
      fun m hu hm => ?usable, fun hup hstop hn => ?reeq, fun h => ?noReeq, fun v he hv => ⟨?eqDone, fun hidle => ?eqDoneIdle⟩⟩⟩
  case replay => exact ends_act _ _ _ u _ (fun _ => rfl) fun _ => (replayTimeout_eq hr hup).trans (if_pos h)
  case noReplay =>
    exact becomes_keeps _ _ _ u u (fun _ => rfl) (fun _ => (replayTimeout_eq hr hup).trans (if_neg (not_le.mpr h))) (.refl u)
  case quiet => exact (replayFrom_eq hl hs).trans (if_neg (not_lt.mpr h))
  case storm => exact (replayFrom_eq hl hs).trans (if_pos h)
  case below => exact becomes_keeps _ _ _ u u (fun _ => rfl) (fun _ => laneFailure_below h) (.refl u)
  case laneDead =>
    subst hg
    exact ends_act _ _ _ u _ (fun _ => rfl) fun _ => (laneFailure_above hd hx hl he hs).trans (if_pos h)
  case laneLost =>
    have hk : Keeps u s := by
      subst hs
      exact .refl u
    subst hg
    exact becomes_keeps _ _ _ u _ (fun _ => rfl) (fun _ => (laneFailure_above hd hx hl he hs).trans (if_neg (not_lt.mpr h)))
      ((hk.trans (keeps_useLanes s k _)).trans (keeps_linkRetrain _ k))
  case lossOfLock => exact becomes_keeps _ _ _ u _ (fun _ => rfl) (fun _ => rfl) (keeps_linkRetrain u k)
  case trained =>
    subst hg
    exact ends_act _ _ _ u _ (fun _ => rfl) fun hc => (trainResult_eq hc hst).trans (if_neg (not_lt.mpr h))
  case again =>
    subst hg ht hs
    exact becomes_keeps _ _ _ u _ (fun _ => rfl)
      (fun hc => (trainResult_eq hc hst).trans ((if_pos h).trans (if_neg (not_le.mpr hf)))) (.refl u)
  case last =>
    subst hg ht hs
    exact ends_act _ _ _ u _ (fun _ => rfl) fun hc => (trainResult_eq hc hst).trans ((if_pos h).trans (if_pos hf))
  case identUp =>
    subst hw hs
    exact ends_act _ _ _ u _ (fun _ => rfl) fun hc => (identReceive_ident hc hi).trans (if_pos ⟨hb, hp⟩)
  case identDead =>
    subst hw hs
    refine ends_act _ _ _ u _ (fun _ => rfl) fun hc => (identReceive_ident hc hi).trans (if_neg ?_)
    rintro ⟨hb, hp⟩
    rcases hn with h | ⟨h1, h2⟩
    · exact hb h
    · exact hp.elim h1 h2
  case retrained =>
    subst hs
    exact ends_act _ _ _ u _ (fun _ => rfl) fun hc => (identReceive_retrain hc hi ht).trans (if_pos ⟨hb, hp⟩)
  case changed =>
    refine ends_act _ _ _ u _ (fun _ => rfl) fun hc => (identReceive_retrain hc hi ht).trans (if_neg ?_)
    rintro ⟨hb, hp⟩
    exact hn.elim (fun h => h hb) fun h => h hp
  case same =>
    exact ends_act _ _ _ u _ (fun _ => rfl) fun hc => (identReceive_up hc hup hv).trans
      (congrArg fabPump (if_neg (by rcases h with h | h <;> simp [h])))
  case becameReady =>
    exact ends_act _ _ _ u _ (fun _ => rfl) fun hc => (identReceive_up hc hup hv).trans
      (congrArg fabPump (if_pos (by simp [hr, hp])))
  case sameIdle =>
    have hv' : FabIdle v := hv ▸ fabIdle_updPort hidle fun _ => ⟨rfl, rfl⟩
    exact becomes_keeps _ _ _ u _ (fun _ => rfl) (fun hc => (identReceive_up hc hup hv).trans
      ((congrArg fabPump (if_neg (by rcases h with h | h <;> simp [h]))).trans (fabPump_idle v hv'))) (hv ▸ .refl u)
  case becameReadyIdle =>
    have hv' : FabIdle v := hv ▸ fabIdle_updPort hidle fun _ => ⟨rfl, rfl⟩
    have hk : Keeps u v := hv ▸ .refl u
    exact becomes_keeps _ _ _ u _ (fun _ => rfl) (fun hc => (identReceive_up hc hup hv).trans
      ((congrArg fabPump (if_pos (by simp [hr, hp]))).trans (fabPump_idle _ (fabIdle_portReady hv' k))))
      (hk.trans (keeps_portReady v k))
  case stop =>
    subst hv
    exact ends_act _ _ _ u _ (fun _ => rfl) fun _ => rfl
  case stopIdle =>
    subst hv
    exact becomes_keeps _ _ _ u _ (fun _ => rfl) (fun _ => fabPump_idle _ (fabIdle_updPort hidle fun _ => ⟨rfl, rfl⟩)) (.refl u)
  case resume =>
    exact ends_act _ _ _ u _ (fun _ => rfl) fun _ => (resumeReceive_eq hv).trans
      (congrArg fabPump (if_neg (Bool.eq_false_iff.mp h)))
  case resumeReady =>
    exact ends_act _ _ _ u _ (fun _ => rfl) fun _ => (resumeReceive_eq hv).trans (congrArg fabPump (if_pos h))
  case resumeIdle =>
    have hv' : FabIdle v := hv ▸ fabIdle_updPort hidle fun _ => ⟨rfl, rfl⟩
    have hk : Keeps u v := hv ▸ .refl u
    exact becomes_keeps _ _ _ u _ (fun _ => rfl) (fun _ => (resumeReceive_eq hv).trans
      ((congrArg fabPump (if_pos h)).trans (fabPump_idle _ (fabIdle_portReady hv' k)))) (hk.trans (keeps_portReady v k))
  case usable =>
    subst hm
    exact portReady_usable hu
  case reeq =>
    exact becomes_keeps _ _ _ u _ (fun _ => rfl) (fun _ => reEqualise_starts hup hstop hn) (.refl u)
  case noReeq => exact becomes_keeps _ _ _ u u (fun _ => rfl) (fun _ => reEqualise_waits h) (.refl u)
  case eqDone =>
    subst hv
    exact ends_act _ _ _ u _ (fun _ => rfl) fun _ => if_pos he
  case eqDoneIdle =>
    subst hv
    exact becomes_keeps _ _ _ u _ (fun _ => rfl)
      (fun _ => (if_pos he).trans (fabPump_idle _ (fabIdle_updPort hidle fun _ => ⟨rfl, rfl⟩))) (.refl u)

end Sys2Proof.Machine
end

section
/-!
PROOFS. The resets and the clocks: what the reset pins and a DEVICE reset leave, and how the PLLs start the boot or fail it;
with them the statement on resets and clocks is settled.
-/

namespace Sys2Proof.Machine

open Sys2Proof

/-! ### Resets (R304, R305, R307, R354) -/

theorem settled_powerOnState (s : State) : Settled (powerOnState s) := ⟨rfl, rfl, rfl, rfl, rfl⟩

theorem settled_assertReset (s : State) (k c : Nat) : Settled (assertReset s k c) := ⟨rfl, rfl, rfl, rfl, rfl⟩

/-- The loss of a Cut changes the RESUMABLE byte in the Slate and nothing that a reset keeps beside it. -/
theorem cutLost_keeps (s : State) : (cutLost s).ts = s.ts ∧ (cutLost s).grs = s.grs ∧ (cutLost s).slt = s.slt ∧
    (cutLost s).crb = s.crb ∧ (cutLost s).flt.lastUd = s.flt.lastUd := by
  unfold cutLost
  split <;> exact ⟨rfl, rfl, rfl, rfl, rfl⟩

theorem cutLost_mem_same {s : State} (h : s.flt.resumable = false) : (cutLost s).mem = s.mem :=
  congrArg State.mem (if_neg (Bool.eq_false_iff.mp h))

theorem cutLost_mem_cut {s : State} (h : s.flt.resumable = true) :
    (cutLost s).mem = (memWrite s 7 [memByte s 7 &&& 0xFB]).mem := by
  unfold cutLost
  rw [if_pos h]

theorem inputActive_armed {s : State} {k : Nat} (f : State → State) (h : s.flt.level.getLsbD k = true) :
    inputActive s k f = f { s with flt.level := s.flt.level &&& ~~~((1 : BitVec 5) <<< k) } := if_pos h

theorem inputActive_held {s : State} {k : Nat} (f : State → State) (h : s.flt.level.getLsbD k = false) :
    inputActive s k f = s := if_neg (Bool.eq_false_iff.mp h)

/-- A reset that has ended what waited, and the boot's first stage after it. -/
theorem becomes_reset {i : Instr} {f : State → State} {u v : State} (hi : ∀ s, exec i s = .next (act [] f s)) (hf : f u = v)
    (hs : Settled v) (hp : v.pending = u.pending) (ha : v.agents = u.agents) : Becomes i u v :=
  becomes_act i [] f u v hi (fun _ _ _ => ⟨hf, hs⟩) hp ha

theorem warmReset_armed {u s : State} (hl : u.flt.level.getLsbD 1 = true)
    (hs : s = { u with flt := { u.flt with level := u.flt.level &&& ~~~((1 : BitVec 5) <<< 1) } }) :
    warmReset u false = if s.crb.stage = .reset ∨ noClock s then s else assertReset s 1 0 := by
  subst hs
  exact (if_neg Bool.false_ne_true).trans (if_pos hl)

theorem deviceReset_done {u : State} (hd : u.flt.devReset = true) (hr : u.dis.running = []) (hf : u.hif.flight = [])
    (hn : noClock u = false) : deviceReset u = leaveReset (assertReset u 2 u.flt.resetSource) :=
  if_pos ⟨hd, hr, hf, by rw [hn]; rfl⟩

theorem deviceReset_waits {u : State} (h : u.flt.devReset = false ∨ u.dis.running ≠ [] ∨ u.hif.flight ≠ []) :
    deviceReset u = u := by
  refine if_neg ?_
  rintro ⟨hd, hr, hf, -⟩
  rcases h with h | h | h
  · rw [h] at hd
    exact Bool.false_ne_true hd
  · exact h hr
  · exact h hf

theorem leaveReset_released {u : State} (hst : u.crb.stage = .reset) (h0 : u.flt.level.getLsbD 0 = true)
    (h1 : u.flt.level.getLsbD 1 = true) (ht : u.test.testMode = false) :
    leaveReset u = if clocked u then enterHeader u else { u with crb.stage := .clocks } :=
  if_neg (by simp only [hst, h0, h1, ht]; decide)

theorem leaveReset_held {u : State} (h : u.flt.level.getLsbD 0 = false ∨ u.flt.level.getLsbD 1 = false) : leaveReset u = u :=
  if_pos (.inr (h.elim (fun h => .inl (by rw [h]; rfl)) fun h => .inr (.inl (by rw [h]; rfl))))

/-! ### Clocks (R301, R302, R303) -/

section
variable {u : State} (hp : pllsRun u = true)
include hp

theorem pllLock_runs (root : Bool) :
    pllLock u root = if !root then { u with crb.stbyLock := true } else clocksStart { u with crb.rootLock := true } :=
  if_neg (by rw [hp]; decide)

theorem pllTimeout_runs : pllTimeout u =
    if (u.crb.stage = .clocks ∨ u.crb.stage = .reset) ∧ !u.crb.rootLock ∧ !u.crb.onStby then
      (if u.crb.stbyLock then pllSwap (clocksStart u) false else if u.crb.stage = .clocks then bootFail u 0x01 else u)
    else if u.crb.stbyLock then u else { u with crb.stbyFail := true } :=
  if_neg (by rw [hp]; decide)

/-- Without the root PLL the standby takes over. -/
theorem pllTimeout_swaps (hst : u.crb.stage = .clocks ∨ u.crb.stage = .reset) (hr : u.crb.rootLock = false)
    (ho : u.crb.onStby = false) (hs : u.crb.stbyLock = true) : pllTimeout u = pllSwap (clocksStart u) false :=
  (pllTimeout_runs hp).trans ((if_pos ⟨hst, by rw [hr]; rfl, by rw [ho]; rfl⟩).trans (if_pos hs))

/-- With neither PLL the boot fails. -/
theorem pllTimeout_fails (hst : u.crb.stage = .clocks) (hr : u.crb.rootLock = false) (ho : u.crb.onStby = false)
    (hs : u.crb.stbyLock = false) : pllTimeout u = bootFail u 0x01 :=
  (pllTimeout_runs hp).trans ((if_pos ⟨.inl hst, by rw [hr]; rfl, by rw [ho]; rfl⟩).trans
    ((if_neg (Bool.eq_false_iff.mp hs)).trans (if_pos hst)))

/-- Where the clocks have a PLL, the standby that has not locked is noted. -/
theorem pllTimeout_standby
    (h : (u.crb.stage ≠ .clocks ∧ u.crb.stage ≠ .reset) ∨ u.crb.rootLock = true ∨ u.crb.onStby = true)
    (hs : u.crb.stbyLock = false) : pllTimeout u = { u with crb.stbyFail := true } := by
  refine (pllTimeout_runs hp).trans ((if_neg ?_).trans (if_neg (Bool.eq_false_iff.mp hs)))
  rintro ⟨hst, hr, ho⟩
  rcases h with ⟨h1, h2⟩ | h | h
  · exact hst.elim h1 h2
  · rw [h] at hr
    exact Bool.false_ne_true hr
  · rw [h] at ho
    exact Bool.false_ne_true ho

end

theorem clocksStart_clocks {s : State} (h : s.crb.stage = .clocks) : clocksStart s = enterHeader s := if_pos h

theorem clocksStart_other {s : State} (h : s.crb.stage ≠ .clocks) : clocksStart s = s := if_neg h

theorem pllLoss_locked {u : State} (h : u.crb.rootLock = true) : pllLoss u =
    if !u.crb.onStby && u.crb.stbyLock then pllSwap { u with crb.rootLock := false } false
    else { u with crb.rootLock := false } :=
  if_neg (by rw [h]; decide)

/-! ### The statement -/

/-- Settles O52: the pins by their level and the boot's stage, then the PLLs by which of them has locked. -/
theorem resetsAndClocks : Obligations.ResetsAndClocks := by
  refine ⟨fun u s => ⟨fun hs hl => ?poreset, fun hs hl => ⟨fun hst hn => ?warm, fun hst => ?warmAgain⟩, fun hl => ?porHeld,
      fun hl => ?warmHeld, fun hs => ?porReleased, fun hs => ?warmReleased, fun hd hr hf hn => ?device, fun h => ?noDevice,
      fun hst h0 h1 ht => ⟨fun h => ?noClocks, fun h => ?header⟩, fun hst h => leaveReset_held h, rfl,
      ⟨rfl, rfl, rfl, rfl, rfl, rfl⟩, fun k source w hw => ?kept⟩,
    fun u s hp => ⟨fun hst hs => ?lock, fun hst => ?relock, ?standby, fun hr ho hb => ⟨fun hst hs => ?swapClocks,
      fun hst hs => ?swapReset⟩,
      fun hst hr ho hb => ?noPll, fun h hb => ?noStandby, fun hr ho hb hs => ?loss, fun hr h => ?lost⟩⟩
  case poreset =>
    subst hs
    exact becomes_reset (fun _ => rfl) (inputActive_armed powerOnState hl) (settled_powerOnState _) rfl rfl
  case warm =>
    have hpend := assertReset_pending s 1 0
    have hreset := (warmReset_armed hl hs).trans (if_neg (not_or.mpr ⟨hst, Bool.eq_false_iff.mp hn⟩))
    exact becomes_reset (fun _ => rfl) hreset (settled_assertReset s 1 0) (hpend.1.trans (hs ▸ rfl)) (hpend.2.trans (hs ▸ rfl))
  case warmAgain =>
    exact becomes_keeps _ _ _ u _ (fun _ => rfl) (fun _ => (warmReset_armed hl hs).trans (if_pos (.inl hst))) (hs ▸ .refl u)
  case porHeld => exact becomes_keeps _ _ _ u u (fun _ => rfl) (fun _ => inputActive_held _ hl) (.refl u)
  case warmHeld => exact becomes_keeps _ _ _ u u (fun _ => rfl) (fun _ => if_neg (Bool.eq_false_iff.mp hl)) (.refl u)
  case porReleased =>
    subst hs
    exact becomes_keeps _ _ _ u _ (fun _ => rfl) (fun _ => rfl) (keeps_leaveReset _)
  case warmReleased =>
    subst hs
    exact becomes_keeps _ _ _ u _ (fun _ => rfl) (fun _ => rfl) (keeps_leaveReset _)
  case device =>
    have hk := keeps_leaveReset (assertReset u 2 u.flt.resetSource)
    obtain ⟨hpend, hagents⟩ := assertReset_pending u 2 u.flt.resetSource
    obtain ⟨-, -, -, hp, ha, -⟩ := id hk
    exact becomes_reset (fun _ => rfl) (deviceReset_done hd hr hf hn) (hk.settled (settled_assertReset u 2 _))
      (hp.trans hpend) (ha.trans hagents)
  case noDevice => exact becomes_keeps _ _ _ u u (fun _ => rfl) (fun _ => deviceReset_waits h) (.refl u)
  case noClocks => exact (leaveReset_released hst h0 h1 ht).trans (if_neg (Bool.eq_false_iff.mp h))
  case header => exact (leaveReset_released hst h0 h1 ht).trans (if_pos h)
  case kept =>
    subst hw
    obtain ⟨hts, hgrs, hslt, hcrb, hud⟩ := cutLost_keeps u
    exact ⟨cutLost_mem_same, cutLost_mem_cut, hts, rfl, (congrArg Grs.nodes hgrs :), (congrArg Slt.vs hslt :),
      (congrArg Slt.cursor hslt :), hud, (congrArg Crb.fault hcrb :), rfl, rfl, rfl, rfl⟩
  case lock =>
    subst hs
    exact becomes_keeps _ _ _ u _ (fun _ => rfl) (fun _ => (pllLock_runs hp true).trans (clocksStart_clocks hst)) (.refl u)
  case relock =>
    exact becomes_keeps _ _ _ u _ (fun _ => rfl) (fun _ => (pllLock_runs hp true).trans (clocksStart_other hst)) (.refl u)
  case standby => exact becomes_keeps _ _ _ u _ (fun _ => rfl) (fun _ => pllLock_runs hp false) (.refl u)
  case swapClocks =>
    subst hs
    exact ends_act _ _ _ u _ (fun _ => rfl) fun _ => (pllTimeout_swaps hp (.inl hst) hr ho hb).trans
      (congrArg (pllSwap · false) (clocksStart_clocks hst))
  case swapReset =>
    subst hs
    exact ends_act _ _ _ u _ (fun _ => rfl) fun _ => (pllTimeout_swaps hp (.inr hst) hr ho hb).trans
      (congrArg (pllSwap · false) (clocksStart_other (by rw [hst]; decide)))
  case noPll =>
    exact becomes_keeps _ _ _ u _ (fun _ => rfl) (fun _ => pllTimeout_fails hp hst hr ho hb) (.refl u)
  case noStandby =>
    exact becomes_keeps _ _ _ u _ (fun _ => rfl) (fun _ => pllTimeout_standby hp h hb) (.refl u)
  case loss =>
    subst hs
    exact ends_act _ _ _ u _ (fun _ => rfl) fun _ => (pllLoss_locked hr).trans (if_pos (by rw [ho, hb]; rfl))
  case lost =>
    exact becomes_keeps _ _ _ u _ (fun _ => rfl)
      (fun _ => (pllLoss_locked hr).trans (if_neg (by rcases h with h | h <;> simp [h]))) (.refl u)

end Sys2Proof.Machine
end

section
/-!
PROOFS. The statement on the image and on Ready fails: it says that a TEMPLATES section whose directory has its form takes effect,
but a section of that digest whose first 16 bytes do not name its TYPE ends the boot with SECTION (R313).
-/

namespace Sys2Proof.Machine

open Sys2Proof

/-- The bytes of a section that names TYPE 0 and no entries: as TEMPLATES, an empty directory whose first 16 bytes do not
name it. -/
def bareSection : Bytes := List.replicate 16 0

/-- The table's entry of a TEMPLATES section of those bytes. -/
def bareEntry : BootSec := { type := 9, off := 0x1000, len := 16, digest := sha384 bareSection }

/-- The table's entry behind it, of CHANNELS. -/
def nextEntry : BootSec := { type := 0xB, off := 0x1100, len := 16, digest := 0 }

/-- A block in stage LOAD that reads those two sections next. -/
def loadingBare : State :=
  { State.reset with crb := { (default : Crb) with stage := .load, secs := [bareEntry, nextEntry] } }

/-- That block once the first section's bytes are staged. -/
def stagedBare : State :=
  stageSection { loadingBare with crb := { loadingBare.crb with bytesRead := bareEntry.off + bareEntry.len } } bareEntry
    (Bytes.slice bareSection 0 bareEntry.len)

theorem slice_bareSection : Bytes.slice bareSection 0 bareEntry.len = bareSection := by decide

theorem digest_bareSection : sha384 (Bytes.slice bareSection 0 bareEntry.len) = bareEntry.digest := by
  rw [slice_bareSection]
  simp only [bareEntry]

theorem tplSecOk_bareSection : tplSecOk bareSection = true := by decide

theorem prefixOk_bareSection : prefixOk bareSection 9 = false := by decide

/-- A TEMPLATES section that does not name its TYPE is refused. -/
theorem sectionFail_bareSection (s : State) : sectionFail s 9 bareSection = some 0x0A := by
  have hform : sectionForm s 9 bareSection = false := by
    unfold sectionForm
    rw [prefixOk_bareSection]
    rfl
  exact if_pos (.inl (by rw [hform]; rfl))

/-- A section whose digest matches but whose content is not allowed ends the boot. -/
theorem sectionRead_rejected {u s : State} {x : BootSec} {rest : List BootSec} {b : Bytes} {c : Nat}
    (hsecs : u.crb.secs = x :: rest) (hst : u.crb.stage = .load ∨ (u.crb.stage = .slateInit ∧ x.type ≤ 2))
    (hs : s = stageSection { u with crb := { u.crb with bytesRead := x.off + x.len } } x (Bytes.slice b 0 x.len))
    (hd : sha384 (Bytes.slice b 0 x.len) = x.digest) (hf : sectionFail s x.type (Bytes.slice b 0 x.len) = some c) :
    sectionRead u true b = bootFail s c := by
  subst hs
  unfold sectionRead
  rw [hsecs]
  refine (if_neg (not_not_intro hst)).trans ((if_neg (by decide)).trans ((if_neg (not_not_intro hd)).trans ?_))
  rw [hf]

/-- The boot of that block ends in FAILED with SECTION. -/
theorem sectionRead_bareSection : sectionRead loadingBare true bareSection = bootFail stagedBare 0x0A :=
  sectionRead_rejected (x := bareEntry) rfl (.inl rfl) rfl digest_bareSection
    ((congrArg (sectionFail stagedBare 9) slice_bareSection).trans (sectionFail_bareSection stagedBare))

theorem calm_loadingBare : Calm loadingBare := ⟨rfl, rfl, rfl, rfl, rfl, rfl⟩

/-- So the block's command leads to FAILED. -/
theorem sectionDigest_bareSection : Becomes (.sectionDigest true bareSection) loadingBare (bootFail stagedBare 0x0A) :=
  becomes_keeps _ _ _ loadingBare _ (fun _ => rfl) (fun _ => sectionRead_bareSection) (.refl loadingBare)

/-- Agents that leave reset change no stage of the boot. -/
theorem releaseAgents_crb (s : State) : (releaseAgents s).crb = s.crb := by
  unfold releaseAgents
  generalize List.range (agentCount s) = l
  induction l generalizing s with
  | nil => rfl
  | cons a l ih => exact ih _

/-- Refutes O53: a TEMPLATES section of 16 zero bytes matches its digest and has the form of an empty directory, but names TYPE 0;
the boot ends in FAILED with SECTION, not in stage LOAD with its agents released. -/
theorem not_imageAndReady : ¬ Obligations.ImageAndReady := by
  intro h
  obtain ⟨-, hsections, -⟩ := h.1 loadingBare stagedBare [] bareSection true
  obtain ⟨-, -, -, -, htemplates⟩ := hsections bareEntry [nextEntry] rfl (.inl rfl) rfl
  have hclaimed := htemplates nextEntry [] digest_bareSection rfl
    ((congrArg tplSecOk slice_bareSection).trans tplSecOk_bareSection) rfl (by decide) loadingBare calm_loadingBare rfl
  rw [sectionDigest_bareSection loadingBare calm_loadingBare rfl] at hclaimed
  have hstage : Stage.failed = Stage.load :=
    (congrArg (fun s : State => s.crb.stage) (Host.Outcome.next.inj hclaimed)).trans (congrArg Crb.stage (releaseAgents_crb _))
  exact absurd hstage (by decide)

end Sys2Proof.Machine
end

section
/-!
PROOFS. Control registers of FLT, MGT and OBS: Global Stop, injection, the mailbox, the DEVICE reset, the partition pages and the
trace; with them the statement on these registers is settled.
-/

namespace Sys2Proof.Machine

open Sys2Proof

/-! ### Global Stop (R346, R347, R353) -/

/-- What a write of FLT_STOP_CTRL does. -/
def stopCtrl (x : Access) (s : State) : State :=
  if bitOf x.data.toNat 1 then resumeWrite (stopWrite s x.port) x.port else stopWrite s x.port

theorem stopCtrl_request {x : Access} (h : bitOf x.data.toNat 1 = false) (s : State) : stopCtrl x s = stopWrite s x.port :=
  if_neg (Bool.eq_false_iff.mp h)

theorem stopWrite_early {s : State} {p : Port} (h : isReady s = false) : stopWrite s p = count s .crbBootIgn :=
  (if_pos (by rw [h]; rfl)).trans (if_pos (by rw [h]; rfl))

section
variable {s : State} {p : Port} (hr : isReady s = true)
include hr

theorem stopRequest_ready (n : Nat) : stopRequest s n =
    if s.flt.stop ≠ .running then count s .fltStopIgn
    else { trRecord s { type := 8, part := 0, cls := 0, gen := 0, node := Config.noNode, sub := n, ts := s.ts, arg1 := 0,
                        arg2 := 0 } with
      flt.stop := .stopping, flt.stopSource := n,
      flt.stopTs := (trRecord s { type := 8, part := 0, cls := 0, gen := 0, node := Config.noNode, sub := n, ts := s.ts,
                                  arg1 := 0, arg2 := 0 }).ts,
      flt.stoppedUnits := [] } :=
  if_neg (by rw [hr]; decide)

/-- A request of a party that may not, or outside RUNNING, is ignored and counted. -/
theorem stopWrite_ignored (h : mayStop s p = false ∨ s.flt.stop ≠ .running) : stopWrite s p = count s .fltStopIgn := by
  refine (if_neg (by rw [hr]; decide)).trans ?_
  by_cases hm : mayStop s p = true
  · have hstop : s.flt.stop ≠ .running := h.resolve_left (by rw [hm]; decide)
    exact (if_pos hm).trans ((stopRequest_ready hr _).trans (if_pos hstop))
  · exact if_neg hm

/-- A request that is taken leads to STOPPING, while nothing is traced. -/
theorem stopWrite_taken (hm : mayStop s p = true) (h : s.flt.stop = .running) (ht : regBit s 0xe00000 0 = false) :
    stopWrite s p = { s with flt := { s.flt with stop := .stopping, stopSource := if p = .mgt then 2 else 1,
                                                 stopTs := s.ts, stoppedUnits := [] } } := by
  refine (if_neg (by rw [hr]; decide)).trans ((if_pos hm).trans ((stopRequest_ready hr _).trans ?_))
  rw [trRecord_off s _ ht]
  exact if_neg (not_not_intro h)

end

theorem resumeWrite_ignored {s : State} {p : Port} (h : mayStop s p = false ∨ s.flt.stop ≠ .stopped) :
    resumeWrite s p = count s .fltStopIgn := by
  by_cases hm : mayStop s p = true
  · exact (if_pos hm).trans (if_pos (h.resolve_left (by rw [hm]; decide)))
  · exact if_neg hm

theorem startHeld_none {s : State} (h : s.flt.heldUp = []) : startHeld s = s := by
  have hnone : (List.range 16).filter s.flt.heldUp.look = [] := filter_none fun p _ => by rw [h]; rfl
  have hsame : { s with flt := { s.flt with heldUp := s.flt.heldUp } } = s := rfl
  unfold startHeld
  rw [hnone]
  rw [h] at hsame
  exact hsame

/-- RESUME on a STOPPED block leads to RESUMING, its units running, while nothing is traced and no discard is held. -/
theorem stopResume_stopped {s : State} (h : s.flt.stop = .stopped) (ht : regBit s 0xe00000 0 = false)
    (hu : (unstop { s with flt.stop := .resuming }).flt.heldUp = []) :
    stopResume s = unstop { s with flt.stop := .resuming } := by
  refine (if_neg (not_not_intro h)).trans ?_
  rw [trRecord_off { s with flt.stop := .resuming } _ ht]
  exact startHeld_none hu

/-! ### Injection, the mailbox and the DEVICE reset (R331, R332, R338, R358) -/

section
variable {s : State} {p : Port} {b : Beat} {w : Nat}
  (hw : w = mergeBits (regGet s 0xc00100).toNat b.data (b.mask &&& 0x80FFFFFFFF0FFFFF))
include hw

theorem injWrite_disarms (h : bitOf w 63 = false) : injWrite s p b = regSet s 0xc00100 (BitVec.ofNat 64 w) := by
  subst hw
  exact if_neg (Bool.eq_false_iff.mp h)

/-- A point that does not fire at once is armed. -/
theorem injWrite_arms (h : bitOf w 63 = true) (h1 : bitsOf w 15 0 ≠ 0x12F1) (h2 : bitsOf w 15 0 ≠ 0x1202)
    (h3 : bitsOf w 15 0 ≠ 0x1401) (hi : injIds.contains (bitsOf w 15 0) = true)
    (hm : mayInject s p (bitsOf w 15 0) (bitsOf w 19 16) = true)
    (ht : (injTargets s (bitsOf w 15 0)).all (fun n => decide (bitsOf w 47 24 < n)) = true) :
    injWrite s p b = regSet s 0xc00100 (BitVec.ofNat 64 w) := by
  subst hw
  refine (if_pos h).trans ((if_pos (by rw [hi, hm, ht]; rfl)).trans ?_)
  exact (if_neg h1).trans ((if_neg h2).trans (if_neg fun hx => h3 hx.1))

theorem injWrite_ignored (h : bitOf w 63 = true)
    (hn : injIds.contains (bitsOf w 15 0) = false ∨ mayInject s p (bitsOf w 15 0) (bitsOf w 19 16) = false ∨
      (injTargets s (bitsOf w 15 0)).all (fun n => decide (bitsOf w 47 24 < n)) = false) :
    injWrite s p b = count s .fltInjIgn := by
  subst hw
  exact (if_pos h).trans (if_neg (by rcases hn with hx | hx | hx <;> simp only [hx, Bool.false_and, Bool.and_false] <;> decide))

end

theorem mbxGo_free {s : State} (h : s.mgt.busy = false) : mbxGo s = { s with mgt.busy := true } :=
  if_neg (Bool.eq_false_iff.mp h)

theorem mbxGo_busy {s : State} (h : s.mgt.busy = true) : mbxGo s = count s .mgtMbxIgn := if_pos h

theorem requestReset_again {s : State} (h : s.flt.devReset = true) : requestReset s = s := if_pos h

theorem requestReset_early {s : State} (h : s.flt.devReset = false) (hr : isReady s = false) :
    requestReset s = { s with flt := { s.flt with devReset := true, resetSource := 2 } } :=
  (if_neg (Bool.eq_false_iff.mp h)).trans (if_neg (Bool.eq_false_iff.mp hr))

theorem requestReset_ready {s : State} (h : s.flt.devReset = false) (hr : isReady s = true) :
    requestReset s = startDeviceReset s (fun _ => false) 2 := (if_neg (Bool.eq_false_iff.mp h)).trans (if_pos hr)

/-- What a write of MGT_CTRL.DEV_RESET does: only management firmware's counts. -/
def devResetWrite (x : Access) (s : State) : State := if x.port = .mgt then requestReset s else s

/-! ### The trace's control (R380, R381) -/

section
variable {s : State} {p : Port} {b : Beat} {w : Nat}
  (hw : w = mergeBits (regGet s 0xe00000).toNat b.data (b.mask &&& 0xFFFF3FF1))
include hw

/-- EN going to 1 starts an empty ring. -/
theorem trCtrlWrite_taken
    (h : p = .mgt ∨ bitsOf w 31 16 = 0 ∨ (1 ≤ s.obs.dbgLevel ∧ (bitsOf w 31 16 &&& s.obs.dbgMask.toNat) = bitsOf w 31 16)) :
    trCtrlWrite s p b = { regSet s 0xe00000 (BitVec.ofNat 64 w) with
      obs.tail := if bitOf w 0 && !bitOf (regGet s 0xe00000).toNat 0 then
        regFld (regSet s 0xe00000 (BitVec.ofNat 64 w)) 0xe00018 23 0 else s.obs.tail,
      obs.phase := (bitOf w 0 && !bitOf (regGet s 0xe00000).toNat 0) || s.obs.phase } := by
  subst hw
  refine (if_neg (by rcases h with h | h | h <;> simp [h])).trans ?_
  cases hen : bitOf (mergeBits (regGet s 0xe00000).toNat b.data (b.mask &&& 0xFFFF3FF1)) 0 &&
      !bitOf (regGet s 0xe00000).toNat 0 with
  | true => rfl
  | false => rfl

theorem trCtrlWrite_ignored (hp : p ≠ .mgt) (h0 : bitsOf w 31 16 ≠ 0)
    (hn : ¬(1 ≤ s.obs.dbgLevel ∧ (bitsOf w 31 16 &&& s.obs.dbgMask.toNat) = bitsOf w 31 16)) :
    trCtrlWrite s p b = count s .obsCfgIgn := by
  subst hw
  exact if_pos (by simp [hp, h0, hn])

end

/-! ### Partition pages (R375) -/

theorem pageClear_eq {s : State} {p : Nat} {live : Tab W64}
    (h : live = (List.range 32).foldl (fun t i => t.put (32 * p + i) 0) s.obs.live) :
    pageClear s p = pageSnap { s with obs.live := live } p := by
  unfold pageClear
  rw [← h]

/-! ### The statement -/

/-- Settles O12: each write of such a register by what its party and the block's state allow. -/
theorem stopInjectAndObserve : Obligations.StopInjectAndObserve := by
  refine ⟨fun u x hp => ⟨fun hk hb => ⟨fun hr => ?early, fun hr h => ?ignored, fun hr hm h ht => ?stopping⟩,
      fun hk => ⟨fun h => ?resumeIgnored, fun hm h => ?resumes, fun hm h hheld ht hl hf hw hd hc hrt v hv ha hi => ?running⟩⟩,
    fun u x hp => ⟨fun hk b w hb hw => ⟨fun h => ?disarms, fun h h1 h2 h3 => ⟨fun hi hm ht => ?arms, fun hn => ?injIgnored⟩⟩,
      fun hk => ⟨fun h => ?go, fun h => ?goBusy⟩,
      fun hk => ⟨fun h => ?noReset, fun hm h hr => ?earlyReset, fun hm h hr => ?reset⟩⟩,
    fun u x hp => ⟨fun p hk => ?snap, fun p hk live hlive => ?clear, fun hk b w hb hw => ⟨fun h => ?trace,
      fun hm h0 hn => ?noTrace⟩⟩⟩
  case early =>
    exact becomes_writing (stopCtrl x) (count (halfUsed u x) .crbBootIgn) (fun _ => rfl) hp hk rfl
      ((stopCtrl_request hb _).trans (stopWrite_early hr)) rfl (.refl u)
  case ignored =>
    exact becomes_writing (stopCtrl x) (count (halfUsed u x) .fltStopIgn) (fun _ => rfl) hp hk rfl
      ((stopCtrl_request hb _).trans (stopWrite_ignored (s := halfUsed u x) hr h)) rfl (.refl u)
  case stopping =>
    exact becomes_writing (stopCtrl x) { halfUsed u x with flt := { u.flt with
        stop := .stopping, stopSource := if x.port = .mgt then 2 else 1, stopTs := u.ts, stoppedUnits := [] } }
          (fun _ => rfl) hp hk rfl
      ((stopCtrl_request hb _).trans (stopWrite_taken (s := halfUsed u x) hr hm h ht)) rfl (.refl u)
  case resumeIgnored =>
    exact becomes_writing (fun s => resumeWrite s x.port) (count (halfUsed u x) .fltStopIgn) (fun _ => rfl) hp hk rfl
      (resumeWrite_ignored (s := halfUsed u x) h) rfl (.refl u)
  case resumes =>
    exact ends_access (fun _ => rfl) hp hk ((writing_port u x (fun s => resumeWrite s x.port) hp).trans
      (congrArg (emit · _) (if_pos hm)))
  case running =>
    have hun := unstop_idle { halfUsed u x with flt.stop := .resuming } hl hf hw hd hc hrt ha hi
    have hres := (stopResume_stopped (s := halfUsed u x) h ht (by rw [hun]; exact hheld)).trans hun
    subst hv
    exact becomes_writing (fun s => resumeWrite s x.port) _ (fun _ => rfl) hp hk rfl
      ((if_pos hm : resumeWrite (halfUsed u x) x.port = stopResume (halfUsed u x)).trans hres) rfl (.refl u)
  case disarms =>
    subst hb
    exact becomes_writing (fun t => injWrite t x.port (beatOf u x)) (regSet (halfUsed u x) 0xc00100 _) (fun _ => rfl) hp hk rfl
      (injWrite_disarms (s := halfUsed u x) hw h) rfl (.refl u)
  case arms =>
    subst hb
    exact becomes_writing (fun t => injWrite t x.port (beatOf u x)) (regSet (halfUsed u x) 0xc00100 _) (fun _ => rfl) hp hk rfl
      (injWrite_arms (s := halfUsed u x) hw h h1 h2 h3 hi hm ht) rfl (.refl u)
  case injIgnored =>
    subst hb
    exact becomes_writing (fun t => injWrite t x.port (beatOf u x)) (count (halfUsed u x) .fltInjIgn) (fun _ => rfl) hp hk rfl
      (injWrite_ignored (s := halfUsed u x) hw h hn) rfl (.refl u)
  case go =>
    exact becomes_writing mbxGo { halfUsed u x with mgt.busy := true } (fun _ => rfl) hp hk rfl
      (mbxGo_free (s := halfUsed u x) h) rfl (.refl u)
  case goBusy =>
    exact becomes_writing mbxGo (count (halfUsed u x) .mgtMbxIgn) (fun _ => rfl) hp hk rfl
      (mbxGo_busy (s := halfUsed u x) h) rfl (.refl u)
  case noReset =>
    refine becomes_writing (devResetWrite x) (halfUsed u x) (fun _ => rfl) hp hk rfl ?_ rfl (.refl u)
    by_cases hm : x.port = .mgt
    · exact (if_pos hm).trans (requestReset_again (s := halfUsed u x) (h.resolve_left (not_not_intro hm)))
    · exact if_neg hm
  case earlyReset =>
    exact becomes_writing (devResetWrite x) { halfUsed u x with flt := { u.flt with devReset := true, resetSource := 2 } }
      (fun _ => rfl) hp hk rfl ((if_pos hm).trans (requestReset_early (s := halfUsed u x) h hr)) rfl (.refl u)
  case reset =>
    exact ends_access (fun _ => rfl) hp hk ((writing_port u x (devResetWrite x) hp).trans
      (congrArg (emit · _) ((if_pos hm).trans (requestReset_ready (s := halfUsed u x) h hr))))
  case snap =>
    exact becomes_writing (fun s => pageSnap s p) (pageSnap (halfUsed u x) p) (fun _ => rfl) hp hk rfl rfl rfl (.refl u)
  case clear =>
    exact becomes_writing (fun s => pageClear s p) (pageSnap { halfUsed u x with obs.live := live } p) (fun _ => rfl) hp hk rfl
      (pageClear_eq (s := halfUsed u x) hlive) rfl (.refl u)
  case trace =>
    subst hb
    exact becomes_writing (fun t => trCtrlWrite t x.port (beatOf u x)) _ (fun _ => rfl) hp hk rfl
      (trCtrlWrite_taken (s := halfUsed u x) hw h) rfl (.refl u)
  case noTrace =>
    subst hb
    exact becomes_writing (fun t => trCtrlWrite t x.port (beatOf u x)) (count (halfUsed u x) .obsCfgIgn) (fun _ => rfl) hp hk rfl
      (trCtrlWrite_ignored (s := halfUsed u x) hw hm h0 hn) rfl (.refl u)

end Sys2Proof.Machine
end

section
/-!
PROOFS. The Fault Controller: recording a fault, what it starts, the order in which faults are taken, the end of a discard and
aborts; with them the statement on faults is settled.
-/

namespace Sys2Proof.Machine

open Sys2Proof

/-! ### Recording (R328, R329) -/

/-- Fault `f` is the last one and stands in the log, whose oldest record it replaces where it is full. -/
def faultLogged (s : State) (f : FaultRec) : State :=
  if s.flt.log.length < 64 then { s with flt := { s.flt with last := f, log := s.flt.log ++ [f] } }
  else count { s with flt := { s.flt with last := f, log := s.flt.log.tail ++ [f] } } .fltLogLost

theorem recordFault_c {u : State} {f : FaultRec} (h : f.cls = .c) : recordFault u f =
    count { faultLogged u f with flt.irqStat := (faultLogged u f).flt.irqStat ||| 1 } .fltC := by
  unfold recordFault
  rw [h]
  rfl

theorem recordFault_up {u : State} {f : FaultRec} (h : f.cls = .up) : recordFault u f =
    logRecord (pageCount (count { faultLogged u f with flt.irqStat := (faultLogged u f).flt.irqStat ||| 2 } .fltUp) f.part 12 1)
      0x0A f.id (faultWord f).toNat := by
  unfold recordFault
  rw [h]
  rfl

theorem recordFault_ud {u : State} {f : FaultRec} (h : f.cls = .ud) : recordFault u f =
    logRecord { faultLogged u f with flt.lastUd := f, crb.fault := f.id } 0x0A f.id (faultWord f).toNat := by
  unfold recordFault
  rw [h]
  rfl

/-- Of the log and the last fault, a class's own record changes nothing. -/
theorem recordFault_logged (u : State) (f : FaultRec) :
    (recordFault u f).flt.log = (faultLogged u f).flt.log ∧ (recordFault u f).flt.last = (faultLogged u f).flt.last := by
  cases h : f.cls with
  | c =>
    rw [recordFault_c h]
    exact ⟨rfl, rfl⟩
  | up =>
    rw [recordFault_up h]
    exact ⟨rfl, rfl⟩
  | ud =>
    rw [recordFault_ud h]
    exact ⟨rfl, rfl⟩

theorem recordFault_full {u : State} (f : FaultRec) (h : 64 ≤ u.flt.log.length) :
    (recordFault u f).flt.log = u.flt.log.tail ++ [f] ∧ (recordFault u f).flt.last = f := by
  obtain ⟨hlog, hlast⟩ := recordFault_logged u f
  have hfull : faultLogged u f = count { u with flt := { u.flt with last := f, log := u.flt.log.tail ++ [f] } } .fltLogLost :=
    if_neg (not_lt.mpr h)
  rw [hlog, hlast, hfull]
  exact ⟨rfl, rfl⟩

/-! ### What a fault starts (R330, R338, R348) -/

section
variable {u s : State} {f : FaultRec} (hs : s = recordFault u f)
include hs

theorem takeFault_c (h : f.cls = .c) : takeFault u f = s := by
  unfold takeFault
  rw [h, hs]

theorem takeFault_up (h : f.cls = .up) : takeFault u f =
    if !isReady s then s
    else if s.flt.devReset then s
    else if s.flt.stop ≠ .running then holdUp s f.part
    else if s.flt.discarding.look f.part then count s .fltMerge
    else startDiscard s f.part fun _ => false := by
  unfold takeFault
  rw [h, hs]

theorem takeFault_ud (h : f.cls = .ud) : takeFault u f =
    if !isReady s || s.flt.devReset then s
    else startDeviceReset s (fun q => (f.id == 0x0101 || f.id == 0x0102) && q == f.detail) 1 := by
  unfold takeFault
  rw [h, hs]

/-- A UP fault while the block is stopped is held. -/
theorem takeFault_held (h : f.cls = .up) (hr : isReady s = true) (hd : s.flt.devReset = false) (ht : s.flt.stop ≠ .running) :
    takeFault u f = holdUp s f.part :=
  (takeFault_up hs h).trans ((if_neg (by rw [hr]; decide)).trans ((if_neg (Bool.eq_false_iff.mp hd)).trans (if_pos ht)))

/-- A UP fault while the block runs starts its partition's discard, or joins it. -/
theorem takeFault_discards (h : f.cls = .up) (hr : isReady s = true) (hd : s.flt.devReset = false) (ht : s.flt.stop = .running) :
    takeFault u f = if s.flt.discarding.look f.part then count s .fltMerge else startDiscard s f.part fun _ => false :=
  (takeFault_up hs h).trans ((if_neg (by rw [hr]; decide)).trans ((if_neg (Bool.eq_false_iff.mp hd)).trans
    (if_neg (not_not_intro ht))))

end

/-! ### The order of faults (R329) -/

theorem foldl_insFault_perm (l acc : List FaultRec) : (l.foldl (fun a f => insFault f a) acc).Perm (l ++ acc) := by
  induction l generalizing acc with
  | nil => exact .refl acc
  | cons f l ih => exact (ih (insFault f acc)).trans (((insFault_perm f acc).append_left l).trans List.perm_middle)

theorem foldl_insFault_sorted (l : List FaultRec) {acc : List FaultRec} (h : acc.Pairwise fun f g => f.id ≤ g.id) :
    (l.foldl (fun a f => insFault f a) acc).Pairwise fun f g => f.id ≤ g.id := by
  induction l generalizing acc with
  | nil => exact h
  | cons f l ih => exact ih (insFault_sorted f acc h)

/-! ### Discards and aborts (R333–R336) -/

theorem discardEnd_done {u : State} {p : Nat}
    (hg : (u.grs.nodes.any fun e => e.2.kind == .graph && (e.2.hdr.lstate == .active || e.2.hdr.lstate == .draining) &&
      partOr0 u e.1 == p) = false)
    (hi : issuedOf u p = false) (hd : u.flt.devReset = false) (hs : u.flt.stop = .running) :
    discardEnd u p = { u with flt := { u.flt with discarding := u.flt.discarding.put p false } } :=
  if_neg (by rw [hg, hi, hd, hs]; decide)

theorem discardEnd_waits {u : State} {p : Nat}
    (h : (u.grs.nodes.any fun e => e.2.kind == .graph && (e.2.hdr.lstate == .active || e.2.hdr.lstate == .draining) &&
      partOr0 u e.1 == p) = true ∨ issuedOf u p = true ∨ u.flt.devReset = true ∨ u.flt.stop ≠ .running) : discardEnd u p = u :=
  if_pos (by simpa [or_assoc] using h)

/-- Merged returns are only sent. -/
theorem returnMerged_form (s : State) (a part n : Nat) (gen : BitVec 16) (l : List (Nat × Res)) :
    ∃ o, returnMerged s a part n gen l = { s with out := o } := by
  unfold returnMerged
  generalize List.range 16 = cores
  induction cores generalizing s with
  | nil => exact ⟨s.out, rfl⟩
  | cons k cores ih =>
    rw [List.foldl_cons]
    dsimp only
    split
    · exact ih s
    · exact ih (emit s _)

/-- An agent without what an abort of node `n` and generation `gen` takes from it at once: `idle` are its blocks that have not
started. -/
def abortedAgent (n : Nat) (gen : BitVec 16) (idle : List Block) (x : Agent) : Agent :=
  { x with
    tasks := x.tasks.filter fun t => !sameLaunch t.l n gen,
    blocks := (x.blocks.filter fun b => !((b.node == n && b.gen == gen) && !b.started)).map fun b =>
      if b.node == n && b.gen == gen then { b with aborted := true } else b,
    dnQ := x.dnQ.filter fun m => !idle.any fun b => isStart b.core b.tag m }

def agentAborted (v : State) (a n : Nat) (gen : BitVec 16) (idle : List Block) : State := updA v a (abortedAgent n gen idle)

/-- The charges of what had not started return, and the blocks that run are told. -/
theorem abortTask_eq {v s : State} {a n : Nat} {gen : BitVec 16} {idle : List Block} {fresh : List AgtTask}
    (hi : idle = ((agt v a).blocks.filter fun b => (b.node == n && b.gen == gen) && !b.started))
    (hf : fresh = ((agt v a).tasks.filter fun t => sameLaunch t.l n gen && !t.checked)) (hs : s = agentAborted v a n gen idle) :
    abortTask v a n gen =
      ((agt v a).blocks.filter fun b => (b.node == n && b.gen == gen) && b.started && !b.aborted).foldl
        (fun s b => dnSend s a (.abortBlock b.core b.tag))
        (returnMerged s a ((fresh.map (·.l.part) ++ idle.map (·.part)).headD 0) n gen
          (fresh.flatMap (fun t => launchCharge t.l) ++ idle.map fun b => (b.core, b.res))) := by
  have hfresh : fresh = ((agt v a).tasks.filter fun t => sameLaunch t.l n gen).filter fun t => !t.checked := by
    rw [hf, List.filter_filter]
    exact List.filter_congr fun t _ => Bool.and_comm _ _
  rw [hs, hfresh, hi]
  rfl

theorem abortFlit_eq {v : State} {a : Nat} (h : agtShut v a = false) (n : Nat) (gen : BitVec 16) :
    abortFlit v a n gen = abortLayer (abortTask v a n gen) a n gen := if_neg (Bool.eq_false_iff.mp h)

theorem abort_lands {u v : State} {a n : Nat} {gen : BitVec 16} (h : agtShut u a = false) (hl : Lands (isAbort a n gen) u v) :
    arrives u (!agtShut u a) (isAbort a n gen) (fun s => abortFlit s a n gen) = abortLayer (abortTask v a n gen) a n gen := by
  rw [h]
  exact (arrives_lands hl _).trans (abortFlit_eq (agtShut_lands h hl) n gen)

/-- An abort leaves the Reckoner of an agent whose blocks had not started as it was. -/
theorem rkn_returnMerged_agentAborted (v : State) (a part n : Nat) (gen : BitVec 16) (idle : List Block) (l : List (Nat × Res)) :
    rkn (returnMerged (agentAborted v a n gen idle) a part n gen l) a = rkn v a := by
  obtain ⟨o, ho⟩ := returnMerged_form (agentAborted v a n gen idle) a part n gen l
  rw [ho]
  exact (congrArg Agent.rkn (agt_updA_same v a (abortedAgent n gen idle)) :)

theorem keeps_returnMerged (s : State) (a part n : Nat) (gen : BitVec 16) (l : List (Nat × Res)) :
    Keeps s (returnMerged s a part n gen l) := by
  obtain ⟨o, ho⟩ := returnMerged_form s a part n gen l
  rw [ho]
  exact .refl s

theorem abortLayer_none {u : State} {a : Nat} (n : Nat) (gen : BitVec 16) (h : (rkn u a).launch = none) :
    abortLayer u a n gen = u := if_pos (.inl (by rw [h]; rfl))

/-- Where no block of the launch runs, the charges return and nothing else. -/
theorem abort_returns {v s : State} {a n : Nat} {gen : BitVec 16} {idle : List Block} {fresh : List AgtTask}
    (hi : idle = ((agt v a).blocks.filter fun b => (b.node == n && b.gen == gen) && !b.started))
    (hf : fresh = ((agt v a).tasks.filter fun t => sameLaunch t.l n gen && !t.checked)) (hs : s = agentAborted v a n gen idle)
    (hb : ((agt v a).blocks.any fun b => (b.node == n && b.gen == gen) && b.started && !b.aborted) = false)
    (hr : (rkn v a).launch = none) :
    abortLayer (abortTask v a n gen) a n gen =
      returnMerged s a ((fresh.map (·.l.part) ++ idle.map (·.part)).headD 0) n gen
        (fresh.flatMap (fun t => launchCharge t.l) ++ idle.map fun b => (b.core, b.res)) := by
  have hbusy : ((agt v a).blocks.filter fun b => (b.node == n && b.gen == gen) && b.started && !b.aborted) = [] :=
    filter_none (by simpa using hb)
  rw [abortTask_eq hi hf hs, hbusy, hs]
  exact abortLayer_none n gen ((congrArg Rkn.launch (rkn_returnMerged_agentAborted v a _ n gen idle _)).trans hr)

section
variable {u : State} {a n : Nat} {gen : BitVec 16} {l : Launch} (hl : (rkn u a).launch = some l)
include hl

/-- An agent whose Reckoner holds no layer of that node and generation ignores the abort. -/
theorem abortLayer_other (h : sameLaunch l n gen = false ∨ (rkn u a).st = .idle ∨ (rkn u a).st = .loading) :
    abortLayer u a n gen = u := by
  rcases h with h | h | h
  · exact if_pos (.inl (by simp [hl, h]))
  · exact if_pos (.inr (.inl h))
  · exact if_pos (.inr (.inr (.inr h)))

/-- A layer that runs stops: what has not left the agent is dropped, and its fabric requests become orphans. -/
theorem abortLayer_running {s : State} {unsent : List (Nat × Nat × Option Nat)} (hsame : sameLaunch l n gen = true)
    (hidle : (rkn u a).st ≠ .idle) (habort : (rkn u a).st ≠ .aborting) (hload : (rkn u a).st ≠ .loading)
    (hu : unsent = (agt u a).dnQ.filterMap engMsg)
    (hs : s = updR (updA (rknHaltNote u a) a fun x => { x with
        dnQ := x.dnQ.filter fun m => (engMsg m).isNone,
        eqUsed := unsent.foldl (fun t e => t.upd (4 * e.1 + e.2.1) (· - 1)) x.eqUsed }) a (fun r => { r with
      st := .aborting, ops := r.ops.filter (fun o => !unsent.any fun e => e.1 == o.core && e.2.2 == some o.tag), reqs := [],
      halt := none, writes := [], line := [], stepping := false })) :
    abortLayer u a n gen = orphan s fun w => match w with
      | .rkn a' _ => a' == a
      | _ => false := by
  subst hs hu
  exact if_neg (by simp [hl, hsame, hidle, habort, hload])

end

/-! ### The statement -/

/-- Settles O54: a fault by its class and the block's state, then discards and aborts. -/
theorem faultsTaken : Obligations.FaultsTaken := by
  refine ⟨fun u s f => ⟨fun hlen hs => ⟨fun h => ?c, fun h => ?up, fun h => ?ud⟩, recordFault_full f,
      fun hs => ⟨fun h => takeFault_c hs h, fun h hr => ?early, fun w h hr hd ht hw => ⟨fun hst => ?held, fun hst => ?heldCut⟩,
        fun h hr hd ht => ⟨fun hm => ?merged, fun hm => ?starts⟩, fun h hr hd => ?reset, fun h hn => ?noReset⟩⟩,
    fun l => ⟨?perm, ?sorted⟩,
    fun u a p n gen => ⟨fun hg hi hd hs => ?ended, fun h => ?waits, rfl,
      fun v mine idle fresh s hsh hl hmine hidle hfresh hs => ⟨?abort, fun hb hr => ?abortIdle⟩,
      abortLayer_none n gen, fun l hl h => abortLayer_other hl h, fun l s unsent hl hsame hi ha hld hu hs => ?layer⟩⟩
  case c =>
    have hlog : faultLogged u f = s := (if_pos hlen).trans hs.symm
    rw [recordFault_c h, hlog]
  case up =>
    have hlog : faultLogged u f = s := (if_pos hlen).trans hs.symm
    rw [recordFault_up h, hlog]
  case ud =>
    have hlog : faultLogged u f = s := (if_pos hlen).trans hs.symm
    rw [recordFault_ud h, hlog]
  case early => exact (takeFault_up hs h).trans (if_pos (by rw [hr]; rfl))
  case held =>
    subst hw
    exact (takeFault_held hs h hr hd ht).trans (if_neg hst)
  case heldCut =>
    subst hw
    exact (takeFault_held hs h hr hd ht).trans (if_pos hst)
  case merged => exact (takeFault_discards hs h hr hd ht).trans (if_pos hm)
  case starts => exact (takeFault_discards hs h hr hd ht).trans (if_neg (Bool.eq_false_iff.mp hm))
  case reset => exact (takeFault_ud hs h).trans (if_neg (by rw [hr, hd]; decide))
  case noReset => exact (takeFault_ud hs h).trans (if_pos (by rcases hn with hx | hx <;> simp [hx]))
  case perm => exact (foldl_insFault_perm l []).trans (by rw [List.append_nil])
  case sorted => exact foldl_insFault_sorted l List.Pairwise.nil
  case ended =>
    exact becomes_keeps _ _ _ u _ (fun _ => rfl) (fun _ => discardEnd_done hg hi hd hs) (.refl u)
  case waits => exact becomes_keeps _ _ _ u u (fun _ => rfl) (fun _ => discardEnd_waits h) (.refl u)
  case abort =>
    subst hmine
    obtain ⟨b, rfl⟩ := lands_form hl
    exact ends_act _ _ _ u _ (fun _ => rfl) fun _ =>
      (abort_lands hsh hl).trans (congrArg (abortLayer · a n gen) (abortTask_eq hidle hfresh hs))
  case abortIdle =>
    subst hmine
    obtain ⟨b, rfl⟩ := lands_form hl
    refine becomes_keeps _ _ _ u _ (fun _ => rfl)
      (fun _ => (abort_lands hsh hl).trans (abort_returns (v := { u with beam := b }) hidle hfresh hs hb hr)) ?_
    subst hs
    exact .trans (.refl u) (keeps_returnMerged (agentAborted { u with beam := b } a n gen idle) a _ n gen _)
  case layer => exact abortLayer_running hl hsame hi ha hld (hu.trans rfl) hs

end Sys2Proof.Machine
end

section
/-!
PROOFS. The end of a progress window and what it counts of a queue; with them the statement on progress windows is settled.
-/

namespace Sys2Proof.Machine

open Sys2Proof

/-! ### One queue (R341) -/

section
variable {u : State} (hi : regBit u 0xc00100 63 = false) (q : Nat)
include hi

theorem windowQueue_eq : windowQueue u q =
    if !windowCounts u q || progressed u q then { u with flt.stall := u.flt.stall.put q 0 }
    else
      (if min 255 (u.flt.stall.look q + 1) = max 1 (regFld u 0xc00040 39 32) then
        raise (count { u with flt.stall := u.flt.stall.put q (min 255 (u.flt.stall.look q + 1)) } .fltStallWin) 0x1101 .ud 0 q
      else count { u with flt.stall := u.flt.stall.put q (min 255 (u.flt.stall.look q + 1)) } .fltStallWin) := by
  have hinj : injArmed u 0x1101 (· == q) = false := by simp only [injArmed, hi, Bool.false_and]
  unfold windowQueue
  simp only [hinj, Bool.not_false, Bool.true_and, Bool.false_eq_true, if_false]
  rfl

theorem windowQueue_progressed (h : windowCounts u q = false ∨ progressed u q = true) :
    windowQueue u q = { u with flt := { u.flt with stall := u.flt.stall.put q 0 } } :=
  (windowQueue_eq hi q).trans (if_pos (by rcases h with h | h <;> simp [h]))

/-- A counted queue without progress has one more stalled window, and one more than LIMIT allows is its fault. -/
theorem windowQueue_stalled (hc : windowCounts u q = true) (hp : progressed u q = false) {s : State}
    (hs : s = count { u with flt := { u.flt with stall := u.flt.stall.put q (min 255 (u.flt.stall.look q + 1)) } } .fltStallWin) :
    windowQueue u q =
      if min 255 (u.flt.stall.look q + 1) = max 1 (regFld u 0xc00040 39 32) then raise s 0x1101 .ud 0 q else s := by
  subst hs
  exact (windowQueue_eq hi q).trans (if_neg (by rw [hc, hp]; decide))

end

/-! ### The window's end (R339, R341, R348) -/

/-- The window after its end: what progressed, and which cores were active, starts again. -/
def windowOver (s : State) : State :=
  { s with
    flt := { s.flt with progressed := [] }
    agt := s.agt.foldUpd fun _ a => { a with acts := [] } }

section
variable {u : State} (hs : u.flt.stop = .running) (hr : isReady u = true)
include hs hr

theorem windowEnd_counts (hc : Calm u) (he : regBit u 0xc00040 40 = true) : windowEnd u =
    windowOver (((u.queues.map (·.1)).filter isQueue).foldl
      (fun t q => windowQueue { t with flt := { t.flt with progressed := u.flt.progressed } } q) u) := by
  unfold windowEnd
  simp only [hs, hr, he, calm_inj hc]
  rfl

theorem windowEnd_off (he : regBit u 0xc00040 40 = false) : windowEnd u = windowOver u := by
  unfold windowEnd
  simp only [hs, hr, he]
  rfl

end

theorem windowEnd_none {u : State} (h : u.flt.stop ≠ .running ∨ isReady u = false) : windowEnd u = u :=
  if_pos (by rcases h with h | h <;> simp [h])

theorem keeps_windowOver (s : State) : Keeps s (windowOver s) := .refl s

/-! ### The statement -/

/-- Settles O55: by the stop, Ready and EN, then each queue by whether it is counted and progressed. -/
theorem progressWindows : Obligations.ProgressWindows := by
  intro u s q limit
  refine ⟨fun hstop hr he hs => ?counts, fun hstop hr he => ?off, fun h => ?none, fun hi hl => ⟨windowQueue_progressed hi q,
    fun hc hp hs => ⟨fun h => ?below, fun h => ?atLimit⟩⟩⟩
  case counts =>
    subst hs
    exact ends_act _ _ _ u _ (fun _ => rfl) fun hc => windowEnd_counts hstop hr hc he
  case off => exact becomes_keeps _ _ _ u _ (fun _ => rfl) (fun _ => windowEnd_off hstop hr he) (keeps_windowOver u)
  case none => exact becomes_keeps _ _ _ u u (fun _ => rfl) (fun _ => windowEnd_none h) (.refl u)
  case below => exact (windowQueue_stalled hi q hc hp hs).trans (if_neg (hl ▸ h))
  case atLimit => exact (windowQueue_stalled hi q hc hp hs).trans (if_pos (hl ▸ h))

end Sys2Proof.Machine
end

section
/-!
PROOFS. Messages to MGT and the management port; with them the statement on management messages is settled.
-/

namespace Sys2Proof.Machine

open Sys2Proof

/-! ### Requests (R357, R358) -/

/-- An unknown OP, and a reserved byte that is not zero, are BAD_OP. -/
theorem mgtServe_badOp {u : State} {src : MgtIn} {m : Bytes} (hm : mgtRequest u src = some m)
    (hsrc : ∀ t d, src = .i3c t d → t = 0x7F) (h : mgtOps.contains (m.fld 0 0 8) = false ∨ zeroBytes m 8 15 = false)
    (op : Nat) (f : State → Bytes → State) :
    mgtServe u src op f = mgtRespond u (isPortMsg src) (m.fld 0 0 8) (m.fld 4 0 32) 1 [] := by
  have hbad : (!mgtOps.contains (m.fld 0 0 8) || !zeroBytes m 8 15 ||
      (recovering u && !(decide (0x10 ≤ m.fld 0 0 8) && decide (m.fld 0 0 8 ≤ 0x13)))) = true := by
    rcases h with h | h <;> simp only [h, Bool.not_false, Bool.or_true, Bool.true_or]
  unfold mgtServe
  rw [hm]
  cases src with
  | mailbox => exact (if_neg Bool.false_ne_true).trans ((if_neg Bool.false_ne_true).trans (if_pos hbad))
  | i3c t d =>
    obtain rfl := hsrc t d rfl
    exact (if_neg (show ¬ ((0x7F : Nat) == 0) = true by decide)).trans
      ((if_neg (show ¬ ((0x7F : Nat) != 0x7F) = true by decide)).trans (if_pos hbad))

section
variable {u : State} {src : MgtIn} {m : Bytes} {op n : Nat} (ho : m.fld 0 0 8 = op) (p : Bytes)
include ho

theorem mgtRead_ok (h : m.fld 2 0 16 = n) : mgtRead u src m n p = mgtRespond u (isPortMsg src) op (m.fld 4 0 32) 0 p := by
  subst ho
  exact if_neg (not_not_intro h)

theorem mgtRead_badLen (h : m.fld 2 0 16 ≠ n) :
    mgtRead u src m n p = mgtRespond u (isPortMsg src) op (m.fld 4 0 32) 2 [] := by
  subst ho
  exact if_pos h

end

theorem resetMessage_ok {u : State} {src : MgtIn} {m : Bytes} (ho : m.fld 0 0 8 = 0x20) (h : m.fld 2 0 16 = 0) :
    resetMessage u src m = requestReset (mgtRespond u (isPortMsg src) 0x20 (m.fld 4 0 32) 0 []) :=
  (if_pos h).trans (congrArg requestReset (mgtRead_ok ho [] h))

theorem resetMessage_badLen {u : State} {src : MgtIn} {m : Bytes} (ho : m.fld 0 0 8 = 0x20) (h : m.fld 2 0 16 ≠ 0) :
    resetMessage u src m = mgtRespond u (isPortMsg src) 0x20 (m.fld 4 0 32) 2 [] :=
  (if_neg h).trans (mgtRead_badLen ho [] h)

/-! ### The management port (R359) -/

theorem entdaa_clocked {u : State} (hc : clocked u = true) (hst : u.crb.stage ≠ .reset) (addr : Nat) :
    entdaa u addr = emit { u with mgt := { u.mgt with i3cAddr := some (addr % 128) } } (.i3cIdent u.mgt.i3cPid 6 0) :=
  if_pos (by simp [hc, hst])

theorem entdaa_reset {u : State} (h : clocked u = false ∨ u.crb.stage = .reset) (addr : Nat) : entdaa u addr = u :=
  if_neg (by rcases h with h | h <;> simp [h])

section
variable {u : State} (hup : mctpUp u = true)
include hup

theorem mctpCtrl_up (inst code : Nat) (rest : List Nat) : mctpCtrl u inst code rest = emits u [.mctp
    (leBytes 1 0 ++ leBytes 1 (inst % 32) ++ leBytes 1 code ++ rest.flatMap (leBytes 1 ·)), .ibi] := if_pos hup

theorem setEid_set {op eid : Nat} (ho : op % 4 ≤ 1) (h8 : 8 ≤ eid % 256) (hff : eid % 256 ≠ 255) (inst : Nat) :
    setEid u inst op eid = mctpCtrl { u with mgt.eid := eid % 256 } inst 1 [0, 0, eid % 256, 0] :=
  (if_neg (by rw [hup]; decide)).trans (if_pos ⟨ho, h8, hff⟩)

theorem setEid_refused {op eid : Nat} (h : 2 ≤ op % 4 ∨ eid % 256 < 8 ∨ eid % 256 = 255) (inst : Nat) :
    setEid u inst op eid = mctpCtrl u inst 1 [2] :=
  (if_neg (by rw [hup]; decide)).trans (if_neg (by omega))

end

theorem getVersions_known {u : State} {type : Nat} (h : type = 0xFF ∨ type = 0 ∨ type = 0x7F) (inst : Nat) :
    getVersions u inst type = mctpCtrl u inst 4 ([0, 1] ++ (Bytes.slice (Config.mctpVersion type) 0 4).map (·.toNat)) := if_pos h

theorem getVersions_unknown {u : State} {type : Nat} (h1 : type ≠ 0xFF) (h2 : type ≠ 0) (h3 : type ≠ 0x7F) (inst : Nat) :
    getVersions u inst type = mctpCtrl u inst 4 [0x80] := if_neg (by omega)

/-! ### The statement -/

/-- Settles O57: a request by its OP and LEN, then the port's control messages. -/
theorem managementMessages : Obligations.ManagementMessages := by
  refine ⟨fun u src m hm hsrc => ⟨fun op f h => mgtServe_badOp hm hsrc h op f, fun hops hz hr => ⟨fun ho h => ?health,
    fun ho h => ?healthLen,
        fun ho h => ?sensors, fun ho h => ?sensorsLen, fun ho h => ?log, fun ho h => ?logLen, fun ho h => ?reset,
          fun ho h => ?resetLen⟩,
      fun op tag st p => rfl, fun op tag st p => rfl⟩,
    fun u addr inst op eid type => ⟨fun hc hst => ?address, fun h => ?noAddress, fun hup => ⟨fun ho h8 hff => ?eid,
      fun h => ?noEid, ?getEid,
      fun h => ?version, fun h1 h2 h3 => ?noVersion, ?types⟩⟩⟩
  case health =>
    exact becomes_keeps _ _ _ u _ (fun _ => rfl) (fun _ => (serve_eq u src m 1 _ hm hsrc hops hz hr ho).trans (mgtRead_ok ho _ h))
      (keeps_mgtRespond u _ _ _ _ _)
  case healthLen =>
    exact becomes_keeps _ _ _ u _ (fun _ => rfl)
      (fun _ => (serve_eq u src m 1 _ hm hsrc hops hz hr ho).trans (mgtRead_badLen ho _ h))
      (keeps_mgtRespond u _ _ _ _ _)
  case sensors =>
    exact becomes_keeps _ _ _ u _ (fun _ => rfl) (fun _ => (serve_eq u src m 2 _ hm hsrc hops hz hr ho).trans (mgtRead_ok ho _ h))
      (keeps_mgtRespond u _ _ _ _ _)
  case sensorsLen =>
    exact becomes_keeps _ _ _ u _ (fun _ => rfl)
      (fun _ => (serve_eq u src m 2 _ hm hsrc hops hz hr ho).trans (mgtRead_badLen ho _ h))
      (keeps_mgtRespond u _ _ _ _ _)
  case log =>
    exact becomes_keeps _ _ _ u _ (fun _ => rfl) (fun _ => (serve_eq u src m 3 _ hm hsrc hops hz hr ho).trans (mgtRead_ok ho _ h))
      (keeps_mgtRespond u _ _ _ _ _)
  case logLen =>
    exact becomes_keeps _ _ _ u _ (fun _ => rfl)
      (fun _ => (serve_eq u src m 3 _ hm hsrc hops hz hr ho).trans (mgtRead_badLen ho _ h))
      (keeps_mgtRespond u _ _ _ _ _)
  case reset =>
    exact ends_act _ _ _ u _ (fun _ => rfl) fun _ => (serve_eq u src m 0x20 _ hm hsrc hops hz hr ho).trans (resetMessage_ok ho h)
  case resetLen =>
    exact becomes_keeps _ _ _ u _ (fun _ => rfl)
      (fun _ => (serve_eq u src m 0x20 _ hm hsrc hops hz hr ho).trans (resetMessage_badLen ho h)) (keeps_mgtRespond u _ _ _ _ _)
  case address => exact becomes_keeps _ _ _ u _ (fun _ => rfl) (fun _ => entdaa_clocked hc hst addr) (.refl u)
  case noAddress => exact becomes_keeps _ _ _ u u (fun _ => rfl) (fun _ => entdaa_reset h addr) (.refl u)
  case eid =>
    exact becomes_keeps _ _ _ u _ (fun _ => rfl) 
      (fun _ => (setEid_set hup ho h8 hff inst).trans (mctpCtrl_up (u := { u with mgt.eid := eid % 256 }) hup inst 1 _)) (.refl u)
  case noEid =>
    exact becomes_keeps _ _ _ u _ (fun _ => rfl) (fun _ => (setEid_refused hup h inst).trans (mctpCtrl_up hup inst 1 _)) (.refl u)
  case getEid => exact becomes_keeps _ _ _ u _ (fun _ => rfl) (fun _ => mctpCtrl_up hup inst 2 _) (.refl u)
  case version =>
    exact becomes_keeps _ _ _ u _ (fun _ => rfl) (fun _ => (getVersions_known h inst).trans (mctpCtrl_up hup inst 4 _)) (.refl u)
  case noVersion =>
    exact becomes_keeps _ _ _ u _ (fun _ => rfl) (fun _ => (getVersions_unknown h1 h2 h3 inst).trans (mctpCtrl_up hup inst 4 _))
      (.refl u)
  case types => exact becomes_keeps _ _ _ u _ (fun _ => rfl) (fun _ => mctpCtrl_up hup inst 5 _) (.refl u)

end Sys2Proof.Machine
end

section
/-!
PROOFS. Sensors and power, the persistent log and the spares it calls for, and the millisecond and the trace's ring of OBS; with
them the statement on these is settled.
-/

namespace Sys2Proof.Machine

open Sys2Proof

/-! ### Voltage sensors and droops (R361) -/

/-- Sensor `k` of state `s` has read outside its tolerance: at first the time is noted, and after 1 ms it is a fault. -/
def voltOut (s : State) (k : Nat) : State :=
  match s.mgt.voltSince.look k with
  | none => { s with mgt.voltSince := s.mgt.voltSince.put k (some s.ts) }
  | some t =>
    if (s.ts - t).toNat < msQc ∨ !isReady s then s
    else raise { s with mgt.voltSince := s.mgt.voltSince.put k none } 0x1201 .ud 0 k

theorem voltOut_first {s : State} {k : Nat} (h : s.mgt.voltSince.look k = none) :
    voltOut s k = { s with mgt.voltSince := s.mgt.voltSince.put k (some s.ts) } := by
  unfold voltOut
  rw [h]

section
variable {s : State} {k : Nat} {t : W64} (h : s.mgt.voltSince.look k = some t)
include h

theorem voltOut_soon (ht : (s.ts - t).toNat < msQc) : voltOut s k = s := by
  unfold voltOut
  rw [h]
  exact if_pos (.inl ht)

theorem voltOut_late (ht : msQc ≤ (s.ts - t).toNat) (hr : isReady s = true) :
    voltOut s k = raise { s with mgt.voltSince := s.mgt.voltSince.put k none } 0x1201 .ud 0 k := by
  unfold voltOut
  rw [h]
  exact if_neg (not_or.mpr ⟨not_lt.mpr ht, by rw [hr]; decide⟩)

end

section
variable {u s : State} {k v raw : Nat} (hc : Calm u) (hk : k < 16) (hm : u.mgt.running = true)
  (hv : v = ((raw : Int) + signedBits 10 (u.crb.trims.look (32 + k))).toNat)
  (hs : s = { u with mgt := { u.mgt with volt := u.mgt.volt.put k v } })
include hc hk hm hv hs

theorem voltSample_eq : voltSample u k raw =
    if (railRange k).1 ≤ v ∧ v ≤ (railRange k).2 then { s with mgt.voltSince := s.mgt.voltSince.put k none } else voltOut s k := by
  subst hs hv
  unfold voltSample
  rw [if_neg (by simp [hm, hk])]
  simp only [calm_inj hc, Bool.false_eq_true, if_false]
  rfl

theorem voltSample_out (h : v < (railRange k).1 ∨ (railRange k).2 < v) : voltSample u k raw = voltOut s k :=
  (voltSample_eq hc hk hm hv hs).trans (if_neg (by omega))

end

/-! ### The cross-check, the metering and PMBus (R361, R366, R367, R368) -/

section
variable {u : State} (hm : u.mgt.running = true)
include hm

theorem crossCheck_running {s : State}
    (hs : s = (List.range 32).foldl (fun (t : State) i => { t with mgt := { t.mgt with
      cross := t.mgt.cross.put i (if lonely u i then t.mgt.cross.look i + 1 else 0) } }) u) :
    crossCheck u = ((List.range 32).filter fun i => decide (3 ≤ s.mgt.cross.look i) && !s.mgt.failed.look i).foldl
      (fun (t : State) i => { t with mgt := { t.mgt with
        failed := t.mgt.failed.put i true
        temp := t.mgt.temp.put i (((neighbours i).map s.mgt.temp.look).foldl max 0) } }) s := by
  unfold crossCheck
  rw [if_neg (by rw [hm]; decide), ← hs]

end

/-- The Hub sensors' samples change MGT alone. -/
theorem hubSamples_flt (hub : List Nat) (l : List Nat) (s : State) :
    (l.foldl (fun s i => hubSample s i (hub.getD i 0)) s).flt = s.flt := by
  induction l generalizing s with
  | nil => rfl
  | cons i l ih => exact ih _

theorem keeps_hubSamples (hub : List Nat) (l : List Nat) (s : State) :
    Keeps s (l.foldl (fun s i => hubSample s i (hub.getD i 0)) s) := .foldl l _ s fun _ _ => .refl _

section
variable {u w t : State} {hub : List Nat} (hw : w = (if u.mgt.rate < 8192 then count u .mgtCapAct else u))
  (ht : t = (List.range (min 16 hub.length)).foldl (fun s i => hubSample s i (hub.getD i 0)) w)
include hw ht

theorem powerTick_eq (hm : u.mgt.running = true) (ev : EnergyEv) : powerTick u ev hub =
    if t.flt.stop ≠ .running then { t with mgt.thermal := thermalOver t }
    else { t with
      mgt.est := 22 * watt + 625000000 * (hotTier t - 480) + evPower ev,
      mgt.rate := nextRate { t with mgt.est := 22 * watt + 625000000 * (hotTier t - 480) + evPower ev },
      mgt.thermal := thermalOver { t with mgt.est := 22 * watt + 625000000 * (hotTier t - 480) + evPower ev } } := by
  subst ht hw
  exact if_neg (by rw [hm]; decide)

theorem powerTick_flt : t.flt = u.flt := by
  rw [ht, hubSamples_flt, hw]
  split <;> rfl

theorem keeps_powerTick : Keeps u t := by
  have hk : Keeps u w := hw ▸ keeps_ite_count u _ _
  exact hk.trans (ht ▸ keeps_hubSamples hub _ w)

end

section
variable {u : State}

theorem nextRate_over (h : powerOver u = true) : nextRate u = max (u.mgt.rate - u.mgt.rate / 8) 64 := if_pos h

theorem nextRate_low (h : powerOver u = false) (hl : powerLow u = true) :
    nextRate u = min (u.mgt.rate + max (u.mgt.rate / 32) 64) 8192 :=
  (if_neg (Bool.eq_false_iff.mp h)).trans (if_pos hl)

theorem nextRate_held (h : powerOver u = false) (hl : powerLow u = false) : nextRate u = u.mgt.rate :=
  (if_neg (Bool.eq_false_iff.mp h)).trans (if_neg (Bool.eq_false_iff.mp hl))

end

section
variable {u s : State} {vin iin : Nat} {fails : List Nat} (hm : u.mgt.running = true) (hs : s = pmbReads u fails)
include hm hs

theorem pmbPoll_read (hl : pmbListed u 0 = true) (hf : fails.contains 0 = false) : pmbPoll u vin iin fails =
    { s with mgt := { s.mgt with
      vin := vin % 2 ^ 16
      iin := iin % 2 ^ 16
      busSince := if decide (vin < 3600) || decide (4800 < vin) then
        (match s.mgt.busSince with
          | none => some s.ts
          | some t => some t) else none } } := by
  subst hs
  exact (if_neg (by rw [hm]; decide)).trans (if_neg (by rw [hl, hf]; decide))

theorem pmbPoll_failed (h : pmbListed u 0 = false ∨ fails.contains 0 = true) : pmbPoll u vin iin fails = s := by
  subst hs
  exact (if_neg (by rw [hm]; decide)).trans (if_pos (by rcases h with h | h <;> simp only [h] <;> simp))

end

/-! ### The persistent log (R364, R365) -/

section
variable {u : State} {r : LogRec} {rest : List LogRec} (hq : u.mgt.logQ = r :: rest) (hm : u.mgt.running = true)
  (hh : headOpen u = true) (eraseOk : Bool)
include hq hm hh

theorem logAppend_open (ok : Bool) : logAppend u ok eraseOk =
    if !ok then { u with mgt.sectors := u.mgt.sectors.upd u.mgt.head fun x => { x with st := .retired } }
    else { count { u with mgt.log := u.mgt.log ++ [r], mgt.logQ := rest } .mgtLogWr with
      mgt.sectors := u.mgt.sectors.upd u.mgt.head fun x => { x with recs := x.recs + 1 } } := by
  unfold logAppend
  rw [hq]
  dsimp only
  rw [if_neg (by rw [hm]; decide), if_pos hh, if_neg (by rw [hh]; decide)]
  rfl

end

theorem logAppend_none {u : State} (h : u.mgt.logQ = [] ∨ u.mgt.running = false) (ok eraseOk : Bool) :
    logAppend u ok eraseOk = u := by
  unfold logAppend
  split
  · rfl
  · rename_i r rest hq
    have hm : u.mgt.running = false := h.resolve_left (by rw [hq]; exact List.cons_ne_nil r rest)
    exact if_pos (by rw [hm]; rfl)

theorem logCompact_none {u : State} (h : u.mgt.running = false ∨ u.mgt.moved < 16 ∨ u.flt.stop ≠ .running) :
    logCompact u = u := if_pos (h.imp_left fun hm => by rw [hm]; rfl)

/-- Compaction copies the live records forward; the sectors behind them are free. -/
theorem logCompact_copies {u s t v : State} {k : Nat} {taken old : List Nat} (hm : u.mgt.running = true) (h16 : 16 ≤ u.mgt.moved)
    (hstop : u.flt.stop = .running) (hk : k = (liveLog u).length / 1024 + 1)
    (hold : old = ((List.range 1022).map (· + 2)).filter (fun i => (u.mgt.sectors.look i).st == .journal))
    (hcopy : copyForward k u [] = (s, taken)) (hlen : taken.length = k)
    (ht : t = old.foldl (fun (s : State) i => { s with mgt := { s.mgt with
      sectors := s.mgt.sectors.upd i fun x => { x with st := .free, recs := 0 } } }) s)
    (hv : v = ((List.range k).zip taken).foldl (fun (s : State) (e : Nat × Nat) => { s with mgt := { s.mgt with
      sectors := s.mgt.sectors.upd e.2 fun x => { x with
        recs := if e.1 + 1 = k then (liveLog u).length % 1024 else 1024 } } }) t) :
    logCompact u = { v with mgt := { v.mgt with log := liveLog u, head := taken.getLastD v.mgt.head, moved := 0 } } := by
  unfold logCompact
  rw [if_neg (by simp [hm, hstop, h16]), ← hold]
  simp only [← hk, hcopy]
  rw [if_neg (by omega), ← ht, ← hv]

/-! ### Spares (R370) -/

section
variable {u : State} {l : Nat} (hl : (List.range 120).find? (vaultWorn u) = some l)
include hl

theorem vaultTrigger_found {t : Nat} (ht : (List.range 128).find? (fun v => (vault u v).role == .spare) = some t)
    (hm : u.mgt.running = true) (he : regBit u 0xd00038 16 = true) (hs : u.flt.stop = .running) (hr : isReady u = true) :
    vaultTrigger u = if (vspareStart u l t).2 then
      count (regSet (vspareStart u l t).1 0xa02000 (BitVec.ofNat 64 (l + t * 2 ^ 8 + 2 * 2 ^ 16))) .mgtSpareReq else u := by
  unfold vaultTrigger
  rw [hl, ht]
  exact if_neg (by simp [hm, he, hs, hr])

end

theorem vaultTrigger_none {u : State} (h : (List.range 120).find? (vaultWorn u) = none) : vaultTrigger u = u := by
  unfold vaultTrigger
  rw [h]

/-- The vaults that MGT picks fit a spare-in where none runs. -/
theorem spareFits_found {u : State} {l t : Nat} (hl : (List.range 120).find? (vaultWorn u) = some l)
    (ht : (List.range 128).find? (fun v => (vault u v).role == .spare) = some t) (hv : u.slt.vs = .idle ∨ u.slt.vs = .failed) :
    SpareFits u l t := by
  have hl' := List.mem_range.mp (List.mem_of_find?_eq_some hl)
  have ht' := List.mem_range.mp (List.mem_of_find?_eq_some ht)
  have hrole : ((vault u t).role == .spare) = true := List.find?_some (p := fun v => (vault u v).role == .spare) ht
  exact ⟨hv, by omega, ht', eq_of_beq hrole⟩

/-! ### Observability (R376, R377, R381, R385) -/

section
variable {u s a b : State} {x : Nat} (hr : isReady u = true) (hx : x = u.obs.energyFrac + u.mgt.est)
  (hs : s = countN { u with obs := { u.obs with energyFrac := x % 20000000 } } .obsEnergyUj (x / 20000000))
  (ha : a = (if 85 * 8 < hotTier s then count s .obsHot85Ms else s))
  (hb : b = (if thermalOver a then count a .obsHot95Ms else a))
include hr hx hs ha hb

theorem msTick_ready (evs : List EnergyEv) : msTick u evs =
    (List.range (min 16 evs.length)).foldl (fun s p => partEnergy s p (evs.getD p default)) (peak b) := by
  unfold msTick
  rw [if_neg (by rw [hr]; decide)]
  dsimp only at hs ⊢
  rw [← hx, ← hs, ← ha, ← hb]

end

theorem keeps_partEnergies (l : List Nat) (evs : List EnergyEv) (s : State) :
    Keeps s (l.foldl (fun s p => partEnergy s p (evs.getD p default)) s) := .foldl l _ s fun _ _ => .refl _

theorem keeps_peak (s : State) : Keeps s (peak s) := .refl s

section
variable {u : State} {r : TrRec} {rest : List TrRec} (hq : u.obs.buf = r :: rest) (hs : u.obs.stopped = false)
  (he : regBit u 0xe00000 0 = true)
include hq hs he

/-- The oldest buffered record goes to the ring while it has room. -/
theorem trWrite_eq {s : State}
    (hw : s = emit u (.chiWrite ((regGet u 0xe00008).toNat / 4096 * 4096 + 32 * u.obs.tail) (trBytes r u.obs.phase))) :
    trWrite u = if (u.obs.tail + 1) % trSize u == regFld u 0xe00018 23 0 then u
      else count { s with obs := { s.obs with
        buf := rest, tail := (u.obs.tail + 1) % trSize u,
        phase := if (u.obs.tail + 1) % trSize u = 0 then !u.obs.phase else u.obs.phase, writing := true } } .obsTrRec := by
  subst hw
  unfold trWrite
  rw [hq]
  simp only [hs, he, Bool.not_true, Bool.false_or]
  rfl

end

theorem trWrite_none {u : State} (h : u.obs.buf = [] ∨ u.obs.stopped = true ∨ regBit u 0xe00000 0 = false) : trWrite u = u := by
  unfold trWrite
  split
  · rfl
  · rename_i r rest hq
    have h' := h.resolve_left (by rw [hq]; exact List.cons_ne_nil r rest)
    exact if_pos (by rcases h' with h' | h' <;> simp [h'])

theorem trError_writing {u : State} (h : u.obs.writing = true) :
    trError u = { regSetFld (dropTrace u) 0xe00000 0 0 0 with obs.wrErr := true, obs.writing := false } :=
  if_neg (by rw [h]; decide)

theorem trError_none {u : State} (h : u.obs.writing = false) : trError u = u := if_pos (by rw [h]; rfl)

theorem keeps_trError (s : State) :
    Keeps s { regSetFld (dropTrace s) 0xe00000 0 0 0 with obs.wrErr := true, obs.writing := false } := .refl s

/-! ### The statement -/

/-- Settles O59: sensors and power, then the log and its spares, then the integrals and the ring. -/
theorem sensorsPowerAndLog : Obligations.SensorsPowerAndLog := by
  refine ⟨fun u s k v => ⟨fun raw hk hm hv hs => ⟨fun h1 h2 => ?inside, fun ho => ⟨fun h => ?first, fun t h ht => ?soon,
    fun t h ht hr => ?late⟩⟩,
      fun hs => ?droop, fun hm hs => ?cross, fun ev hub w t hm hw ht => ⟨fun hst hs => ?power, fun hst => ?powerStopped⟩,
      nextRate_over, nextRate_low, nextRate_held, fun vin iin fails hm hs => ⟨fun hl hf => ?poll, fun h => ?pollFailed⟩⟩,
    fun u s => ⟨fun r rest eraseOk hq hm hh => ⟨fun hs => ?written, ?failed⟩, fun ok eraseOk h => ?noRecord,
      fun k taken t v old hm h16 hst hk hold hcopy hlen ht hv => ?compact, fun h => ?noCompact,
      fun l t hl ht hm he hst hr => ⟨fun hv hs => ?spare, fun hv => ?noSpare⟩, fun h => ?noWorn⟩,
    fun u s => ⟨fun evs x a b hr hx hs ha hb => ?ms, fun p e x hx => ?energy,
      fun r rest next hq hst he hn => ⟨fun hroom hs => ?ring,
      fun hfull => ?ringFull⟩, fun h => ?noRing, fun hw hs => ?error, fun hw => ?noError⟩⟩
  case inside =>
    exact becomes_keeps _ _ _ u _ (fun _ => rfl) (fun hc => (voltSample_eq hc hk hm hv hs).trans (if_pos ⟨h1, h2⟩)) (hs ▸ .refl u)
  case first =>
    refine becomes_keeps _ _ _ u _ (fun _ => rfl) (fun hc => (voltSample_out hc hk hm hv hs ho).trans ?_) (hs ▸ .refl u)
    subst hs
    exact voltOut_first h
  case soon =>
    refine becomes_keeps _ _ _ u _ (fun _ => rfl) (fun hc => (voltSample_out hc hk hm hv hs ho).trans ?_) (hs ▸ .refl u)
    subst hs
    exact voltOut_soon h ht
  case late =>
    refine ends_act _ _ _ u _ (fun _ => rfl) fun hc => (voltSample_out hc hk hm hv hs ho).trans ?_
    subst hs
    exact voltOut_late h ht hr
  case droop =>
    subst hs
    exact becomes_keeps _ _ _ u _ (fun _ => rfl) (fun _ => rfl) (.refl u)
  case cross =>
    refine becomes_keeps _ _ _ u _ (fun _ => rfl) (fun _ => crossCheck_running hm hs) ?_
    have hk : Keeps u s := hs ▸ .foldl _ _ u fun _ _ => .refl _
    exact hk.trans (.foldl _ _ s fun _ _ => .refl _)
  case power =>
    subst hs
    exact becomes_keeps _ _ _ u _ (fun _ => rfl)
      (fun _ => (powerTick_eq hw ht hm ev).trans (if_neg (by rw [powerTick_flt hw ht]; exact not_not_intro hst)))
      ((keeps_powerTick hw ht).trans (keeps_mgt t _))
  case powerStopped =>
    exact becomes_keeps _ _ _ u _ (fun _ => rfl)
      (fun _ => (powerTick_eq hw ht hm ev).trans (if_pos (by rw [powerTick_flt hw ht]; exact hst)))
      ((keeps_powerTick hw ht).trans (keeps_mgt t _))
  case poll =>
    have hk : Keeps u s := hs ▸ keeps_pmbReads u fails
    exact becomes_keeps _ _ _ u _ (fun _ => rfl) (fun _ => pmbPoll_read hm hs hl hf) (hk.trans (.refl s))
  case pollFailed =>
    exact becomes_keeps _ _ _ u _ (fun _ => rfl) (fun _ => pmbPoll_failed hm hs h) (hs ▸ keeps_pmbReads u fails)
  case written =>
    subst hs
    exact becomes_keeps _ _ _ u _ (fun _ => rfl)
      (fun _ => (logAppend_open hq hm hh eraseOk true).trans (if_neg (by decide))) (.refl u)
  case failed =>
    exact becomes_keeps _ _ _ u _ (fun _ => rfl) (fun _ => (logAppend_open hq hm hh eraseOk false).trans (if_pos rfl)) (.refl u)
  case noRecord => exact becomes_keeps _ _ _ u u (fun _ => rfl) (fun _ => logAppend_none h ok eraseOk) (.refl u)
  case compact =>
    exact ends_act _ _ _ u _ (fun _ => rfl) fun _ => logCompact_copies hm h16 hst hk hold hcopy hlen ht hv
  case noCompact => exact becomes_keeps _ _ _ u u (fun _ => rfl) (fun _ => logCompact_none h) (.refl u)
  case spare =>
    have hfit := vspareStart_fits (spareFits_found hl ht hv)
    subst hs
    refine becomes_keeps _ _ _ u _ (fun _ => rfl) (fun _ => (vaultTrigger_found hl ht hm he hst hr).trans ?_) (.refl u)
    rw [hfit]
    rfl
  case noSpare =>
    have hbusy : ¬ SpareFits u l t := by
      rintro ⟨hidle, -⟩
      rcases hv with h | h | h <;> simp [h] at hidle
    refine becomes_keeps _ _ _ u u (fun _ => rfl) (fun _ => (vaultTrigger_found hl ht hm he hst hr).trans ?_) (.refl u)
    rw [vspareStart_unfit hbusy]
    rfl
  case noWorn => exact becomes_keeps _ _ _ u u (fun _ => rfl) (fun _ => vaultTrigger_none h) (.refl u)
  case ms =>
    have hks : Keeps u s := hs ▸ .refl u
    have hka : Keeps u a := hks.trans (ha ▸ keeps_ite_count s _ _)
    have hkb : Keeps u b := hka.trans (hb ▸ keeps_ite_count a _ _)
    exact becomes_keeps _ _ _ u _ (fun _ => rfl) (fun _ => msTick_ready hr hx hs ha hb evs)
      ((hkb.trans (keeps_peak b)).trans (keeps_partEnergies _ evs _))
  case energy =>
    subst hx
    rfl
  case ring =>
    subst hn
    refine becomes_keeps _ _ _ u _ (fun _ => rfl) (fun _ => (trWrite_eq hq hst he hs).trans (if_neg ?_)) (hs ▸ .refl u)
    simpa using hroom
  case ringFull =>
    subst hn
    exact becomes_keeps _ _ _ u u (fun _ => rfl)
      (fun _ => (trWrite_eq hq hst he rfl).trans (if_pos (by simpa using hfull))) (.refl u)
  case noRing => exact becomes_keeps _ _ _ u u (fun _ => rfl) (fun _ => trWrite_none h) (.refl u)
  case error =>
    subst hs
    exact becomes_keeps _ _ _ u _ (fun _ => rfl) (fun _ => trError_writing hw) (keeps_trError u)
  case noError => exact becomes_keeps _ _ _ u u (fun _ => rfl) (fun _ => trError_none hw) (.refl u)

end Sys2Proof.Machine
end

section
/-!
PROOFS. Test access: the TAP with its debug interface, and the wrapper; with them the statement on test access is settled.
-/

namespace Sys2Proof.Machine

open Sys2Proof

/-! ### Which debug accesses are allowed (R379, R401) -/

theorem dbgAllowed_off {u : State} (h : u.obs.dbgLevel = 0) (a : Nat) (wr : Bool) : dbgAllowed u a wr = false := by
  unfold dbgAllowed
  simp [h]

theorem dbgAllowed_early {u : State} (h : isReady u = false) (a : Nat) (wr : Bool) : dbgAllowed u a wr = false := by
  unfold dbgAllowed
  rw [h]
  rfl

theorem dbgAllowed_readOnly {u : State} (h : u.obs.dbgLevel = 1) (a : Nat) : dbgAllowed u a true = false := by
  unfold dbgAllowed
  simp [h]

theorem dbgAllowed_full {u : State} (hr : isReady u = true) (h : u.obs.dbgLevel = 2) (hm : u.obs.dbgMask = 0xFFFF) (a : Nat) :
    dbgAllowed u a true = true := by
  unfold dbgAllowed
  simp [hr, h, hm]

theorem dbgAllowed_page {u : State} {a p : Nat} (hr : isReady u = true) (h : u.obs.dbgLevel = 1) (hp : pagePart a = some p)
    (hm : u.obs.dbgMask.getLsbD p = true) : dbgAllowed u a false = true := by
  unfold dbgAllowed
  rw [hp]
  simp [hr, h, hm]

/-- The debug interface reaches into a Reckoner in DEBUG of a partition at level full only. -/
theorem dbgPlace_debug {u : State} {x : Access} {a : Nat} {p : Config.RknPlace} (h : dbgPlace u x = some (a, p)) :
    (rkn u a).st = .debug ∧ debugFull u (rknPart u a) = true := by
  unfold dbgPlace at h
  dsimp only at h
  split at h
  · rename_i hc
    obtain ⟨q, -, hq⟩ := Option.map_eq_some_iff.mp h
    obtain ⟨rfl, -⟩ := Prod.mk.inj hq
    simp only [Bool.and_eq_true] at hc
    obtain ⟨⟨⟨-, hst⟩, hfull⟩, -⟩ := hc
    exact ⟨eq_of_beq hst, hfull⟩
  · exact absurd h (Option.some_ne_none _).symm

/-! ### Debug accesses (R138, R401) -/

theorem keeps_rknPoke (s : State) (a : Nat) (v : W64) (p : Config.RknPlace) : Keeps s (rknPoke s a v p) := by
  unfold rknPoke
  split
  · exact keeps_setS s a _ v
  all_goals exact keeps_updR s a _

/-- The scan itself does not change what an access reaches. -/
theorem dbgPlace_scanned {u s : State} (hs : s = tapScan u 0x10 96 u.test.dbg.toNat) (x : Access) :
    dbgPlace s x = dbgPlace u x := hs ▸ rfl

/-- Nothing that waits stands in the test access port. -/
theorem keeps_test (s : State) (x : Test) : Keeps s { s with test := x } := .refl s

theorem dbgRkn_write {s : State} {x : Access} {a : Nat} {p : Config.RknPlace} {v : W64} (hw : x.write = true)
    (hv : v = (if x.strb = 0xFF then x.data
      else BitVec.ofNat 64 ((rknPeek s a p).toNat / 2 ^ 32 * 2 ^ 32 + x.data.toNat % 2 ^ 32))) (w : BitVec 96) :
    dbgRkn s w x a p = { rknPoke s a v p with test.dbg := dbgCapture w 0 none } := by
  unfold dbgRkn
  dsimp only
  rw [← hv, if_pos hw]

section
variable {u s : State} {w : BitVec 96} {x : Access} (hx : x = dbgBeat w)
  (hs : s = tapScan u 0x10 96 u.test.dbg.toNat)
include hx hs

theorem dbgAccess_register (hp : dbgPlace u x = none) : dbgAccess u w =
    if !dbgAllowed u x.addr.toNat x.write then { count s .obsUnpriv with test.dbg := dbgCapture w 1 none }
    else { onAny s x with test.dbg := dbgCapture w 0 (if x.write then none else some (dbgRead s x)) } := by
  have hallowed : dbgAllowed s = dbgAllowed u := hs ▸ rfl
  unfold dbgAccess
  rw [← hs, ← hx]
  dsimp only
  rw [(dbgPlace_scanned hs x).trans hp, hallowed]

theorem dbgAccess_reckoner {a : Nat} {p : Config.RknPlace} (hp : dbgPlace u x = some (a, p)) :
    dbgAccess u w = dbgRkn s w x a p := by
  unfold dbgAccess
  rw [← hs, ← hx]
  dsimp only
  rw [(dbgPlace_scanned hs x).trans hp]

end

/-! ### The wrapper (R402) -/

theorem keeps_sampleTest (u : State) (tm : Bool) : Keeps u (sampleTest u tm) := .ite (.refl u) (.refl u)

section
variable {u s : State} {tm : Bool} (hs : s = sampleTest u tm) (wir : Nat) (f : State → State)
include hs

theorem wsTest_on (h : s.test.testMode = true) : wsTest u tm wir f = f { s with test.wir := wir } := by
  subst hs
  exact if_pos h

theorem wsTest_off (h : s.test.testMode = false) : wsTest u tm wir f = wsBypass s wir := by
  subst hs
  exact if_neg (Bool.eq_false_iff.mp h)

end

theorem slateBist_on {u s : State} {tm : Bool} {res : List BistRes} {r : Tab BistRes} (hs : s = sampleTest u tm)
    (h : s.test.testMode = true) (hr : r = (List.range 128).foldl (fun (t : Tab BistRes) v => t.put v (res.getD v default)) []) :
    slateBist u tm res = emit { s with test := { s.test with wir := 5, bist := r } } (.dr 2048 (bistWord r)) := by
  unfold slateBist
  rw [wsTest_on hs 5 _ h, ← hr]

/-! ### The statement -/

/-- Settles O60: a scan by its instruction and what it reaches, then the wrapper's instructions by TEST_MODE. -/
theorem testAccess : Obligations.TestAccess := by
  refine ⟨fun u s w x hx => ⟨fun hs => ?idcode, fun hs => ?bypass, fun hs hp => ⟨fun h t ht => ?denied, fun h hw t ht => ?write,
        fun h hw t ht => ?read⟩, fun hs a p hp => ⟨fun hw => ?peek, fun hw v t hv ht => ?poke⟩, fun a p hp => dbgPlace_debug hp,
      fun a wr h => dbgAllowed_off h a wr, fun a wr h => dbgAllowed_early h a wr, fun a h => dbgAllowed_readOnly h a,
      fun a hr h hm => dbgAllowed_full hr h hm a, fun a p hr h hp hm => dbgAllowed_page hr h hp hm⟩,
    fun u s t tm data n rows res hs => ?wrapper⟩
  case idcode =>
    subst hs
    exact becomes_keeps _ _ _ u _ (fun _ => rfl) (fun _ => rfl) (.refl u)
  case bypass =>
    subst hs
    exact becomes_keeps _ _ _ u _ (fun _ => rfl) (fun _ => rfl) (.refl u)
  case denied =>
    subst ht
    exact becomes_keeps _ _ _ u _ (fun _ => rfl) (fun _ => (dbgAccess_register hx hs hp).trans (if_pos (by rw [h]; rfl)))
      (hs ▸ .refl u)
  case write =>
    subst ht
    refine ends_act _ _ _ u _ (fun _ => rfl) fun _ => (dbgAccess_register hx hs hp).trans ((if_neg (by rw [h]; decide)).trans ?_)
    rw [if_pos hw]
  case read =>
    subst ht
    refine ends_act _ _ _ u _ (fun _ => rfl) fun _ => (dbgAccess_register hx hs hp).trans ((if_neg (by rw [h]; decide)).trans ?_)
    rw [if_neg (Bool.eq_false_iff.mp hw)]
  case peek =>
    have hpeek : rknPeek s a p = rknPeek u a p := hs ▸ rfl
    refine becomes_keeps _ _ _ u _ (fun _ => rfl)
      (fun _ => (dbgAccess_reckoner hx hs hp).trans ((if_neg (Bool.eq_false_iff.mp hw)).trans ?_)) (hs ▸ .refl u)
    rw [hpeek]
  case poke =>
    have hpeek : rknPeek s a p = rknPeek u a p := hs ▸ rfl
    have hk : Keeps u s := hs ▸ .refl u
    rw [← hpeek] at hv
    subst ht
    exact becomes_keeps _ _ _ u _ (fun _ => rfl) (fun _ => (dbgAccess_reckoner hx hs hp).trans (dbgRkn_write hw hv w))
      ((hk.trans (keeps_rknPoke s a v p)).trans (keeps_test _ _))
  case wrapper =>
    have hs' : s = sampleTest u tm := hs
    have hk : Keeps u s := hs' ▸ keeps_sampleTest u tm
    refine ⟨fun ht => ?bypass, ?preload, fun hm => ⟨fun ht => ?extest, fun ht => ?intest, ?mbist, fun r hr ht => ?bist⟩,
      fun hm => ⟨fun ht => ?noExtest, fun ht => ?noIntest, fun ht => ?noMbist, fun ht => ?noBist⟩⟩
    case bypass =>
      subst ht
      exact becomes_keeps _ _ _ u _ (fun _ => rfl) (fun _ => congrArg (wsBypass · 0) hs'.symm) hk
    case preload =>
      exact becomes_keeps _ _ _ u _ (fun _ => rfl) (fun _ => congrArg (wsPreload · data) hs'.symm) hk
    case extest =>
      subst ht
      exact becomes_keeps _ _ _ u _ (fun _ => rfl) (fun _ => wsTest_on hs' 2 _ hm) hk
    case intest =>
      subst ht
      exact becomes_keeps _ _ _ u _ (fun _ => rfl) (fun _ => wsTest_on hs' 3 _ hm) hk
    case mbist => exact becomes_keeps _ _ _ u _ (fun _ => rfl) (fun _ => wsTest_on hs' 4 _ hm) hk
    case bist =>
      subst ht
      exact becomes_keeps _ _ _ u _ (fun _ => rfl) (fun _ => slateBist_on hs' hm hr) hk
    case noExtest =>
      subst ht
      exact becomes_keeps _ _ _ u _ (fun _ => rfl) (fun _ => wsTest_off hs' 2 _ hm) hk
    case noIntest =>
      subst ht
      exact becomes_keeps _ _ _ u _ (fun _ => rfl) (fun _ => wsTest_off hs' 3 _ hm) hk
    case noMbist =>
      subst ht
      exact becomes_keeps _ _ _ u _ (fun _ => rfl) (fun _ => wsTest_off hs' 4 _ hm) hk
    case noBist =>
      subst ht
      exact becomes_keeps _ _ _ u _ (fun _ => rfl) (fun _ => wsTest_off hs' 5 _ hm) hk

end Sys2Proof.Machine
end
